-- ==== Sys2Proof/Word.lean ====
section
/-! DEFINITION. The word types of the block: a word is 32 bits (R7), a byte 8 bits, and the two dies (R16). -/

namespace Sys2Proof

/-- A register or packet word (R7). -/
abbrev Word := BitVec 32

/-- A byte of memory or of a frame. -/
abbrev Byte := BitVec 8

/-- The two logic dies (R16). -/
inductive Die where
  | d0
  | d1
deriving DecidableEq, Repr

end Sys2Proof
end

