-- ==== Sys2Proof/Syntax.lean ====
section
/-! DEFINITION. The commands of the block: one constructor per row of spec/opcode_table.json, with the row's operands, and the
data the operands are made of. -/

namespace Sys2Proof

/-- Who issues an access (R14 "Who acts", R549): a supervisor pair, an engine by local index, a PCIe function of the
port of a die (H0 on Die 0, H1 on Die 1), H2 outside and inside a session, or H3. -/
inductive Requester where
  | sup (d : Die) (p : Fin 2)
  | ce (d : Die) (k : Fin 24)
  | pf0 (d : Die)
  | pf1 (d : Die)
  | h2
  | h2s
  | h3
deriving DecidableEq, Repr

/-- Width of an access in bits, with the byte enables of a narrow PCIe access (R541, R542). -/
inductive Width where
  | w32
  | w64
  | w16 (high : Bool)
  | w8 (lane : Fin 4)
  | odd
deriving DecidableEq, Repr

/-- Where an access is addressed: an internal address (R23), an offset of a PCIe BAR (R156), or a port
register of H3 (R167). -/
inductive AccAddr where
  | int (a : Nat)
  | bar0 (off : Nat)
  | bar2 (off : Nat)
  | bar4 (off : Nat)
  | h3 (n : Fin 16)
deriving DecidableEq, Repr

/-- One access of one line waiting at a bank (R50): requester port, pool address within the die, and either a read of `n`
bytes or a write with byte enables (an absent byte is not written). -/
structure PoolReq where
  port : Nat
  addr : Nat
  rd : Nat
  wr : List (Option Byte)
  isWr : Bool
deriving DecidableEq, Repr

/-- How a transmission on a CAN bus ends (R337): sent and acknowledged, arbitration lost, or an error. -/
inductive CanEnd where
  | sent
  | lost
  | failed
deriving DecidableEq, Repr

/-- The end of a transmission, with the transmitter loop delay that the controller measured on the frame, if it measured one (R330). -/
structure CanSent where
  how : CanEnd
  loop : Option Nat
deriving DecidableEq, Repr

/-- A port of a die (R144: where an in-band frame entered). -/
structure PortAt where
  die : Die
  port : Fin 14
deriving DecidableEq, Repr

/-- The two bits of a function's MSI-X Message Control that software writes (R180). -/
structure MsixCtl where
  enable : Bool
  fmask : Bool
deriving DecidableEq, Repr

/-- What the comparator of a supervisor pair finds (R427): a mismatch outside a test, an injected mismatch not reported, one reported
elsewhere, a rail code of 00 or 11, a parity error in a delay register. -/
inductive LockFinding where
  | mismatch
  | missed
  | elsewhere
  | rail
  | parity
deriving DecidableEq, Repr


/-- A command of the block: a register access, an operation of one of its protocols, an event on a pin or a port, the passing
of a bound, or one instruction of an engine, a supervisor or a stencil. -/
inductive Instr where
  /-- DUOLAY_TRANSFER_RX (R31): A transfer arrives on the Duolay link and is delivered in order, or its uncorrectable codeword is retransmitted. -/
  | duolayTransferRx (d : Die) (cls : Fin 4) (seq : Nat) (payload : List Byte) (corr : Nat) (uncorr : Bool)
  /-- LANE_FAIL (R34): A lane loses block lock or sees more than 16 uncorrectable codewords in 1 ms and is declared failed. -/
  | laneFail (d : Die) (lane : Fin 2) (retx : Nat)
  /-- LINK_ACK_TIMEOUT (R36): A sender receives no acknowledgement for 10 µs. -/
  | linkAckTimeout (d : Die) (retx : Nat)
  /-- LANE_RETURN (R39): A retrained lane holds block lock without uncorrectable codewords for 100 ms and is returned. -/
  | laneReturn (d : Die) (lane : Fin 2)
  /-- DUOLAY_LINK_TRAINED (R40): The link completes first training; Die 1 continues start-up from step 5 if it was held in Primer. -/
  | duolayLinkTrained
  /-- DIE1_TRAIN_TIMEOUT (R40): The link has not trained 50 ms after Die 1's reset release, so Die 1 stays in Primer and is reported absent. -/
  | die1TrainTimeout
  /-- POOL_ACCESS (R50): A requester's read or write of one line is granted by bank arbitration and performed. -/
  | poolAccess (d : Die) (bank : Fin 272) (reqs : List PoolReq) (flips : List (Nat × Bool))
  /-- ECC_WRITE_BACK (R58): A pending corrected word is written back in an idle cycle or forced in the 64th cycle. -/
  | eccWriteBack (d : Die) (bank : Fin 272)
  /-- SCRUB_LINE (R60): The scrubber reads one line of an idle bank and corrects single-bit errors. -/
  | scrubLine (d : Die) (bank : Fin 272)
  /-- SCRUB_FORCED (R60): A bank without an idle cycle for 65,536 pool cycles has one scrub forced. -/
  | scrubForced (d : Die) (bank : Fin 272)
  /-- BANK_RETIRE (R516): A bank is vacated, its device structures moved and then marked out of service. -/
  | bankRetire (d : Die) (bank : Fin 272)
  /-- RETENTION_ENTERED (R65): The group's VSRAM reaches 0.55 V, RET reads 1 and the retention command completes. -/
  | retentionEntered (d : Die) (g : Fin 17)
  /-- RETENTION_WAKE_DONE (R65): After at most 40 µs the group accepts requests again and the wake completes. -/
  | retentionWakeDone (d : Die) (g : Fin 17)
  /-- PRIORITY_SCRUB_PASS (R65): After a wake the scrubber makes a priority pass through the group. -/
  | priorityScrubPass (d : Die) (g : Fin 17)
  /-- SFQ_UNIT_IN (R69): A source unit arrives and is packed into the open word, pushing an entry when full. -/
  | sfqUnitIn (d : Die) (n : Fin 32) (bs : List Byte) (epoch : Nat) (endMark : Bool)
  /-- SFQ_IDLE_CLOSE (R70): No unit for SFQ_IDLE µs closes the open partial word and any open packet. -/
  | sfqIdleClose (d : Die) (n : Fin 32)
  /-- SFQ_FLUSH (R70): A FLUSH write closes the partial word. -/
  | sfqFlush (who : Requester) (d : Die) (n : Fin 32) (v : Word)
  /-- SFQ_CLOSE (R81): A CLOSE write closes the open packet and writes its length word. -/
  | sfqClose (who : Requester) (d : Die) (n : Fin 32) (v : Word)
  /-- SFQ_RESET (R85): A RESET write discards entries and packet, ends stalled reads and clears the pointers. -/
  | sfqReset (who : Requester) (d : Die) (n : Fin 32) (v : Word)
  /-- SFQ_CONFIG_WRITE (R78): A write of SFQ_CTRL's SRC, WIDTH, PKT, MODE or EN fields, refusing register mode with packet mode. -/
  | sfqConfigWrite (who : Requester) (d : Die) (n : Fin 32) (v : Word)
  /-- SFQ_READ_LO (R73): A read of SFQ_RDATA_LO removes the oldest entry and latches its high half and tag, or stalls when empty. -/
  | sfqReadLo (who : Requester) (d : Die) (n : Fin 32)
  /-- SFQ_READ_PAIR (R73): A 64-bit read of the pair removes one entry and returns all 64 bits. -/
  | sfqReadPair (who : Requester) (d : Die) (n : Fin 32)
  /-- SFQ_STALLED_READ_DONE (R74): An entry arrives for a stalled read, which completes with it. -/
  | sfqStalledReadDone (d : Die) (n : Fin 32)
  /-- SFQ_READ_TIMEOUT (R74): A stalled read waits SFQ_TIMEOUT µs and ends with an error, counting a timeout. -/
  | sfqReadTimeout (d : Die) (n : Fin 32)
  /-- SFQ_DRAIN_WRITE (R79): In drain mode the FIFO writes completed lines or closed words into its pool buffer and advances SFQ_WPTR. -/
  | sfqDrainWrite (d : Die) (n : Fin 32)
  /-- SFQ_RPTR_WRITE (R80): The owner writes SFQ_RPTR to free buffer space. -/
  | sfqRptrWrite (who : Requester) (d : Die) (n : Fin 32) (v : Word)
  /-- PLANNER_EVENT (R87): The planner takes the next event from its queue by rank and publishes its changes when done. -/
  | plannerEvent (d : Die)
  /-- FORECAST_TIMER (R123): An hour of device time passes and a forecast run is queued. -/
  | forecastTimer (d : Die)
  /-- PLACEMENT_LIVE (R103): An admitted or replaced instance goes LIVE at its first eligible cycle start. -/
  | placementLive (h : Nat)
  /-- FLOW_LIVE (R103): An admitted flow goes LIVE when its flow-table entries are installed. -/
  | flowLive (h : Nat)
  /-- RELEASE_DRAIN_START (R106): A released placement enters DRAINING at its next cycle start. -/
  | releaseDrainStart (h : Nat)
  /-- PLACEMENT_RELEASED (R105): A draining placement's last tag retires and it becomes RELEASED, returning its budgets. -/
  | placementReleased (h : Nat)
  /-- MIGRATION_CODE_LOADED (R109): Code is loaded into the migration target and its compare unit armed. -/
  | migrationCodeLoaded (h : Nat)
  /-- MIGRATION_CONTEXT_COPY (R109): After the live placement's report the committed context is copied to the target. -/
  | migrationContextCopy (h : Nat)
  /-- MIGRATION_COMPARE (R110): The outputs of the live and shadow cycles are compared by count and CRC-32C. -/
  | migrationCompare (h : Nat)
  /-- SHADOW_EXTEND (R111): A compare not complete 1 µs before the next cycle start makes the shadow run another cycle. -/
  | shadowExtend (h : Nat)
  /-- MIGRATION_ABANDON (R111): Four shadow cycles without a matching compare abandon the migration. -/
  | migrationAbandon (h : Nat)
  /-- MIGRATION_SWITCH_OVER (R112): At the cycle start after a match the target goes LIVE and the output epoch advances. -/
  | migrationSwitchOver (h : Nat)
  /-- FLOW_PATH_SWITCH (R113): A flow's entry is switched to its new path between two frames and new frames are held. -/
  | flowPathSwitch (h : Nat)
  /-- FLOW_HOLD_RELEASE (R113): The old path's last frame leaves and held frames of the flow are released. -/
  | flowHoldRelease (h : Nat)
  /-- PLC_QUERY_WINDOW (R124): A write of PLC_QRY_HANDLE loads a snapshot of the intent into the query registers. -/
  | plcQueryWindow (who : Requester) (d : Die) (v : Word)
  /-- MAILBOX_GO (R174): The owner writes MBX_GO, making the message busy until taken. -/
  | mailboxGo (who : Requester) (d : Die) (c : Fin 32) (v : Word)
  /-- MAILBOX_MESSAGE_TAKEN (R129): The interpreter takes a mailbox message's words into the packet in progress. -/
  | mailboxMessageTaken (d : Die) (c : Fin 32)
  /-- PACKET_INCOMPLETE_TIMEOUT (R129): A packet still incomplete 10 ms after its last message is discarded with BAD_LENGTH. -/
  | packetIncompleteTimeout (d : Die) (c : Fin 32)
  /-- INBAND_COMMAND_FRAME (R145): An in-band management frame reaches the interpreter, or is dropped silently if not allowed or over rate. -/
  | inbandCommandFrame (d : Die) (port : PortAt) (bytes : List Byte)
  /-- COMMAND_TIMEOUT (R139): An asynchronous command's bound expires and it completes with TIMEOUT. -/
  | commandTimeout (d : Die) (c : Fin 40) (seq : Nat)
  /-- DEV_HELLO (R135): Opens the channel in the current epoch and returns device identity and staging area. -/
  | devHello (d : Die)
  /-- DEV_STATUS (R147): Returns the dies' power states and link status. -/
  | devStatus (d : Die)
  /-- DEV_BARRIER (R143): Accepts a barrier over earlier commands and doorbells of either die. -/
  | devBarrier (d : Die)
  /-- BARRIER_COMPLETE (R143): The barrier's conditions are met and it completes with its acceptance time. -/
  | barrierComplete (d : Die)
  /-- DEV_IB_SET (R145): Sets an in-band allow entry, the in-band address or the in-band rate. -/
  | devIbSet (d : Die)
  /-- PWR_STATE (R497): Requests a power state transition of a die or the device. -/
  | pwrState (d : Die)
  /-- PWR_MARGIN (R511): Approves or declines the Health Manager's pending voltage proposal. -/
  | pwrMargin (d : Die)
  /-- POOL_RETAIN (R62): Puts bank groups into retention or wakes them. -/
  | poolRetain (d : Die)
  /-- PLC_ADMIT (R101): Submits intents for admission, or evaluates them dry. -/
  | plcAdmit (d : Die)
  /-- PLC_RELEASE (R106): Releases placements of the named handles. -/
  | plcRelease (d : Die)
  /-- PLC_MIGRATE (R109): Asks for a make-before-break migration of an instance. -/
  | plcMigrate (d : Die)
  /-- PLC_PIN (R114): Pins or unpins a placement and sets PIN_FAULT. -/
  | plcPin (d : Die)
  /-- PLC_REPLACE (R115): Re-places an intent held unplaced, as a fault replacement. -/
  | plcReplace (d : Die)
  /-- PLC_RESERVE (R95): Sets a die's reserve and engine guard. -/
  | plcReserve (d : Die)
  /-- PLC_QUERY (R147): Returns the query record of an intent. -/
  | plcQuery (d : Die)
  /-- PLC_LEDGER (R147): Returns capacity, reserve, standing, committed and free of one budget. -/
  | plcLedger (d : Die)
  /-- PLC_FORECAST (R122): Runs the headroom forecast and returns its result. -/
  | plcForecast (d : Die)
  /-- IMG_INSTALL (R390): Verifies and installs a signed personality image under a free number. -/
  | imgInstall (d : Die)
  /-- IMG_REMOVE (R150): Removes an image that no intent uses. -/
  | imgRemove (d : Die)
  /-- IMG_LIST (R147): Lists installed image numbers and versions. -/
  | imgList (d : Die)
  /-- IMG_UNDERCOAT (R149): Writes and commits the non-running Undercoat copy for the next reset. -/
  | imgUndercoat (d : Die)
  /-- PORT_ADMIT (R222): Sets a port administratively up or down. -/
  | portAdmit (d : Die)
  /-- PORT_MODE (R229): Changes a port's speed or uplink mode, taking it down first. -/
  | portMode (d : Die)
  /-- PORT_LANE (R229): Switches a field lane between QSGMII and SGMII. -/
  | portLane (d : Die)
  /-- PORT_COUNTERS (R247): Returns a port's MAC counters without clearing them. -/
  | portCounters (d : Die)
  /-- STREAM_GATE (R215): Opens or closes a stream identification entry's gate. -/
  | streamGate (d : Die)
  /-- PORT_SAMPLE (R221): Sets or stops ingress sampling of every Nth frame. -/
  | portSample (d : Die)
  /-- TIME_GET (R321): Returns device time through a supervisor snapshot. -/
  | timeGet (d : Die)
  /-- TIME_SET (R294): Steps device time of a die under host steering. -/
  | timeSet (d : Die)
  /-- TIME_ADJ (R294): Sets the rate and an offset to slew under host steering. -/
  | timeAdj (d : Die)
  /-- TIME_ROLE (R305): Sets a port's IEEE 1588 or 802.1AS role and domain. -/
  | timeRole (d : Die)
  /-- HLT_TEST (R514): Requests an in-service test of a unit. -/
  | hltTest (d : Die)
  /-- HLT_SERVICE (R570): Takes a unit out of service or returns it through a return test. -/
  | hltService (d : Die)
  /-- HLT_FREQ (R147): Returns a domain's certified and current frequency and pending proposal. -/
  | hltFreq (d : Die)
  /-- LOG_READ (R528): Returns up to 15 log entries from a given entry number. -/
  | logRead (d : Die)
  /-- LOG_MARK (R524): Stores a host mark entry in the log if the allowance permits. -/
  | logMark (d : Die)
  /-- LOG_LFR (R526): Returns the Log Fault Record. -/
  | logLfr (d : Die)
  /-- RST_DEVICE (R151): Replies, then begins a warm or cold device reset 100 µs later. -/
  | rstDevice (d : Die)
  /-- RST_UNIT (R490): Issues a per-function reset of one unit. -/
  | rstUnit (d : Die)
  /-- FIO_OUT (R152): Writes and optionally holds or releases field outputs. -/
  | fioOut (d : Die)
  /-- FIO_MODE (R470): Selects normal service or change-of-state mode of the field I/O. -/
  | fioMode (d : Die)
  /-- FIO_READ (R147): Returns field inputs, outputs and the common fault. -/
  | fioRead (d : Die)
  /-- RING_SCHED (R266): Loads a ring schedule record as pending. -/
  | ringSched (d : Die)
  /-- RING_CLAIM (R269): Starts a late-comer's claim of a spare entry. -/
  | ringClaim (d : Die)
  /-- RING_READMIT (R282): On the master, admits the held candidate of a dead address with a new epoch. -/
  | ringReadmit (d : Die)
  /-- RING_STATUS (R288): Returns the ring state registers. -/
  | ringStatus (d : Die)
  /-- MBX_CLAIM (R172): A write of CLAIM tries to take ownership of a channel. -/
  | mbxClaim (who : Requester) (d : Die) (c : Fin 32)
  /-- MBX_RELEASE (R176): A write of RELEASE frees the channel and discards undelivered words. -/
  | mbxRelease (who : Requester) (d : Die) (c : Fin 32)
  /-- MBX_OUT_ACK (R175): The owner acknowledges reply words, letting the device write the next part. -/
  | mbxOutAck (who : Requester) (d : Die) (c : Fin 32)
  /-- H2_KEY_COMMIT (R163): COMMIT stores the H2 pairing key in flash and ends any open session. -/
  | h2KeyCommit (who : Requester) (d : Die)
  /-- DBL_SET_WRITE (R182): A write of DBL_SET sets doorbell bits to test the interrupt path. -/
  | dblSetWrite (who : Requester) (d : Die) (r : Fin 4) (v : Word)
  /-- DOORBELL_REMOTE (R179): A device event of one die is set on the other die's host receivers within 3 µs. -/
  | doorbellRemote (d : Die) (r : Fin 4)
  /-- MSIX_UNMASK (R180): A mask clears and a held MSI-X message for a still-pending bit is sent. -/
  | msixUnmask (d : Die) (fn : Fin 2) (vec : Option (Fin 32)) (ctl : MsixCtl)
  /-- FUNCTION_LEVEL_RESET (R159): An FLR or PCIe link-down releases the function's channels and clears its mask and MSI-X table. -/
  | functionLevelReset (d : Die) (fn : Option (Fin 2))
  /-- PCIE_PERST (R560): PERST_N resets only the PCIe port, as a link-down. -/
  | pciePerst (d : Die)
  /-- HOST_POOL_TLP (R157): A BAR2 TLP is performed as pool accesses in address order, stopping at the first refusal. -/
  | hostPoolTlp (d : Die) (fn : Fin 2) (off : Nat) (rd : Nat) (wr : List (Option Byte)) (isWr : Bool)
  /-- REGISTER_WRITE (R546): A write to a register with no row of its own is checked in order and performed or refused. -/
  | registerWrite (who : Requester) (a : AccAddr) (w : Width) (v hi : Word)
  /-- COUNTER_READ_CLEAR (R10): A read of an RC field returns it and clears it in the same access. -/
  | counterReadClear (who : Requester) (a : AccAddr) (w : Width)
  /-- PAIR_LO_READ (R320): A 32-bit read of a pair's _LO register latches the high half into the requester's shadow. -/
  | pairLoRead (who : Requester) (a : AccAddr) (w : Width)
  /-- H2_WRITE (R161): An H2 WRITE frame performs up to 64 word writes in order. -/
  | h2Write (bs : List Byte) (waits : Nat)
  /-- H2_READ (R161): An H2 READ frame performs up to 64 word reads and returns them or NAK. -/
  | h2Read (bs : List Byte) (waits : Nat)
  /-- H2_PORTSTAT (R161): An H2 PORTSTAT frame returns the port status byte. -/
  | h2Portstat (bs : List Byte)
  /-- H2_OPEN (R164): OPEN exchanges nonces and returns the device's proof. -/
  | h2Open (bs : List Byte) (waits : Nat)
  /-- H2_CONFIRM (R164): CONFIRM with a matching tag opens the secure session. -/
  | h2Confirm (bs : List Byte) (waits : Nat)
  /-- H2_CLOSE (R166): CLOSE ends the secure session and releases its channels. -/
  | h2Close (bs : List Byte) (waits : Nat)
  /-- H2_SECURE (R165): A SECURE frame carries an encrypted inner read or write. -/
  | h2Secure (bs : List Byte) (waits : Nat)
  /-- H2_FRAME_ABANDON (R161): CS_N raised before the status byte abandons the frame. -/
  | h2FrameAbandon (bs : List Byte) (n : Nat)
  /-- H2_SESSION_TIMEOUT (R166): 10 s without a SECURE frame ends the session. -/
  | h2SessionTimeout
  /-- H3_DATA_L_READ (R167): A read of H3_DATA_L starts a 32-bit internal read and latches the high half. -/
  | h3DataLRead
  /-- H3_DATA_H_WRITE (R167): A write of H3_DATA_H starts a 32-bit internal write. -/
  | h3DataHWrite (v : BitVec 16)
  /-- FRAME_RX (R233): A MAC receives a frame, drops runts and filtered group frames and offers it to the switch. -/
  | frameRx (d : Die) (m : Fin 14) (bytes : List Byte) (pcsErr : Bool) (age : Nat)
  /-- PAUSE_FRAME_RX (R236): A received pause frame is counted and, if honoured, pauses TC 0 to 6. -/
  | pauseFrameRx (d : Die) (m : Fin 14) (quanta : Nat)
  /-- PAUSE_EXPIRE (R236): The pause time passes and the port resumes TC 0 to 6. -/
  | pauseExpire (d : Die) (m : Fin 14)
  /-- PAUSE_WATCHDOG_TRIP (R237): Continuous pause for MAC_PAUSE_WD ms ends the pause and sets WD_ACTIVE. -/
  | pauseWatchdogTrip (d : Die) (m : Fin 14)
  /-- PAUSE_WATCHDOG_CLEAR (R237): MAC_PAUSE_WD ms with no pause frame clears WD_ACTIVE. -/
  | pauseWatchdogClear (d : Die) (m : Fin 14)
  /-- PAUSE_REFRESH (R238): Half the last quanta time passes while below XON and another pause frame is sent. -/
  | pauseRefresh (d : Die) (m : Fin 14)
  /-- EGRESS_TRANSMIT (R210): At a transmission opportunity the port sends from its highest eligible queue. -/
  | egressTransmit (d : Die) (e : Fin 17)
  /-- RSQ_TIMEOUT (R205): A resequencer's oldest held frame waits SW_RSQ_TMO µs and gaps are skipped. -/
  | rsqTimeout (d : Die) (x : Fin 256)
  /-- ADDRESS_AGE_OUT (R192): A learned entry not refreshed for SW_AGE seconds is removed. -/
  | addressAgeOut (d : Die) (n : Fin 32768)
  /-- PG_BUCKET_RETURN (R203): A bucket idle for SW_PG_IDLE µs moves back to its returned member. -/
  | pgBucketReturn (d : Die) (g : Fin 8) (b : Fin 64)
  /-- RED_DECAY (R217): Every 1 µs an empty queue's average depth decays. -/
  | redDecay (d : Die) (e : Fin 17) (t : Fin 7)
  /-- CB_RECOVERY_RESET (R216): The 802.1CB recovery reset timeout expires. -/
  | cbRecoveryReset (d : Die) (n : Fin 4096)
  /-- GATE_ENTRY_ADVANCE (R212): A gate control list entry's interval ends and the next gate states apply. -/
  | gateEntryAdvance (d : Die) (j : Fin 14)
  /-- GCL_CHANGE (R213): A CHANGE write has the planner recheck deadlines and schedule or refuse the new list. -/
  | gclChange (who : Requester) (d : Die) (j : Fin 14) (v : Word)
  /-- GCL_ACTIVATE (R213): The new gate list bank becomes active at its first cycle start. -/
  | gclActivate (d : Die) (j : Fin 14)
  /-- SID_READ (R214): SW_SID_CMD READ loads a stream entry into the window. -/
  | sidRead (who : Requester) (d : Die)
  /-- SID_WRITE (R216): SW_SID_CMD WRITE stores the window into a stream entry, refusing duplicates and placed entries. -/
  | sidWrite (who : Requester) (d : Die)
  /-- VLAN_READ (R189): SW_VLAN_CMD READ loads a VLAN entry. -/
  | vlanRead (who : Requester) (d : Die)
  /-- VLAN_WRITE (R189): SW_VLAN_CMD WRITE stores a VLAN entry. -/
  | vlanWrite (who : Requester) (d : Die)
  /-- FLOW_TABLE_SELECT (R226): A write of SW_FT_IDX loads a flow-table entry into the window. -/
  | flowTableSelect (who : Requester) (d : Die) (v : Word)
  /-- MAC_LINK_UP (R244): The link-up condition holds for 1 ms and the port reports link up. -/
  | macLinkUp (d : Die) (m : Fin 14) (speed : Fin 7) (half : Bool)
  /-- MAC_LINK_LOSS (R245): The link-down condition is met; the port is flushed and placements see a port down. -/
  | macLinkLoss (d : Die) (m : Fin 14)
  /-- MDIO_GO (R246): A MAC_MDIO write with GO starts a PHY management transaction. -/
  | mdioGo (who : Requester) (d : Die) (v : Word)
  /-- MDIO_DONE (R246): The MDIO transaction ends, BUSY clears and read data appear. -/
  | mdioDone (d : Die) (data : Word)
  /-- CYCLE_FRAME_RX (R257): A Skim unit processes or forwards a passing cycle-frame segment. -/
  | cycleFrameRx (d : Die) (up : Bool) (bytes : List Byte) (age : Nat) (res : Nat)
  /-- SKIM_PREFETCH (R258): The Skim unit prefetches output window buffers from 2 µs before arrival. -/
  | skimPrefetch (d : Die)
  /-- MASTER_CYCLE_START (R268): The master sends the cycle's segments at the cycle start. -/
  | masterCycleStart (d : Die)
  /-- GUARD_HOLD_START (R263): GUARD_NS before a segment's expected arrival the uplink is held for cycle frames. -/
  | guardHoldStart (d : Die) (up : Bool)
  /-- PDELAY_EXCHANGE (R271): Every 125 ms the Skim unit sends a peer-delay request. -/
  | pdelayExchange (d : Die) (up : Bool)
  /-- PDELAY_MESSAGE_RX (R271): A peer-delay message is consumed and the link delay updated. -/
  | pdelayMessageRx (d : Die) (up : Bool) (delay : Option Nat)
  /-- RATE_WINDOW_UPDATE (R274): The rate window reaches RATE_MS and the rate is corrected. -/
  | rateWindowUpdate (d : Die)
  /-- REF_SUSPECT (R274): A reference discarded 64 times in a row is marked SUSPECT. -/
  | refSuspect (d : Die) (e : Fin 16)
  /-- RING_LOSS (R277): SELF_CYC cycles without a good segment 0 raise LOSS and self-fence the device. -/
  | ringLoss (d : Die)
  /-- ADDRESS_DEAD (R280): A presence tag missing for DEAD_CYC cycles makes the master declare the address dead. -/
  | addressDead (d : Die) (a : Fin 4096)
  /-- DUAL_MODE_EXIT (R285): 16 full returns on the up port end dual mode. -/
  | dualModeExit (d : Die)
  /-- STANDBY_TAKEOVER (R287): A standby master hearing no cycle frame for MTMO cycles becomes acting master. -/
  | standbyTakeover (d : Die)
  /-- COMPARE_FIRE (R310): An armed compare unit reaches its target, fires its destinations and advances. -/
  | compareFire (d : Die) (u : Fin 64)
  /-- TRIG_PULSE_END (R314): A pulse-mode trigger output's WIDTH ticks pass and it returns idle. -/
  | trigPulseEnd (d : Die) (n : Fin 16)
  /-- SLEW_DONE (R295): The slew remainder is consumed and slewing stops. -/
  | slewDone (d : Die)
  /-- TB_RATE_WRITE (R294): The steering owner writes TB_RATE, changing INC. -/
  | tbRateWrite (who : Requester) (d : Die) (v : Word)
  /-- TB_SLEW_WRITE (R295): A write adds a signed offset to the remaining slew. -/
  | tbSlewWrite (who : Requester) (d : Die) (v : Word)
  /-- TB_STEP_GO (R296): GO applies an absolute or relative step at the next tick and re-evaluates compare units. -/
  | tbStepGo (who : Requester) (d : Die) (v : Word)
  /-- HOLDOVER (R297): The steering owner writes nothing for TB_STEER_WD ms and time free-runs. -/
  | holdover (d : Die)
  /-- SLAVE_TIME_MESSAGE (R299): Die 1 receives Die 0's time and steps or slews to it. -/
  | slaveTimeMessage (off : Int) (ppb : Int)
  /-- SLAVE_LOCK (R300): 1,000 consecutive offsets within 2 ns set TIME_SLAVED. -/
  | slaveLock
  /-- CMP_TARGET_COMMIT (R308): A write of TB_CMP_TGT_HI commits the written target, arming anew if armed. -/
  | cmpTargetCommit (who : Requester) (d : Die) (u : Fin 64) (lo : Option Word) (hi : Word)
  /-- CMP_ARM (R309): ARM = 1 arms a disarmed unit with the written target or refuses it. -/
  | cmpArm (who : Requester) (d : Die) (u : Fin 64) (v : Word)
  /-- CMP_DISARM (R313): ARM = 0 disarms the unit. -/
  | cmpDisarm (who : Requester) (d : Die) (u : Fin 64) (v : Word)
  /-- TRIG_CONFIG (R315): A TB_TRIG_CFG write claims, configures or frees a trigger output. -/
  | trigConfig (who : Requester) (d : Die) (n : Fin 16) (v : Word)
  /-- CAPTURE_EDGE (R319): A filtered edge on a capture source loads the capture registers. -/
  | captureEdge (d : Die) (c : Fin 32) (rise : Bool)
  /-- CAPTURE_CONFIG (R318): A TB_CAP_CFG write changes source or edges and takes the current level as accepted. -/
  | captureConfig (who : Requester) (d : Die) (c : Fin 32) (v : Word)
  /-- CAPTURE_OWNER_READ (R319): The owner's read of TB_CAP_LO clears FULL. -/
  | captureOwnerRead (who : Requester) (d : Die) (c : Fin 32) (w : Width)
  /-- TB_SNAPSHOT (R321): TAKE latches device time and linear count for the requester. -/
  | tbSnapshot (who : Requester) (d : Die) (v : Word)
  /-- CAN_MODE_INIT (R328): MODE 0 takes the controller off the bus and ends pending requests. -/
  | canModeInit (who : Requester) (d : Die) (c : Fin 4)
  /-- CAN_MODE_NORMAL (R328): MODE 1 enters normal operation after bus integration. -/
  | canModeNormal (who : Requester) (d : Die) (c : Fin 4)
  /-- CAN_MODE_LISTEN (R328): MODE 2 enters receive-only operation after bus integration. -/
  | canModeListen (who : Requester) (d : Die) (c : Fin 4)
  /-- CAN_MODE_LOOPBACK (R328): MODE 3 loops transmissions back internally. -/
  | canModeLoopback (who : Requester) (d : Die) (c : Fin 4)
  /-- CAN_MODE_SLEEP (R348): MODE 4 puts the controller to sleep after the frame in progress. -/
  | canModeSleep (who : Requester) (d : Die) (c : Fin 4)
  /-- CAN_SLEEP_ENTER (R348): The frame in progress completes and the transceiver goes to standby. -/
  | canSleepEnter (d : Die) (c : Fin 4)
  /-- CAN_BUS_INTEGRATED (R328): 11 consecutive recessive bits let the controller take part on the bus. -/
  | canBusIntegrated (d : Die) (c : Fin 4)
  /-- CAN_SRST (R350): A per-function reset releases the bus, ends requests and flushes queues. -/
  | canSrst (who : Requester) (d : Die) (c : Fin 4)
  /-- CAN_RECOVER (R347): RECOVER starts bus-off recovery. -/
  | canRecover (who : Requester) (d : Die) (c : Fin 4)
  /-- CAN_BOFF_DELAY (R347): With AUTO_REC, BO_DELAY ms pass and recovery starts. -/
  | canBoffDelay (d : Die) (c : Fin 4)
  /-- CAN_RECOVERED (R347): 128 recessive sequences return the controller to error-active. -/
  | canRecovered (d : Die) (c : Fin 4)
  /-- CAN_TX_REQ (R335): REQ makes a transmit buffer pending. -/
  | canTxReq (who : Requester) (d : Die) (c : Fin 4) (n : Fin 3) (oneshot : Bool)
  /-- CAN_TX_ABORT (R338): ABORT ends a pending request whose frame has not started. -/
  | canTxAbort (who : Requester) (d : Die) (c : Fin 4) (n : Fin 3)
  /-- CAN_TX_FRAME_START (R336): Before a start of frame the controller offers the chosen pending buffer. -/
  | canTxFrameStart (d : Die) (c : Fin 4)
  /-- CAN_TX_COMPLETE (R337): A transmission completes and words 4 to 7 are written back. -/
  | canTxComplete (d : Die) (c : Fin 4) (e : CanSent)
  /-- CAN_FRAME_RX (R339): A valid frame is filtered and queued, sent to a stream FIFO or rejected. -/
  | canFrameRx (d : Die) (c : Fin 4) (frame : List Word) (age : Nat) (edge : Nat)
  /-- CAN_BUS_ERROR (R346): A bus error updates the error counters and states. -/
  | canBusError (d : Die) (c : Fin 4) (code : Fin 7) (dataPhase : Bool) (heavy : Bool) (edge : Nat)
  /-- CAN_ABR_START (R332): START begins automatic bit-rate detection in LISTEN. -/
  | canAbrStart (who : Requester) (d : Die) (c : Fin 4) (v : Word)
  /-- CAN_ABR_TIMEOUT (R332): TMO seconds pass without a rate found and detection fails. -/
  | canAbrTimeout (d : Die) (c : Fin 4)
  /-- CAN_WAKE (R349): A dominant edge or wake frame wakes the controller. -/
  | canWake (d : Die) (c : Fin 4) (frame : List Word) (age : Nat)
  /-- CAN_WINDOW_READ (R344): A read of the receive window locks the head frame, and reading LAST frees it. -/
  | canWindowRead (who : Requester) (d : Die) (c : Fin 4) (q : Fin 2) (w : Fin 520)
  /-- CAN_QUEUE_SKIP (R344): SKIP releases and advances the queue head. -/
  | canQueueSkip (who : Requester) (d : Die) (c : Fin 4) (q : Fin 2)
  /-- CAN_QUEUE_FLUSH (R344): FLUSH discards every frame of the queue. -/
  | canQueueFlush (who : Requester) (d : Die) (c : Fin 4) (q : Fin 2)
  /-- CAN_PARITY_ERROR (R351): A parity error on buffers or windows is a rank-1 unit fault. -/
  | canParityError (d : Die) (c : Fin 4)
  /-- CE_DISPATCH (R363): An idle engine dispatches the pending slot with the earliest deadline. -/
  | ceDispatch (d : Die) (k : Fin 24) (flips : List (Nat × Bool))
  /-- CE_CYCLE_ABORT (R365): The cycle count reaches LIMIT and the cycle is aborted. -/
  | ceCycleAbort (d : Die) (k : Fin 24) (n : Nat)
  /-- CE_LINE_FILL (R359): A window read miss's line arrives and the stalled read completes. -/
  | ceLineFill (d : Die) (k : Fin 24) (n : Nat)
  /-- CE_POSTED_WRITE (R359): A line leaves the posted write buffer as one pool write. -/
  | cePostedWrite (d : Die) (k : Fin 24) (n : Nat)
  /-- CE_WAIT_END (R371): A selected CE_EVT bit ends a WAIT stall. -/
  | ceWaitEnd (d : Die) (k : Fin 24) (n : Nat)
  /-- CYCLE_COMMIT (R400): After END's posted writes complete the header is written, the report sent and doorbells raised. -/
  | cycleCommit (d : Die) (k : Fin 24) (n : Nat)
  /-- CE_MOV (R371): Copies S1 to D. -/
  | ceMov (d : Die) (k : Fin 24)
  /-- CE_MOVZ (R371): Copies S1 zero-extended to a word D. -/
  | ceMovz (d : Die) (k : Fin 24)
  /-- CE_MOVS (R371): Copies S1 sign-extended to a word D. -/
  | ceMovs (d : Die) (k : Fin 24)
  /-- CE_ADR (R371): Stores the address or window offset of S1 in D. -/
  | ceAdr (d : Die) (k : Fin 24)
  /-- CE_CLR (R371): Clears D. -/
  | ceClr (d : Die) (k : Fin 24)
  /-- CE_XCH (R371): Swaps D and S1. -/
  | ceXch (d : Die) (k : Fin 24)
  /-- CE_MOVM (R372): Copies a block of bytes after checking both ranges. -/
  | ceMovm (d : Die) (k : Fin 24)
  /-- CE_PUSH (R374): Pushes a word onto the stack. -/
  | cePush (d : Die) (k : Fin 24)
  /-- CE_POP (R374): Pops a word from the stack. -/
  | cePop (d : Die) (k : Fin 24)
  /-- CE_ADD (R371): Adds S1 and S2. -/
  | ceAdd (d : Die) (k : Fin 24)
  /-- CE_ADDC (R371): Adds S1, S2 and C. -/
  | ceAddc (d : Die) (k : Fin 24)
  /-- CE_SUB (R371): Subtracts S2 from S1. -/
  | ceSub (d : Die) (k : Fin 24)
  /-- CE_SUBC (R371): Subtracts S2 and C from S1. -/
  | ceSubc (d : Die) (k : Fin 24)
  /-- CE_MUL (R371): Stores the low half of the product. -/
  | ceMul (d : Die) (k : Fin 24)
  /-- CE_MULHU (R371): Stores the unsigned high half of the product. -/
  | ceMulhu (d : Die) (k : Fin 24)
  /-- CE_MULHS (R371): Stores the signed high half of the product. -/
  | ceMulhs (d : Die) (k : Fin 24)
  /-- CE_DIVU (R371): Unsigned division, raising DIVZ on zero. -/
  | ceDivu (d : Die) (k : Fin 24)
  /-- CE_DIVS (R371): Signed division toward zero. -/
  | ceDivs (d : Die) (k : Fin 24)
  /-- CE_REMU (R371): Unsigned remainder. -/
  | ceRemu (d : Die) (k : Fin 24)
  /-- CE_REMS (R371): Signed remainder with the sign of S1. -/
  | ceRems (d : Die) (k : Fin 24)
  /-- CE_NEG (R371): Negates S1. -/
  | ceNeg (d : Die) (k : Fin 24)
  /-- CE_CMP (R371): Compares S1 with S2, setting flags. -/
  | ceCmp (d : Die) (k : Fin 24)
  /-- CE_AND (R371): Bitwise and. -/
  | ceAnd (d : Die) (k : Fin 24)
  /-- CE_OR (R371): Bitwise or. -/
  | ceOr (d : Die) (k : Fin 24)
  /-- CE_XOR (R371): Bitwise exclusive or. -/
  | ceXor (d : Die) (k : Fin 24)
  /-- CE_ANDN (R371): S1 and not S2. -/
  | ceAndn (d : Die) (k : Fin 24)
  /-- CE_NOT (R371): Bitwise complement. -/
  | ceNot (d : Die) (k : Fin 24)
  /-- CE_TST (R371): Sets Z and N from S1. -/
  | ceTst (d : Die) (k : Fin 24)
  /-- CE_SHL (R371): Shifts left. -/
  | ceShl (d : Die) (k : Fin 24)
  /-- CE_SHR (R371): Logical shift right. -/
  | ceShr (d : Die) (k : Fin 24)
  /-- CE_SAR (R371): Arithmetic shift right. -/
  | ceSar (d : Die) (k : Fin 24)
  /-- CE_ROL (R371): Rotates left. -/
  | ceRol (d : Die) (k : Fin 24)
  /-- CE_ROR (R371): Rotates right. -/
  | ceRor (d : Die) (k : Fin 24)
  /-- CE_BTST (R371): Tests a bit into T. -/
  | ceBtst (d : Die) (k : Fin 24)
  /-- CE_BSET (R371): Tests and sets a bit. -/
  | ceBset (d : Die) (k : Fin 24)
  /-- CE_BCLR (R371): Tests and clears a bit. -/
  | ceBclr (d : Die) (k : Fin 24)
  /-- CE_BCHG (R371): Tests and inverts a bit. -/
  | ceBchg (d : Die) (k : Fin 24)
  /-- CE_FFS (R371): Finds the lowest set bit. -/
  | ceFfs (d : Die) (k : Fin 24)
  /-- CE_BSWAP (R371): Reverses the bytes of S1. -/
  | ceBswap (d : Die) (k : Fin 24)
  /-- CE_CRCC (R371): Advances a CRC-32C register over S2's bytes. -/
  | ceCrcc (d : Die) (k : Fin 24)
  /-- CE_CRCE (R371): Advances an IEEE 802.3 CRC register over S2's bytes. -/
  | ceCrce (d : Die) (k : Fin 24)
  /-- CE_BCC (R373): Branches when the condition holds. -/
  | ceBcc (d : Die) (k : Fin 24)
  /-- CE_BSR (R371): Pushes the return PC and branches. -/
  | ceBsr (d : Die) (k : Fin 24)
  /-- CE_JMP (R371): Jumps to S1. -/
  | ceJmp (d : Die) (k : Fin 24)
  /-- CE_CALL (R371): Pushes the return PC and jumps to S1. -/
  | ceCall (d : Die) (k : Fin 24)
  /-- CE_RET (R371): Pops PC. -/
  | ceRet (d : Die) (k : Fin 24)
  /-- CE_RETE (R382): Returns from an exception from the stack or the fault stack. -/
  | ceRete (d : Die) (k : Fin 24)
  /-- CE_LOOP (R371): Decrements the counter and branches while not zero. -/
  | ceLoop (d : Die) (k : Fin 24)
  /-- CE_TRAP (R376): Raises exception TRAP n. -/
  | ceTrap (d : Die) (k : Fin 24)
  /-- CE_NOP (R371): Does nothing. -/
  | ceNop (d : Die) (k : Fin 24)
  /-- CE_END (R364): Ends the cycle, waiting for posted writes and giving S1 as report status. -/
  | ceEnd (d : Die) (k : Fin 24)
  /-- CE_WAIT (R371): Stalls until a selected event bit or the limit. -/
  | ceWait (d : Die) (k : Fin 24)
  /-- CE_QGET (R371): Takes a descriptor from a bound queue into working memory. -/
  | ceQget (d : Die) (k : Fin 24)
  /-- CE_QPUT (R411): Offers a descriptor to a bound queue, stamping the slot's epoch. -/
  | ceQput (d : Die) (k : Fin 24)
  /-- CE_MAPF (R358): Maps a received frame read only into a window. -/
  | ceMapf (d : Die) (k : Fin 24)
  /-- CE_MAPG (R358): Maps a grant region into a window. -/
  | ceMapg (d : Die) (k : Fin 24)
  /-- CE_UNMAP (R358): Unmaps a window. -/
  | ceUnmap (d : Die) (k : Fin 24)
  /-- CE_FLUSH (R360): Waits until every posted write has been performed. -/
  | ceFlush (d : Die) (k : Fin 24)
  /-- CE_HALT (R384): CE_CTRL.HALT stops the engine at the next instruction boundary. -/
  | ceHalt (who : Requester) (d : Die) (k : Fin 24)
  /-- CE_RUN (R384): CE_CTRL.RUN resumes a halted engine. -/
  | ceRun (who : Requester) (d : Die) (k : Fin 24)
  /-- CE_STEP (R384): CE_CTRL.STEP executes one instruction of a halted engine. -/
  | ceStep (who : Requester) (d : Die) (k : Fin 24)
  /-- CE_SRST (R383): A per-function reset invalidates slots and clears the engine's state. -/
  | ceSrst (who : Requester) (d : Die) (k : Fin 24)
  /-- LOCKSTEP_SELF_TEST (R426): Every 1 ms the comparator is tested by an injected mismatch and held mirror updates are released. -/
  | lockstepSelfTest (d : Die) (p : Fin 2) (ok : Bool)
  /-- LOCKSTEP_MISMATCH (R427): A comparator or parity finding gives a verdict that closes the pair's output gate. -/
  | lockstepMismatch (d : Die) (p : Fin 2) (finding : LockFinding) (pos : Nat)
  /-- MIRROR_UPDATE_RX (R423): A role state change from the primary pair is held until its next passed self-test. -/
  | mirrorUpdateRx (d : Die) (p : Fin 2)
  /-- HEARTBEAT_SEND (R430): Every 10 µs a primary pair sends a heartbeat on L0. -/
  | heartbeatSend (d : Die) (p : Fin 2)
  /-- HEARTBEAT_LOSS (R430): Five consecutive missing heartbeats count the primary pair as stopped. -/
  | heartbeatLoss (d : Die) (p : Fin 2)
  /-- SUP_INTERRUPT (R440): With I set and a pending receiver 0 bit, INT is taken before the next instruction. -/
  | supInterrupt (d : Die) (p : Fin 2)
  /-- SUP_IDLE_WAKE (R438): The interrupt condition ends an IDLE stall. -/
  | supIdleWake (d : Die) (p : Fin 2)
  /-- SUP_NOP (R438): Does nothing. -/
  | supNop (d : Die) (p : Fin 2)
  /-- SUP_GET_A (R438): Loads ACC. -/
  | supGetA (d : Die) (p : Fin 2)
  /-- SUP_PUT_A (R438): Stores ACC. -/
  | supPutA (d : Die) (p : Fin 2)
  /-- SUP_GET_X (R438): Loads X. -/
  | supGetX (d : Die) (p : Fin 2)
  /-- SUP_PUT_X (R438): Stores X. -/
  | supPutX (d : Die) (p : Fin 2)
  /-- SUP_GET_Y (R438): Loads Y. -/
  | supGetY (d : Die) (p : Fin 2)
  /-- SUP_PUT_Y (R438): Stores Y. -/
  | supPutY (d : Die) (p : Fin 2)
  /-- SUP_SETHI (R438): Sets the upper half of ACC. -/
  | supSethi (d : Die) (p : Fin 2)
  /-- SUP_ADD (R438): Adds to ACC. -/
  | supAdd (d : Die) (p : Fin 2)
  /-- SUP_ADDC (R438): Adds with carry to ACC. -/
  | supAddc (d : Die) (p : Fin 2)
  /-- SUP_SUB (R438): Subtracts from ACC. -/
  | supSub (d : Die) (p : Fin 2)
  /-- SUP_SUBB (R438): Subtracts with borrow from ACC. -/
  | supSubb (d : Die) (p : Fin 2)
  /-- SUP_CMP (R438): Compares ACC with the operand. -/
  | supCmp (d : Die) (p : Fin 2)
  /-- SUP_AND (R438): Ands the operand into ACC. -/
  | supAnd (d : Die) (p : Fin 2)
  /-- SUP_OR (R438): Ors the operand into ACC. -/
  | supOr (d : Die) (p : Fin 2)
  /-- SUP_XOR (R438): Exclusive-ors the operand into ACC. -/
  | supXor (d : Die) (p : Fin 2)
  /-- SUP_GETB (R438): Loads a byte into ACC. -/
  | supGetb (d : Die) (p : Fin 2)
  /-- SUP_PUTB (R438): Stores the low byte of ACC. -/
  | supPutb (d : Die) (p : Fin 2)
  /-- SUP_CMP_X (R438): Compares X with the operand. -/
  | supCmpX (d : Die) (p : Fin 2)
  /-- SUP_CMP_Y (R438): Compares Y with the operand. -/
  | supCmpY (d : Die) (p : Fin 2)
  /-- SUP_ADD_X (R438): Adds the operand to X. -/
  | supAddX (d : Die) (p : Fin 2)
  /-- SUP_ADD_Y (R438): Adds the operand to Y. -/
  | supAddY (d : Die) (p : Fin 2)
  /-- SUP_SHL (R438): Shifts ACC left. -/
  | supShl (d : Die) (p : Fin 2)
  /-- SUP_SHR (R438): Shifts ACC right logically. -/
  | supShr (d : Die) (p : Fin 2)
  /-- SUP_SAR (R438): Shifts ACC right arithmetically. -/
  | supSar (d : Die) (p : Fin 2)
  /-- SUP_MUL (R438): Multiplies ACC by the operand. -/
  | supMul (d : Die) (p : Fin 2)
  /-- SUP_MOVR (R438): Moves between ACC, X, Y and SP. -/
  | supMovr (d : Die) (p : Fin 2)
  /-- SUP_SAVE (R438): Pushes the selected registers. -/
  | supSave (d : Die) (p : Fin 2)
  /-- SUP_RESTORE (R438): Pops the selected registers. -/
  | supRestore (d : Die) (p : Fin 2)
  /-- SUP_XCHG (R438): Exchanges ACC with a supervisor-memory word indivisibly. -/
  | supXchg (d : Die) (p : Fin 2)
  /-- SUP_FLG (R438): Sets or clears selected flags. -/
  | supFlg (d : Die) (p : Fin 2)
  /-- SUP_BCC (R438): Branches when the condition holds. -/
  | supBcc (d : Die) (p : Fin 2)
  /-- SUP_JUMP (R438): Jumps to an address. -/
  | supJump (d : Die) (p : Fin 2)
  /-- SUP_CALL (R438): Pushes the next PC and jumps. -/
  | supCall (d : Die) (p : Fin 2)
  /-- SUP_RET (R438): Pops PC. -/
  | supRet (d : Die) (p : Fin 2)
  /-- SUP_RETX (R438): Pops FLAGS then PC. -/
  | supRetx (d : Die) (p : Fin 2)
  /-- SUP_TRAP (R440): Raises exception TRAP n. -/
  | supTrap (d : Die) (p : Fin 2)
  /-- SUP_IDLE (R438): Stalls until the interrupt condition holds. -/
  | supIdle (d : Die) (p : Fin 2)
  /-- SUP_DBG (R438): Debug-halts when enabled, otherwise is ILLEGAL. -/
  | supDbg (d : Die) (p : Fin 2)
  /-- SPR_DBG_HALT (R442): Halts an out-of-service pair at the next boundary. -/
  | sprDbgHalt (who : Requester) (d : Die) (p : Fin 2)
  /-- SPR_DBG_STEP (R442): Executes one instruction of a debug-halted pair. -/
  | sprDbgStep (who : Requester) (d : Die) (p : Fin 2)
  /-- SPR_DBG_RUN (R442): Resumes a debug-halted pair. -/
  | sprDbgRun (who : Requester) (d : Die) (p : Fin 2)
  /-- STN_RUN (R448): RUN = 1 starts the program at step 0. -/
  | stnRun (who : Requester) (d : Die) (n : Fin 16)
  /-- STN_STOP (R448): RUN = 0 stops the stencil and sets its pin safe. -/
  | stnStop (who : Requester) (d : Die) (n : Fin 16)
  /-- STN_SRST (R449): A per-function reset stops the stencil and clears its run state. -/
  | stnSrst (who : Requester) (d : Die) (n : Fin 16)
  /-- STN_GUARD_FIRE (R452): The guard pin at GLVL for GFILT clocks clears SR and jumps to GVEC. -/
  | stnGuardFire (d : Die) (n : Fin 16)
  /-- STN_PARITY_ERROR (R445): A parity error stops the stencil in error and is a rank-1 fault. -/
  | stnParityError (d : Die) (n : Fin 16)
  /-- STN_WAIT_END (R451): A wait instruction's condition holds and it ends. -/
  | stnWaitEnd (d : Die) (n : Fin 16)
  /-- STN_WAITP_TIMEOUT (R450): A WAITP timeout expires and the program jumps to TGT. -/
  | stnWaitpTimeout (d : Die) (n : Fin 16)
  /-- STN_DELAY (R450): Waits IMM ticks. -/
  | stnDelay (d : Die) (n : Fin 16)
  /-- STN_IN (R450): Samples bits from the IN pin into SR. -/
  | stnIn (d : Die) (n : Fin 16)
  /-- STN_OUT (R450): Drives bits from SR on the OUT pin. -/
  | stnOut (d : Die) (n : Fin 16)
  /-- STN_SET (R450): Drives the OUT pin level and enable at the next tick. -/
  | stnSet (d : Die) (n : Fin 16)
  /-- STN_WAITP (R447): Waits for a pin level and restarts the phase on match. -/
  | stnWaitp (d : Die) (n : Fin 16)
  /-- STN_JCMP (R450): Jumps on SR matching CMP. -/
  | stnJcmp (d : Die) (n : Fin 16)
  /-- STN_JCOND (R450): Jumps on a condition. -/
  | stnJcond (d : Die) (n : Fin 16) (lvl : Bool)
  /-- STN_LDCNT (R450): Loads CNT. -/
  | stnLdcnt (d : Die) (n : Fin 16)
  /-- STN_DJNZ (R450): Decrements CNT and jumps while not zero. -/
  | stnDjnz (d : Die) (n : Fin 16)
  /-- STN_PUSH (R453): Passes one unit to the stream FIFO. -/
  | stnPush (d : Die) (n : Fin 16)
  /-- STN_CLOSE (R453): Passes an end mark to the stream FIFO. -/
  | stnClose (d : Die) (n : Fin 16)
  /-- STN_PULL (R450): Loads SR from STN_TXDATA, waiting while empty. -/
  | stnPull (d : Die) (n : Fin 16)
  /-- STN_FLAG (R454): Sets, clears or waits on a shared flag. -/
  | stnFlag (d : Die) (n : Fin 16)
  /-- STN_LDSR (R450): Loads half of SR from IMM. -/
  | stnLdsr (d : Die) (n : Fin 16)
  /-- STN_NOP (R450): Does nothing. -/
  | stnNop (d : Die) (n : Fin 16)
  /-- STN_HALT (R448): Stops the stencil with STATE 2. -/
  | stnHalt (d : Die) (n : Fin 16)
  /-- STN_TXDATA_WRITE (R455): Writes STN_TXDATA and sets TXFULL. -/
  | stnTxdataWrite (who : Requester) (d : Die) (n : Fin 16) (v : Word)
  /-- STN_FLAG_SET_WRITE (R454): A write of STN_FLAG_SET sets shared flags. -/
  | stnFlagSetWrite (who : Requester) (d : Die) (v : Word)
  /-- STN_FLAG_CLR_WRITE (R454): A write of STN_FLAG_CLR clears shared flags. -/
  | stnFlagClrWrite (who : Requester) (d : Die) (v : Word)
  /-- PIN_CFG_WRITE (R457): A PIN_CFG write changing the driver starts a handover. -/
  | pinCfgWrite (who : Requester) (d : Die) (k : Fin 48) (v : Word)
  /-- PIN_HANDOVER_DONE (R458): The new driver's OE is stable and it takes the pad. -/
  | pinHandoverDone (d : Die) (k : Fin 48)
  /-- FIO_REFRESH (R464): Every 20 µs the logic side sends a downlink frame. -/
  | fioRefresh
  /-- FIO_DOWNLINK_RX (R465): The field side receives or rejects a downlink frame and sends an uplink. -/
  | fioDownlinkRx (frame : List Byte)
  /-- FIO_UPLINK_TIMER (R464): No downlink within 22 µs makes the field side send the uplink on its own timer. -/
  | fioUplinkTimer
  /-- FIO_UPLINK_RX (R465): The logic side receives an uplink and updates inputs and status. -/
  | fioUplinkRx (frame : List Byte)
  /-- FIO_UPLINK_MISSING (R465): An uplink not received within 22 µs counts as missing. -/
  | fioUplinkMissing
  /-- FIO_OVERCURRENT (R462): An output at its current limit for 200 µs is switched off. -/
  | fioOvercurrent (k : Fin 8)
  /-- FIO_INPUT_CHANGE (R469): FILT equal samples change a filtered input. -/
  | fioInputChange (k : Fin 16) (level : Bool)
  /-- FIO_WIRE_BREAK (R472): An input below 0.20 mA for 10 ms is broken. -/
  | fioWireBreak (k : Fin 16)
  /-- FIO_SUPPLY_FAULT (R473): The field supply out of range for 100 µs sets the common fault. -/
  | fioSupplyFault
  /-- FIO_OVERTEMP (R473): Field-side temperature above 150 °C sets the common fault. -/
  | fioOvertemp
  /-- FIO_OUT_WR (R468): An owning slot writes its outputs. -/
  | fioOutWr (who : Requester) (d : Die) (v : Word)
  /-- FIO_OWN_WRITE (R467): The host sets the owner of a held output. -/
  | fioOwnWrite (who : Requester) (d : Die) (k : Fin 8) (v : Word)
  /-- POWER_ON_RESET (R479): A monitored rail below its threshold causes a power-on reset. -/
  | powerOnReset
  /-- RESET_N_ASSERT (R483): A recognised low on RESET_N starts a cold or warm device reset. -/
  | resetNAssert
  /-- RESET_RELEASE (R483): RESET_N is released 1 ms after the last source goes away. -/
  | resetRelease
  /-- TESTEN_HIGH (R560): TESTEN high holds both dies in power-on reset. -/
  | testenHigh
  /-- WATCHDOG_EXPIRY (R487): No refresh for RST_WD_TMO ms resets the die warm. -/
  | watchdogExpiry (d : Die)
  /-- WATCHDOG_KICK (R487): The die agent refreshes the watchdog. -/
  | watchdogKick (who : Requester) (d : Die) (v : Word)
  /-- RESET_BIST_DONE (R572): Each pair's reset BIST ends and Primer runs on pairs that passed. -/
  | resetBistDone (d : Die) (ok0 ok1 : Bool)
  /-- UNDERCOAT_VERIFIED (R491): Primer selects, reads and verifies the Undercoat copy. -/
  | undercoatVerified (okA okB : Bool)
  /-- DIE1_IMAGE_TRANSFER (R491): Die 0 sends the image to Die 1, which verifies it. -/
  | die1ImageTransfer (ok : Bool)
  /-- UNDERCOAT_START (R491): Undercoat starts, pairs take roles and slaving begins. -/
  | undercoatStart (d : Die)
  /-- CONFIG_RESTORE (R494): The configuration is restored, self-test runs and the epoch is committed. -/
  | configRestore (d : Die) (bad : Nat) (failed : List (Nat × Nat))
  /-- INTENT_RESTORE (R486): Placements are restored from the journal or intents re-admitted. -/
  | intentRestore (d : Die) (journals : Bool)
  /-- READY_RAISE (R179): Start-up completes and READY is set on every host receiver. -/
  | readyRaise (d : Die)
  /-- CONFIG_COMMIT (R495): 10 s after the first uncommitted change the configuration is committed. -/
  | configCommit
  /-- PWR_TRANSITION_DONE (R496): A power state transition completes. -/
  | pwrTransitionDone (d : Die)
  /-- PMBUS_POLL (R500): Every 10 ms the regulator's telemetry is read. -/
  | pmbusPoll (d : Die) (mv : Fin 1024) (ma temp status : Fin 65536) (ok : Bool)
  /-- VCORE_STEP (R500): Every 10 µs VCORE moves 5 mV toward its target. -/
  | vcoreStep (d : Die) (ok : Bool)
  /-- REF_LOSS (R501): A lost reference is detected and the PLLs hold. -/
  | refLoss (d : Die)
  /-- REF_RETURN (R501): The reference returns and the PLLs relock. -/
  | refReturn (d : Die)
  /-- PWRFAIL_ASSERT (R533): PWRFAIL_N starts the power-loss snapshot and defers resets. -/
  | pwrfailAssert
  /-- SNAPSHOT_SEALED (R533): The snapshot is programmed and sealed in flash. -/
  | snapshotSealed
  /-- PWRFAIL_RELEASE (R533): PWRFAIL_N is released, logged, and the other slot erased. -/
  | pwrfailRelease
  /-- PATH_DELAY_READING (R507): Every 10 ms a path-delay reading recertifies the domain's frequency. -/
  | pathDelayReading (d : Die) (dom : Fin 8) (ps again : Nat)
  /-- RING_OSC_READING (R510): Every 24 h of powered time the ring oscillators are read and the fit redone. -/
  | ringOscReading (d : Die) (dom : Fin 8) (loss : Nat)
  /-- EYE_MONITOR_READING (R512): Every 10 s lane eyes are measured and LOW set when weak. -/
  | eyeMonitorReading (d : Die) (lane : Fin 11) (height : Fin 1024) (width : Fin 64)
  /-- DRIVER_CAL_READING (R512): Every 1 s the driver impedance codes are read and END set at a limit. -/
  | driverCalReading (d : Die) (bank : Fin 3) (code : Fin 64)
  /-- TEMP_READING (R505): Every 1 ms the die temperature is read. -/
  | tempReading (d : Die) (t16 : Int)
  /-- BACKGROUND_TEST_START (R517): The background rotation starts the next unit's test. -/
  | backgroundTestStart (d : Die) (cls : Fin 16) (idx : Fin 512)
  /-- TEST_START (R570): A waiting host-requested test starts when the die's current test ends. -/
  | testStart (d : Die) (cls : Fin 16) (idx : Fin 512)
  /-- BIST_COMPLETE (R514): A unit's BIST ends, returning it or marking it failed. -/
  | bistComplete (d : Die) (detail : Word) (weak : Fin 272) (margin : Fin 256) (badBanks : List (Fin 272))
  /-- TEST_QUEUE_ABORT (R518): Held service requests reach 8 or wait HLT_TEST_QMAX µs and the test is aborted. -/
  | testQueueAbort (d : Die)
  /-- AGEING_RECORD_WRITE (R530): Every 4 h of powered time the ageing record is written. -/
  | ageingRecordWrite
  /-- LOG_SCRUB (R525): Once per second both log copies are scrubbed. -/
  | logScrub (d : Die) (primBad mirBad : Bool)
  /-- LOG_SUPPRESS_SUMMARY (R524): The logging allowance returns and one 0x702 entry records the suppressed count. -/
  | logSuppressSummary (d : Die)
  /-- LOG_STREAM_PAGE (R532): 16 pending entries or a 10 ms wait write a page of the log stream. -/
  | logStreamPage (d : Die) (fails : Fin 3)
  /-- COUNTER_CHECKPOINT (R534): Every 250 µs the persistent counters are copied to supervisor memory. -/
  | counterCheckpoint
  /-- LOG_LFR_CLEAR (R526): CLEAR empties the Log Fault Record. -/
  | logLfrClear (who : Requester) (d : Die) (v : Word)
  /-- HLT_UNIT_SELECT (R536): A write of HLT_UNIT_SEL loads the unit's status registers. -/
  | hltUnitSelect (who : Requester) (d : Die) (v : Word)
  /-- DEVICE_RESET_START (R151): 100 µs after the RST_DEVICE reply has left its port, the device begins the warm or cold device reset. -/
  | deviceResetStart
  /-- RESET_SOURCE_GONE (R483): The last reset source goes away (rails above their rising thresholds, TESTEN low, external RESET_N high), starting the 1 ms stretch before release. -/
  | resetSourceGone (src : Fin 3)
  /-- PLL_UNLOCK (R504): A PLL of a die loses lock, clearing its LOCK bit and setting PLL_UNLOCK in CLK_EVENT. -/
  | pllUnlock (d : Die) (pll : Fin 10)
  /-- STENCIL_TICK (R446): A stencil's phase accumulator reaches D, the stencil ticks, and tick instructions sample, drive or complete. -/
  | stencilTick (d : Die) (n : Fin 16) (lvl : Bool)
  /-- STN_GUARD_CLEAR (R452): The guard pin has left GLVL for GFILT clocks, so GUARD_ACT clears and the guard may fire again. -/
  | stnGuardClear (d : Die) (n : Fin 16)
  /-- FIO_SUPPLY_RESTORED (R473): The field supply returns within its thresholds and that cause of the common fault ends. -/
  | fioSupplyRestored
  /-- FIO_WIRE_RESTORED (R472): A broken input's current rises again above the wire-break threshold and it is no longer broken. -/
  | fioWireRestored (k : Fin 16)
  /-- FIO_TEMP_RESTORED (R473): The field side's temperature falls back to 150 °C or below and that cause of the common fault ends. -/
  | fioTempRestored
  /-- ASYNC_COMMAND_COMPLETE (R139): The work of an accepted asynchronous command whose end no other step brings (such as IMG_INSTALL, IMG_UNDERCOAT, IMG_REMOVE, PORT_MODE, PORT_LANE, TIME_ROLE, RING_SCHED, RING_READMIT or RST_UNIT) ends, and its completion with FINAL and ASYNC is sent. -/
  | asyncCommandComplete (d : Die) (c : Fin 40) (seq : Nat)
deriving DecidableEq, Repr

end Sys2Proof
end

