-- ==== Sys2Proof/Decode.lean ====
section
/-! DEFINITION. The command that a word of the opcode table spells.  No row of the table has bits: a command of the block is an access, a
protocol operation or an event, not an encoded word, so no word spells one. -/

namespace Sys2Proof

/-- The command a word of `nbits` bits spells: none. -/
def decodeTableWord (_ _ : Nat) : Option Instr := none

end Sys2Proof
end

