-- ==== Sys2Proof/Config.lean ====
section
/-! DEFINITION. What the part, its straps and its fuses fix, and the free values: constants with no body, so that every
claim holds whatever they are. -/

namespace Sys2Proof.Config

/-- A value the spec leaves open, drawn fresh for each use: `n` is the state's counter (log entry 3). -/
opaque freeValue : Nat → BitVec 32

/-- SYS_VER.GRADE, a strap (R47). -/
opaque grade : Nat

/-- SYS_VER.STEP, the silicon stepping (R47). -/
opaque stepping : Nat

/-- TFR_UID of a die, fixed in silicon (R288). -/
opaque ringUid : Nat → Nat

/-- HLT_DOM_GB.FIX of a die's clock domain, fused per mille (R507, R536). -/
opaque gbFix : Nat → Nat → Nat

/-- PIN_BANK of a die, the straps of the two I/O banks (R460). -/
opaque pinBank : Nat → Nat

/-- Whether a value that is no whole number of its register's unit is shown rounded up rather than down, where the spec states no
rounding (R271, R274). -/
opaque roundUp : Int → Nat → Bool

/-- Whether an image's signature block verifies against the Jarmholt personality key that the part's ROM holds (R389, R390). -/
opaque imageSigned : List (BitVec 8) → Bool

/-- Whether an Undercoat image verifies against the key that the part's ROM holds (R149, R491). -/
opaque undercoatSigned : List (BitVec 8) → Bool

/-- Version number of the Undercoat copies as shipped (R147). -/
opaque undercoatShipped : Nat

/-- Whether a device of a tree stands in a chain rather than in a ring, which its schedule record does not say (R250). -/
opaque treeChain : List (BitVec 32) → Bool

/-- Fixed part of a hop's latency in ns, greatest and least, at an ingress rate in Mb/s that the table of R196 does not list. -/
opaque tfixMax : Nat → Nat
opaque tfixMin : Nat → Nat

/-- Fractional frequency loss D(t) in 10^-9 after t days of powered time that the fit of R510 gives for a clock domain (die × 8 + number)
from its ring-oscillator readings, as (day, loss in 0.01 %); the fused worst case until 30 exist. -/
opaque ageLoss : Nat → List (Nat × Nat) → Nat → Nat

/-- Fused constants of a clock domain (die × 8 + number): K in 10^-6, KT in 10^-6 per mille per °C, KV in 10^-6 per mille per mV, and F_FRESH in MHz
(R507). -/
opaque domK : Nat → Nat
opaque domKt : Nat → Nat
opaque domKv : Nat → Nat
opaque domFresh : Nat → Nat

/-- Exponent n in 1/1,000 above 100 that the fit of R510 gives a domain from its readings: the fused worst case until 30 exist. -/
opaque ageFit : Nat → List (Nat × Nat) → Nat

/-- What the prediction by KV gives at a die's voltage in mV: whether a raise to it clears an overdraft, and whether at it every certified frequency
of the die stays unchanged (R511). -/
opaque raiseClears : Nat → Nat → Bool
opaque lowerKeeps : Nat → Nat → Bool

end Sys2Proof.Config
end

