-- ==== Sys2Proof/Machine/Bits.lean ====
section
/-! DEFINITION. Bit fields, byte order and the two frame checks: the helpers every meaning of the block uses
(R5, R6, R128, R160). -/

namespace Sys2Proof

/-- Number of a die: 0 or 1 (R16). -/
def Die.idx : Die → Nat
  | .d0 => 0
  | .d1 => 1

/-- The die a number names: bit 0 of it (R127, R156). -/
def dieOf (n : Nat) : Die := if n % 2 = 0 then .d0 else .d1

/-- The other die. -/
def Die.other : Die → Die
  | .d0 => .d1
  | .d1 => .d0

/-- Bit [39] of the internal address selects the die (R23). -/
def Die.org (d : Die) : Nat := d.idx * 0x80_0000_0000

namespace Machine

/-- Field of `n` bits from bit `lo` of a word (R5). -/
def bits (w : Word) (lo n : Nat) : Nat := (w.toNat >>> lo) % 2 ^ n

/-- Bit `i` of a word. -/
def bit (w : Word) (i : Nat) : Bool := w.toNat.testBit i

/-- A word with `n` one bits from bit `lo`. -/
def maskOf (lo n : Nat) : Word := BitVec.ofNat 32 ((2 ^ n - 1) <<< lo)

/-- The word with its field of `n` bits from bit `lo` replaced by `v` (taken modulo 2^n). -/
def setBits (w : Word) (lo n v : Nat) : Word :=
  (w &&& ~~~(maskOf lo n)) ||| BitVec.ofNat 32 ((v % 2 ^ n) <<< lo)

/-- A natural number as a word, modulo 2^32. -/
def wd (n : Nat) : Word := BitVec.ofNat 32 n

/-- An integer as a two's complement word. -/
def wdInt (n : Int) : Word := BitVec.ofInt 32 n

/-- Number of one bits among the first `n` bits of `v`. -/
def popcount : Nat → Nat → Nat
  | 0, _ => 0
  | n + 1, v => (if v.testBit n then 1 else 0) + popcount n v

/-- Signed value of an `n`-bit field. -/
def signed (n v : Nat) : Int := if v % 2 ^ n < 2 ^ (n - 1) then (v % 2 ^ n : Nat) else (v % 2 ^ n : Nat) - (2 ^ n : Nat)

/-- `n` bytes of a number, least significant byte first (R6). -/
def leBytes : Nat → Nat → List Byte
  | 0, _ => []
  | n + 1, v => BitVec.ofNat 8 v :: leBytes n (v / 256)

/-- The number a list of bytes holds, least significant byte first (R6). -/
def ofLe : List Byte → Nat
  | [] => 0
  | b :: t => b.toNat + 256 * ofLe t

/-- The number a list of bytes holds, most significant byte first (frames on a wire, R6). -/
def ofBe (l : List Byte) : Nat := l.foldl (fun acc b => acc * 256 + b.toNat) 0

/-- `n` bytes of a number, most significant byte first. -/
def beBytes (n v : Nat) : List Byte := (leBytes n v).reverse

/-- The byte `i` of a frame, 0 beyond its end. -/
def byteAt (l : List Byte) (i : Nat) : Nat := (l.getD i 0).toNat

/-- `n` bytes of a frame from offset `i`, most significant first. -/
def beAt (l : List Byte) (i n : Nat) : Nat := ofBe ((l.drop i).take n)

/-- One bit step of a reflected CRC register with polynomial `p` (R128). -/
def crcBit (p : Nat) (c : Nat) : Nat := if c % 2 = 1 then (c / 2) ^^^ p else c / 2

/-- Eight bit steps: one byte into a reflected 32-bit CRC register. -/
def crcByte (p : Nat) (c : Nat) (b : Byte) : Nat :=
  crcBit p (crcBit p (crcBit p (crcBit p (crcBit p (crcBit p (crcBit p (crcBit p (c ^^^ b.toNat))))))))

/-- CRC register after a list of bytes. -/
def crcRun (p : Nat) (c : Nat) (l : List Byte) : Nat := l.foldl (crcByte p) c

/-- CRC-32C of R128: reflected polynomial 0x82F6_3B78, initial and final 0xFFFF_FFFF. -/
def crc32c (l : List Byte) : Nat := crcRun 0x82F63B78 0xFFFFFFFF l ^^^ 0xFFFFFFFF

/-- The FCS of IEEE 802.3: reflected polynomial 0xEDB8_8320. -/
def fcs32 (l : List Byte) : Nat := crcRun 0xEDB88320 0xFFFFFFFF l ^^^ 0xFFFFFFFF

/-- One bit step of the CRC-16 of R160 (polynomial 0x1021, not reflected). -/
def crc16Bit (c : Nat) : Nat := if c / 0x8000 % 2 = 1 then ((c * 2) % 0x10000) ^^^ 0x1021 else (c * 2) % 0x10000

/-- One byte into the CRC-16 of R160. -/
def crc16Byte (c : Nat) (b : Byte) : Nat :=
  crc16Bit (crc16Bit (crc16Bit (crc16Bit (crc16Bit (crc16Bit (crc16Bit (crc16Bit (c ^^^ (b.toNat * 256)))))))))

/-- CRC-16 of R160: initial value 0xFFFF, no reflection, no final exclusive-or. -/
def crc16 (l : List Byte) : Nat := l.foldl crc16Byte 0xFFFF

/-- Bytes of a list of words, in memory order (R6, R128). -/
def wordBytes (l : List Word) : List Byte := l.flatMap fun w => leBytes 4 w.toNat

/-- Words of a list of bytes, in memory order; a short tail is padded with zeros. -/
def bytesWords : List Byte → List Word
  | a :: b :: c :: d :: t => wd (ofLe [a, b, c, d]) :: bytesWords t
  | [] => []
  | l => [wd (ofLe l)]

/-- Lowest index below `n` for which `p` holds. -/
def firstIdx (n : Nat) (p : Nat → Bool) : Option Nat := (List.range n).find? p

end Machine
end Sys2Proof
end

