-- ==== Sys2Proof/Machine/RegMap.lean ====
section
/-! DEFINITION. The register map: every register of the spec's tables with its offset in its block, its repetitions, the
bits of each access code and its reset value (R10, R12, R13, R538).  Written from the register tables; a comment names each row. -/

namespace Sys2Proof.Machine

/-- One register table row: offset in its block, its index ranges (count, stride) from the outermost, the bits of each
access code (R10) and the reset value (R13).  Bits in no mask are RO or reserved. -/
structure RegRow where
  off : Nat
  dims : List (Nat × Nat)
  rw : Nat
  w1c : Nat
  w1s : Nat
  rc : Nat
  wo : Nat
  rst : Nat

/-- Rows of block SYS. -/
def rowsSYS : List RegRow := [
  ⟨0x0000, [], 0x0000, 0x0000, 0x0000, 0x0000, 0x0000, 0x4896_0200⟩, -- SYS_ID
  ⟨0x0004, [], 0x0000, 0x0000, 0x0000, 0x0000, 0x0000, 0x0000⟩, -- SYS_VER
  ⟨0x0008, [], 0x0000, 0x0000, 0x0000, 0x0000, 0x0000, 0x0000⟩, -- SYS_DIE
  ⟨0x0010, [], 0x0000, 0x0000, 0x0000, 0x0000, 0x0000, 0x0030⟩, -- SYS_DLY_STAT
  ⟨0x0014, [], 0x0000, 0x000F, 0x0000, 0x0000, 0x0000, 0x0000⟩, -- SYS_DLY_EVENT
  ⟨0x0018, [], 0x0000, 0x0000, 0x0000, 0xFFFF_FFFF, 0x0000, 0x0000⟩, -- SYS_DLY_CORR
  ⟨0x001C, [], 0x0000, 0x0000, 0x0000, 0xFFFF_FFFF, 0x0000, 0x0000⟩, -- SYS_DLY_UNCORR
  ⟨0x0020, [], 0x0000, 0x0000, 0x0000, 0xFFFF_FFFF, 0x0000, 0x0000⟩, -- SYS_DLY_RETRY
  ⟨0x0024, [], 0x0000, 0x0000, 0x0000, 0x0000, 0x0000, 0x0000⟩, -- SYS_DLY_TXUTIL
  ⟨0x0028, [], 0x0000, 0x0000, 0x0000, 0x0000, 0x0000, 0x0000⟩] -- SYS_DLY_DOWNCNT
/-- Rows of block POOL. -/
def rowsPOOL : List RegRow := [
  ⟨0x0000, [], 0x0000, 0x0000, 0x0000, 0x0000, 0x0000, 0x0001⟩, -- POOL_CFG
  ⟨0x0004, [], 0x0000, 0x0000, 0x0000, 0x0000, 0x0000, 0x0320⟩, -- POOL_STAT
  ⟨0x0010, [], 0x0000, 0x0000, 0x0000, 0xFFFF_FFFF, 0x0000, 0x0000⟩, -- POOL_ECC_CORR
  ⟨0x0014, [], 0x0000, 0x0000, 0x0000, 0xFFFF_FFFF, 0x0000, 0x0000⟩, -- POOL_ECC_UNCORR
  ⟨0x0018, [], 0x0000, 0x0000, 0x0000, 0x0000, 0x0000, 0x0000⟩, -- POOL_CE_ADDR
  ⟨0x001C, [], 0x0000, 0x8000_0000, 0x0000, 0x0000, 0x0000, 0x0000⟩, -- POOL_UE_ADDR
  ⟨0x0020, [], 0x0000, 0x0000, 0x0000, 0x0000, 0x0000, 0x0000⟩, -- POOL_RET_STAT
  ⟨0x0024, [], 0x0000, 0x0000, 0x0000, 0x0000, 0x0000, 0x0000⟩, -- POOL_RET_WAKE
  ⟨0x0028, [], 0x0000, 0x0000, 0x0000, 0xFFFF_FFFF, 0x0000, 0x0000⟩, -- POOL_RET_ERR
  ⟨0x0030, [], 0x0000, 0x0000, 0x0000, 0x0000, 0x0000, 0x0000⟩, -- POOL_SCRUB
  ⟨0x0034, [], 0x0000, 0x0000, 0x0000, 0xFFFF_FFFF, 0x0000, 0x0000⟩, -- POOL_CONFLICT
  ⟨0x0040, [(9, 0x0004)], 0x0000, 0x0000, 0x0000, 0x0000, 0x0000, 0x0000⟩, -- POOL_BANK_OOS
  ⟨0x0080, [(16, 0x0004)], 0x0000, 0x0000, 0x0000, 0x0FFF_0000, 0x0000, 0x0000⟩, -- POOL_PORT_UTIL
  ⟨0x00C0, [], 0x0000, 0x0000, 0x0000, 0xFFFF_FFFF, 0x0000, 0x0000⟩] -- POOL_SCRUB_STEAL
/-- Rows of block SFQ. -/
def rowsSFQ : List RegRow := [
  ⟨0x0000, [], 0x0000, 0x0000, 0x0000, 0x0000, 0x0000, 0x0000⟩, -- SFQ_NONEMPTY
  ⟨0x0004, [], 0x0000, 0xFFFF_FFFF, 0x0000, 0x0000, 0x0000, 0x0000⟩, -- SFQ_OVF_SUM
  ⟨0x0100, [(32, 0x0040)], 0x01FF, 0x0000, 0x0000, 0x0000, 0x0007_0000, 0x0000⟩, -- SFQ_CTRL
  ⟨0x0104, [(32, 0x0040)], 0x0000, 0x1C00, 0x0000, 0x0000, 0x0000, 0x0000⟩, -- SFQ_STAT
  ⟨0x0108, [(32, 0x0040)], 0x0000, 0x0000, 0x0000, 0x0000, 0x0000, 0x0000⟩, -- SFQ_RDATA_LO
  ⟨0x010C, [(32, 0x0040)], 0x0000, 0x0000, 0x0000, 0x0000, 0x0000, 0x0000⟩, -- SFQ_RDATA_HI
  ⟨0x0110, [(32, 0x0040)], 0x0000, 0x0000, 0x0000, 0x0000, 0x0000, 0x0000⟩, -- SFQ_TAG
  ⟨0x0114, [(32, 0x0040)], 0xFFFF, 0x0000, 0x0000, 0x0000, 0x0000, 0x0064⟩, -- SFQ_TIMEOUT
  ⟨0x0118, [(32, 0x0040)], 0xFFFF, 0x0000, 0x0000, 0x0000, 0x0000, 0x0000⟩, -- SFQ_IDLE
  ⟨0x011C, [(32, 0x0040)], 0x03FF_FFC0, 0x0000, 0x0000, 0x0000, 0x0000, 0x0000⟩, -- SFQ_BUF_BASE
  ⟨0x0120, [(32, 0x0040)], 0x000F, 0x0000, 0x0000, 0x0000, 0x0000, 0x0000⟩, -- SFQ_BUF_SIZE
  ⟨0x0124, [(32, 0x0040)], 0x0000, 0x0000, 0x0000, 0x0000, 0x0000, 0x0000⟩, -- SFQ_WPTR
  ⟨0x0128, [(32, 0x0040)], 0x000F_FFFF, 0x0000, 0x0000, 0x0000, 0x0000, 0x0000⟩, -- SFQ_RPTR
  ⟨0x012C, [(32, 0x0040)], 0x0000, 0x0000, 0x0000, 0xFFFF_FFFF, 0x0000, 0x0000⟩, -- SFQ_TMO_CNT
  ⟨0x0130, [(32, 0x0040)], 0x0000, 0x0000, 0x0000, 0xFFFF_FFFF, 0x0000, 0x0000⟩, -- SFQ_OVF_CNT
  ⟨0x0134, [(32, 0x0040)], 0x0000, 0x0000, 0x0000, 0x0000, 0x0000, 0x00FF⟩] -- SFQ_OWNER
/-- Rows of block PLC, part 1. -/
def rowsPLC0 : List RegRow := [
  ⟨0x0000, [], 0x0000, 0x0000, 0x0000, 0x0000, 0x0000, 0x0000⟩, -- PLC_STAT
  ⟨0x0004, [], 0x0000, 0x007F, 0x0000, 0x0000, 0x0000, 0x0000⟩, -- PLC_EVENT
  ⟨0x0010, [], 0x0000, 0x0000, 0x0000, 0x0000, 0x0000, 0x1020_5052⟩, -- PLC_RESV
  ⟨0x0014, [], 0x0000, 0x0000, 0x0000, 0x0000, 0x0000, 0x000A⟩, -- PLC_GUARD
  ⟨0x0018, [], 0x0000, 0x0000, 0x0000, 0x0000, 0x0000, 0x0000⟩, -- PLC_COUNTS
  ⟨0x0020, [], 0x0000, 0x0000, 0x0000, 0x0000, 0x0000, 0x4000⟩, -- PLC_CMP
  ⟨0x0024, [], 0x0000, 0x0000, 0x0000, 0x0000, 0x0000, 0x0000⟩, -- PLC_TAGS
  ⟨0x0028, [], 0x0000, 0x0000, 0x0000, 0x0000, 0x0000, 0x0000⟩, -- PLC_FLOWTAB
  ⟨0x002C, [], 0x0000, 0x0000, 0x0000, 0x0000, 0x0000, 0x0000⟩, -- PLC_DLY_TX
  ⟨0x0030, [], 0x0000, 0x0000, 0x0000, 0x0000, 0x0000, 0x0000⟩, -- PLC_DLY_RX
  ⟨0x0040, [(4, 0x0004)], 0x0000, 0x0000, 0x0000, 0x0000, 0x0000, 0x03E8_03E8⟩, -- PLC_CL_FCERT
  ⟨0x0050, [], 0x0000, 0x0000, 0x0000, 0x0000, 0x0000, 0x0320⟩, -- PLC_POOL_FCERT
  ⟨0x0080, [(24, 0x0004)], 0x0000, 0x0000, 0x0000, 0x0000, 0x0000, 0x0000⟩, -- PLC_CE
  ⟨0x0100, [(16, 0x0004)], 0x0000, 0x0000, 0x0000, 0x0000, 0x0000, 0x0000⟩, -- PLC_PORT
  ⟨0x0180, [(17, 0x0004)], 0x0000, 0x0000, 0x0000, 0x0000, 0x0000, 0x0000⟩, -- PLC_SWTX
  ⟨0x0200, [(17, 0x0004)], 0x0000, 0x0000, 0x0000, 0x0000, 0x0000, 0x0000⟩, -- PLC_SWRX
  ⟨0x0300, [], 0x0000, 0x0000, 0x0000, 0x0000, 0x0000, 0xFFFF⟩, -- PLC_FCST_DAYS
  ⟨0x0304, [], 0x0000, 0x0000, 0x0000, 0x0000, 0x0000, 0x0000⟩, -- PLC_FCST_WHAT
  ⟨0x0308, [], 0x0000, 0x0000, 0x0000, 0x0000, 0x0000, 0x0000⟩, -- PLC_FCST_BASE
  ⟨0x0310, [], 0x0000, 0x0000, 0x0000, 0x0000, 0x0000, 0x0000⟩, -- PLC_LAST_REJ
  ⟨0x0314, [], 0x0000, 0x0000, 0x0000, 0x0000, 0x0000, 0x0000⟩, -- PLC_LAST_REJ_TAG
  ⟨0x0320, [], 0x0000, 0x0000, 0x0000, 0xFFFF_FFFF, 0x0000, 0x0000⟩, -- PLC_CNT_ADMIT
  ⟨0x0324, [], 0x0000, 0x0000, 0x0000, 0xFFFF_FFFF, 0x0000, 0x0000⟩, -- PLC_CNT_REJECT
  ⟨0x0328, [], 0x0000, 0x0000, 0x0000, 0xFFFF_FFFF, 0x0000, 0x0000⟩, -- PLC_CNT_MIGRATE
  ⟨0x032C, [], 0x0000, 0x0000, 0x0000, 0xFFFF_FFFF, 0x0000, 0x0000⟩, -- PLC_CNT_ABORT
  ⟨0x0330, [], 0x0000, 0x0000, 0x0000, 0xFFFF_FFFF, 0x0000, 0x0000⟩, -- PLC_CNT_UNVERIFIED
  ⟨0x0334, [], 0x0000, 0x0000, 0x0000, 0xFFFF_FFFF, 0x0000, 0x0000⟩, -- PLC_CNT_FAULTREP
  ⟨0x0400, [], 0xFFFF_FFFF, 0x0000, 0x0000, 0x0000, 0x0000, 0x0000⟩, -- PLC_QRY_HANDLE
  ⟨0x0404, [], 0x0000, 0x0000, 0x0000, 0x0000, 0x0000, 0x0000⟩, -- PLC_QRY_STAT
  ⟨0x0408, [], 0x0000, 0x0000, 0x0000, 0x0000, 0x0000, 0x7F3F⟩] -- PLC_QRY_LOC
/-- Rows of block PLC, part 2. -/
def rowsPLC1 : List RegRow := [
  ⟨0x040C, [], 0x0000, 0x0000, 0x0000, 0x0000, 0x0000, 0x0000⟩, -- PLC_QRY_CTX
  ⟨0x0410, [], 0x0000, 0x0000, 0x0000, 0x0000, 0x0000, 0x0000⟩, -- PLC_QRY_CYCLE
  ⟨0x0414, [], 0x0000, 0x0000, 0x0000, 0x0000, 0x0000, 0x0000⟩, -- PLC_QRY_EPOCH
  ⟨0x1000, [(272, 0x0004)], 0x0000, 0x0000, 0x0000, 0x0000, 0x0000, 0x0000⟩] -- PLC_BANK
/-- Rows of block PLC. -/
def rowsPLC : List RegRow := rowsPLC0 ++ rowsPLC1
/-- Rows of block CMD. -/
def rowsCMD : List RegRow := [
  ⟨0x0000, [], 0x0000, 0x0000, 0x0000, 0x0000, 0x0000, 0x0000⟩, -- CMD_STAT
  ⟨0x0004, [], 0x0000, 0x003F, 0x0000, 0x0000, 0x0000, 0x0000⟩, -- CMD_EVENT
  ⟨0x0010, [], 0x0000, 0x0000, 0x0000, 0xFFFF_FFFF, 0x0000, 0x0000⟩, -- CMD_CNT_RX
  ⟨0x0014, [], 0x0000, 0x0000, 0x0000, 0xFFFF_FFFF, 0x0000, 0x0000⟩, -- CMD_CNT_CRC
  ⟨0x0018, [], 0x0000, 0x0000, 0x0000, 0xFFFF_FFFF, 0x0000, 0x0000⟩, -- CMD_CNT_SEQ
  ⟨0x001C, [], 0x0000, 0x0000, 0x0000, 0xFFFF_FFFF, 0x0000, 0x0000⟩, -- CMD_CNT_EPOCH
  ⟨0x0020, [], 0x0000, 0x0000, 0x0000, 0xFFFF_FFFF, 0x0000, 0x0000⟩, -- CMD_CNT_DUP
  ⟨0x0024, [], 0x0000, 0x0000, 0x0000, 0xFFFF_FFFF, 0x0000, 0x0000⟩, -- CMD_CNT_DENIED
  ⟨0x0028, [], 0x0000, 0x0000, 0x0000, 0xFFFF_FFFF, 0x0000, 0x0000⟩, -- CMD_CNT_TMO
  ⟨0x002C, [], 0x0000, 0x0000, 0x0000, 0xFFFF_FFFF, 0x0000, 0x0000⟩, -- CMD_CNT_IBDROP
  ⟨0x0030, [], 0x0000, 0x0000, 0x0000, 0x0000, 0x0000, 0x0000⟩, -- CMD_IB_MAC_LO
  ⟨0x0034, [], 0x0000, 0x0000, 0x0000, 0x0000, 0x0000, 0x0000⟩, -- CMD_IB_MAC_HI
  ⟨0x0038, [], 0x0000, 0x0000, 0x0000, 0x0000, 0x0000, 0x0040⟩, -- CMD_IB_RATE
  ⟨0x0100, [(40, 0x0008)], 0x0000, 0x0000, 0x0000, 0x0000, 0x0000, 0x0000⟩, -- CMD_CH_STAT
  ⟨0x0104, [(40, 0x0008)], 0x0000, 0x0000, 0x0000, 0x0000, 0x0000, 0x0000⟩, -- CMD_CH_TAG
  ⟨0x0300, [(8, 0x0008)], 0x0000, 0x0000, 0x0000, 0x0000, 0x0000, 0x0000⟩, -- CMD_IB_ALLOW_LO
  ⟨0x0304, [(8, 0x0008)], 0x0000, 0x0000, 0x0000, 0x0000, 0x0000, 0x0000⟩] -- CMD_IB_ALLOW_HI
/-- Rows of block MBX. -/
def rowsMBX : List RegRow := [
  ⟨0x0000, [], 0x0000, 0x0000, 0x0000, 0x0000, 0x0000, 0x0000⟩, -- MBX_OWNED
  ⟨0x0004, [], 0x0000, 0x0000, 0x0000, 0x0000, 0x0000, 0x0000⟩, -- MBX_OUT_PEND
  ⟨0x0018, [(3, 0x0008)], 0x0000, 0x0000, 0x0000, 0x0000, 0x0000, 0x0000⟩, -- MBX_ERR_LO
  ⟨0x001C, [(3, 0x0008)], 0x0000, 0x8000_0000, 0x0000, 0x0000, 0x0000, 0x0000⟩, -- MBX_ERR_HI
  ⟨0x0034, [(3, 0x0004)], 0x0000, 0x0000, 0x0000, 0xFFFF_FFFF, 0x0000, 0x0000⟩, -- MBX_ERR_CNT
  ⟨0x0040, [(8, 0x0004)], 0x0000, 0x0000, 0x0000, 0x0000, 0xFFFF_FFFF, 0x0000⟩, -- MBX_H2KEY
  ⟨0x0060, [], 0x0000, 0x0000, 0x0000, 0x0000, 0x0001, 0x0000⟩, -- MBX_H2KEY_CTRL
  ⟨0x1000, [(32, 0x0100), (16, 0x0004)], 0xFFFF_FFFF, 0x0000, 0x0000, 0x0000, 0x0000, 0x0000⟩, -- MBX_IN
  ⟨0x1040, [(32, 0x0100), (16, 0x0004)], 0x0000, 0x0000, 0x0000, 0x0000, 0x0000, 0x0000⟩, -- MBX_OUT
  ⟨0x1080, [(32, 0x0100)], 0x0000, 0x0000, 0x0000, 0x0000, 0x8000_001F, 0x0000⟩, -- MBX_GO
  ⟨0x1084, [(32, 0x0100)], 0x0000, 0x0000, 0x0000, 0x0000, 0x0000, 0x0000⟩, -- MBX_CH_STAT
  ⟨0x1088, [(32, 0x0100)], 0x0000, 0x0000, 0x0000, 0x0000, 0x0003, 0x0000⟩, -- MBX_CH_CLAIM
  ⟨0x108C, [(32, 0x0100)], 0x0000, 0x0000, 0x0000, 0x0000, 0x0001, 0x0000⟩, -- MBX_OUT_ACK
  ⟨0x1090, [(32, 0x0100)], 0x0000, 0x0000, 0x0000, 0xFFFF_FFFF, 0x0000, 0x0000⟩] -- MBX_CH_DROP
/-- Rows of block DBL. -/
def rowsDBL : List RegRow := [
  ⟨0x0000, [(4, 0x0040)], 0x0000, 0xFFFF_FFFF, 0x0000, 0x0000, 0x0000, 0x0000⟩, -- DBL_STAT
  ⟨0x0004, [(4, 0x0040)], 0xFFFF_FFFF, 0x0000, 0x0000, 0x0000, 0x0000, 0x0000⟩, -- DBL_MASK
  ⟨0x0008, [(4, 0x0040)], 0x0000, 0x0000, 0x0000, 0x0000, 0x0000, 0x0000⟩, -- DBL_PEND
  ⟨0x000C, [(4, 0x0040)], 0x0000, 0x0000, 0x0000, 0x0000, 0xFFFF_FFFF, 0x0000⟩, -- DBL_SET
  ⟨0x0010, [(4, 0x0040)], 0x0000, 0x0000, 0x0000, 0x0000, 0x0000, 0x0000⟩, -- DBL_TIME_S
  ⟨0x0014, [(4, 0x0040)], 0x0000, 0x0000, 0x0000, 0x0000, 0x0000, 0x0000⟩, -- DBL_TIME_NS
  ⟨0x0100, [], 0x0000, 0x0000, 0x0000, 0x0000, 0x0000, 0x0000⟩] -- DBL_READY_INFO
/-- Rows of block SW, part 1. -/
def rowsSW0 : List RegRow := [
  ⟨0x0000, [], 0x000F, 0x0000, 0x0000, 0x0000, 0x0000, 0x0004⟩, -- SW_MC_THRESH
  ⟨0x0004, [], 0x000F, 0x0000, 0x0000, 0x0000, 0x0000, 0x0009⟩, -- SW_RED_W
  ⟨0x0008, [], 0xFFFF, 0x0000, 0x0000, 0x0000, 0x0000, 0x88B6⟩, -- SW_STAG_ETYPE
  ⟨0x000C, [], 0xFFFF_FFFF, 0x0000, 0x0000, 0x0000, 0x0000, 0x0000⟩, -- SW_HASH_SEED
  ⟨0x0010, [], 0xFFFF, 0x0000, 0x0000, 0x0000, 0x0000, 0x012C⟩, -- SW_AGE
  ⟨0x0014, [], 0xFFFF, 0x0000, 0x0000, 0x0000, 0x0000, 0x00C8⟩, -- SW_RSQ_TMO
  ⟨0x0018, [], 0xFFFF, 0x0000, 0x0000, 0x0000, 0x0000, 0x0064⟩, -- SW_PG_IDLE
  ⟨0x001C, [], 0x0000, 0x0000, 0x0000, 0x0000, 0x0000, 0x0030_0000⟩, -- SW_FB
  ⟨0x0020, [], 0x0000, 0x0000, 0x0000, 0x0000, 0x0000, 0x0004_00E8⟩, -- SW_MGMT_BUF
  ⟨0x0028, [], 0x0000, 0x0000, 0x0000, 0x0000, 0x0000, 0x0039_C000⟩, -- SW_SMP_BASE
  ⟨0x002C, [], 0x0000, 0x0000, 0x0000, 0x0000, 0x0000, 0x0000⟩, -- SW_SMP_WPTR
  ⟨0x0030, [], 0x03FF, 0x0000, 0x0000, 0x0000, 0x0000, 0x0000⟩, -- SW_SMP_RPTR
  ⟨0x0040, [(4, 0x0004)], 0x0003_FFFF, 0x0000, 0x0000, 0x0000, 0x0000, 0x2000⟩, -- SW_QLIMIT
  ⟨0x0050, [(3, 0x0004)], 0x0000, 0x0000, 0x0000, 0x0000, 0x0000, 0x4000⟩, -- SW_QLIMITR
  ⟨0x0080, [(21, 0x0008)], 0xFFFF_FFFF, 0x0000, 0x0000, 0x0000, 0x0000, 0x0000⟩, -- SW_RED_TH
  ⟨0x0084, [(21, 0x0008)], 0x00FF, 0x0000, 0x0000, 0x0000, 0x0000, 0x0000⟩, -- SW_RED_P
  ⟨0x0200, [], 0x0000, 0x0000, 0x0000, 0xFFFF_FFFF, 0x0000, 0x0000⟩, -- SW_CNT_NOTAG
  ⟨0x0204, [], 0x0000, 0x0000, 0x0000, 0xFFFF_FFFF, 0x0000, 0x0000⟩, -- SW_CNT_NOBUF
  ⟨0x0208, [], 0x0000, 0x0000, 0x0000, 0xFFFF_FFFF, 0x0000, 0x0000⟩, -- SW_CNT_DEMOTE
  ⟨0x020C, [], 0x0000, 0x0000, 0x0000, 0xFFFF_FFFF, 0x0000, 0x0000⟩, -- SW_CNT_LEARN_FAIL
  ⟨0x0210, [], 0x0000, 0x0000, 0x0000, 0xFFFF_FFFF, 0x0000, 0x0000⟩, -- SW_CNT_SA_CONFLICT
  ⟨0x0214, [], 0x0000, 0x0000, 0x0000, 0xFFFF_FFFF, 0x0000, 0x0000⟩, -- SW_CNT_RSQ_LATE
  ⟨0x0218, [], 0x0000, 0x0000, 0x0000, 0xFFFF_FFFF, 0x0000, 0x0000⟩, -- SW_CNT_RSQ_SKIP
  ⟨0x021C, [], 0x0000, 0x0000, 0x0000, 0xFFFF_FFFF, 0x0000, 0x0000⟩, -- SW_CNT_RSQ_TMO
  ⟨0x0220, [], 0x0000, 0x0000, 0x0000, 0xFFFF_FFFF, 0x0000, 0x0000⟩, -- SW_CNT_MGMT_DROP
  ⟨0x0224, [], 0x0000, 0x0000, 0x0000, 0xFFFF_FFFF, 0x0000, 0x0000⟩, -- SW_CNT_SMP_DROP
  ⟨0x0228, [], 0x0000, 0x0000, 0x0000, 0xFFFF_FFFF, 0x0000, 0x0000⟩, -- SW_CNT_CB_DISCARD
  ⟨0x0300, [(8, 0x0004)], 0x801F_001F, 0x0000, 0x0000, 0x0000, 0x0000, 0x0000⟩, -- SW_PG
  ⟨0x0400, [], 0x0FFF, 0x0000, 0x0000, 0x0000, 0x0000, 0x0000⟩, -- SW_SID_IDX
  ⟨0x0404, [], 0x0000, 0x0000, 0x0000, 0x0000, 0x0003, 0x0000⟩] -- SW_SID_CMD
/-- Rows of block SW, part 2. -/
def rowsSW1 : List RegRow := [
  ⟨0x0410, [(8, 0x0004)], 0xFFFF_FFFF, 0x0000, 0x0000, 0x0000, 0x0000, 0x0000⟩, -- SW_SID_W
  ⟨0x0440, [], 0x0FFF, 0x0000, 0x0000, 0x0000, 0x0000, 0x0000⟩, -- SW_VLAN_IDX
  ⟨0x0444, [], 0x0000, 0x0000, 0x0000, 0x0000, 0x0003, 0x0000⟩, -- SW_VLAN_CMD
  ⟨0x0448, [], 0x0001_FFFF, 0x0000, 0x0000, 0x0000, 0x0000, 0x0000⟩, -- SW_VLAN_MEMBER
  ⟨0x044C, [], 0x0001_FFFF, 0x0000, 0x0000, 0x0000, 0x0000, 0x0000⟩, -- SW_VLAN_UNTAG
  ⟨0x0480, [], 0x7FFF, 0x0000, 0x0000, 0x0000, 0x0000, 0x0000⟩, -- SW_FT_IDX
  ⟨0x0484, [], 0x0000, 0x0000, 0x0000, 0x0000, 0x0000, 0x0000⟩, -- SW_FT_W0
  ⟨0x0488, [], 0x0000, 0x0000, 0x0000, 0x0000, 0x0000, 0x0000⟩, -- SW_FT_W1
  ⟨0x048C, [], 0x0000, 0x0000, 0x0000, 0x0000, 0x0000, 0x0000⟩, -- SW_FT_W2
  ⟨0x1000, [(17, 0x0080)], 0x0FFF_FC00, 0x0000, 0x0000, 0x0000, 0x0000, 0x8001_0400⟩, -- SW_PORT_CFG
  ⟨0x1004, [(17, 0x0080)], 0x00FF_FFFF, 0x0000, 0x0000, 0x0000, 0x0000, 0x00DA_C688⟩, -- SW_PCP_MAP
  ⟨0x1008, [(17, 0x0080)], 0x3FFF, 0x0000, 0x0000, 0x0000, 0x0000, 0x05F2⟩, -- SW_PORT_MAXF
  ⟨0x100C, [(17, 0x0080)], 0x0003_FFFF, 0x0000, 0x0000, 0x0000, 0x0000, 0x0800⟩, -- SW_CM_DEPTH
  ⟨0x1010, [(17, 0x0080), (3, 0x0004)], 0x0001_FFFF, 0x0000, 0x0000, 0x0000, 0x0000, 0x0000⟩, -- SW_CBS_SLOPE
  ⟨0x101C, [(17, 0x0080)], 0x0000, 0x0000, 0x0000, 0x0000, 0x0000, 0x0000⟩, -- SW_SMP
  ⟨0x1020, [(17, 0x0080)], 0x00FF, 0x4000_0000, 0x8000_0000, 0x0000, 0x0000, 0x0000⟩, -- SW_GCL_CTRL
  ⟨0x1024, [(17, 0x0080)], 0xFFFF_FFFF, 0x0000, 0x0000, 0x0000, 0x0000, 0x0000⟩, -- SW_GCL_BASE_S
  ⟨0x1028, [(17, 0x0080)], 0x3FFF_FFFF, 0x0000, 0x0000, 0x0000, 0x0000, 0x0000⟩, -- SW_GCL_BASE_NS
  ⟨0x102C, [(17, 0x0080)], 0x3FFF_FFFF, 0x0000, 0x0000, 0x0000, 0x0000, 0x000F_4240⟩, -- SW_GCL_CYCLE_NS
  ⟨0x1040, [(17, 0x0080)], 0x0000, 0x0000, 0x0000, 0xFFFF_FFFF, 0x0000, 0x0000⟩, -- SW_RX_FRAMES
  ⟨0x1044, [(17, 0x0080)], 0x0000, 0x0000, 0x0000, 0xFFFF_FFFF, 0x0000, 0x0000⟩, -- SW_TX_FRAMES
  ⟨0x1048, [(17, 0x0080)], 0x0000, 0x0000, 0x0000, 0xFFFF_FFFF, 0x0000, 0x0000⟩, -- SW_STOMP_RX
  ⟨0x104C, [(17, 0x0080)], 0x0000, 0x0000, 0x0000, 0xFFFF_FFFF, 0x0000, 0x0000⟩, -- SW_STOMP_TX
  ⟨0x1050, [(17, 0x0080)], 0x0000, 0x0000, 0x0000, 0xFFFF_FFFF, 0x0000, 0x0000⟩, -- SW_BAD_RX
  ⟨0x1054, [(17, 0x0080)], 0x0000, 0x0000, 0x0000, 0xFFFF_FFFF, 0x0000, 0x0000⟩, -- SW_DROP_RED
  ⟨0x1058, [(17, 0x0080)], 0x0000, 0x0000, 0x0000, 0xFFFF_FFFF, 0x0000, 0x0000⟩, -- SW_DROP_TAIL
  ⟨0x105C, [(17, 0x0080)], 0x0000, 0x0000, 0x0000, 0xFFFF_FFFF, 0x0000, 0x0000⟩, -- SW_DROP_FILTER
  ⟨0x1060, [(17, 0x0080)], 0x0000, 0x0000, 0x0000, 0xFFFF_FFFF, 0x0000, 0x0000⟩, -- SW_CM_MARK
  ⟨0x1064, [(17, 0x0080)], 0x0000, 0x0000, 0x0000, 0xFFFF_FFFF, 0x0000, 0x0000⟩, -- SW_FLUSH
  ⟨0x4000, [(14, 0x0800), (2, 0x0400), (128, 0x0008)], 0x007F, 0x0000, 0x0000, 0x0000, 0x0000, 0x007F⟩] -- SW_GCL_W0
/-- Rows of block SW, part 3. -/
def rowsSW2 : List RegRow := [
  ⟨0x4004, [(14, 0x0800), (2, 0x0400), (128, 0x0008)], 0x3FFF_FFFF, 0x0000, 0x0000, 0x0000, 0x0000, 0x0000⟩] -- SW_GCL_W1
/-- Rows of block SW. -/
def rowsSW : List RegRow := rowsSW0 ++ rowsSW1 ++ rowsSW2
/-- Rows of block MAC, part 1. -/
def rowsMAC0 : List RegRow := [
  ⟨0x0000, [(3, 0x0004)], 0x0000, 0x0000, 0x0000, 0x0000, 0x0000, 0x0000⟩, -- MAC_LANE
  ⟨0x0010, [], 0x0000, 0x0000, 0x0000, 0x0000, 0x0000, 0x0000⟩, -- MAC_LINK_STAT
  ⟨0x0014, [], 0x0000, 0x3FFF, 0x0000, 0x0000, 0x0000, 0x0000⟩, -- MAC_LINK_EVENT
  ⟨0x0018, [], 0x0003_FFFF, 0x0000, 0x0000, 0x0000, 0x0000, 0x2000⟩, -- MAC_PAUSE_XOFF
  ⟨0x001C, [], 0x0003_FFFF, 0x0000, 0x0000, 0x0000, 0x0000, 0x4000⟩, -- MAC_PAUSE_XON
  ⟨0x0020, [], 0x3FFE_FFFF, 0x0000, 0x0000, 0x0000, 0x4000_0000, 0x0000⟩, -- MAC_MDIO
  ⟨0x1000, [(14, 0x0100)], 0x0000, 0x0000, 0x0000, 0x0000, 0x0000, 0x0270⟩, -- MAC_PORT_MODE
  ⟨0x1004, [(14, 0x0100)], 0x0007, 0x0000, 0x0000, 0x0000, 0x0000, 0x0002⟩, -- MAC_RX_CFG
  ⟨0x1008, [(14, 0x0100)], 0x0003, 0x0000, 0x0000, 0x0000, 0x0000, 0x0000⟩, -- MAC_PAUSE_CFG
  ⟨0x100C, [(14, 0x0100)], 0xFFFF, 0x0000, 0x0000, 0x0000, 0x0000, 0x000A⟩, -- MAC_PAUSE_WD
  ⟨0x1010, [(14, 0x0100)], 0xFFFF_FFFF, 0x0000, 0x0000, 0x0000, 0x0000, 0x0000⟩, -- MAC_ADDR_LO
  ⟨0x1014, [(14, 0x0100)], 0xFFFF, 0x0000, 0x0000, 0x0000, 0x0000, 0x0000⟩, -- MAC_ADDR_HI
  ⟨0x1020, [(14, 0x0100), (16, 0x0004)], 0xFFFF_FFFF, 0x0000, 0x0000, 0x0000, 0x0000, 0x0000⟩, -- MAC_MC_HASH
  ⟨0x1060, [(14, 0x0100)], 0x0000, 0x0000, 0x0000, 0x0000, 0x0000, 0x0000⟩, -- MAC_RX_OCTETS_LO
  ⟨0x1064, [(14, 0x0100)], 0x0000, 0x0000, 0x0000, 0x0000, 0x0000, 0x0000⟩, -- MAC_RX_OCTETS_HI
  ⟨0x1068, [(14, 0x0100)], 0x0000, 0x0000, 0x0000, 0x0000, 0x0000, 0x0000⟩, -- MAC_TX_OCTETS_LO
  ⟨0x106C, [(14, 0x0100)], 0x0000, 0x0000, 0x0000, 0x0000, 0x0000, 0x0000⟩, -- MAC_TX_OCTETS_HI
  ⟨0x1070, [(14, 0x0100)], 0x0000, 0x0000, 0x0000, 0xFFFF_FFFF, 0x0000, 0x0000⟩, -- MAC_RX_UCAST
  ⟨0x1074, [(14, 0x0100)], 0x0000, 0x0000, 0x0000, 0xFFFF_FFFF, 0x0000, 0x0000⟩, -- MAC_RX_MCAST
  ⟨0x1078, [(14, 0x0100)], 0x0000, 0x0000, 0x0000, 0xFFFF_FFFF, 0x0000, 0x0000⟩, -- MAC_RX_BCAST
  ⟨0x107C, [(14, 0x0100)], 0x0000, 0x0000, 0x0000, 0xFFFF_FFFF, 0x0000, 0x0000⟩, -- MAC_RX_FCS_ERR
  ⟨0x1080, [(14, 0x0100)], 0x0000, 0x0000, 0x0000, 0xFFFF_FFFF, 0x0000, 0x0000⟩, -- MAC_RX_RUNT
  ⟨0x1084, [(14, 0x0100)], 0x0000, 0x0000, 0x0000, 0xFFFF_FFFF, 0x0000, 0x0000⟩, -- MAC_RX_JABBER
  ⟨0x1088, [(14, 0x0100)], 0x0000, 0x0000, 0x0000, 0xFFFF_FFFF, 0x0000, 0x0000⟩, -- MAC_RX_PCS_ERR
  ⟨0x108C, [(14, 0x0100)], 0x0000, 0x0000, 0x0000, 0xFFFF_FFFF, 0x0000, 0x0000⟩, -- MAC_RX_FILTERED
  ⟨0x1090, [(14, 0x0100)], 0x0000, 0x0000, 0x0000, 0xFFFF_FFFF, 0x0000, 0x0000⟩, -- MAC_RX_PAUSE
  ⟨0x1094, [(14, 0x0100)], 0x0000, 0x0000, 0x0000, 0xFFFF_FFFF, 0x0000, 0x0000⟩, -- MAC_TX_UCAST
  ⟨0x1098, [(14, 0x0100)], 0x0000, 0x0000, 0x0000, 0xFFFF_FFFF, 0x0000, 0x0000⟩, -- MAC_TX_MCAST
  ⟨0x109C, [(14, 0x0100)], 0x0000, 0x0000, 0x0000, 0xFFFF_FFFF, 0x0000, 0x0000⟩, -- MAC_TX_BCAST
  ⟨0x10A0, [(14, 0x0100)], 0x0000, 0x0000, 0x0000, 0xFFFF_FFFF, 0x0000, 0x0000⟩] -- MAC_TX_PAUSE
/-- Rows of block MAC, part 2. -/
def rowsMAC1 : List RegRow := [
  ⟨0x10A4, [(14, 0x0100)], 0x0000, 0x0000, 0x0000, 0xFFFF_FFFF, 0x0000, 0x0000⟩, -- MAC_PAUSE_WD_CNT
  ⟨0x10A8, [(14, 0x0100)], 0x0000, 0x0000, 0x0000, 0xFFFF_FFFF, 0x0000, 0x0000⟩, -- MAC_TX_TS
  ⟨0x10AC, [(14, 0x0100)], 0x0000, 0x0000, 0x0000, 0xFFFF_FFFF, 0x0000, 0x0000⟩] -- MAC_LINK_DOWN
/-- Rows of block MAC. -/
def rowsMAC : List RegRow := rowsMAC0 ++ rowsMAC1
/-- Rows of block TFR, part 1. -/
def rowsTFR0 : List RegRow := [
  ⟨0x0000, [], 0x0000, 0x0000, 0x0000, 0x0000, 0x0000, 0x0000⟩, -- TFR_STAT
  ⟨0x0004, [], 0x0000, 0x1FFF, 0x0000, 0x0000, 0x0000, 0x0000⟩, -- TFR_EVENT
  ⟨0x0008, [], 0x0000, 0x0000, 0x0000, 0x0000, 0x0000, 0x0000⟩, -- TFR_RING
  ⟨0x000C, [], 0x0000, 0x0000, 0x0000, 0x0000, 0x0000, 0x0000⟩, -- TFR_CYCLE_NS
  ⟨0x0010, [], 0x0000, 0x0000, 0x0000, 0x0000, 0x0000, 0x0000⟩, -- TFR_CYCLE
  ⟨0x0014, [], 0x0000, 0x0000, 0x0000, 0x0000, 0x0000, 0x0000⟩, -- TFR_EPOCH
  ⟨0x0018, [], 0x0000, 0x0000, 0x0000, 0x0000, 0x0000, 0x0000⟩, -- TFR_SYNC_CFG
  ⟨0x001C, [], 0x0000, 0x0000, 0x0000, 0x0000, 0x0000, 0x0000⟩, -- TFR_STEP_NS
  ⟨0x0020, [], 0x0000, 0x0000, 0x0000, 0x0000, 0x0000, 0x0000⟩, -- TFR_OFFSET
  ⟨0x0024, [], 0x0000, 0x0000, 0x0000, 0x0000, 0x0000, 0x0000⟩, -- TFR_RATE
  ⟨0x0028, [], 0x0000, 0x0000, 0x0000, 0x0000, 0x0000, 0x0000⟩, -- TFR_NREF
  ⟨0x002C, [], 0x0000, 0x0000, 0x0000, 0x0000, 0x0000, 0x0000⟩, -- TFR_LD_UP
  ⟨0x0030, [], 0x0000, 0x0000, 0x0000, 0x0000, 0x0000, 0x0000⟩, -- TFR_LD_DN
  ⟨0x0034, [], 0x0000, 0x0000, 0x0000, 0x0000, 0x0000, 0x0000⟩, -- TFR_ARR
  ⟨0x0038, [], 0x0000, 0x0000, 0x0000, 0x0000, 0x0000, 0x0000⟩, -- TFR_LOOP
  ⟨0x003C, [], 0x0000, 0x0000, 0x0000, 0x0000, 0x0000, 0x0000⟩, -- TFR_CLAIM
  ⟨0x0040, [], 0x0000, 0x0000, 0x0000, 0x0000, 0x0000, 0x0000⟩, -- TFR_WKC
  ⟨0x0044, [], 0x0000, 0x0000, 0x0000, 0x0000, 0x0000, 0x0000⟩, -- TFR_UID
  ⟨0x0048, [], 0x0000, 0x0000, 0x0000, 0x0000, 0x0000, 0x0000⟩, -- TFR_LIMITS
  ⟨0x004C, [], 0x0000, 0x0000, 0x0000, 0x0000, 0x0000, 0x0000⟩, -- TFR_GUARD
  ⟨0x0080, [], 0x0000, 0x0000, 0x0000, 0xFFFF_FFFF, 0x0000, 0x0000⟩, -- TFR_CNT_RX
  ⟨0x0084, [], 0x0000, 0x0000, 0x0000, 0xFFFF_FFFF, 0x0000, 0x0000⟩, -- TFR_CNT_BAD
  ⟨0x0088, [], 0x0000, 0x0000, 0x0000, 0xFFFF_FFFF, 0x0000, 0x0000⟩, -- TFR_CNT_STOMP_TX
  ⟨0x008C, [], 0x0000, 0x0000, 0x0000, 0xFFFF_FFFF, 0x0000, 0x0000⟩, -- TFR_CNT_STALE
  ⟨0x0090, [], 0x0000, 0x0000, 0x0000, 0xFFFF_FFFF, 0x0000, 0x0000⟩, -- TFR_CNT_STALE_MASTER
  ⟨0x0094, [], 0x0000, 0x0000, 0x0000, 0xFFFF_FFFF, 0x0000, 0x0000⟩, -- TFR_CNT_NOINSERT
  ⟨0x0098, [], 0x0000, 0x0000, 0x0000, 0xFFFF_FFFF, 0x0000, 0x0000⟩, -- TFR_CNT_MISS
  ⟨0x009C, [], 0x0000, 0x0000, 0x0000, 0xFFFF_FFFF, 0x0000, 0x0000⟩, -- TFR_CNT_STEP
  ⟨0x00A0, [], 0x0000, 0x0000, 0x0000, 0xFFFF_FFFF, 0x0000, 0x0000⟩, -- TFR_CNT_FEW
  ⟨0x00A4, [], 0x0000, 0x0000, 0x0000, 0xFFFF_FFFF, 0x0000, 0x0000⟩] -- TFR_CNT_WKC
/-- Rows of block TFR, part 2. -/
def rowsTFR1 : List RegRow := [
  ⟨0x00A8, [], 0x0000, 0x0000, 0x0000, 0xFFFF_FFFF, 0x0000, 0x0000⟩, -- TFR_CNT_LATE
  ⟨0x00AC, [], 0x0000, 0x0000, 0x0000, 0xFFFF_FFFF, 0x0000, 0x0000⟩, -- TFR_CNT_FOREIGN
  ⟨0x00B0, [], 0x0000, 0x0000, 0x0000, 0xFFFF_FFFF, 0x0000, 0x0000⟩, -- TFR_CNT_GUARD
  ⟨0x0100, [(16, 0x0004)], 0x0000, 0x8000_0000, 0x0000, 0x0000, 0x0000, 0x0000⟩, -- TFR_REF_OUT
  ⟨0x0180, [], 0x0000, 0xFFFF_FFFF, 0x0000, 0x0000, 0x0000, 0x0000⟩, -- TFR_WIN_ERR_LO
  ⟨0x0184, [], 0x0000, 0xFFFF_FFFF, 0x0000, 0x0000, 0x0000, 0x0000⟩, -- TFR_WIN_ERR_HI
  ⟨0x0200, [], 0x0000, 0x8000_0000, 0x0000, 0x0000, 0x0000, 0x0000⟩, -- TFR_LAST_DEAD
  ⟨0x0400, [(128, 0x0004)], 0x0000, 0x0000, 0x0000, 0x0000, 0x0000, 0x0000⟩] -- TFR_DEAD
/-- Rows of block TFR. -/
def rowsTFR : List RegRow := rowsTFR0 ++ rowsTFR1
/-- Rows of block TB, part 1. -/
def rowsTB0 : List RegRow := [
  ⟨0x0000, [], 0x0000, 0x0000, 0x0000, 0x0000, 0x0000, 0x0020_0000⟩, -- TB_STAT
  ⟨0x0004, [], 0x0000, 0x01FF, 0x0000, 0x0000, 0x0000, 0x0000⟩, -- TB_EVENT
  ⟨0x0008, [], 0x0000, 0x0000, 0x0000, 0x0000, 0x0000, 0x0000⟩, -- TB_NOW_LO
  ⟨0x000C, [], 0x0000, 0x0000, 0x0000, 0x0000, 0x0000, 0x0000⟩, -- TB_NOW_HI
  ⟨0x0020, [], 0xFFFF_FFFF, 0x0000, 0x0000, 0x0000, 0x0000, 0x0000⟩, -- TB_RATE
  ⟨0x0024, [], 0x0000, 0x0000, 0x0000, 0x0000, 0xFFFF_FFFF, 0x0000⟩, -- TB_SLEW
  ⟨0x0028, [], 0x0000, 0x0000, 0x0000, 0x0000, 0x0000, 0x0000⟩, -- TB_SLEW_REM
  ⟨0x002C, [], 0x3FFF, 0x0000, 0x0000, 0x0000, 0x0000, 0x2710⟩, -- TB_SLEW_MAX
  ⟨0x0030, [], 0xFFFF_FFFF, 0x0000, 0x0000, 0x0000, 0x0000, 0x0000⟩, -- TB_STEP_S
  ⟨0x0034, [], 0xFFFF_FFFF, 0x0000, 0x0000, 0x0000, 0x0000, 0x0000⟩, -- TB_STEP_SH
  ⟨0x0038, [], 0xBFFF_FFFF, 0x0000, 0x0000, 0x0000, 0x0000, 0x0000⟩, -- TB_STEP_NS
  ⟨0x003C, [], 0x0000, 0x0000, 0x0000, 0x0000, 0x0003, 0x0000⟩, -- TB_STEP_CTRL
  ⟨0x0040, [], 0xFFFF, 0x0000, 0x0000, 0x0000, 0x0000, 0x07D0⟩, -- TB_STEER_WD
  ⟨0x0044, [], 0x000F_FFFF, 0x0000, 0x0000, 0x0000, 0x0000, 0x0000⟩, -- TB_UTC
  ⟨0x0048, [], 0x0000, 0x0000, 0x0000, 0x0000, 0x0000, 0x0000⟩, -- TB_SLV_OFF
  ⟨0x004C, [], 0x0000, 0x0000, 0x0000, 0x0000, 0x0000, 0x0000⟩, -- TB_INC
  ⟨0x0050, [], 0x0000, 0x0000, 0x0000, 0xFFFF_FFFF, 0x0000, 0x0000⟩, -- TB_CNT_STEP
  ⟨0x0054, [], 0x0000, 0x0000, 0x0000, 0xFFFF_FFFF, 0x0000, 0x0000⟩, -- TB_CNT_TC_SKIP
  ⟨0x0060, [], 0x0000, 0x0000, 0x0000, 0x0000, 0x0001, 0x0000⟩, -- TB_SNAP_CTRL
  ⟨0x0064, [], 0x0000, 0x0000, 0x0000, 0x0000, 0x0000, 0x0000⟩, -- TB_SNAP_S
  ⟨0x0068, [], 0x0000, 0x0000, 0x0000, 0x0000, 0x0000, 0x0000⟩, -- TB_SNAP_SH
  ⟨0x006C, [], 0x0000, 0x0000, 0x0000, 0x0000, 0x0000, 0x0000⟩, -- TB_SNAP_NS
  ⟨0x0070, [], 0x0000, 0x0000, 0x0000, 0x0000, 0x0000, 0x0000⟩, -- TB_SNAP_LIN_LO
  ⟨0x0074, [], 0x0000, 0x0000, 0x0000, 0x0000, 0x0000, 0x0000⟩, -- TB_SNAP_LIN_HI
  ⟨0x0100, [(14, 0x0010)], 0xFFFF_FFFF, 0x0000, 0x0000, 0x0000, 0x0000, 0x0000⟩, -- TB_PCOMP
  ⟨0x0104, [(14, 0x0010)], 0x0000, 0x0000, 0x0000, 0x0000, 0x0000, 0x0000⟩, -- TB_PTC
  ⟨0x0108, [(14, 0x0010)], 0xFFFF_FFFF, 0x0000, 0x0000, 0x0000, 0x0000, 0x0000⟩, -- TB_PLINK
  ⟨0x1000, [(64, 0x0020)], 0xFFFF_FFFF, 0x0000, 0x0000, 0x0000, 0x0000, 0x0000⟩, -- TB_CMP_TGT_LO
  ⟨0x1004, [(64, 0x0020)], 0xFFFF_FFFF, 0x0000, 0x0000, 0x0000, 0x0000, 0x0000⟩, -- TB_CMP_TGT_HI
  ⟨0x1008, [(64, 0x0020)], 0xFFFF_FFFF, 0x0000, 0x0000, 0x0000, 0x0000, 0x0000⟩] -- TB_CMP_PERIOD
/-- Rows of block TB, part 2. -/
def rowsTB1 : List RegRow := [
  ⟨0x100C, [(64, 0x0020)], 0x000F, 0x0000, 0x0000, 0x0000, 0x0000, 0x0000⟩, -- TB_CMP_CTRL
  ⟨0x1010, [(64, 0x0020)], 0x0000, 0x0006, 0x0000, 0xFF00, 0x0000, 0x0000⟩, -- TB_CMP_STAT
  ⟨0x1014, [(64, 0x0020)], 0x0000, 0x0000, 0x0000, 0x0000, 0x0000, 0x0020⟩, -- TB_CMP_OWNER
  ⟨0x1800, [(16, 0x0008)], 0x003F_E000, 0x0002, 0x0000, 0x0000, 0x0000, 0xFF00_0000⟩, -- TB_TRIG_CFG
  ⟨0x1804, [(16, 0x0008)], 0xFFFF, 0x0000, 0x0000, 0x0000, 0x0000, 0x0001⟩, -- TB_TRIG_WIDTH
  ⟨0x1900, [(32, 0x0020)], 0x0000, 0x0000, 0x0000, 0x0000, 0x0000, 0x0000⟩, -- TB_CAP_LO
  ⟨0x1904, [(32, 0x0020)], 0x0000, 0x0000, 0x0000, 0x0000, 0x0000, 0x0000⟩, -- TB_CAP_HI
  ⟨0x1908, [(32, 0x0020)], 0xFF3F, 0x0000, 0x0000, 0x0000, 0x0000, 0x0000⟩, -- TB_CAP_CFG
  ⟨0x190C, [(32, 0x0020)], 0x0000, 0x0000, 0x0000, 0xFF00, 0x0000, 0x0000⟩, -- TB_CAP_STAT
  ⟨0x1910, [(32, 0x0020)], 0x0000, 0x0000, 0x0000, 0x0000, 0x0000, 0x0020⟩] -- TB_CAP_OWNER
/-- Rows of block TB. -/
def rowsTB : List RegRow := rowsTB0 ++ rowsTB1
/-- Rows of block CAN, part 1. -/
def rowsCAN0 : List RegRow := [
  ⟨0x0000, [(4, 0x4000)], 0x0007, 0x0000, 0x0000, 0x0000, 0x0030, 0x0000⟩, -- CAN_CTRL
  ⟨0x0004, [(4, 0x4000)], 0xFFFF_077F, 0x0000, 0x0000, 0x0000, 0x0000, 0x0300_0300⟩, -- CAN_CFG
  ⟨0x0008, [(4, 0x4000)], 0x0000, 0x0000, 0x0000, 0x0000, 0x0000, 0x0000⟩, -- CAN_STAT
  ⟨0x000C, [(4, 0x4000)], 0x0000, 0xFFFF, 0x0000, 0x0000, 0x0000, 0x0000⟩, -- CAN_EVENT
  ⟨0x0010, [(4, 0x4000)], 0xFFFF, 0x0000, 0x0000, 0x0000, 0x0000, 0x0000⟩, -- CAN_IRQ_EN
  ⟨0x0014, [(4, 0x4000)], 0x3FFF_FFFF, 0x0000, 0x0000, 0x0000, 0x0000, 0x0100⟩, -- CAN_NBT
  ⟨0x0018, [(4, 0x4000)], 0x1F1F_3F1F, 0x0000, 0x0000, 0x0000, 0x0000, 0x0100⟩, -- CAN_DBT
  ⟨0x001C, [(4, 0x4000)], 0x1F1F_3F1F, 0x0000, 0x0000, 0x0000, 0x0000, 0x0100⟩, -- CAN_XBT
  ⟨0x0020, [(4, 0x4000)], 0x7F01, 0x0000, 0x0000, 0x0000, 0x0000, 0x0000⟩, -- CAN_TDC
  ⟨0x0024, [(4, 0x4000)], 0x003F_3F3F, 0x0000, 0x0000, 0x0000, 0x0000, 0x0000⟩, -- CAN_PWM
  ⟨0x0028, [(4, 0x4000)], 0x0000, 0x0000, 0x0000, 0x0077_0000, 0x0000, 0x0000⟩, -- CAN_ERR
  ⟨0x002C, [(4, 0x4000)], 0x0000, 0x0000, 0x0000, 0x0000, 0x0000, 0x0001_0020⟩, -- CAN_OWNER
  ⟨0x0030, [(4, 0x4000)], 0xFFFF_FFFF, 0x0000, 0x0000, 0x0000, 0x0000, 0x0000⟩, -- CAN_WAKE_ID
  ⟨0x0034, [(4, 0x4000)], 0xFFFF_FFFF, 0x0000, 0x0000, 0x0000, 0x0000, 0x0000⟩, -- CAN_WAKE_MASK
  ⟨0x0038, [(4, 0x4000)], 0xFFFF_FFFF, 0x0000, 0x0000, 0x0000, 0x0000, 0x0000⟩, -- CAN_WAKE_DATA_LO
  ⟨0x003C, [(4, 0x4000)], 0xFFFF_FFFF, 0x0000, 0x0000, 0x0000, 0x0000, 0x0000⟩, -- CAN_WAKE_DATA_HI
  ⟨0x0040, [(4, 0x4000)], 0xFFFF_FFFF, 0x0000, 0x0000, 0x0000, 0x0000, 0x0000⟩, -- CAN_WAKE_DMASK_LO
  ⟨0x0044, [(4, 0x4000)], 0xFFFF_FFFF, 0x0000, 0x0000, 0x0000, 0x0000, 0x0000⟩, -- CAN_WAKE_DMASK_HI
  ⟨0x0048, [(4, 0x4000), (8, 0x0004)], 0xFFFF_FFFF, 0x0000, 0x0000, 0x0000, 0x0000, 0x0000⟩, -- CAN_ABR_CAND
  ⟨0x0068, [(4, 0x4000)], 0x0FF0_0000, 0x0000, 0x0000, 0x0000, 0x8000_0000, 0x00A0_0000⟩, -- CAN_ABR
  ⟨0x0070, [(4, 0x4000), (2, 0x0010)], 0x0001, 0x0000, 0x0000, 0x0000, 0x0000, 0x0000⟩, -- CAN_Q_CFG
  ⟨0x0074, [(4, 0x4000), (2, 0x0010)], 0x0000, 0x0000, 0x0000, 0x0000, 0x0000, 0x0000⟩, -- CAN_Q_STAT
  ⟨0x0078, [(4, 0x4000), (2, 0x0010)], 0x0000, 0x0000, 0x0000, 0x0000, 0x0003, 0x0000⟩, -- CAN_Q_CTRL
  ⟨0x007C, [(4, 0x4000), (2, 0x0010)], 0x0000, 0x0000, 0x0000, 0x0000, 0x0000, 0x0000⟩, -- CAN_Q_BASE
  ⟨0x00A0, [(4, 0x4000)], 0x0000, 0x0000, 0x0000, 0xFFFF_FFFF, 0x0000, 0x0000⟩, -- CAN_CNT_RX
  ⟨0x00A4, [(4, 0x4000)], 0x0000, 0x0000, 0x0000, 0xFFFF_FFFF, 0x0000, 0x0000⟩, -- CAN_CNT_TX
  ⟨0x00A8, [(4, 0x4000)], 0x0000, 0x0000, 0x0000, 0xFFFF_FFFF, 0x0000, 0x0000⟩, -- CAN_CNT_ERRF
  ⟨0x00AC, [(4, 0x4000)], 0x0000, 0x0000, 0x0000, 0xFFFF_FFFF, 0x0000, 0x0000⟩, -- CAN_CNT_OVR_A
  ⟨0x00B0, [(4, 0x4000)], 0x0000, 0x0000, 0x0000, 0xFFFF_FFFF, 0x0000, 0x0000⟩, -- CAN_CNT_OVR_B
  ⟨0x00B4, [(4, 0x4000)], 0x0000, 0x0000, 0x0000, 0xFFFF_FFFF, 0x0000, 0x0000⟩] -- CAN_CNT_NOMATCH
/-- Rows of block CAN, part 2. -/
def rowsCAN1 : List RegRow := [
  ⟨0x00B8, [(4, 0x4000)], 0x0000, 0x0000, 0x0000, 0xFFFF_FFFF, 0x0000, 0x0000⟩, -- CAN_CNT_TOOLONG
  ⟨0x00BC, [(4, 0x4000)], 0x0000, 0x0000, 0x0000, 0xFFFF_FFFF, 0x0000, 0x0000⟩, -- CAN_CNT_BOFF
  ⟨0x00C0, [(4, 0x4000)], 0x0000, 0x0000, 0x0000, 0xFFFF_FFFF, 0x0000, 0x0000⟩, -- CAN_CNT_FIFO_DROP
  ⟨0x00C4, [(4, 0x4000)], 0x0000, 0x0000, 0x0000, 0xFFFF_FFFF, 0x0000, 0x0000⟩, -- CAN_CNT_WAKE
  ⟨0x00E0, [(4, 0x4000), (3, 0x0004)], 0x0004, 0x0000, 0x0000, 0x0000, 0x0003, 0x0000⟩, -- CAN_TX_CTRL
  ⟨0x0100, [(4, 0x4000), (64, 0x0010)], 0x1FFF_FFFF, 0x0000, 0x0000, 0x0000, 0x0000, 0x0000⟩, -- CAN_FLT_MATCH
  ⟨0x0104, [(4, 0x4000), (64, 0x0010)], 0x1FFF_FFFF, 0x0000, 0x0000, 0x0000, 0x0000, 0x0000⟩, -- CAN_FLT_MASK
  ⟨0x0108, [(4, 0x4000), (64, 0x0010)], 0xFFFF_00F7, 0x0000, 0x0000, 0x0000, 0x0000, 0x0000⟩, -- CAN_FLT_CTRL
  ⟨0x0800, [(4, 0x4000), (3, 0x0900), (520, 0x0004)], 0xFFFF_FFFF, 0x0000, 0x0000, 0x0000, 0x0000, 0x0000⟩, -- CAN_TXB
  ⟨0x2400, [(4, 0x4000), (2, 0x0900), (520, 0x0004)], 0x0000, 0x0000, 0x0000, 0x0000, 0x0000, 0x0000⟩] -- CAN_RX
/-- Rows of block CAN. -/
def rowsCAN : List RegRow := rowsCAN0 ++ rowsCAN1
/-- Rows of block CE, part 1. -/
def rowsCE0 : List RegRow := [
  ⟨0x0000, [], 0x0000, 0x0000, 0x0000, 0x0000, 0x0000, 0x0000⟩, -- CE_ID
  ⟨0x0004, [], 0x0000, 0x0000, 0x0000, 0x0000, 0x0000, 0x0000⟩, -- CE_STAT
  ⟨0x0008, [], 0x0000, 0x0000, 0x0000, 0x0000, 0x000F, 0x0000⟩, -- CE_CTRL
  ⟨0x000C, [], 0x0000, 0x0000, 0x0000, 0x0000, 0x0000, 0x0000⟩, -- CE_HALT_CAUSE
  ⟨0x0010, [], 0xFFFF, 0x0000, 0x0000, 0x0000, 0x0000, 0x0000⟩, -- CE_PC
  ⟨0x0014, [], 0x001F, 0x0000, 0x0000, 0x0000, 0x0000, 0x0000⟩, -- CE_FLAGS
  ⟨0x0018, [], 0xFFFF_FFFF, 0x0000, 0x0000, 0x0000, 0x0000, 0x0002_C000⟩, -- CE_SP_LO
  ⟨0x001C, [], 0xFFFF_FFFF, 0x0000, 0x0000, 0x0000, 0x0000, 0x0003_0000⟩, -- CE_SP_HI
  ⟨0x0020, [(8, 0x0004)], 0xFFFF_FFFF, 0x0000, 0x0000, 0x0000, 0x0000, 0x0000⟩, -- CE_B
  ⟨0x0040, [], 0x0000, 0x0000, 0x0000, 0x0000, 0x0000, 0x0000⟩, -- CE_FADDR
  ⟨0x0044, [], 0x0000, 0x0000, 0x0000, 0x0000, 0x0000, 0x0000⟩, -- CE_FCAUSE
  ⟨0x0048, [], 0x0000, 0x009F, 0x0000, 0x0000, 0x0000, 0x0000⟩, -- CE_EVT
  ⟨0x004C, [], 0xFFFF_FFFF, 0x0000, 0x0000, 0x0000, 0x0000, 0x0000⟩, -- CE_SP
  ⟨0x0050, [(3, 0x0008)], 0x0000, 0x0000, 0x0000, 0x0000, 0x0000, 0x0000⟩, -- CE_WIN_MAP
  ⟨0x0054, [(3, 0x0008)], 0x0000, 0x0000, 0x0000, 0x0000, 0x0000, 0x0000⟩, -- CE_WIN_LEN
  ⟨0x0070, [], 0x0000, 0x0000, 0x0000, 0x0000, 0x0000, 0x0000⟩, -- CE_CYC_USED
  ⟨0x0080, [(8, 0x0004)], 0xFFFF_FFFF, 0x0000, 0x0000, 0x0000, 0x0000, 0x0000⟩, -- CE_FS
  ⟨0x00C0, [], 0x0000, 0x0000, 0x0000, 0xFFFF_FFFF, 0x0000, 0x0000⟩, -- CE_CNT_CYCLES
  ⟨0x00C4, [], 0x0000, 0x0000, 0x0000, 0xFFFF_FFFF, 0x0000, 0x0000⟩, -- CE_CNT_EXC
  ⟨0x00C8, [], 0x0000, 0x0000, 0x0000, 0xFFFF_FFFF, 0x0000, 0x0000⟩, -- CE_CNT_ABORT
  ⟨0x00CC, [], 0x0000, 0x0000, 0x0000, 0xFFFF_FFFF, 0x0000, 0x0000⟩, -- CE_CNT_OVERRUN
  ⟨0x00D0, [], 0x0000, 0x0000, 0x0000, 0xFFFF_FFFF, 0x0000, 0x0000⟩, -- CE_CNT_NOSLOT
  ⟨0x00D4, [], 0x0000, 0x0000, 0x0000, 0xFFFF_FFFF, 0x0000, 0x0000⟩, -- CE_ECC_CORR
  ⟨0x00D8, [], 0x0000, 0x0000, 0x0000, 0xFFFF_FFFF, 0x0000, 0x0000⟩, -- CE_CNT_STALL
  ⟨0x0100, [], 0x0000, 0x0000, 0x0000, 0x0000, 0x0000, 0x0000⟩, -- CE_PEND_LO
  ⟨0x0104, [], 0x0000, 0x0000, 0x0000, 0x0000, 0x0000, 0x0000⟩, -- CE_PEND_HI
  ⟨0x1000, [(63, 0x0080)], 0x8000_FFFF, 0x0000, 0x0000, 0x0000, 0x0000, 0x0000⟩, -- CE_SLOT_W0
  ⟨0x1004, [(63, 0x0080)], 0x1FFF_FFF0, 0x0000, 0x0000, 0x0000, 0x0000, 0x0000⟩, -- CE_SLOT_W1
  ⟨0x1008, [(63, 0x0080)], 0x001F_FFFF, 0x0000, 0x0000, 0x0000, 0x0000, 0x0000⟩, -- CE_SLOT_W2
  ⟨0x100C, [(63, 0x0080)], 0x001F_FFFF, 0x0000, 0x0000, 0x0000, 0x0000, 0x0000⟩] -- CE_SLOT_W3
/-- Rows of block CE, part 2. -/
def rowsCE1 : List RegRow := [
  ⟨0x1010, [(63, 0x0080)], 0xFFFF_FFFF, 0x0000, 0x0000, 0x0000, 0x0000, 0x0000⟩, -- CE_SLOT_W4
  ⟨0x1014, [(63, 0x0080)], 0xFFFF_FFFF, 0x0000, 0x0000, 0x0000, 0x0000, 0x0000⟩, -- CE_SLOT_W5
  ⟨0x1018, [(63, 0x0080)], 0x00FF_FFFF, 0x0000, 0x0000, 0x0000, 0x0000, 0x0000⟩, -- CE_SLOT_W6
  ⟨0x1020, [(63, 0x0080), (8, 0x0008)], 0x803F_FFFF, 0x0000, 0x0000, 0x0000, 0x0000, 0x0000⟩, -- CE_GRANT_W0
  ⟨0x1024, [(63, 0x0080), (8, 0x0008)], 0x000F_FFFF, 0x0000, 0x0000, 0x0000, 0x0000, 0x0000⟩, -- CE_GRANT_W1
  ⟨0x1060, [(63, 0x0080)], 0x0000, 0x0000, 0x0000, 0x0000, 0x0000, 0x0000⟩, -- CE_SLOT_W24
  ⟨0x1064, [(63, 0x0080)], 0x0000, 0x0000, 0x0000, 0xFFFF_FFFF, 0x0000, 0x0000⟩, -- CE_SLOT_W25
  ⟨0x1068, [(63, 0x0080)], 0x0000, 0x0000, 0x0000, 0x0000, 0x0000, 0x0000⟩, -- CE_SLOT_W26
  ⟨0x106C, [(63, 0x0080)], 0x0000, 0x0000, 0x0000, 0x0000, 0x0000, 0x0000⟩] -- CE_SLOT_W27
/-- Rows of block CE. -/
def rowsCE : List RegRow := rowsCE0 ++ rowsCE1
/-- Rows of block HLT, part 1. -/
def rowsHLT0 : List RegRow := [
  ⟨0x0000, [], 0x0000, 0x0000, 0x0000, 0x0000, 0x0000, 0x0F00_0000⟩, -- HLT_STAT
  ⟨0x0004, [], 0x0000, 0x3FFF, 0x0000, 0x0000, 0x0000, 0x0000⟩, -- HLT_EVENT
  ⟨0x0010, [], 0x0000, 0x0000, 0x0000, 0x0000, 0x0000, 0x0000⟩, -- HLT_TEST_STAT
  ⟨0x0014, [], 0x3FFF, 0x0000, 0x0000, 0x0000, 0x0000, 0x03E8⟩, -- HLT_TEST_QMAX
  ⟨0x0018, [], 0x0000, 0x0000, 0x0000, 0x0000, 0x0000, 0x0000⟩, -- HLT_TEST_LAST
  ⟨0x001C, [], 0x0000, 0x0000, 0x0000, 0x0000, 0x0000, 0x0000⟩, -- HLT_BIST_DETAIL
  ⟨0x0020, [], 0x0000, 0x0000, 0x0000, 0x0000, 0x0000, 0x0000⟩, -- HLT_OOS_CE
  ⟨0x0024, [], 0x0000, 0x0000, 0x0000, 0x0000, 0x0000, 0x0000⟩, -- HLT_OOS_CMP_LO
  ⟨0x0028, [], 0x0000, 0x0000, 0x0000, 0x0000, 0x0000, 0x0000⟩, -- HLT_OOS_CMP_HI
  ⟨0x002C, [], 0x0000, 0x0000, 0x0000, 0x0000, 0x0000, 0x0000⟩, -- HLT_OOS_MISC
  ⟨0x0040, [], 0xFFFF_000F, 0x0000, 0x0000, 0x0000, 0x0000, 0x0000⟩, -- HLT_UNIT_SEL
  ⟨0x0044, [], 0x0000, 0x0000, 0x0000, 0x0000, 0x0000, 0x0000⟩, -- HLT_UNIT_STAT
  ⟨0x0048, [], 0x0000, 0x0000, 0x0000, 0x0000, 0x0000, 0x0000⟩, -- HLT_UNIT_COUNTS
  ⟨0x004C, [], 0x0000, 0x0000, 0x0000, 0x0000, 0x0000, 0x0000⟩, -- HLT_UNIT_LAST_S
  ⟨0x0050, [], 0x0000, 0x0000, 0x0000, 0x0000, 0x0000, 0x0000⟩, -- HLT_UNIT_DETAIL
  ⟨0x0100, [(8, 0x0010)], 0x0000, 0x0000, 0x0000, 0x0000, 0x0000, 0x0000⟩, -- HLT_DOM_DELAY
  ⟨0x0104, [(8, 0x0010)], 0x0000, 0x0000, 0x0000, 0x0000, 0x0000, 0x0000⟩, -- HLT_DOM_GB
  ⟨0x0108, [(8, 0x0010)], 0x0000, 0x0000, 0x0000, 0x0000, 0x0000, 0x0000⟩, -- HLT_DOM_AGE
  ⟨0x010C, [(8, 0x0010)], 0x0000, 0x0000, 0x0000, 0x0000, 0x0000, 0x0000⟩, -- HLT_DOM_FCST
  ⟨0x0200, [(17, 0x0004)], 0x0000, 0x0000, 0x0000, 0x0000, 0x0000, 0x0000⟩, -- HLT_RET
  ⟨0x0300, [(11, 0x0004)], 0x0000, 0x0000, 0x0000, 0x0000, 0x0000, 0x0000⟩, -- HLT_EYE
  ⟨0x0380, [(3, 0x0004)], 0x0000, 0x0000, 0x0000, 0x0000, 0x0000, 0x0000⟩, -- HLT_DRV
  ⟨0x0400, [], 0x0000, 0x0000, 0x0000, 0xFFFF_FFFF, 0x0000, 0x0000⟩, -- HLT_CNT_TEST
  ⟨0x0404, [], 0x0000, 0x0000, 0x0000, 0xFFFF_FFFF, 0x0000, 0x0000⟩, -- HLT_CNT_TEST_FAIL
  ⟨0x0408, [], 0x0000, 0x0000, 0x0000, 0xFFFF_FFFF, 0x0000, 0x0000⟩, -- HLT_CNT_TEST_ABORT
  ⟨0x040C, [], 0x0000, 0x0000, 0x0000, 0xFFFF_FFFF, 0x0000, 0x0000⟩, -- HLT_CNT_DEFER
  ⟨0x0410, [], 0x0000, 0x0000, 0x0000, 0xFFFF_FFFF, 0x0000, 0x0000⟩, -- HLT_CNT_FENCED
  ⟨0x0414, [], 0x0000, 0x0000, 0x0000, 0xFFFF_FFFF, 0x0000, 0x0000⟩, -- HLT_CNT_LATE
  ⟨0x0418, [], 0x0000, 0x0000, 0x0000, 0xFFFF_FFFF, 0x0000, 0x0000⟩, -- HLT_CNT_QUEUED
  ⟨0x0500, [], 0x0000, 0x0000, 0x0000, 0x0000, 0x0000, 0x0000⟩] -- HLT_LIFE_HOURS
/-- Rows of block HLT, part 2. -/
def rowsHLT1 : List RegRow := [
  ⟨0x0504, [], 0x0000, 0x0000, 0x0000, 0x0000, 0x0000, 0x0000⟩, -- HLT_LIFE_RESETS
  ⟨0x0508, [], 0x0000, 0x0000, 0x0000, 0x0000, 0x0000, 0x0000⟩, -- HLT_LIFE_PWRLOSS
  ⟨0x050C, [], 0x0000, 0x0000, 0x0000, 0x0000, 0x0000, 0x0000⟩, -- HLT_LIFE_FAULTS
  ⟨0x0510, [], 0x0000, 0x0000, 0x0000, 0x0000, 0x0000, 0x0000⟩, -- HLT_LIFE_TESTS
  ⟨0x0514, [], 0x0000, 0x0000, 0x0000, 0x0000, 0x0000, 0x0000⟩, -- HLT_LIFE_ENTRIES
  ⟨0x8000, [(2, 0x0100)], 0x0000, 0x0000, 0x0000, 0x0000, 0x0000, 0x0000⟩, -- SPR_STAT
  ⟨0x8004, [(2, 0x0100)], 0x0000, 0x0000, 0x0000, 0xFFFF_FFFF, 0x0000, 0x0000⟩, -- SPR_LS_PASS
  ⟨0x8008, [(2, 0x0100)], 0x0000, 0x0000, 0x0000, 0x0000, 0x0000, 0x0000⟩, -- SPR_LS_NEXT
  ⟨0x800C, [(2, 0x0100)], 0x0000, 0x0000, 0x0000, 0x0000, 0x0000, 0x0000⟩, -- SPR_PASS_S
  ⟨0x8010, [(2, 0x0100)], 0x0000, 0x0000, 0x0000, 0x0000, 0x0000, 0x0000⟩, -- SPR_PASS_NS
  ⟨0x8014, [(2, 0x0100)], 0x0000, 0x0000, 0x0000, 0x0000, 0x0000, 0x0000⟩, -- SPR_FAULT_S
  ⟨0x8018, [(2, 0x0100)], 0x0000, 0x0000, 0x0000, 0x0000, 0x0000, 0x0000⟩, -- SPR_FAULT_NS
  ⟨0x801C, [(2, 0x0100)], 0x0000, 0x0000, 0x0000, 0x0000, 0x0000, 0x0000⟩, -- SPR_FAULT_POS
  ⟨0x8020, [(2, 0x0100)], 0x0000, 0x0000, 0x0000, 0x0000, 0x0000, 0x0000⟩, -- SPR_EXC
  ⟨0x8024, [(2, 0x0100)], 0x0000, 0x0000, 0x0000, 0x0000, 0x0000, 0x0000⟩, -- SPR_EXC_PC
  ⟨0x8028, [(2, 0x0100)], 0x0000, 0x0000, 0x0000, 0xFFFF_FFFF, 0x0000, 0x0000⟩, -- SPR_ECC_CORR
  ⟨0x802C, [(2, 0x0100)], 0x0100, 0x0000, 0x0000, 0x0000, 0x0007, 0x0000⟩, -- SPR_DBG_CTRL
  ⟨0x8030, [(2, 0x0100)], 0xFFFF_FFFF, 0x0000, 0x0000, 0x0000, 0x0000, 0x0000⟩, -- SPR_ACC
  ⟨0x8034, [(2, 0x0100)], 0xFFFF_FFFF, 0x0000, 0x0000, 0x0000, 0x0000, 0x0000⟩, -- SPR_X
  ⟨0x8038, [(2, 0x0100)], 0xFFFF_FFFF, 0x0000, 0x0000, 0x0000, 0x0000, 0x0000⟩, -- SPR_Y
  ⟨0x803C, [(2, 0x0100)], 0xFFFF_FFFF, 0x0000, 0x0000, 0x0000, 0x0000, 0x0000⟩, -- SPR_SP
  ⟨0x8040, [(2, 0x0100)], 0xFFFF_FFFF, 0x0000, 0x0000, 0x0000, 0x0000, 0x0000⟩, -- SPR_PC
  ⟨0x8044, [(2, 0x0100)], 0x001F, 0x0000, 0x0000, 0x0000, 0x0000, 0x0000⟩, -- SPR_FLAGS
  ⟨0x8048, [(2, 0x0100)], 0x0000, 0x0000, 0x0000, 0x0000, 0x0000, 0x0000⟩, -- SPR_SPL
  ⟨0x804C, [(2, 0x0100)], 0x0000, 0x0000, 0x0000, 0x0000, 0x0000, 0x0000⟩, -- SPR_SPH
  ⟨0x8200, [], 0x0000, 0x0004, 0x0000, 0x0000, 0x0000, 0x0000⟩, -- SPR_ROLES
  ⟨0x8204, [], 0x0000, 0x0000, 0x0000, 0x0000, 0x0000, 0x0000⟩, -- SPR_TKO_S
  ⟨0x8208, [], 0x0000, 0x0000, 0x0000, 0x0000, 0x0000, 0x0000⟩] -- SPR_TKO_NS
/-- Rows of block HLT. -/
def rowsHLT : List RegRow := rowsHLT0 ++ rowsHLT1
/-- Rows of block STN. -/
def rowsSTN : List RegRow := [
  ⟨0x0000, [], 0x0000, 0x0000, 0xFFFF, 0x0000, 0x0000, 0x0000⟩, -- STN_FLAG_SET
  ⟨0x0004, [], 0x0000, 0xFFFF, 0x0000, 0x0000, 0x0000, 0x0000⟩, -- STN_FLAG_CLR
  ⟨0x0008, [], 0x0000, 0x0000, 0x0000, 0x0000, 0x0000, 0x0000⟩, -- STN_RUNNING
  ⟨0x0040, [(24, 0x0004)], 0xFFFF, 0x0000, 0x0000, 0x0000, 0x0000, 0x0000⟩, -- STN_WATCH
  ⟨0x1000, [(16, 0x0200)], 0x0001, 0x0000, 0x0000, 0x0000, 0x0002, 0x0000⟩, -- STN_CTRL
  ⟨0x1004, [(16, 0x0200)], 0x1F1F_FF03, 0x0000, 0x0000, 0x0000, 0x0000, 0x0000⟩, -- STN_CFG
  ⟨0x1008, [(16, 0x0200)], 0x003F_3F3F, 0x0000, 0x0000, 0x0000, 0x0000, 0x003F_3F3F⟩, -- STN_PINS
  ⟨0x100C, [(16, 0x0200)], 0x00FF_FFFF, 0x0000, 0x0000, 0x0000, 0x0000, 0x0100⟩, -- STN_DIV
  ⟨0x1010, [(16, 0x0200)], 0xFFFF_FFFF, 0x0000, 0x0000, 0x0000, 0x0000, 0x0000⟩, -- STN_SR
  ⟨0x1014, [(16, 0x0200)], 0xFFFF_FFFF, 0x0000, 0x0000, 0x0000, 0x0000, 0x0000⟩, -- STN_CMP
  ⟨0x1018, [(16, 0x0200)], 0xFFFF_FFFF, 0x0000, 0x0000, 0x0000, 0x0000, 0x0000⟩, -- STN_TXDATA
  ⟨0x101C, [(16, 0x0200)], 0x0000, 0x0000, 0x0000, 0x0000, 0x0000, 0x0000⟩, -- STN_STAT
  ⟨0x1020, [(16, 0x0200)], 0x0000, 0x0000, 0x0000, 0x0000, 0x0000, 0x0000⟩, -- STN_CNT
  ⟨0x1024, [(16, 0x0200)], 0x0000, 0x000F, 0x0000, 0x0000, 0x0000, 0x0000⟩, -- STN_EVENT
  ⟨0x1028, [(16, 0x0200)], 0x0000, 0x0000, 0x0000, 0x0000, 0x0000, 0x0001_0020⟩, -- STN_OWNER
  ⟨0x102C, [(16, 0x0200)], 0x0000, 0x0000, 0x0000, 0xFFFF_FFFF, 0x0000, 0x0000⟩, -- STN_CNT_GUARD
  ⟨0x1030, [(16, 0x0200)], 0x0000, 0x0000, 0x0000, 0xFFFF_FFFF, 0x0000, 0x0000⟩, -- STN_CNT_NOFIFO
  ⟨0x1080, [(16, 0x0200), (32, 0x0004)], 0xFFFF_FFFF, 0x0000, 0x0000, 0x0000, 0x0000, 0x0000⟩] -- STN_PROG
/-- Rows of block PIN. -/
def rowsPIN : List RegRow := [
  ⟨0x0000, [(48, 0x0004)], 0x0003_3FF7, 0x0000, 0x0000, 0x0000, 0x0000, 0x1300⟩, -- PIN_CFG
  ⟨0x0100, [], 0x0000, 0x0000, 0x0000, 0x0000, 0x0000, 0x0000⟩] -- PIN_BANK
/-- Rows of block FIO. -/
def rowsFIO : List RegRow := [
  ⟨0x0000, [], 0x0000, 0x0000, 0x0000, 0x0000, 0x0000, 0x0002⟩, -- FIO_STAT
  ⟨0x0004, [], 0x0000, 0x0003, 0x0000, 0x0000, 0x0000, 0x0000⟩, -- FIO_EVENT
  ⟨0x0008, [], 0x0000, 0x0000, 0x0000, 0x0000, 0x0000, 0x0000⟩, -- FIO_IN
  ⟨0x000C, [], 0x0000, 0x0000, 0x0000, 0x0000, 0x0000, 0x00FF_0000⟩, -- FIO_OUT
  ⟨0x0010, [], 0x0000, 0x0000, 0x0000, 0x0000, 0xFFFF, 0x0000⟩, -- FIO_OUT_WR
  ⟨0x0014, [], 0x0000, 0xFFFF, 0x0000, 0x0000, 0x0000, 0x0000⟩, -- FIO_COS
  ⟨0x0018, [], 0xFF03, 0x0000, 0x0000, 0x0000, 0x0000, 0x0500⟩, -- FIO_CFG
  ⟨0x001C, [], 0xFFFF, 0x0000, 0x0000, 0x0000, 0x0000, 0x0000⟩, -- FIO_WB_EN
  ⟨0x0020, [(8, 0x0004)], 0xFFFF_FFFF, 0x0000, 0x0000, 0x0000, 0x0000, 0x0000⟩, -- FIO_OWN
  ⟨0x0040, [], 0x0000, 0x0000, 0x0000, 0xFFFF_FFFF, 0x0000, 0x0000⟩, -- FIO_CNT_DN_ERR
  ⟨0x0044, [], 0x0000, 0x0000, 0x0000, 0xFFFF_FFFF, 0x0000, 0x0000⟩, -- FIO_CNT_UP_ERR
  ⟨0x0048, [], 0x0000, 0x0000, 0x0000, 0xFFFF_FFFF, 0x0000, 0x0000⟩, -- FIO_CNT_SEQ_GAP
  ⟨0x004C, [], 0x0000, 0x0000, 0x0000, 0xFFFF_FFFF, 0x0000, 0x0000⟩, -- FIO_CNT_TRIP
  ⟨0x0050, [], 0x0000, 0x0000, 0x0000, 0xFFFF_FFFF, 0x0000, 0x0000⟩, -- FIO_CNT_FAULT
  ⟨0x0054, [], 0x0000, 0x0000, 0x0000, 0x0000, 0x0000, 0x0000⟩, -- FIO_FAULT_S
  ⟨0x0058, [], 0x0000, 0x0000, 0x0000, 0x0000, 0x0000, 0x0000⟩] -- FIO_FAULT_NS
/-- Rows of block RST. -/
def rowsRST : List RegRow := [
  ⟨0x0000, [], 0x0000, 0x0000, 0x0000, 0x0000, 0x0000, 0x0101⟩, -- RST_CAUSE
  ⟨0x0004, [], 0x0000, 0x0000, 0x0000, 0x0000, 0x0000, 0x0000⟩, -- RST_STAT
  ⟨0x0008, [], 0x0001, 0x0000, 0x0000, 0x0000, 0x0000, 0x0000⟩, -- RST_CFG
  ⟨0x000C, [], 0xFFFF, 0x0000, 0x0000, 0x0000, 0x0000, 0x0064⟩, -- RST_WD_TMO
  ⟨0x0010, [], 0x0000, 0x0000, 0x0000, 0x0000, 0x0001, 0x0000⟩, -- RST_WD_KICK
  ⟨0x0014, [], 0x0000, 0x0000, 0x0000, 0x0000, 0x0000, 0x01F4⟩, -- RST_WD_LEFT
  ⟨0x0018, [], 0x0000, 0x0000, 0x0000, 0x0000, 0x0000, 0x0000⟩, -- RST_TIME_S
  ⟨0x001C, [], 0x0000, 0x0000, 0x0000, 0x0000, 0x0000, 0x0000⟩, -- RST_TIME_NS
  ⟨0x0020, [], 0x0000, 0x0000, 0x0000, 0x0000, 0x0000, 0x0000⟩, -- RST_CNT
  ⟨0x0030, [], 0x0000, 0x0000, 0x0000, 0x0000, 0x0000, 0x0000⟩, -- RST_CFG_GEN
  ⟨0x0034, [], 0x0000, 0x0000, 0x0000, 0x0000, 0x0000, 0x0000⟩, -- RST_CFG_STAT
  ⟨0x0038, [], 0x0000, 0x0000, 0x0000, 0x0000, 0x0000, 0x0000⟩] -- RST_CFG_COMMITS
/-- Rows of block PWR. -/
def rowsPWR : List RegRow := [
  ⟨0x0000, [], 0x0000, 0x0000, 0x0000, 0x0000, 0x0000, 0x0000⟩, -- PWR_STAT
  ⟨0x0004, [], 0x0000, 0x000F, 0x0000, 0x0000, 0x0000, 0x0000⟩, -- PWR_EVENT
  ⟨0x0008, [], 0x0000, 0x0000, 0x0000, 0x0000, 0x0000, 0x02EE_02EE⟩, -- PWR_VCORE
  ⟨0x000C, [], 0x0000, 0x0000, 0x0000, 0x0000, 0x0000, 0x0000⟩, -- PWR_PROP
  ⟨0x0010, [], 0x0000, 0x0000, 0x0000, 0x0000, 0x0000, 0x0000⟩, -- PWR_TELEM_I
  ⟨0x0014, [], 0x0000, 0x0000, 0x0000, 0x0000, 0x0000, 0x0000⟩, -- PWR_TELEM_T
  ⟨0x0018, [], 0x0000, 0x0000, 0x0000, 0x0000, 0x0000, 0x0000⟩, -- PWR_PMB_STATUS
  ⟨0x001C, [], 0x007F, 0x0000, 0x0000, 0x0000, 0x0000, 0x0040⟩, -- PWR_PMB_CFG
  ⟨0x0020, [], 0x0000, 0x0000, 0x0000, 0xFFFF_FFFF, 0x0000, 0x0000⟩] -- PWR_PMB_ERR
/-- Rows of block CLK. -/
def rowsCLK : List RegRow := [
  ⟨0x0000, [], 0x0000, 0x0000, 0x0000, 0x0000, 0x0000, 0x0000⟩, -- CLK_STAT
  ⟨0x0004, [], 0x0000, 0x0007, 0x0000, 0x0000, 0x0000, 0x0000⟩, -- CLK_EVENT
  ⟨0x0010, [(8, 0x0004)], 0x0000, 0x0000, 0x0000, 0x0000, 0x0000, 0x0000⟩, -- CLK_DOM
  ⟨0x0030, [], 0x0000, 0x0000, 0x0000, 0xFFFF_FFFF, 0x0000, 0x0000⟩, -- CLK_CNT_MARGIN
  ⟨0x0034, [], 0x0000, 0x0000, 0x0000, 0xFFFF_FFFF, 0x0000, 0x0000⟩] -- CLK_CNT_REFLOSS
/-- Rows of block LOG. -/
def rowsLOG : List RegRow := [
  ⟨0x0000, [], 0x0000, 0x0000, 0x0000, 0x0000, 0x0000, 0x0000⟩, -- LOG_STAT
  ⟨0x0004, [], 0x0000, 0x000F, 0x0000, 0x0000, 0x0000, 0x0000⟩, -- LOG_EVENT
  ⟨0x0008, [], 0x0000, 0x0000, 0x0000, 0x0000, 0x0000, 0x0000⟩, -- LOG_HEAD
  ⟨0x000C, [], 0x0000, 0x0000, 0x0000, 0x0000, 0x0000, 0x0000⟩, -- LOG_OLDEST
  ⟨0x0010, [], 0x0000, 0x0000, 0x0000, 0x0000, 0x0000, 0x0000⟩, -- LOG_STREAMED
  ⟨0x0014, [], 0x0000, 0x0000, 0x0000, 0x0000, 0x0000, 0x0000⟩, -- LOG_MIRROR_BASE
  ⟨0x0018, [], 0x0000, 0x0000, 0x0000, 0x0000, 0x0000, 0x0000⟩, -- LOG_RATE
  ⟨0x001C, [], 0x0000, 0x0000, 0x0000, 0x0000, 0x0000, 0x0000⟩, -- LOG_SNAP_BASE
  ⟨0x0020, [], 0x0000, 0x0000, 0x0000, 0x0000, 0x0000, 0x0000⟩, -- LOG_SNAP_S
  ⟨0x0024, [], 0x0000, 0x0000, 0x0000, 0x0000, 0x0000, 0x0000⟩, -- LOG_SNAP_NS
  ⟨0x0030, [], 0x0000, 0x0000, 0x0000, 0xFFFF_FFFF, 0x0000, 0x0000⟩, -- LOG_CNT_SUPP
  ⟨0x0034, [], 0x0000, 0x0000, 0x0000, 0xFFFF_FFFF, 0x0000, 0x0000⟩, -- LOG_CNT_MEMERR
  ⟨0x0038, [], 0x0000, 0x0000, 0x0000, 0xFFFF_FFFF, 0x0000, 0x0000⟩, -- LOG_CNT_STREAM_ERR
  ⟨0x0100, [(16, 0x0004)], 0x0000, 0x0000, 0x0000, 0x0000, 0x0000, 0x0000⟩, -- LOG_LFR
  ⟨0x0140, [], 0x0000, 0x0000, 0x0000, 0x0000, 0x0000, 0x0000⟩, -- LOG_LFR_STAT
  ⟨0x0144, [], 0x0000, 0x0000, 0x0000, 0x0000, 0x0001, 0x0000⟩] -- LOG_LFR_CTRL

/-- The rows of a block by its number (R538): SYS 0 … SFQ 9, CE 10 to 33, SW 34 … PIN 43. -/
def blockRows (b : Nat) : List RegRow :=
  if 10 ≤ b ∧ b ≤ 33 then rowsCE else
  match b with
  | 0 => rowsSYS
  | 1 => rowsRST
  | 2 => rowsCLK
  | 3 => rowsPWR
  | 4 => rowsCMD
  | 5 => rowsMBX
  | 6 => rowsDBL
  | 7 => rowsPLC
  | 8 => rowsPOOL
  | 9 => rowsSFQ
  | 34 => rowsSW
  | 35 => rowsMAC
  | 36 => rowsTFR
  | 37 => rowsTB
  | 38 => rowsCAN
  | 39 => rowsSTN
  | 40 => rowsFIO
  | 41 => rowsHLT
  | 42 => rowsLOG
  | 43 => rowsPIN
  | _ => []

/-- Whether a distance from a row's first register is one of its repetitions. -/
def dimsHit : List (Nat × Nat) → Nat → Bool
  | [], x => x == 0
  | (c, st) :: t, x => decide (x / st < c) && dimsHit t (x % st)

/-- Whether a row holds the register at an offset of its block. -/
def RegRow.hits (r : RegRow) (off : Nat) : Bool := decide (r.off ≤ off) && dimsHit r.dims (off - r.off)

/-- The die of an internal address (R23). -/
def dieOfAddr (a : Nat) : Die := dieOf (a / 0x80_0000_0000)

/-- Whether an internal address lies in a register block of its die, and which: number and offset (R538, R539). -/
def blockOf (a : Nat) : Option (Nat × Nat) :=
  let x := a % 0x80_0000_0000
  if 0x1_0000_0000 ≤ x ∧ x < 0x1_002C_0000 then some ((x - 0x1_0000_0000) / 0x1_0000, x % 0x1_0000) else none

/-- The row of the register at an internal address; none where the offset is reserved (R12, R539). -/
def rowOf (a : Nat) : Option RegRow :=
  match blockOf a with
  | some (b, off) => (blockRows b).find? fun r => r.hits off
  | none => none

/-- The frequency of a clock domain as R41 gives it: CL0 to CL3, pool, switch, supervisor, stencil. -/
def domNominal : Nat → Nat
  | 0 => 1000
  | 1 => 1000
  | 2 => 1000
  | 3 => 1000
  | 4 => 800
  | 5 => 625
  | 6 => 500
  | _ => 400

/-- Reset values that differ by die or by unit, or that the part itself fixes (straps, fuses, silicon): the registers whose
table gives no single number. -/
def resetSpecial (d : Die) (b off : Nat) : Option Nat :=
  match b with
  | 0 => if off = 0x4 then some (Config.grade % 4 * 256 + Config.stepping % 256)
         else if off = 0x8 then some (match d with | .d0 => 2 | .d1 => 1) else none
  | 2 => if 0x10 ≤ off ∧ off < 0x30 ∧ off % 4 = 0 then
           some (domNominal ((off - 0x10) / 4) * 0x10000 + domNominal ((off - 0x10) / 4)) else none
  | 4 => if off = 0 then some (match d with | .d0 => 0x100 | .d1 => 0) else none
  | 5 => if 0x1000 ≤ off ∧ off < 0x1800 ∧ off % 0x100 = 0x84 then some 0x1000_0000 else none
  | 34 => if 0x80 ≤ off ∧ off < 0x80 + 21 * 8 then
            let c := (off - 0x80) / 8 % 3
            if off % 8 = 0 then some (match c with | 0 => 8192 * 65536 + 4096 | 1 => 6144 * 65536 + 2048 | _ => 2048 * 65536 + 512)
            else if off % 8 = 4 then some (match c with | 0 => 26 | 1 => 64 | _ => 128) else none
          else none
  | 35 => if off = 0x1C00 ∨ off = 0x1D00 then some (0x200 + 7 * 16 + 1) else none
  | 36 => if off = 0x44 then some (Config.ringUid d.idx) else none
  | 41 => if off = 0x8000 then some (match d with | .d0 => 0x90 | .d1 => 0xC0)
          else if off = 0x8100 then some (match d with | .d0 => 0x20 | .d1 => 0x40)
          else if 0x100 ≤ off ∧ off < 0x180 ∧ off % 0x10 = 4 then some (Config.gbFix d.idx ((off - 0x100) / 0x10) % 1024)
          else if 0x100 ≤ off ∧ off < 0x180 ∧ off % 0x10 = 0xC then
            some (domNominal ((off - 0x100) / 0x10) * 0x10000 + domNominal ((off - 0x100) / 0x10))
          else none
  | 43 => if off = 0x100 then some (Config.pinBank d.idx % 4) else none
  | b => if 10 ≤ b ∧ b ≤ 33 ∧ off = 0 then
           some ((b - 10) / 6 * 256 + d.idx * 64 + (b - 10) + 24 * d.idx) else none

/-- Value of the register at an internal address after a power-on reset (R13); 0 where no register is (R12). -/
def resetWord (a : Nat) : Word :=
  match blockOf a with
  | none => 0
  | some (b, off) =>
    match resetSpecial (dieOfAddr a) b off with
    | some v => wd v
    | none => match (blockRows b).find? fun r => r.hits off with
      | some r => wd r.rst
      | none => 0

end Sys2Proof.Machine
end

