-- ==== Sys2Proof/Machine/Regs.lean ====
section
/-! DEFINITION. The internal addresses of the registers, one definition per register of the spec's register tables,
named as the table names it (R23, R47, R84, R85, R124, R153, R181, R182, R226, R247, R288, R322, R352, R386, R387, R442, R459, R460,
R477, R502, R503, R504, R536, R537, R538).  `d` is the die; the numbers that follow are the unit (first) and the element of the register's
own index, each counted from 0 from the table's first element. -/

namespace Sys2Proof.Machine.R

/-- Start of register block number `b` (R538: SYS 0, RST 1, … PIN 43) of die `d`. -/
def blk (d : Die) (b : Nat) : Nat := d.org + 0x1_0000_0000 + b * 0x1_0000

/-- SYS_ID, block SYS. -/
def SYS_ID (d : Die) : Nat := blk d 0 + 0x0000
/-- SYS_VER, block SYS. -/
def SYS_VER (d : Die) : Nat := blk d 0 + 0x0004
/-- SYS_DIE, block SYS. -/
def SYS_DIE (d : Die) : Nat := blk d 0 + 0x0008
/-- SYS_DLY_STAT, block SYS. -/
def SYS_DLY_STAT (d : Die) : Nat := blk d 0 + 0x0010
/-- SYS_DLY_EVENT, block SYS. -/
def SYS_DLY_EVENT (d : Die) : Nat := blk d 0 + 0x0014
/-- SYS_DLY_CORR, block SYS. -/
def SYS_DLY_CORR (d : Die) : Nat := blk d 0 + 0x0018
/-- SYS_DLY_UNCORR, block SYS. -/
def SYS_DLY_UNCORR (d : Die) : Nat := blk d 0 + 0x001C
/-- SYS_DLY_RETRY, block SYS. -/
def SYS_DLY_RETRY (d : Die) : Nat := blk d 0 + 0x0020
/-- SYS_DLY_TXUTIL, block SYS. -/
def SYS_DLY_TXUTIL (d : Die) : Nat := blk d 0 + 0x0024
/-- SYS_DLY_DOWNCNT, block SYS. -/
def SYS_DLY_DOWNCNT (d : Die) : Nat := blk d 0 + 0x0028
/-- POOL_CFG, block POOL. -/
def POOL_CFG (d : Die) : Nat := blk d 8 + 0x0000
/-- POOL_STAT, block POOL. -/
def POOL_STAT (d : Die) : Nat := blk d 8 + 0x0004
/-- POOL_ECC_CORR, block POOL. -/
def POOL_ECC_CORR (d : Die) : Nat := blk d 8 + 0x0010
/-- POOL_ECC_UNCORR, block POOL. -/
def POOL_ECC_UNCORR (d : Die) : Nat := blk d 8 + 0x0014
/-- POOL_CE_ADDR, block POOL. -/
def POOL_CE_ADDR (d : Die) : Nat := blk d 8 + 0x0018
/-- POOL_UE_ADDR, block POOL. -/
def POOL_UE_ADDR (d : Die) : Nat := blk d 8 + 0x001C
/-- POOL_RET_STAT, block POOL. -/
def POOL_RET_STAT (d : Die) : Nat := blk d 8 + 0x0020
/-- POOL_RET_WAKE, block POOL. -/
def POOL_RET_WAKE (d : Die) : Nat := blk d 8 + 0x0024
/-- POOL_RET_ERR, block POOL. -/
def POOL_RET_ERR (d : Die) : Nat := blk d 8 + 0x0028
/-- POOL_SCRUB, block POOL. -/
def POOL_SCRUB (d : Die) : Nat := blk d 8 + 0x0030
/-- POOL_CONFLICT, block POOL. -/
def POOL_CONFLICT (d : Die) : Nat := blk d 8 + 0x0034
/-- POOL_BANK_OOS, block POOL. -/
def POOL_BANK_OOS (d : Die) (i : Nat) : Nat := blk d 8 + 0x0040 + 0x0004 * i
/-- POOL_PORT_UTIL, block POOL. -/
def POOL_PORT_UTIL (d : Die) (i : Nat) : Nat := blk d 8 + 0x0080 + 0x0004 * i
/-- POOL_SCRUB_STEAL, block POOL. -/
def POOL_SCRUB_STEAL (d : Die) : Nat := blk d 8 + 0x00C0
/-- SFQ_NONEMPTY, block SFQ. -/
def SFQ_NONEMPTY (d : Die) : Nat := blk d 9 + 0x0000
/-- SFQ_OVF_SUM, block SFQ. -/
def SFQ_OVF_SUM (d : Die) : Nat := blk d 9 + 0x0004
/-- SFQ_CTRL, block SFQ. -/
def SFQ_CTRL (d : Die) (i : Nat) : Nat := blk d 9 + 0x0100 + 0x0040 * i
/-- SFQ_STAT, block SFQ. -/
def SFQ_STAT (d : Die) (i : Nat) : Nat := blk d 9 + 0x0104 + 0x0040 * i
/-- SFQ_RDATA_LO, block SFQ. -/
def SFQ_RDATA_LO (d : Die) (i : Nat) : Nat := blk d 9 + 0x0108 + 0x0040 * i
/-- SFQ_RDATA_HI, block SFQ. -/
def SFQ_RDATA_HI (d : Die) (i : Nat) : Nat := blk d 9 + 0x010C + 0x0040 * i
/-- SFQ_TAG, block SFQ. -/
def SFQ_TAG (d : Die) (i : Nat) : Nat := blk d 9 + 0x0110 + 0x0040 * i
/-- SFQ_TIMEOUT, block SFQ. -/
def SFQ_TIMEOUT (d : Die) (i : Nat) : Nat := blk d 9 + 0x0114 + 0x0040 * i
/-- SFQ_IDLE, block SFQ. -/
def SFQ_IDLE (d : Die) (i : Nat) : Nat := blk d 9 + 0x0118 + 0x0040 * i
/-- SFQ_BUF_BASE, block SFQ. -/
def SFQ_BUF_BASE (d : Die) (i : Nat) : Nat := blk d 9 + 0x011C + 0x0040 * i
/-- SFQ_BUF_SIZE, block SFQ. -/
def SFQ_BUF_SIZE (d : Die) (i : Nat) : Nat := blk d 9 + 0x0120 + 0x0040 * i
/-- SFQ_WPTR, block SFQ. -/
def SFQ_WPTR (d : Die) (i : Nat) : Nat := blk d 9 + 0x0124 + 0x0040 * i
/-- SFQ_RPTR, block SFQ. -/
def SFQ_RPTR (d : Die) (i : Nat) : Nat := blk d 9 + 0x0128 + 0x0040 * i
/-- SFQ_TMO_CNT, block SFQ. -/
def SFQ_TMO_CNT (d : Die) (i : Nat) : Nat := blk d 9 + 0x012C + 0x0040 * i
/-- SFQ_OVF_CNT, block SFQ. -/
def SFQ_OVF_CNT (d : Die) (i : Nat) : Nat := blk d 9 + 0x0130 + 0x0040 * i
/-- SFQ_OWNER, block SFQ. -/
def SFQ_OWNER (d : Die) (i : Nat) : Nat := blk d 9 + 0x0134 + 0x0040 * i
/-- PLC_STAT, block PLC. -/
def PLC_STAT (d : Die) : Nat := blk d 7 + 0x0000
/-- PLC_EVENT, block PLC. -/
def PLC_EVENT (d : Die) : Nat := blk d 7 + 0x0004
/-- PLC_RESV, block PLC. -/
def PLC_RESV (d : Die) : Nat := blk d 7 + 0x0010
/-- PLC_GUARD, block PLC. -/
def PLC_GUARD (d : Die) : Nat := blk d 7 + 0x0014
/-- PLC_COUNTS, block PLC. -/
def PLC_COUNTS (d : Die) : Nat := blk d 7 + 0x0018
/-- PLC_CMP, block PLC. -/
def PLC_CMP (d : Die) : Nat := blk d 7 + 0x0020
/-- PLC_TAGS, block PLC. -/
def PLC_TAGS (d : Die) : Nat := blk d 7 + 0x0024
/-- PLC_FLOWTAB, block PLC. -/
def PLC_FLOWTAB (d : Die) : Nat := blk d 7 + 0x0028
/-- PLC_DLY_TX, block PLC. -/
def PLC_DLY_TX (d : Die) : Nat := blk d 7 + 0x002C
/-- PLC_DLY_RX, block PLC. -/
def PLC_DLY_RX (d : Die) : Nat := blk d 7 + 0x0030
/-- PLC_CL_FCERT, block PLC. -/
def PLC_CL_FCERT (d : Die) (i : Nat) : Nat := blk d 7 + 0x0040 + 0x0004 * i
/-- PLC_POOL_FCERT, block PLC. -/
def PLC_POOL_FCERT (d : Die) : Nat := blk d 7 + 0x0050
/-- PLC_CE, block PLC. -/
def PLC_CE (d : Die) (i : Nat) : Nat := blk d 7 + 0x0080 + 0x0004 * i
/-- PLC_PORT, block PLC. -/
def PLC_PORT (d : Die) (i : Nat) : Nat := blk d 7 + 0x0100 + 0x0004 * i
/-- PLC_SWTX, block PLC. -/
def PLC_SWTX (d : Die) (i : Nat) : Nat := blk d 7 + 0x0180 + 0x0004 * i
/-- PLC_SWRX, block PLC. -/
def PLC_SWRX (d : Die) (i : Nat) : Nat := blk d 7 + 0x0200 + 0x0004 * i
/-- PLC_BANK, block PLC. -/
def PLC_BANK (d : Die) (i : Nat) : Nat := blk d 7 + 0x1000 + 0x0004 * i
/-- PLC_FCST_DAYS, block PLC. -/
def PLC_FCST_DAYS (d : Die) : Nat := blk d 7 + 0x0300
/-- PLC_FCST_WHAT, block PLC. -/
def PLC_FCST_WHAT (d : Die) : Nat := blk d 7 + 0x0304
/-- PLC_FCST_BASE, block PLC. -/
def PLC_FCST_BASE (d : Die) : Nat := blk d 7 + 0x0308
/-- PLC_LAST_REJ, block PLC. -/
def PLC_LAST_REJ (d : Die) : Nat := blk d 7 + 0x0310
/-- PLC_LAST_REJ_TAG, block PLC. -/
def PLC_LAST_REJ_TAG (d : Die) : Nat := blk d 7 + 0x0314
/-- PLC_CNT_ADMIT, block PLC. -/
def PLC_CNT_ADMIT (d : Die) : Nat := blk d 7 + 0x0320
/-- PLC_CNT_REJECT, block PLC. -/
def PLC_CNT_REJECT (d : Die) : Nat := blk d 7 + 0x0324
/-- PLC_CNT_MIGRATE, block PLC. -/
def PLC_CNT_MIGRATE (d : Die) : Nat := blk d 7 + 0x0328
/-- PLC_CNT_ABORT, block PLC. -/
def PLC_CNT_ABORT (d : Die) : Nat := blk d 7 + 0x032C
/-- PLC_CNT_UNVERIFIED, block PLC. -/
def PLC_CNT_UNVERIFIED (d : Die) : Nat := blk d 7 + 0x0330
/-- PLC_CNT_FAULTREP, block PLC. -/
def PLC_CNT_FAULTREP (d : Die) : Nat := blk d 7 + 0x0334
/-- PLC_QRY_HANDLE, block PLC. -/
def PLC_QRY_HANDLE (d : Die) : Nat := blk d 7 + 0x0400
/-- PLC_QRY_STAT, block PLC. -/
def PLC_QRY_STAT (d : Die) : Nat := blk d 7 + 0x0404
/-- PLC_QRY_LOC, block PLC. -/
def PLC_QRY_LOC (d : Die) : Nat := blk d 7 + 0x0408
/-- PLC_QRY_CTX, block PLC. -/
def PLC_QRY_CTX (d : Die) : Nat := blk d 7 + 0x040C
/-- PLC_QRY_CYCLE, block PLC. -/
def PLC_QRY_CYCLE (d : Die) : Nat := blk d 7 + 0x0410
/-- PLC_QRY_EPOCH, block PLC. -/
def PLC_QRY_EPOCH (d : Die) : Nat := blk d 7 + 0x0414
/-- CMD_STAT, block CMD. -/
def CMD_STAT (d : Die) : Nat := blk d 4 + 0x0000
/-- CMD_EVENT, block CMD. -/
def CMD_EVENT (d : Die) : Nat := blk d 4 + 0x0004
/-- CMD_CNT_RX, block CMD. -/
def CMD_CNT_RX (d : Die) : Nat := blk d 4 + 0x0010
/-- CMD_CNT_CRC, block CMD. -/
def CMD_CNT_CRC (d : Die) : Nat := blk d 4 + 0x0014
/-- CMD_CNT_SEQ, block CMD. -/
def CMD_CNT_SEQ (d : Die) : Nat := blk d 4 + 0x0018
/-- CMD_CNT_EPOCH, block CMD. -/
def CMD_CNT_EPOCH (d : Die) : Nat := blk d 4 + 0x001C
/-- CMD_CNT_DUP, block CMD. -/
def CMD_CNT_DUP (d : Die) : Nat := blk d 4 + 0x0020
/-- CMD_CNT_DENIED, block CMD. -/
def CMD_CNT_DENIED (d : Die) : Nat := blk d 4 + 0x0024
/-- CMD_CNT_TMO, block CMD. -/
def CMD_CNT_TMO (d : Die) : Nat := blk d 4 + 0x0028
/-- CMD_CNT_IBDROP, block CMD. -/
def CMD_CNT_IBDROP (d : Die) : Nat := blk d 4 + 0x002C
/-- CMD_IB_MAC_LO, block CMD. -/
def CMD_IB_MAC_LO (d : Die) : Nat := blk d 4 + 0x0030
/-- CMD_IB_MAC_HI, block CMD. -/
def CMD_IB_MAC_HI (d : Die) : Nat := blk d 4 + 0x0034
/-- CMD_IB_RATE, block CMD. -/
def CMD_IB_RATE (d : Die) : Nat := blk d 4 + 0x0038
/-- CMD_IB_ALLOW_LO, block CMD. -/
def CMD_IB_ALLOW_LO (d : Die) (i : Nat) : Nat := blk d 4 + 0x0300 + 0x0008 * i
/-- CMD_IB_ALLOW_HI, block CMD. -/
def CMD_IB_ALLOW_HI (d : Die) (i : Nat) : Nat := blk d 4 + 0x0304 + 0x0008 * i
/-- CMD_CH_STAT, block CMD. -/
def CMD_CH_STAT (d : Die) (i : Nat) : Nat := blk d 4 + 0x0100 + 0x0008 * i
/-- CMD_CH_TAG, block CMD. -/
def CMD_CH_TAG (d : Die) (i : Nat) : Nat := blk d 4 + 0x0104 + 0x0008 * i
/-- MBX_OWNED, block MBX. -/
def MBX_OWNED (d : Die) : Nat := blk d 5 + 0x0000
/-- MBX_OUT_PEND, block MBX. -/
def MBX_OUT_PEND (d : Die) : Nat := blk d 5 + 0x0004
/-- MBX_ERR_LO, block MBX. -/
def MBX_ERR_LO (d : Die) (i : Nat) : Nat := blk d 5 + 0x0018 + 0x0008 * i
/-- MBX_ERR_HI, block MBX. -/
def MBX_ERR_HI (d : Die) (i : Nat) : Nat := blk d 5 + 0x001C + 0x0008 * i
/-- MBX_ERR_CNT, block MBX. -/
def MBX_ERR_CNT (d : Die) (i : Nat) : Nat := blk d 5 + 0x0034 + 0x0004 * i
/-- MBX_H2KEY, block MBX. -/
def MBX_H2KEY (d : Die) (i : Nat) : Nat := blk d 5 + 0x0040 + 0x0004 * i
/-- MBX_H2KEY_CTRL, block MBX. -/
def MBX_H2KEY_CTRL (d : Die) : Nat := blk d 5 + 0x0060
/-- MBX_IN, block MBX. -/
def MBX_IN (d : Die) (i : Nat) (j : Nat) : Nat := blk d 5 + 0x1000 + 0x0100 * i + 0x0004 * j
/-- MBX_OUT, block MBX. -/
def MBX_OUT (d : Die) (i : Nat) (j : Nat) : Nat := blk d 5 + 0x1040 + 0x0100 * i + 0x0004 * j
/-- MBX_GO, block MBX. -/
def MBX_GO (d : Die) (i : Nat) : Nat := blk d 5 + 0x1080 + 0x0100 * i
/-- MBX_CH_STAT, block MBX. -/
def MBX_CH_STAT (d : Die) (i : Nat) : Nat := blk d 5 + 0x1084 + 0x0100 * i
/-- MBX_CH_CLAIM, block MBX. -/
def MBX_CH_CLAIM (d : Die) (i : Nat) : Nat := blk d 5 + 0x1088 + 0x0100 * i
/-- MBX_OUT_ACK, block MBX. -/
def MBX_OUT_ACK (d : Die) (i : Nat) : Nat := blk d 5 + 0x108C + 0x0100 * i
/-- MBX_CH_DROP, block MBX. -/
def MBX_CH_DROP (d : Die) (i : Nat) : Nat := blk d 5 + 0x1090 + 0x0100 * i
/-- DBL_STAT, block DBL. -/
def DBL_STAT (d : Die) (i : Nat) : Nat := blk d 6 + 0x0000 + 0x0040 * i
/-- DBL_MASK, block DBL. -/
def DBL_MASK (d : Die) (i : Nat) : Nat := blk d 6 + 0x0004 + 0x0040 * i
/-- DBL_PEND, block DBL. -/
def DBL_PEND (d : Die) (i : Nat) : Nat := blk d 6 + 0x0008 + 0x0040 * i
/-- DBL_SET, block DBL. -/
def DBL_SET (d : Die) (i : Nat) : Nat := blk d 6 + 0x000C + 0x0040 * i
/-- DBL_TIME_S, block DBL. -/
def DBL_TIME_S (d : Die) (i : Nat) : Nat := blk d 6 + 0x0010 + 0x0040 * i
/-- DBL_TIME_NS, block DBL. -/
def DBL_TIME_NS (d : Die) (i : Nat) : Nat := blk d 6 + 0x0014 + 0x0040 * i
/-- DBL_READY_INFO, block DBL. -/
def DBL_READY_INFO (d : Die) : Nat := blk d 6 + 0x0100
/-- SW_MC_THRESH, block SW. -/
def SW_MC_THRESH (d : Die) : Nat := blk d 34 + 0x0000
/-- SW_RED_W, block SW. -/
def SW_RED_W (d : Die) : Nat := blk d 34 + 0x0004
/-- SW_STAG_ETYPE, block SW. -/
def SW_STAG_ETYPE (d : Die) : Nat := blk d 34 + 0x0008
/-- SW_HASH_SEED, block SW. -/
def SW_HASH_SEED (d : Die) : Nat := blk d 34 + 0x000C
/-- SW_AGE, block SW. -/
def SW_AGE (d : Die) : Nat := blk d 34 + 0x0010
/-- SW_RSQ_TMO, block SW. -/
def SW_RSQ_TMO (d : Die) : Nat := blk d 34 + 0x0014
/-- SW_PG_IDLE, block SW. -/
def SW_PG_IDLE (d : Die) : Nat := blk d 34 + 0x0018
/-- SW_FB, block SW. -/
def SW_FB (d : Die) : Nat := blk d 34 + 0x001C
/-- SW_MGMT_BUF, block SW. -/
def SW_MGMT_BUF (d : Die) : Nat := blk d 34 + 0x0020
/-- SW_SMP_BASE, block SW. -/
def SW_SMP_BASE (d : Die) : Nat := blk d 34 + 0x0028
/-- SW_SMP_WPTR, block SW. -/
def SW_SMP_WPTR (d : Die) : Nat := blk d 34 + 0x002C
/-- SW_SMP_RPTR, block SW. -/
def SW_SMP_RPTR (d : Die) : Nat := blk d 34 + 0x0030
/-- SW_QLIMIT, block SW. -/
def SW_QLIMIT (d : Die) (i : Nat) : Nat := blk d 34 + 0x0040 + 0x0004 * i
/-- SW_QLIMITR, block SW. -/
def SW_QLIMITR (d : Die) (i : Nat) : Nat := blk d 34 + 0x0050 + 0x0004 * i
/-- SW_RED_TH, block SW. -/
def SW_RED_TH (d : Die) (i : Nat) : Nat := blk d 34 + 0x0080 + 0x0008 * i
/-- SW_RED_P, block SW. -/
def SW_RED_P (d : Die) (i : Nat) : Nat := blk d 34 + 0x0084 + 0x0008 * i
/-- SW_CNT_NOTAG, block SW. -/
def SW_CNT_NOTAG (d : Die) : Nat := blk d 34 + 0x0200
/-- SW_CNT_NOBUF, block SW. -/
def SW_CNT_NOBUF (d : Die) : Nat := blk d 34 + 0x0204
/-- SW_CNT_DEMOTE, block SW. -/
def SW_CNT_DEMOTE (d : Die) : Nat := blk d 34 + 0x0208
/-- SW_CNT_LEARN_FAIL, block SW. -/
def SW_CNT_LEARN_FAIL (d : Die) : Nat := blk d 34 + 0x020C
/-- SW_CNT_SA_CONFLICT, block SW. -/
def SW_CNT_SA_CONFLICT (d : Die) : Nat := blk d 34 + 0x0210
/-- SW_CNT_RSQ_LATE, block SW. -/
def SW_CNT_RSQ_LATE (d : Die) : Nat := blk d 34 + 0x0214
/-- SW_CNT_RSQ_SKIP, block SW. -/
def SW_CNT_RSQ_SKIP (d : Die) : Nat := blk d 34 + 0x0218
/-- SW_CNT_RSQ_TMO, block SW. -/
def SW_CNT_RSQ_TMO (d : Die) : Nat := blk d 34 + 0x021C
/-- SW_CNT_MGMT_DROP, block SW. -/
def SW_CNT_MGMT_DROP (d : Die) : Nat := blk d 34 + 0x0220
/-- SW_CNT_SMP_DROP, block SW. -/
def SW_CNT_SMP_DROP (d : Die) : Nat := blk d 34 + 0x0224
/-- SW_CNT_CB_DISCARD, block SW. -/
def SW_CNT_CB_DISCARD (d : Die) : Nat := blk d 34 + 0x0228
/-- SW_PG, block SW. -/
def SW_PG (d : Die) (i : Nat) : Nat := blk d 34 + 0x0300 + 0x0004 * i
/-- SW_SID_IDX, block SW. -/
def SW_SID_IDX (d : Die) : Nat := blk d 34 + 0x0400
/-- SW_SID_CMD, block SW. -/
def SW_SID_CMD (d : Die) : Nat := blk d 34 + 0x0404
/-- SW_SID_W, block SW. -/
def SW_SID_W (d : Die) (i : Nat) : Nat := blk d 34 + 0x0410 + 0x0004 * i
/-- SW_VLAN_IDX, block SW. -/
def SW_VLAN_IDX (d : Die) : Nat := blk d 34 + 0x0440
/-- SW_VLAN_CMD, block SW. -/
def SW_VLAN_CMD (d : Die) : Nat := blk d 34 + 0x0444
/-- SW_VLAN_MEMBER, block SW. -/
def SW_VLAN_MEMBER (d : Die) : Nat := blk d 34 + 0x0448
/-- SW_VLAN_UNTAG, block SW. -/
def SW_VLAN_UNTAG (d : Die) : Nat := blk d 34 + 0x044C
/-- SW_FT_IDX, block SW. -/
def SW_FT_IDX (d : Die) : Nat := blk d 34 + 0x0480
/-- SW_FT_W0, block SW. -/
def SW_FT_W0 (d : Die) : Nat := blk d 34 + 0x0484
/-- SW_FT_W1, block SW. -/
def SW_FT_W1 (d : Die) : Nat := blk d 34 + 0x0488
/-- SW_FT_W2, block SW. -/
def SW_FT_W2 (d : Die) : Nat := blk d 34 + 0x048C
/-- SW_PORT_CFG, block SW. -/
def SW_PORT_CFG (d : Die) (i : Nat) : Nat := blk d 34 + 0x1000 + 0x0080 * i
/-- SW_PCP_MAP, block SW. -/
def SW_PCP_MAP (d : Die) (i : Nat) : Nat := blk d 34 + 0x1004 + 0x0080 * i
/-- SW_PORT_MAXF, block SW. -/
def SW_PORT_MAXF (d : Die) (i : Nat) : Nat := blk d 34 + 0x1008 + 0x0080 * i
/-- SW_CM_DEPTH, block SW. -/
def SW_CM_DEPTH (d : Die) (i : Nat) : Nat := blk d 34 + 0x100C + 0x0080 * i
/-- SW_CBS_SLOPE, block SW. -/
def SW_CBS_SLOPE (d : Die) (i : Nat) (j : Nat) : Nat := blk d 34 + 0x1010 + 0x0080 * i + 0x0004 * j
/-- SW_SMP, block SW. -/
def SW_SMP (d : Die) (i : Nat) : Nat := blk d 34 + 0x101C + 0x0080 * i
/-- SW_GCL_CTRL, block SW. -/
def SW_GCL_CTRL (d : Die) (i : Nat) : Nat := blk d 34 + 0x1020 + 0x0080 * i
/-- SW_GCL_BASE_S, block SW. -/
def SW_GCL_BASE_S (d : Die) (i : Nat) : Nat := blk d 34 + 0x1024 + 0x0080 * i
/-- SW_GCL_BASE_NS, block SW. -/
def SW_GCL_BASE_NS (d : Die) (i : Nat) : Nat := blk d 34 + 0x1028 + 0x0080 * i
/-- SW_GCL_CYCLE_NS, block SW. -/
def SW_GCL_CYCLE_NS (d : Die) (i : Nat) : Nat := blk d 34 + 0x102C + 0x0080 * i
/-- SW_RX_FRAMES, block SW. -/
def SW_RX_FRAMES (d : Die) (i : Nat) : Nat := blk d 34 + 0x1040 + 0x0080 * i
/-- SW_TX_FRAMES, block SW. -/
def SW_TX_FRAMES (d : Die) (i : Nat) : Nat := blk d 34 + 0x1044 + 0x0080 * i
/-- SW_STOMP_RX, block SW. -/
def SW_STOMP_RX (d : Die) (i : Nat) : Nat := blk d 34 + 0x1048 + 0x0080 * i
/-- SW_STOMP_TX, block SW. -/
def SW_STOMP_TX (d : Die) (i : Nat) : Nat := blk d 34 + 0x104C + 0x0080 * i
/-- SW_BAD_RX, block SW. -/
def SW_BAD_RX (d : Die) (i : Nat) : Nat := blk d 34 + 0x1050 + 0x0080 * i
/-- SW_DROP_RED, block SW. -/
def SW_DROP_RED (d : Die) (i : Nat) : Nat := blk d 34 + 0x1054 + 0x0080 * i
/-- SW_DROP_TAIL, block SW. -/
def SW_DROP_TAIL (d : Die) (i : Nat) : Nat := blk d 34 + 0x1058 + 0x0080 * i
/-- SW_DROP_FILTER, block SW. -/
def SW_DROP_FILTER (d : Die) (i : Nat) : Nat := blk d 34 + 0x105C + 0x0080 * i
/-- SW_CM_MARK, block SW. -/
def SW_CM_MARK (d : Die) (i : Nat) : Nat := blk d 34 + 0x1060 + 0x0080 * i
/-- SW_FLUSH, block SW. -/
def SW_FLUSH (d : Die) (i : Nat) : Nat := blk d 34 + 0x1064 + 0x0080 * i
/-- SW_GCL_W0, block SW. -/
def SW_GCL_W0 (d : Die) (i : Nat) (j : Nat) (k : Nat) : Nat := blk d 34 + 0x4000 + 0x0800 * i + 0x0400 * j + 0x0008 * k
/-- SW_GCL_W1, block SW. -/
def SW_GCL_W1 (d : Die) (i : Nat) (j : Nat) (k : Nat) : Nat := blk d 34 + 0x4004 + 0x0800 * i + 0x0400 * j + 0x0008 * k
/-- MAC_LANE, block MAC. -/
def MAC_LANE (d : Die) (i : Nat) : Nat := blk d 35 + 0x0000 + 0x0004 * i
/-- MAC_LINK_STAT, block MAC. -/
def MAC_LINK_STAT (d : Die) : Nat := blk d 35 + 0x0010
/-- MAC_LINK_EVENT, block MAC. -/
def MAC_LINK_EVENT (d : Die) : Nat := blk d 35 + 0x0014
/-- MAC_PAUSE_XOFF, block MAC. -/
def MAC_PAUSE_XOFF (d : Die) : Nat := blk d 35 + 0x0018
/-- MAC_PAUSE_XON, block MAC. -/
def MAC_PAUSE_XON (d : Die) : Nat := blk d 35 + 0x001C
/-- MAC_MDIO, block MAC. -/
def MAC_MDIO (d : Die) : Nat := blk d 35 + 0x0020
/-- MAC_PORT_MODE, block MAC. -/
def MAC_PORT_MODE (d : Die) (i : Nat) : Nat := blk d 35 + 0x1000 + 0x0100 * i
/-- MAC_RX_CFG, block MAC. -/
def MAC_RX_CFG (d : Die) (i : Nat) : Nat := blk d 35 + 0x1004 + 0x0100 * i
/-- MAC_PAUSE_CFG, block MAC. -/
def MAC_PAUSE_CFG (d : Die) (i : Nat) : Nat := blk d 35 + 0x1008 + 0x0100 * i
/-- MAC_PAUSE_WD, block MAC. -/
def MAC_PAUSE_WD (d : Die) (i : Nat) : Nat := blk d 35 + 0x100C + 0x0100 * i
/-- MAC_ADDR_LO, block MAC. -/
def MAC_ADDR_LO (d : Die) (i : Nat) : Nat := blk d 35 + 0x1010 + 0x0100 * i
/-- MAC_ADDR_HI, block MAC. -/
def MAC_ADDR_HI (d : Die) (i : Nat) : Nat := blk d 35 + 0x1014 + 0x0100 * i
/-- MAC_MC_HASH, block MAC. -/
def MAC_MC_HASH (d : Die) (i : Nat) (j : Nat) : Nat := blk d 35 + 0x1020 + 0x0100 * i + 0x0004 * j
/-- MAC_RX_OCTETS_LO, block MAC. -/
def MAC_RX_OCTETS_LO (d : Die) (i : Nat) : Nat := blk d 35 + 0x1060 + 0x0100 * i
/-- MAC_RX_OCTETS_HI, block MAC. -/
def MAC_RX_OCTETS_HI (d : Die) (i : Nat) : Nat := blk d 35 + 0x1064 + 0x0100 * i
/-- MAC_TX_OCTETS_LO, block MAC. -/
def MAC_TX_OCTETS_LO (d : Die) (i : Nat) : Nat := blk d 35 + 0x1068 + 0x0100 * i
/-- MAC_TX_OCTETS_HI, block MAC. -/
def MAC_TX_OCTETS_HI (d : Die) (i : Nat) : Nat := blk d 35 + 0x106C + 0x0100 * i
/-- MAC_RX_UCAST, block MAC. -/
def MAC_RX_UCAST (d : Die) (i : Nat) : Nat := blk d 35 + 0x1070 + 0x0100 * i
/-- MAC_RX_MCAST, block MAC. -/
def MAC_RX_MCAST (d : Die) (i : Nat) : Nat := blk d 35 + 0x1074 + 0x0100 * i
/-- MAC_RX_BCAST, block MAC. -/
def MAC_RX_BCAST (d : Die) (i : Nat) : Nat := blk d 35 + 0x1078 + 0x0100 * i
/-- MAC_RX_FCS_ERR, block MAC. -/
def MAC_RX_FCS_ERR (d : Die) (i : Nat) : Nat := blk d 35 + 0x107C + 0x0100 * i
/-- MAC_RX_RUNT, block MAC. -/
def MAC_RX_RUNT (d : Die) (i : Nat) : Nat := blk d 35 + 0x1080 + 0x0100 * i
/-- MAC_RX_JABBER, block MAC. -/
def MAC_RX_JABBER (d : Die) (i : Nat) : Nat := blk d 35 + 0x1084 + 0x0100 * i
/-- MAC_RX_PCS_ERR, block MAC. -/
def MAC_RX_PCS_ERR (d : Die) (i : Nat) : Nat := blk d 35 + 0x1088 + 0x0100 * i
/-- MAC_RX_FILTERED, block MAC. -/
def MAC_RX_FILTERED (d : Die) (i : Nat) : Nat := blk d 35 + 0x108C + 0x0100 * i
/-- MAC_RX_PAUSE, block MAC. -/
def MAC_RX_PAUSE (d : Die) (i : Nat) : Nat := blk d 35 + 0x1090 + 0x0100 * i
/-- MAC_TX_UCAST, block MAC. -/
def MAC_TX_UCAST (d : Die) (i : Nat) : Nat := blk d 35 + 0x1094 + 0x0100 * i
/-- MAC_TX_MCAST, block MAC. -/
def MAC_TX_MCAST (d : Die) (i : Nat) : Nat := blk d 35 + 0x1098 + 0x0100 * i
/-- MAC_TX_BCAST, block MAC. -/
def MAC_TX_BCAST (d : Die) (i : Nat) : Nat := blk d 35 + 0x109C + 0x0100 * i
/-- MAC_TX_PAUSE, block MAC. -/
def MAC_TX_PAUSE (d : Die) (i : Nat) : Nat := blk d 35 + 0x10A0 + 0x0100 * i
/-- MAC_PAUSE_WD_CNT, block MAC. -/
def MAC_PAUSE_WD_CNT (d : Die) (i : Nat) : Nat := blk d 35 + 0x10A4 + 0x0100 * i
/-- MAC_TX_TS, block MAC. -/
def MAC_TX_TS (d : Die) (i : Nat) : Nat := blk d 35 + 0x10A8 + 0x0100 * i
/-- MAC_LINK_DOWN, block MAC. -/
def MAC_LINK_DOWN (d : Die) (i : Nat) : Nat := blk d 35 + 0x10AC + 0x0100 * i
/-- TFR_STAT, block TFR. -/
def TFR_STAT (d : Die) : Nat := blk d 36 + 0x0000
/-- TFR_EVENT, block TFR. -/
def TFR_EVENT (d : Die) : Nat := blk d 36 + 0x0004
/-- TFR_RING, block TFR. -/
def TFR_RING (d : Die) : Nat := blk d 36 + 0x0008
/-- TFR_CYCLE_NS, block TFR. -/
def TFR_CYCLE_NS (d : Die) : Nat := blk d 36 + 0x000C
/-- TFR_CYCLE, block TFR. -/
def TFR_CYCLE (d : Die) : Nat := blk d 36 + 0x0010
/-- TFR_EPOCH, block TFR. -/
def TFR_EPOCH (d : Die) : Nat := blk d 36 + 0x0014
/-- TFR_SYNC_CFG, block TFR. -/
def TFR_SYNC_CFG (d : Die) : Nat := blk d 36 + 0x0018
/-- TFR_STEP_NS, block TFR. -/
def TFR_STEP_NS (d : Die) : Nat := blk d 36 + 0x001C
/-- TFR_OFFSET, block TFR. -/
def TFR_OFFSET (d : Die) : Nat := blk d 36 + 0x0020
/-- TFR_RATE, block TFR. -/
def TFR_RATE (d : Die) : Nat := blk d 36 + 0x0024
/-- TFR_NREF, block TFR. -/
def TFR_NREF (d : Die) : Nat := blk d 36 + 0x0028
/-- TFR_LD_UP, block TFR. -/
def TFR_LD_UP (d : Die) : Nat := blk d 36 + 0x002C
/-- TFR_LD_DN, block TFR. -/
def TFR_LD_DN (d : Die) : Nat := blk d 36 + 0x0030
/-- TFR_ARR, block TFR. -/
def TFR_ARR (d : Die) : Nat := blk d 36 + 0x0034
/-- TFR_LOOP, block TFR. -/
def TFR_LOOP (d : Die) : Nat := blk d 36 + 0x0038
/-- TFR_CLAIM, block TFR. -/
def TFR_CLAIM (d : Die) : Nat := blk d 36 + 0x003C
/-- TFR_WKC, block TFR. -/
def TFR_WKC (d : Die) : Nat := blk d 36 + 0x0040
/-- TFR_UID, block TFR. -/
def TFR_UID (d : Die) : Nat := blk d 36 + 0x0044
/-- TFR_LIMITS, block TFR. -/
def TFR_LIMITS (d : Die) : Nat := blk d 36 + 0x0048
/-- TFR_GUARD, block TFR. -/
def TFR_GUARD (d : Die) : Nat := blk d 36 + 0x004C
/-- TFR_CNT_RX, block TFR. -/
def TFR_CNT_RX (d : Die) : Nat := blk d 36 + 0x0080
/-- TFR_CNT_BAD, block TFR. -/
def TFR_CNT_BAD (d : Die) : Nat := blk d 36 + 0x0084
/-- TFR_CNT_STOMP_TX, block TFR. -/
def TFR_CNT_STOMP_TX (d : Die) : Nat := blk d 36 + 0x0088
/-- TFR_CNT_STALE, block TFR. -/
def TFR_CNT_STALE (d : Die) : Nat := blk d 36 + 0x008C
/-- TFR_CNT_STALE_MASTER, block TFR. -/
def TFR_CNT_STALE_MASTER (d : Die) : Nat := blk d 36 + 0x0090
/-- TFR_CNT_NOINSERT, block TFR. -/
def TFR_CNT_NOINSERT (d : Die) : Nat := blk d 36 + 0x0094
/-- TFR_CNT_MISS, block TFR. -/
def TFR_CNT_MISS (d : Die) : Nat := blk d 36 + 0x0098
/-- TFR_CNT_STEP, block TFR. -/
def TFR_CNT_STEP (d : Die) : Nat := blk d 36 + 0x009C
/-- TFR_CNT_FEW, block TFR. -/
def TFR_CNT_FEW (d : Die) : Nat := blk d 36 + 0x00A0
/-- TFR_CNT_WKC, block TFR. -/
def TFR_CNT_WKC (d : Die) : Nat := blk d 36 + 0x00A4
/-- TFR_CNT_LATE, block TFR. -/
def TFR_CNT_LATE (d : Die) : Nat := blk d 36 + 0x00A8
/-- TFR_CNT_FOREIGN, block TFR. -/
def TFR_CNT_FOREIGN (d : Die) : Nat := blk d 36 + 0x00AC
/-- TFR_CNT_GUARD, block TFR. -/
def TFR_CNT_GUARD (d : Die) : Nat := blk d 36 + 0x00B0
/-- TFR_REF_OUT, block TFR. -/
def TFR_REF_OUT (d : Die) (i : Nat) : Nat := blk d 36 + 0x0100 + 0x0004 * i
/-- TFR_WIN_ERR_LO, block TFR. -/
def TFR_WIN_ERR_LO (d : Die) : Nat := blk d 36 + 0x0180
/-- TFR_WIN_ERR_HI, block TFR. -/
def TFR_WIN_ERR_HI (d : Die) : Nat := blk d 36 + 0x0184
/-- TFR_LAST_DEAD, block TFR. -/
def TFR_LAST_DEAD (d : Die) : Nat := blk d 36 + 0x0200
/-- TFR_DEAD, block TFR. -/
def TFR_DEAD (d : Die) (i : Nat) : Nat := blk d 36 + 0x0400 + 0x0004 * i
/-- TB_STAT, block TB. -/
def TB_STAT (d : Die) : Nat := blk d 37 + 0x0000
/-- TB_EVENT, block TB. -/
def TB_EVENT (d : Die) : Nat := blk d 37 + 0x0004
/-- TB_NOW_LO, block TB. -/
def TB_NOW_LO (d : Die) : Nat := blk d 37 + 0x0008
/-- TB_NOW_HI, block TB. -/
def TB_NOW_HI (d : Die) : Nat := blk d 37 + 0x000C
/-- TB_RATE, block TB. -/
def TB_RATE (d : Die) : Nat := blk d 37 + 0x0020
/-- TB_SLEW, block TB. -/
def TB_SLEW (d : Die) : Nat := blk d 37 + 0x0024
/-- TB_SLEW_REM, block TB. -/
def TB_SLEW_REM (d : Die) : Nat := blk d 37 + 0x0028
/-- TB_SLEW_MAX, block TB. -/
def TB_SLEW_MAX (d : Die) : Nat := blk d 37 + 0x002C
/-- TB_STEP_S, block TB. -/
def TB_STEP_S (d : Die) : Nat := blk d 37 + 0x0030
/-- TB_STEP_SH, block TB. -/
def TB_STEP_SH (d : Die) : Nat := blk d 37 + 0x0034
/-- TB_STEP_NS, block TB. -/
def TB_STEP_NS (d : Die) : Nat := blk d 37 + 0x0038
/-- TB_STEP_CTRL, block TB. -/
def TB_STEP_CTRL (d : Die) : Nat := blk d 37 + 0x003C
/-- TB_STEER_WD, block TB. -/
def TB_STEER_WD (d : Die) : Nat := blk d 37 + 0x0040
/-- TB_UTC, block TB. -/
def TB_UTC (d : Die) : Nat := blk d 37 + 0x0044
/-- TB_SLV_OFF, block TB. -/
def TB_SLV_OFF (d : Die) : Nat := blk d 37 + 0x0048
/-- TB_INC, block TB. -/
def TB_INC (d : Die) : Nat := blk d 37 + 0x004C
/-- TB_CNT_STEP, block TB. -/
def TB_CNT_STEP (d : Die) : Nat := blk d 37 + 0x0050
/-- TB_CNT_TC_SKIP, block TB. -/
def TB_CNT_TC_SKIP (d : Die) : Nat := blk d 37 + 0x0054
/-- TB_SNAP_CTRL, block TB. -/
def TB_SNAP_CTRL (d : Die) : Nat := blk d 37 + 0x0060
/-- TB_SNAP_S, block TB. -/
def TB_SNAP_S (d : Die) : Nat := blk d 37 + 0x0064
/-- TB_SNAP_SH, block TB. -/
def TB_SNAP_SH (d : Die) : Nat := blk d 37 + 0x0068
/-- TB_SNAP_NS, block TB. -/
def TB_SNAP_NS (d : Die) : Nat := blk d 37 + 0x006C
/-- TB_SNAP_LIN_LO, block TB. -/
def TB_SNAP_LIN_LO (d : Die) : Nat := blk d 37 + 0x0070
/-- TB_SNAP_LIN_HI, block TB. -/
def TB_SNAP_LIN_HI (d : Die) : Nat := blk d 37 + 0x0074
/-- TB_PCOMP, block TB. -/
def TB_PCOMP (d : Die) (i : Nat) : Nat := blk d 37 + 0x0100 + 0x0010 * i
/-- TB_PTC, block TB. -/
def TB_PTC (d : Die) (i : Nat) : Nat := blk d 37 + 0x0104 + 0x0010 * i
/-- TB_PLINK, block TB. -/
def TB_PLINK (d : Die) (i : Nat) : Nat := blk d 37 + 0x0108 + 0x0010 * i
/-- TB_CMP_TGT_LO, block TB. -/
def TB_CMP_TGT_LO (d : Die) (i : Nat) : Nat := blk d 37 + 0x1000 + 0x0020 * i
/-- TB_CMP_TGT_HI, block TB. -/
def TB_CMP_TGT_HI (d : Die) (i : Nat) : Nat := blk d 37 + 0x1004 + 0x0020 * i
/-- TB_CMP_PERIOD, block TB. -/
def TB_CMP_PERIOD (d : Die) (i : Nat) : Nat := blk d 37 + 0x1008 + 0x0020 * i
/-- TB_CMP_CTRL, block TB. -/
def TB_CMP_CTRL (d : Die) (i : Nat) : Nat := blk d 37 + 0x100C + 0x0020 * i
/-- TB_CMP_STAT, block TB. -/
def TB_CMP_STAT (d : Die) (i : Nat) : Nat := blk d 37 + 0x1010 + 0x0020 * i
/-- TB_CMP_OWNER, block TB. -/
def TB_CMP_OWNER (d : Die) (i : Nat) : Nat := blk d 37 + 0x1014 + 0x0020 * i
/-- TB_TRIG_CFG, block TB. -/
def TB_TRIG_CFG (d : Die) (i : Nat) : Nat := blk d 37 + 0x1800 + 0x0008 * i
/-- TB_TRIG_WIDTH, block TB. -/
def TB_TRIG_WIDTH (d : Die) (i : Nat) : Nat := blk d 37 + 0x1804 + 0x0008 * i
/-- TB_CAP_LO, block TB. -/
def TB_CAP_LO (d : Die) (i : Nat) : Nat := blk d 37 + 0x1900 + 0x0020 * i
/-- TB_CAP_HI, block TB. -/
def TB_CAP_HI (d : Die) (i : Nat) : Nat := blk d 37 + 0x1904 + 0x0020 * i
/-- TB_CAP_CFG, block TB. -/
def TB_CAP_CFG (d : Die) (i : Nat) : Nat := blk d 37 + 0x1908 + 0x0020 * i
/-- TB_CAP_STAT, block TB. -/
def TB_CAP_STAT (d : Die) (i : Nat) : Nat := blk d 37 + 0x190C + 0x0020 * i
/-- TB_CAP_OWNER, block TB. -/
def TB_CAP_OWNER (d : Die) (i : Nat) : Nat := blk d 37 + 0x1910 + 0x0020 * i
/-- CAN_CTRL, block CAN. -/
def CAN_CTRL (d : Die) (i : Nat) : Nat := blk d 38 + 0x0000 + 0x4000 * i
/-- CAN_CFG, block CAN. -/
def CAN_CFG (d : Die) (i : Nat) : Nat := blk d 38 + 0x0004 + 0x4000 * i
/-- CAN_STAT, block CAN. -/
def CAN_STAT (d : Die) (i : Nat) : Nat := blk d 38 + 0x0008 + 0x4000 * i
/-- CAN_EVENT, block CAN. -/
def CAN_EVENT (d : Die) (i : Nat) : Nat := blk d 38 + 0x000C + 0x4000 * i
/-- CAN_IRQ_EN, block CAN. -/
def CAN_IRQ_EN (d : Die) (i : Nat) : Nat := blk d 38 + 0x0010 + 0x4000 * i
/-- CAN_NBT, block CAN. -/
def CAN_NBT (d : Die) (i : Nat) : Nat := blk d 38 + 0x0014 + 0x4000 * i
/-- CAN_DBT, block CAN. -/
def CAN_DBT (d : Die) (i : Nat) : Nat := blk d 38 + 0x0018 + 0x4000 * i
/-- CAN_XBT, block CAN. -/
def CAN_XBT (d : Die) (i : Nat) : Nat := blk d 38 + 0x001C + 0x4000 * i
/-- CAN_TDC, block CAN. -/
def CAN_TDC (d : Die) (i : Nat) : Nat := blk d 38 + 0x0020 + 0x4000 * i
/-- CAN_PWM, block CAN. -/
def CAN_PWM (d : Die) (i : Nat) : Nat := blk d 38 + 0x0024 + 0x4000 * i
/-- CAN_ERR, block CAN. -/
def CAN_ERR (d : Die) (i : Nat) : Nat := blk d 38 + 0x0028 + 0x4000 * i
/-- CAN_OWNER, block CAN. -/
def CAN_OWNER (d : Die) (i : Nat) : Nat := blk d 38 + 0x002C + 0x4000 * i
/-- CAN_WAKE_ID, block CAN. -/
def CAN_WAKE_ID (d : Die) (i : Nat) : Nat := blk d 38 + 0x0030 + 0x4000 * i
/-- CAN_WAKE_MASK, block CAN. -/
def CAN_WAKE_MASK (d : Die) (i : Nat) : Nat := blk d 38 + 0x0034 + 0x4000 * i
/-- CAN_WAKE_DATA_LO, block CAN. -/
def CAN_WAKE_DATA_LO (d : Die) (i : Nat) : Nat := blk d 38 + 0x0038 + 0x4000 * i
/-- CAN_WAKE_DATA_HI, block CAN. -/
def CAN_WAKE_DATA_HI (d : Die) (i : Nat) : Nat := blk d 38 + 0x003C + 0x4000 * i
/-- CAN_WAKE_DMASK_LO, block CAN. -/
def CAN_WAKE_DMASK_LO (d : Die) (i : Nat) : Nat := blk d 38 + 0x0040 + 0x4000 * i
/-- CAN_WAKE_DMASK_HI, block CAN. -/
def CAN_WAKE_DMASK_HI (d : Die) (i : Nat) : Nat := blk d 38 + 0x0044 + 0x4000 * i
/-- CAN_ABR_CAND, block CAN. -/
def CAN_ABR_CAND (d : Die) (i : Nat) (j : Nat) : Nat := blk d 38 + 0x0048 + 0x4000 * i + 0x0004 * j
/-- CAN_ABR, block CAN. -/
def CAN_ABR (d : Die) (i : Nat) : Nat := blk d 38 + 0x0068 + 0x4000 * i
/-- CAN_Q_CFG, block CAN. -/
def CAN_Q_CFG (d : Die) (i : Nat) (j : Nat) : Nat := blk d 38 + 0x0070 + 0x4000 * i + 0x0010 * j
/-- CAN_Q_STAT, block CAN. -/
def CAN_Q_STAT (d : Die) (i : Nat) (j : Nat) : Nat := blk d 38 + 0x0074 + 0x4000 * i + 0x0010 * j
/-- CAN_Q_CTRL, block CAN. -/
def CAN_Q_CTRL (d : Die) (i : Nat) (j : Nat) : Nat := blk d 38 + 0x0078 + 0x4000 * i + 0x0010 * j
/-- CAN_Q_BASE, block CAN. -/
def CAN_Q_BASE (d : Die) (i : Nat) (j : Nat) : Nat := blk d 38 + 0x007C + 0x4000 * i + 0x0010 * j
/-- CAN_CNT_RX, block CAN. -/
def CAN_CNT_RX (d : Die) (i : Nat) : Nat := blk d 38 + 0x00A0 + 0x4000 * i
/-- CAN_CNT_TX, block CAN. -/
def CAN_CNT_TX (d : Die) (i : Nat) : Nat := blk d 38 + 0x00A4 + 0x4000 * i
/-- CAN_CNT_ERRF, block CAN. -/
def CAN_CNT_ERRF (d : Die) (i : Nat) : Nat := blk d 38 + 0x00A8 + 0x4000 * i
/-- CAN_CNT_OVR_A, block CAN. -/
def CAN_CNT_OVR_A (d : Die) (i : Nat) : Nat := blk d 38 + 0x00AC + 0x4000 * i
/-- CAN_CNT_OVR_B, block CAN. -/
def CAN_CNT_OVR_B (d : Die) (i : Nat) : Nat := blk d 38 + 0x00B0 + 0x4000 * i
/-- CAN_CNT_NOMATCH, block CAN. -/
def CAN_CNT_NOMATCH (d : Die) (i : Nat) : Nat := blk d 38 + 0x00B4 + 0x4000 * i
/-- CAN_CNT_TOOLONG, block CAN. -/
def CAN_CNT_TOOLONG (d : Die) (i : Nat) : Nat := blk d 38 + 0x00B8 + 0x4000 * i
/-- CAN_CNT_BOFF, block CAN. -/
def CAN_CNT_BOFF (d : Die) (i : Nat) : Nat := blk d 38 + 0x00BC + 0x4000 * i
/-- CAN_CNT_FIFO_DROP, block CAN. -/
def CAN_CNT_FIFO_DROP (d : Die) (i : Nat) : Nat := blk d 38 + 0x00C0 + 0x4000 * i
/-- CAN_CNT_WAKE, block CAN. -/
def CAN_CNT_WAKE (d : Die) (i : Nat) : Nat := blk d 38 + 0x00C4 + 0x4000 * i
/-- CAN_TX_CTRL, block CAN. -/
def CAN_TX_CTRL (d : Die) (i : Nat) (j : Nat) : Nat := blk d 38 + 0x00E0 + 0x4000 * i + 0x0004 * j
/-- CAN_FLT_MATCH, block CAN. -/
def CAN_FLT_MATCH (d : Die) (i : Nat) (j : Nat) : Nat := blk d 38 + 0x0100 + 0x4000 * i + 0x0010 * j
/-- CAN_FLT_MASK, block CAN. -/
def CAN_FLT_MASK (d : Die) (i : Nat) (j : Nat) : Nat := blk d 38 + 0x0104 + 0x4000 * i + 0x0010 * j
/-- CAN_FLT_CTRL, block CAN. -/
def CAN_FLT_CTRL (d : Die) (i : Nat) (j : Nat) : Nat := blk d 38 + 0x0108 + 0x4000 * i + 0x0010 * j
/-- CAN_TXB, block CAN. -/
def CAN_TXB (d : Die) (i : Nat) (j : Nat) (k : Nat) : Nat := blk d 38 + 0x0800 + 0x4000 * i + 0x0900 * j + 0x0004 * k
/-- CAN_RX, block CAN. -/
def CAN_RX (d : Die) (i : Nat) (j : Nat) (k : Nat) : Nat := blk d 38 + 0x2400 + 0x4000 * i + 0x0900 * j + 0x0004 * k
/-- CE_ID, block CE. -/
def CE_ID (d : Die) (i : Nat) : Nat := blk d (10 + i) + 0x0000
/-- CE_STAT, block CE. -/
def CE_STAT (d : Die) (i : Nat) : Nat := blk d (10 + i) + 0x0004
/-- CE_CTRL, block CE. -/
def CE_CTRL (d : Die) (i : Nat) : Nat := blk d (10 + i) + 0x0008
/-- CE_HALT_CAUSE, block CE. -/
def CE_HALT_CAUSE (d : Die) (i : Nat) : Nat := blk d (10 + i) + 0x000C
/-- CE_PC, block CE. -/
def CE_PC (d : Die) (i : Nat) : Nat := blk d (10 + i) + 0x0010
/-- CE_FLAGS, block CE. -/
def CE_FLAGS (d : Die) (i : Nat) : Nat := blk d (10 + i) + 0x0014
/-- CE_SP_LO, block CE. -/
def CE_SP_LO (d : Die) (i : Nat) : Nat := blk d (10 + i) + 0x0018
/-- CE_SP_HI, block CE. -/
def CE_SP_HI (d : Die) (i : Nat) : Nat := blk d (10 + i) + 0x001C
/-- CE_B, block CE. -/
def CE_B (d : Die) (i : Nat) (j : Nat) : Nat := blk d (10 + i) + 0x0020 + 0x0004 * j
/-- CE_FADDR, block CE. -/
def CE_FADDR (d : Die) (i : Nat) : Nat := blk d (10 + i) + 0x0040
/-- CE_FCAUSE, block CE. -/
def CE_FCAUSE (d : Die) (i : Nat) : Nat := blk d (10 + i) + 0x0044
/-- CE_EVT, block CE. -/
def CE_EVT (d : Die) (i : Nat) : Nat := blk d (10 + i) + 0x0048
/-- CE_SP, block CE. -/
def CE_SP (d : Die) (i : Nat) : Nat := blk d (10 + i) + 0x004C
/-- CE_WIN_MAP, block CE. -/
def CE_WIN_MAP (d : Die) (i : Nat) (j : Nat) : Nat := blk d (10 + i) + 0x0050 + 0x0008 * j
/-- CE_WIN_LEN, block CE. -/
def CE_WIN_LEN (d : Die) (i : Nat) (j : Nat) : Nat := blk d (10 + i) + 0x0054 + 0x0008 * j
/-- CE_CYC_USED, block CE. -/
def CE_CYC_USED (d : Die) (i : Nat) : Nat := blk d (10 + i) + 0x0070
/-- CE_FS, block CE. -/
def CE_FS (d : Die) (i : Nat) (j : Nat) : Nat := blk d (10 + i) + 0x0080 + 0x0004 * j
/-- CE_CNT_CYCLES, block CE. -/
def CE_CNT_CYCLES (d : Die) (i : Nat) : Nat := blk d (10 + i) + 0x00C0
/-- CE_CNT_EXC, block CE. -/
def CE_CNT_EXC (d : Die) (i : Nat) : Nat := blk d (10 + i) + 0x00C4
/-- CE_CNT_ABORT, block CE. -/
def CE_CNT_ABORT (d : Die) (i : Nat) : Nat := blk d (10 + i) + 0x00C8
/-- CE_CNT_OVERRUN, block CE. -/
def CE_CNT_OVERRUN (d : Die) (i : Nat) : Nat := blk d (10 + i) + 0x00CC
/-- CE_CNT_NOSLOT, block CE. -/
def CE_CNT_NOSLOT (d : Die) (i : Nat) : Nat := blk d (10 + i) + 0x00D0
/-- CE_ECC_CORR, block CE. -/
def CE_ECC_CORR (d : Die) (i : Nat) : Nat := blk d (10 + i) + 0x00D4
/-- CE_CNT_STALL, block CE. -/
def CE_CNT_STALL (d : Die) (i : Nat) : Nat := blk d (10 + i) + 0x00D8
/-- CE_PEND_LO, block CE. -/
def CE_PEND_LO (d : Die) (i : Nat) : Nat := blk d (10 + i) + 0x0100
/-- CE_PEND_HI, block CE. -/
def CE_PEND_HI (d : Die) (i : Nat) : Nat := blk d (10 + i) + 0x0104
/-- SPR_STAT, block SPR. -/
def SPR_STAT (d : Die) (i : Nat) : Nat := blk d 41 + 0x8000 + 0x0100 * i
/-- SPR_LS_PASS, block SPR. -/
def SPR_LS_PASS (d : Die) (i : Nat) : Nat := blk d 41 + 0x8004 + 0x0100 * i
/-- SPR_LS_NEXT, block SPR. -/
def SPR_LS_NEXT (d : Die) (i : Nat) : Nat := blk d 41 + 0x8008 + 0x0100 * i
/-- SPR_PASS_S, block SPR. -/
def SPR_PASS_S (d : Die) (i : Nat) : Nat := blk d 41 + 0x800C + 0x0100 * i
/-- SPR_PASS_NS, block SPR. -/
def SPR_PASS_NS (d : Die) (i : Nat) : Nat := blk d 41 + 0x8010 + 0x0100 * i
/-- SPR_FAULT_S, block SPR. -/
def SPR_FAULT_S (d : Die) (i : Nat) : Nat := blk d 41 + 0x8014 + 0x0100 * i
/-- SPR_FAULT_NS, block SPR. -/
def SPR_FAULT_NS (d : Die) (i : Nat) : Nat := blk d 41 + 0x8018 + 0x0100 * i
/-- SPR_FAULT_POS, block SPR. -/
def SPR_FAULT_POS (d : Die) (i : Nat) : Nat := blk d 41 + 0x801C + 0x0100 * i
/-- SPR_EXC, block SPR. -/
def SPR_EXC (d : Die) (i : Nat) : Nat := blk d 41 + 0x8020 + 0x0100 * i
/-- SPR_EXC_PC, block SPR. -/
def SPR_EXC_PC (d : Die) (i : Nat) : Nat := blk d 41 + 0x8024 + 0x0100 * i
/-- SPR_ECC_CORR, block SPR. -/
def SPR_ECC_CORR (d : Die) (i : Nat) : Nat := blk d 41 + 0x8028 + 0x0100 * i
/-- SPR_DBG_CTRL, block SPR. -/
def SPR_DBG_CTRL (d : Die) (i : Nat) : Nat := blk d 41 + 0x802C + 0x0100 * i
/-- SPR_ACC, block SPR. -/
def SPR_ACC (d : Die) (i : Nat) : Nat := blk d 41 + 0x8030 + 0x0100 * i
/-- SPR_X, block SPR. -/
def SPR_X (d : Die) (i : Nat) : Nat := blk d 41 + 0x8034 + 0x0100 * i
/-- SPR_Y, block SPR. -/
def SPR_Y (d : Die) (i : Nat) : Nat := blk d 41 + 0x8038 + 0x0100 * i
/-- SPR_SP, block SPR. -/
def SPR_SP (d : Die) (i : Nat) : Nat := blk d 41 + 0x803C + 0x0100 * i
/-- SPR_PC, block SPR. -/
def SPR_PC (d : Die) (i : Nat) : Nat := blk d 41 + 0x8040 + 0x0100 * i
/-- SPR_FLAGS, block SPR. -/
def SPR_FLAGS (d : Die) (i : Nat) : Nat := blk d 41 + 0x8044 + 0x0100 * i
/-- SPR_SPL, block SPR. -/
def SPR_SPL (d : Die) (i : Nat) : Nat := blk d 41 + 0x8048 + 0x0100 * i
/-- SPR_SPH, block SPR. -/
def SPR_SPH (d : Die) (i : Nat) : Nat := blk d 41 + 0x804C + 0x0100 * i
/-- SPR_ROLES, block SPR. -/
def SPR_ROLES (d : Die) : Nat := blk d 41 + 0x8200
/-- SPR_TKO_S, block SPR. -/
def SPR_TKO_S (d : Die) : Nat := blk d 41 + 0x8204
/-- SPR_TKO_NS, block SPR. -/
def SPR_TKO_NS (d : Die) : Nat := blk d 41 + 0x8208
/-- STN_FLAG_SET, block STN. -/
def STN_FLAG_SET (d : Die) : Nat := blk d 39 + 0x0000
/-- STN_FLAG_CLR, block STN. -/
def STN_FLAG_CLR (d : Die) : Nat := blk d 39 + 0x0004
/-- STN_RUNNING, block STN. -/
def STN_RUNNING (d : Die) : Nat := blk d 39 + 0x0008
/-- STN_WATCH, block STN. -/
def STN_WATCH (d : Die) (i : Nat) : Nat := blk d 39 + 0x0040 + 0x0004 * i
/-- STN_CTRL, block STN. -/
def STN_CTRL (d : Die) (i : Nat) : Nat := blk d 39 + 0x1000 + 0x0200 * i
/-- STN_CFG, block STN. -/
def STN_CFG (d : Die) (i : Nat) : Nat := blk d 39 + 0x1004 + 0x0200 * i
/-- STN_PINS, block STN. -/
def STN_PINS (d : Die) (i : Nat) : Nat := blk d 39 + 0x1008 + 0x0200 * i
/-- STN_DIV, block STN. -/
def STN_DIV (d : Die) (i : Nat) : Nat := blk d 39 + 0x100C + 0x0200 * i
/-- STN_SR, block STN. -/
def STN_SR (d : Die) (i : Nat) : Nat := blk d 39 + 0x1010 + 0x0200 * i
/-- STN_CMP, block STN. -/
def STN_CMP (d : Die) (i : Nat) : Nat := blk d 39 + 0x1014 + 0x0200 * i
/-- STN_TXDATA, block STN. -/
def STN_TXDATA (d : Die) (i : Nat) : Nat := blk d 39 + 0x1018 + 0x0200 * i
/-- STN_STAT, block STN. -/
def STN_STAT (d : Die) (i : Nat) : Nat := blk d 39 + 0x101C + 0x0200 * i
/-- STN_CNT, block STN. -/
def STN_CNT (d : Die) (i : Nat) : Nat := blk d 39 + 0x1020 + 0x0200 * i
/-- STN_EVENT, block STN. -/
def STN_EVENT (d : Die) (i : Nat) : Nat := blk d 39 + 0x1024 + 0x0200 * i
/-- STN_OWNER, block STN. -/
def STN_OWNER (d : Die) (i : Nat) : Nat := blk d 39 + 0x1028 + 0x0200 * i
/-- STN_CNT_GUARD, block STN. -/
def STN_CNT_GUARD (d : Die) (i : Nat) : Nat := blk d 39 + 0x102C + 0x0200 * i
/-- STN_CNT_NOFIFO, block STN. -/
def STN_CNT_NOFIFO (d : Die) (i : Nat) : Nat := blk d 39 + 0x1030 + 0x0200 * i
/-- STN_PROG, block STN. -/
def STN_PROG (d : Die) (i : Nat) (j : Nat) : Nat := blk d 39 + 0x1080 + 0x0200 * i + 0x0004 * j
/-- PIN_CFG, block PIN. -/
def PIN_CFG (d : Die) (i : Nat) : Nat := blk d 43 + 0x0000 + 0x0004 * i
/-- PIN_BANK, block PIN. -/
def PIN_BANK (d : Die) : Nat := blk d 43 + 0x0100
/-- FIO_STAT, block FIO. -/
def FIO_STAT (d : Die) : Nat := blk d 40 + 0x0000
/-- FIO_EVENT, block FIO. -/
def FIO_EVENT (d : Die) : Nat := blk d 40 + 0x0004
/-- FIO_IN, block FIO. -/
def FIO_IN (d : Die) : Nat := blk d 40 + 0x0008
/-- FIO_OUT, block FIO. -/
def FIO_OUT (d : Die) : Nat := blk d 40 + 0x000C
/-- FIO_OUT_WR, block FIO. -/
def FIO_OUT_WR (d : Die) : Nat := blk d 40 + 0x0010
/-- FIO_COS, block FIO. -/
def FIO_COS (d : Die) : Nat := blk d 40 + 0x0014
/-- FIO_CFG, block FIO. -/
def FIO_CFG (d : Die) : Nat := blk d 40 + 0x0018
/-- FIO_WB_EN, block FIO. -/
def FIO_WB_EN (d : Die) : Nat := blk d 40 + 0x001C
/-- FIO_OWN, block FIO. -/
def FIO_OWN (d : Die) (i : Nat) : Nat := blk d 40 + 0x0020 + 0x0004 * i
/-- FIO_CNT_DN_ERR, block FIO. -/
def FIO_CNT_DN_ERR (d : Die) : Nat := blk d 40 + 0x0040
/-- FIO_CNT_UP_ERR, block FIO. -/
def FIO_CNT_UP_ERR (d : Die) : Nat := blk d 40 + 0x0044
/-- FIO_CNT_SEQ_GAP, block FIO. -/
def FIO_CNT_SEQ_GAP (d : Die) : Nat := blk d 40 + 0x0048
/-- FIO_CNT_TRIP, block FIO. -/
def FIO_CNT_TRIP (d : Die) : Nat := blk d 40 + 0x004C
/-- FIO_CNT_FAULT, block FIO. -/
def FIO_CNT_FAULT (d : Die) : Nat := blk d 40 + 0x0050
/-- FIO_FAULT_S, block FIO. -/
def FIO_FAULT_S (d : Die) : Nat := blk d 40 + 0x0054
/-- FIO_FAULT_NS, block FIO. -/
def FIO_FAULT_NS (d : Die) : Nat := blk d 40 + 0x0058
/-- RST_CAUSE, block RST. -/
def RST_CAUSE (d : Die) : Nat := blk d 1 + 0x0000
/-- RST_STAT, block RST. -/
def RST_STAT (d : Die) : Nat := blk d 1 + 0x0004
/-- RST_CFG, block RST. -/
def RST_CFG (d : Die) : Nat := blk d 1 + 0x0008
/-- RST_WD_TMO, block RST. -/
def RST_WD_TMO (d : Die) : Nat := blk d 1 + 0x000C
/-- RST_WD_KICK, block RST. -/
def RST_WD_KICK (d : Die) : Nat := blk d 1 + 0x0010
/-- RST_WD_LEFT, block RST. -/
def RST_WD_LEFT (d : Die) : Nat := blk d 1 + 0x0014
/-- RST_TIME_S, block RST. -/
def RST_TIME_S (d : Die) : Nat := blk d 1 + 0x0018
/-- RST_TIME_NS, block RST. -/
def RST_TIME_NS (d : Die) : Nat := blk d 1 + 0x001C
/-- RST_CNT, block RST. -/
def RST_CNT (d : Die) : Nat := blk d 1 + 0x0020
/-- RST_CFG_GEN, block RST. -/
def RST_CFG_GEN (d : Die) : Nat := blk d 1 + 0x0030
/-- RST_CFG_STAT, block RST. -/
def RST_CFG_STAT (d : Die) : Nat := blk d 1 + 0x0034
/-- RST_CFG_COMMITS, block RST. -/
def RST_CFG_COMMITS (d : Die) : Nat := blk d 1 + 0x0038
/-- PWR_STAT, block PWR. -/
def PWR_STAT (d : Die) : Nat := blk d 3 + 0x0000
/-- PWR_EVENT, block PWR. -/
def PWR_EVENT (d : Die) : Nat := blk d 3 + 0x0004
/-- PWR_VCORE, block PWR. -/
def PWR_VCORE (d : Die) : Nat := blk d 3 + 0x0008
/-- PWR_PROP, block PWR. -/
def PWR_PROP (d : Die) : Nat := blk d 3 + 0x000C
/-- PWR_TELEM_I, block PWR. -/
def PWR_TELEM_I (d : Die) : Nat := blk d 3 + 0x0010
/-- PWR_TELEM_T, block PWR. -/
def PWR_TELEM_T (d : Die) : Nat := blk d 3 + 0x0014
/-- PWR_PMB_STATUS, block PWR. -/
def PWR_PMB_STATUS (d : Die) : Nat := blk d 3 + 0x0018
/-- PWR_PMB_CFG, block PWR. -/
def PWR_PMB_CFG (d : Die) : Nat := blk d 3 + 0x001C
/-- PWR_PMB_ERR, block PWR. -/
def PWR_PMB_ERR (d : Die) : Nat := blk d 3 + 0x0020
/-- CLK_STAT, block CLK. -/
def CLK_STAT (d : Die) : Nat := blk d 2 + 0x0000
/-- CLK_EVENT, block CLK. -/
def CLK_EVENT (d : Die) : Nat := blk d 2 + 0x0004
/-- CLK_DOM, block CLK. -/
def CLK_DOM (d : Die) (i : Nat) : Nat := blk d 2 + 0x0010 + 0x0004 * i
/-- CLK_CNT_MARGIN, block CLK. -/
def CLK_CNT_MARGIN (d : Die) : Nat := blk d 2 + 0x0030
/-- CLK_CNT_REFLOSS, block CLK. -/
def CLK_CNT_REFLOSS (d : Die) : Nat := blk d 2 + 0x0034
/-- HLT_STAT, block HLT. -/
def HLT_STAT (d : Die) : Nat := blk d 41 + 0x0000
/-- HLT_EVENT, block HLT. -/
def HLT_EVENT (d : Die) : Nat := blk d 41 + 0x0004
/-- HLT_TEST_STAT, block HLT. -/
def HLT_TEST_STAT (d : Die) : Nat := blk d 41 + 0x0010
/-- HLT_TEST_QMAX, block HLT. -/
def HLT_TEST_QMAX (d : Die) : Nat := blk d 41 + 0x0014
/-- HLT_TEST_LAST, block HLT. -/
def HLT_TEST_LAST (d : Die) : Nat := blk d 41 + 0x0018
/-- HLT_BIST_DETAIL, block HLT. -/
def HLT_BIST_DETAIL (d : Die) : Nat := blk d 41 + 0x001C
/-- HLT_OOS_CE, block HLT. -/
def HLT_OOS_CE (d : Die) : Nat := blk d 41 + 0x0020
/-- HLT_OOS_CMP_LO, block HLT. -/
def HLT_OOS_CMP_LO (d : Die) : Nat := blk d 41 + 0x0024
/-- HLT_OOS_CMP_HI, block HLT. -/
def HLT_OOS_CMP_HI (d : Die) : Nat := blk d 41 + 0x0028
/-- HLT_OOS_MISC, block HLT. -/
def HLT_OOS_MISC (d : Die) : Nat := blk d 41 + 0x002C
/-- HLT_UNIT_SEL, block HLT. -/
def HLT_UNIT_SEL (d : Die) : Nat := blk d 41 + 0x0040
/-- HLT_UNIT_STAT, block HLT. -/
def HLT_UNIT_STAT (d : Die) : Nat := blk d 41 + 0x0044
/-- HLT_UNIT_COUNTS, block HLT. -/
def HLT_UNIT_COUNTS (d : Die) : Nat := blk d 41 + 0x0048
/-- HLT_UNIT_LAST_S, block HLT. -/
def HLT_UNIT_LAST_S (d : Die) : Nat := blk d 41 + 0x004C
/-- HLT_UNIT_DETAIL, block HLT. -/
def HLT_UNIT_DETAIL (d : Die) : Nat := blk d 41 + 0x0050
/-- HLT_DOM_DELAY, block HLT. -/
def HLT_DOM_DELAY (d : Die) (i : Nat) : Nat := blk d 41 + 0x0100 + 0x0010 * i
/-- HLT_DOM_GB, block HLT. -/
def HLT_DOM_GB (d : Die) (i : Nat) : Nat := blk d 41 + 0x0104 + 0x0010 * i
/-- HLT_DOM_AGE, block HLT. -/
def HLT_DOM_AGE (d : Die) (i : Nat) : Nat := blk d 41 + 0x0108 + 0x0010 * i
/-- HLT_DOM_FCST, block HLT. -/
def HLT_DOM_FCST (d : Die) (i : Nat) : Nat := blk d 41 + 0x010C + 0x0010 * i
/-- HLT_RET, block HLT. -/
def HLT_RET (d : Die) (i : Nat) : Nat := blk d 41 + 0x0200 + 0x0004 * i
/-- HLT_EYE, block HLT. -/
def HLT_EYE (d : Die) (i : Nat) : Nat := blk d 41 + 0x0300 + 0x0004 * i
/-- HLT_DRV, block HLT. -/
def HLT_DRV (d : Die) (i : Nat) : Nat := blk d 41 + 0x0380 + 0x0004 * i
/-- HLT_CNT_TEST, block HLT. -/
def HLT_CNT_TEST (d : Die) : Nat := blk d 41 + 0x0400
/-- HLT_CNT_TEST_FAIL, block HLT. -/
def HLT_CNT_TEST_FAIL (d : Die) : Nat := blk d 41 + 0x0404
/-- HLT_CNT_TEST_ABORT, block HLT. -/
def HLT_CNT_TEST_ABORT (d : Die) : Nat := blk d 41 + 0x0408
/-- HLT_CNT_DEFER, block HLT. -/
def HLT_CNT_DEFER (d : Die) : Nat := blk d 41 + 0x040C
/-- HLT_CNT_FENCED, block HLT. -/
def HLT_CNT_FENCED (d : Die) : Nat := blk d 41 + 0x0410
/-- HLT_CNT_LATE, block HLT. -/
def HLT_CNT_LATE (d : Die) : Nat := blk d 41 + 0x0414
/-- HLT_CNT_QUEUED, block HLT. -/
def HLT_CNT_QUEUED (d : Die) : Nat := blk d 41 + 0x0418
/-- HLT_LIFE_HOURS, block HLT. -/
def HLT_LIFE_HOURS (d : Die) : Nat := blk d 41 + 0x0500
/-- HLT_LIFE_RESETS, block HLT. -/
def HLT_LIFE_RESETS (d : Die) : Nat := blk d 41 + 0x0504
/-- HLT_LIFE_PWRLOSS, block HLT. -/
def HLT_LIFE_PWRLOSS (d : Die) : Nat := blk d 41 + 0x0508
/-- HLT_LIFE_FAULTS, block HLT. -/
def HLT_LIFE_FAULTS (d : Die) : Nat := blk d 41 + 0x050C
/-- HLT_LIFE_TESTS, block HLT. -/
def HLT_LIFE_TESTS (d : Die) : Nat := blk d 41 + 0x0510
/-- HLT_LIFE_ENTRIES, block HLT. -/
def HLT_LIFE_ENTRIES (d : Die) : Nat := blk d 41 + 0x0514
/-- LOG_STAT, block LOG. -/
def LOG_STAT (d : Die) : Nat := blk d 42 + 0x0000
/-- LOG_EVENT, block LOG. -/
def LOG_EVENT (d : Die) : Nat := blk d 42 + 0x0004
/-- LOG_HEAD, block LOG. -/
def LOG_HEAD (d : Die) : Nat := blk d 42 + 0x0008
/-- LOG_OLDEST, block LOG. -/
def LOG_OLDEST (d : Die) : Nat := blk d 42 + 0x000C
/-- LOG_STREAMED, block LOG. -/
def LOG_STREAMED (d : Die) : Nat := blk d 42 + 0x0010
/-- LOG_MIRROR_BASE, block LOG. -/
def LOG_MIRROR_BASE (d : Die) : Nat := blk d 42 + 0x0014
/-- LOG_RATE, block LOG. -/
def LOG_RATE (d : Die) : Nat := blk d 42 + 0x0018
/-- LOG_SNAP_BASE, block LOG. -/
def LOG_SNAP_BASE (d : Die) : Nat := blk d 42 + 0x001C
/-- LOG_SNAP_S, block LOG. -/
def LOG_SNAP_S (d : Die) : Nat := blk d 42 + 0x0020
/-- LOG_SNAP_NS, block LOG. -/
def LOG_SNAP_NS (d : Die) : Nat := blk d 42 + 0x0024
/-- LOG_CNT_SUPP, block LOG. -/
def LOG_CNT_SUPP (d : Die) : Nat := blk d 42 + 0x0030
/-- LOG_CNT_MEMERR, block LOG. -/
def LOG_CNT_MEMERR (d : Die) : Nat := blk d 42 + 0x0034
/-- LOG_CNT_STREAM_ERR, block LOG. -/
def LOG_CNT_STREAM_ERR (d : Die) : Nat := blk d 42 + 0x0038
/-- LOG_LFR, block LOG. -/
def LOG_LFR (d : Die) (i : Nat) : Nat := blk d 42 + 0x0100 + 0x0004 * i
/-- LOG_LFR_STAT, block LOG. -/
def LOG_LFR_STAT (d : Die) : Nat := blk d 42 + 0x0140
/-- LOG_LFR_CTRL, block LOG. -/
def LOG_LFR_CTRL (d : Die) : Nat := blk d 42 + 0x0144
/-- CE_SLOT_W0, block CE. -/
def CE_SLOT_W0 (d : Die) (i : Nat) (j : Nat) : Nat := blk d (10 + i) + 0x1000 + 0x0080 * j
/-- CE_SLOT_W1, block CE. -/
def CE_SLOT_W1 (d : Die) (i : Nat) (j : Nat) : Nat := blk d (10 + i) + 0x1004 + 0x0080 * j
/-- CE_SLOT_W2, block CE. -/
def CE_SLOT_W2 (d : Die) (i : Nat) (j : Nat) : Nat := blk d (10 + i) + 0x1008 + 0x0080 * j
/-- CE_SLOT_W3, block CE. -/
def CE_SLOT_W3 (d : Die) (i : Nat) (j : Nat) : Nat := blk d (10 + i) + 0x100C + 0x0080 * j
/-- CE_SLOT_W4, block CE. -/
def CE_SLOT_W4 (d : Die) (i : Nat) (j : Nat) : Nat := blk d (10 + i) + 0x1010 + 0x0080 * j
/-- CE_SLOT_W5, block CE. -/
def CE_SLOT_W5 (d : Die) (i : Nat) (j : Nat) : Nat := blk d (10 + i) + 0x1014 + 0x0080 * j
/-- CE_SLOT_W6, block CE. -/
def CE_SLOT_W6 (d : Die) (i : Nat) (j : Nat) : Nat := blk d (10 + i) + 0x1018 + 0x0080 * j
/-- CE_SLOT_W24, block CE. -/
def CE_SLOT_W24 (d : Die) (i : Nat) (j : Nat) : Nat := blk d (10 + i) + 0x1060 + 0x0080 * j
/-- CE_SLOT_W25, block CE. -/
def CE_SLOT_W25 (d : Die) (i : Nat) (j : Nat) : Nat := blk d (10 + i) + 0x1064 + 0x0080 * j
/-- CE_SLOT_W26, block CE. -/
def CE_SLOT_W26 (d : Die) (i : Nat) (j : Nat) : Nat := blk d (10 + i) + 0x1068 + 0x0080 * j
/-- CE_SLOT_W27, block CE. -/
def CE_SLOT_W27 (d : Die) (i : Nat) (j : Nat) : Nat := blk d (10 + i) + 0x106C + 0x0080 * j
/-- CE_GRANT_W0, block CE. -/
def CE_GRANT_W0 (d : Die) (i : Nat) (j : Nat) (k : Nat) : Nat := blk d (10 + i) + 0x1020 + 0x0080 * j + 0x0008 * k
/-- CE_GRANT_W1, block CE. -/
def CE_GRANT_W1 (d : Die) (i : Nat) (j : Nat) (k : Nat) : Nat := blk d (10 + i) + 0x1024 + 0x0080 * j + 0x0008 * k

end Sys2Proof.Machine.R
end

