-- ==== Sys2Proof/Machine/Tab.lean ====
section
/-! DEFINITION. The one container of the state's addressed data: a list of (key, value) pairs in canonical form, keys
strictly rising and no entry equal to what an unlisted key reads as.  `d` gives what an unlisted key reads as. -/

namespace Sys2Proof.Machine

/-- Addressed data in canonical form.  With bytes as values this is a list of `Host.Cell`. -/
abbrev Tab (α : Type) := List (Nat × α)

/-- Value at a key. -/
def Tab.get {α : Type} (d : Nat → α) : Tab α → Nat → α
  | [], k => d k
  | e :: t, k => if e.1 = k then e.2 else Tab.get d t k

/-- The entries but those of key `k`. -/
def Tab.erase {α : Type} : Tab α → Nat → Tab α
  | [], _ => []
  | e :: t, k => if e.1 = k then Tab.erase t k else e :: Tab.erase t k

/-- Insertion before the first larger key. -/
def Tab.ins {α : Type} : Tab α → Nat → α → Tab α
  | [], k, v => [(k, v)]
  | e :: t, k, v => if k < e.1 then (k, v) :: e :: t else e :: Tab.ins t k v

/-- Write of a value at a key, keeping the canonical form. -/
def Tab.put {α : Type} [DecidableEq α] (d : Nat → α) (t : Tab α) (k : Nat) (v : α) : Tab α :=
  if v = d k then Tab.erase t k else Tab.ins (Tab.erase t k) k v

/-- Every key of the table is above `k`. -/
def Tab.above {α : Type} (k : Nat) : Tab α → Bool
  | [] => true
  | e :: _ => decide (k < e.1)

/-- Canonical form: keys strictly rising, no entry equal to the unlisted value. -/
def Tab.wf {α : Type} [DecidableEq α] (d : Nat → α) : Tab α → Bool
  | [] => true
  | e :: t => decide (e.2 ≠ d e.1) && Tab.above e.1 t && Tab.wf d t

end Sys2Proof.Machine
end

