-- ==== Sys2Proof/Machine/State.lean ====
section
/-! DEFINITION. The state of the block: plain data, every field a value that can be written out and compared.  Registers
stand in `regs` by internal address (Machine/Regs.lean names each, Machine/RegMap.lean gives its reset value), byte-addressed
memory in `mem` by internal address (R23); the other fields hold what the spec gives the machine besides. -/

namespace Sys2Proof.Machine

/-- Status of a PCIe completion (R170): Successful Completion, Completer Abort, Unsupported Request. -/
inductive Cpl where
  | sc
  | ca
  | ur
deriving DecidableEq, Repr

/-- Answer to one access (R170, R546); a refused one of a PCIe function carries the status of its completion where it has one. -/
inductive Answer where
  | done
  | data (ws : List Word)
  | refused (cause : Nat) (cpl : Option Cpl := none)
  | stalled
deriving DecidableEq, Repr

/-- What the block puts on its ports: the model's own record of outputs, newest first. -/
inductive Out where
  | answer (who : Requester) (a : Nat) (r : Answer)
  | tlp (d : Die) (fn : Nat) (ok : Bool) (bytes : List Byte) (cpl : Option Cpl := none)
  | aer (d : Die) (fn : Nat) (fatal : Bool)
  | msix (d : Die) (fn : Nat) (vec : Nat)
  | spi (bytes : List Byte)
  | par (err : Bool) (data : Nat)
  | pool (d : Die) (port : Nat) (addr : Nat) (r : Answer)
  | frame (d : Die) (port : Nat) (bytes : List Byte)
  | ring (d : Die) (up : Bool) (bytes : List Byte)
  | can (d : Die) (c : Nat) (words : List Word)
  | duolay (d : Die) (cls : Nat) (seq : Nat) (payload : List Byte)
  | remoteFault (d : Die) (port : Nat) (on : Bool)
  | stamp (d : Die) (port : Nat) (lin : Nat)
  | mdio (d : Die) (w : Word)
  | fio (down : Bool) (bytes : List Byte)
  | pdelay (d : Die) (up : Bool) (response : Bool)
  | report (d : Die) (k slot : Nat) (status : Word)
deriving DecidableEq, Repr

/-- Device time of one die with the hidden fraction and the remaining slew (R289, R291, R295): seconds, nanoseconds, fraction
and slew in units of 2^-32 ns. -/
structure DevTime where
  sec : Nat := 0
  ns : Nat := 0
  frac : Nat := 0
  slew : Int := 0
deriving DecidableEq, Repr

/-- A snapshot of device time held for one requester (R321). -/
structure Snap where
  s : Nat := 0
  sh : Nat := 0
  ns : Nat := 0
  lin : Nat := 0
deriving DecidableEq, Repr

/-- An entry of a function's MSI-X table (R156, R180): address, data, mask bit. -/
structure MsixVec where
  addr : Nat := 0
  data : Nat := 0
  masked : Bool := true
deriving DecidableEq, Repr

/-- What a PCIe function logs of errors on requests posted to it (R154, R171): the AER uncorrectable error status, mask and severity, and
the error reporting enables of Device Control.  PCI Express gives their bits and resets (PRESUMED, log entry 96). -/
structure Aer where
  status : Word := 0
  mask : Word := 0
  severity : Word := 0x0046_2030
  control : Word := 0
deriving DecidableEq, Repr

/-- Where an in-band command came from: the port and die it entered by and its source address (R144, R223). -/
structure IbFrom where
  die : Die := .d0
  port : Nat := 16
  src : Nat := 0
deriving DecidableEq, Repr

/-- A command packet the Command Interpreter has accepted (R125, R138): its channel, the channel's claim generation at
acceptance (R176), the fields of its header, its parameter words, its acceptance number and device time (R143), where it came from in-band, and the die
whose interpreter took it (R137). -/
structure HostCmd where
  die : Die
  ch : Nat
  gen : Nat
  op : Nat
  flags : Nat
  tag : Word
  target : Word
  seq : Nat
  params : List Word
  acc : Nat
  time : Nat
  ib : IbFrom := {}
  taker : Die := .d0
deriving DecidableEq, Repr

/-- The hidden side of a command channel (R129, R133, R175, R176): words of the message in MBX_IN not yet taken, the packet
in progress, the CRC and the latest reply of the last accepted command, reply words waiting (the rest of the reply being
delivered first), the claim generation, and for an in-band channel where its last command came from. -/
structure Chan where
  msgCount : Nat := 0
  part : List Word := []
  lastCrc : Word := 0
  lastReply : List Word := []
  replies : List (List Word) := []
  gen : Nat := 0
  partTime : Nat := 0
  ib : IbFrom := {}
deriving DecidableEq, Repr

/-- The Command Interpreter of one die (R140, R142, R143): the urgent and the normal queue, asynchronous commands accepted and
not completed, the acceptance counter, in-band frames taken in the running millisecond, and the TAGs of the final replies since the pair's
last passed self-test (R429). -/
structure Interp where
  urgent : List HostCmd := []
  normal : List HostCmd := []
  async : List HostCmd := []
  accepted : Nat := 0
  ibMs : Nat := 0
  ibSeen : List Nat := []
  exposed : List Word := []
deriving DecidableEq, Repr

/-- The kinds of planner event (R87, R116): a unit fault by class and index (R127), a port down, the Duolay link down or
degraded (R35), a context lost, an uncorrectable pool word by address, a certified-frequency drop of a domain, a host command, a test request, a forecast run, a changed
gate control list (R213), a bank to be vacated (R516), a die that has become ready again (R485) and a rebalancing of wear. -/
inductive PlanKind where
  | unitFault (cls idx : Nat)
  | portDown (m : Nat)
  | linkDown
  | linkDegraded
  | contextLost (handle : Nat)
  | bankFault (addr : Nat)
  | fcertDrop (dom : Nat)
  | command (c : HostCmd)
  | test (cls idx : Nat)
  | forecast
  | gclChange (port : Nat)
  | vacateBank (bank : Nat)
  | dieReady
  | rebalance
deriving DecidableEq, Repr

/-- A planner event: its device time (linear count), its die and its kind; the rank follows from the kind (R116). -/
structure PlanEv where
  time : Nat
  die : Die
  kind : PlanKind
deriving DecidableEq, Repr

/-- An entry of a stream FIFO (R67, R70, R72, R79, R81): 64 bits, valid bytes, source epoch, FIRST, LAST; a length slot of packet
mode carries its word once the packet is closed; `brk` asks the drain for its line although that is part-filled. -/
structure SfqEntry where
  word : Nat
  valid : Nat
  epoch : Nat
  first : Bool
  last : Bool
  len : Bool
  ready : Bool
  brk : Bool := false
deriving DecidableEq, Repr

/-- The open packet of a stream FIFO (R81): bytes so far, TRUNC, epoch at its opening. -/
structure SfqPkt where
  bytes : Nat
  trunc : Bool
  epoch : Nat
deriving DecidableEq, Repr

/-- The hidden side of a stream FIFO (R67 to R83): entries oldest first, the open partial word with the epoch of its first
byte, whether the next entry is the first since flush or enable, the open packet, the next packet number, the stalled
readers with their widths, oldest first, the epoch accepted from the source, the internal write offset of the drain, the buffer
offset of the length slot being filled, whether the rest of an over-long packet is being dropped, and whether the drain stopped. -/
structure Sfq where
  entries : List SfqEntry := []
  lanes : List Byte := []
  laneEpoch : Nat := 0
  firstNext : Bool := true
  pkt : Option SfqPkt := none
  seq : Nat := 0
  stalled : List (Requester × Bool) := []
  drainPos : Nat := 0
  lenPos : Option Nat := none
  skip : Bool := false
  stopped : Bool := false
deriving DecidableEq, Repr

/-- What a bank holds from one pool cycle to the next (R51, R53, R54): a granted write that waits for the one before it to the same word,
and the ports whose partial-word writes still occupy a side. -/
structure BankHold where
  held : Option PoolReq := none
  busy : List Nat := []
deriving DecidableEq, Repr

/-- A Duolay direction as the receiving die sees it (R31, R47): next sequence number expected per link class, transfers
held behind a gap as (class, number, payload), and the sender's retransmissions of the last 1 ms as (linear count, number). -/
structure DlyDir where
  nextSeq : List Nat := [0, 0, 0, 0]
  held : List (Nat × Nat × List Byte) := []
  retryAt : List (Nat × Nat) := []
deriving DecidableEq, Repr

/-- The hidden side of a die's event log (R524, R526, R532): storing allowance left and when it was last refilled, entries
suppressed and the first suppressed code, whether each copy stands, the Log Fault Record's entries, the first entry the
mirror lacks (R527), entries not yet in flash as (number, words), and for LOG_RATE (R537) the entries offered in the running second, stored in the
running hour with its seconds, and (stored, seconds) of each of the last 720 hours. -/
structure LogSt where
  allow : Nat := 16
  allowAt : Nat := 0
  supp : Nat := 0
  suppCode : Nat := 0
  primOk : Bool := true
  mirOk : Bool := true
  lfr : List (List Word) := []
  mirLack : Option Nat := none
  unstr : List (Nat × List Word) := []
  offered : Nat := 0
  stored : Nat := 0
  secs : Nat := 0
  hours : List (Nat × Nat) := []
deriving DecidableEq, Repr

/-- The health record of a testable unit (R513, R514, R518 to R520): state 0 in service, 1 under test, 2 out of service,
3 failed, 4 fenced; its epoch and the epoch its consumers accept; faults and tests counted, the last test's second,
result and detail; service requests held with the time of the oldest, whether one has a hard deadline, restarts of a host's test; outputs
discarded and not yet logged. -/
structure HUnit where
  st : Nat := 0
  epoch : Nat := 1
  accepted : Nat := 1
  faults : Nat := 0
  tests : Nat := 0
  lastS : Nat := 0
  result : Nat := 0
  detail : Nat := 0
  held : Nat := 0
  heldAt : Nat := 0
  hard : Bool := false
  tries : Nat := 0
  fencedOut : Nat := 0
  fenceSec : Option Nat := none
deriving DecidableEq, Repr

/-- The hidden side of a compare unit (R308): the staged low half and the written target. -/
structure CmpU where
  lo : Word := 0
  written : Nat := 0
deriving DecidableEq, Repr

/-- An access of an engine or a supervisor that stalls on a stream FIFO (R74): its address + 1 while it waits, and how it ended. -/
structure AccWait where
  addr : Nat := 0
  done : Bool := false
  cause : Nat := 0
  val : Nat := 0
deriving DecidableEq, Repr

/-- One charge of a placement against a budget (R94, R98): budget code, die, resource index (R104), amount. -/
structure Charge where
  code : Nat
  die : Nat
  idx : Nat
  amt : Nat
deriving DecidableEq, Repr

/-- A placement of an intent (R105): state as PLC_QRY_STAT.STATE numbers it (7: recorded in a journal only, R486), engine (die, local index) and slot, context
(internal address, length), compare and capture units, tags, code base, epoch (R112), charges, for a flow the switch
ports of its path as (die, port), cycles committed since the context was built, cycle starts without a report since (R399), and the
stream FIFOs it owns (R77), its CAN controllers with the address of their queue A (R340); for a flow `die` and `ce` are its ingress port. -/
structure Placement where
  st : Nat := 2
  die : Die := .d0
  ce : Nat := 0
  slot : Nat := 0
  ctx : Nat := 0
  ctxLen : Nat := 0
  cmps : List Nat := []
  caps : List Nat := []
  tags : Nat := 0
  cb : Nat := 0
  epoch : Nat := 0
  charges : List Charge := []
  hops : List (Nat × Nat) := []
  commit : Nat := 0
  lost : Nat := 0
  sfqs : List Nat := []
  canq : List (Nat × Nat) := []
deriving DecidableEq, Repr

/-- An intent the planner holds or has released (R88, R91, R92, R107): its handle and record, personality parameters, the
placement that is LIVE or PINNED and the target of a migration; last release cause, wish to move, pins; the epoch its output
queues accept (R112); the stage of its migration (1 code loaded, 2 context copied, 3 shadow cycle run, 4 compared and
matching), its shadow cycles, the outputs of the live and the shadow cycle in emission order (queue, bytes), whether each
has reported; targets not to be tried again with the linear count at which they may; the cycles completed, host migrations that wait for
the one in progress and the one it answers, the rank of the event that began it (R117), whether its release has been asked for; whether the image may hold a TIME_ROLE, the queues it binds (RX 1, TX and DONE 2, SIG and SIGIN
4), its NOCMP and its PERS_ID, whether the target reported late, and whether its context was built anew or it was fault-replaced
since the last commit (R388, R393, R399, R416). -/
structure Intent where
  handle : Nat := 0
  held : Bool := false
  record : List Word := []
  params : List Word := []
  cur : Option Placement := none
  tgt : Option Placement := none
  cause : Nat := 0
  moveWanted : Nat := 0
  pinned : Bool := false
  pinFault : Bool := false
  epoch : Nat := 1
  stage : Nat := 0
  shadows : Nat := 0
  outCur : List (Nat × List Byte) := []
  outTgt : List (Nat × List Byte) := []
  repCur : Bool := false
  repTgt : Bool := false
  barred : List (Nat × Nat) := []
  cycles : Nat := 0
  fresh : Bool := true
  replaced : Bool := false
  migAsked : List HostCmd := []
  time : Bool := false
  qmask : Nat := 0
  nocmp : Bool := false
  pers : Nat := 0
  tgtLate : Bool := false
  migCmd : Option HostCmd := none
  migRank : Nat := 0
  releasing : Bool := false
  trigs : List (Nat × Nat) := []
deriving DecidableEq, Repr

/-- The field I/O section besides its registers (R462 to R474).  Logic side: SEQ of the next downlink, last accepted uplink,
consecutive bad uplinks, whether a trip holds, the field side's fault bit as last reported, whether a test failed, step of
a running test, whether its checks held so far, and the outputs of the last downlink.  Field side: last accepted downlink,
consecutive bad and good downlinks, whether it is tripped, SEQ of the next uplink, applied outputs as commanded, outputs shut
down at the current limit, mode, filtered inputs, broken inputs, wire-break enables, and the supply and temperature faults. -/
structure Fio where
  dnSeq : Nat := 0
  lastUp : Option Nat := none
  badUp : Nat := 0
  trip : Bool := false
  fieldFault : Bool := false
  testFail : Bool := false
  test : Nat := 0
  testOk : Bool := true
  testRes : Option Bool := none
  dnOut : Nat := 0
  lastDn : Option Nat := none
  badDn : Nat := 0
  goodDn : Nat := 0
  tripped : Bool := false
  upSeq : Nat := 0
  outs : Nat := 0
  shut : Nat := 0
  cosMode : Bool := true
  inputs : Nat := 0
  broken : Nat := 0
  wbEn : Nat := 0
  supply : Bool := false
  hot : Bool := false
deriving DecidableEq, Repr

/-- A stencil besides its registers (R446 to R451): phase accumulator, the divider in effect until the next tick, whether an instruction has begun and not ended, ticks or
bits it has left, ticks to its next sample or bit, the level and OE it drives once its program has driven the pin, and
whether its guard has fired and waits to be cleared. -/
structure Stn where
  acc : Nat := 0
  div : Nat := 256
  busy : Bool := false
  left : Nat := 0
  sub : Nat := 0
  drv : Option (Bool × Bool) := none
deriving DecidableEq, Repr

/-- A receive queue of a CAN controller (R340, R344, R345): slot index of the oldest frame held, frames held, frames the owner and
the shadow target have passed, and whether the target has locked its head. -/
structure CanQ where
  head : Nat := 0
  held : Nat := 0
  posL : Nat := 0
  posS : Nat := 0
  lockS : Bool := false
deriving DecidableEq, Repr

/-- A CAN controller besides its registers: whether it has integrated (R328), the buffer whose frame is on the bus with the time
of its SOF, retries of each buffer, buffers to be aborted when their frame ends (R338), its queues, whether a shadow target
reads them, bit-rate detection: candidate tried, good frames in a row, CAN_NBT as it was (R332), and the level of CANn_STB, which a warm reset
holds until READY (R348, R482). -/
structure Can where
  integ : Bool := false
  onBus : Option Nat := none
  sof : DevTime := {}
  retries : List Nat := [0, 0, 0]
  abort : Nat := 0
  qs : List CanQ := [{}, {}]
  shadow : Bool := false
  abrTry : Option Nat := none
  abrGood : Nat := 0
  abrNbt : Word := 0
  stb : Bool := false
deriving DecidableEq, Repr

/-- A Solyopex tag (R204). -/
structure Stag where
  seqv : Bool := false
  cm : Bool := false
  seq : Nat := 0
  flow : Nat := 0
deriving DecidableEq, Repr

/-- A frame within a switch (R183 to R219): its bytes without FCS and Solyopex tag, whether it holds a VLAN tag, VID and PCP, traffic
class, colour (0 green, 1 yellow, 2 red), DEI, tag removed, first line of its stored copy, ingress port with its rate code and stamp, whether it crossed
dies, the stream entry and placed flow it matched, an FCS to be sent unchanged, the transmit descriptor it answers with the epoch it was queued at (R242, R413), and while
it arrives whether it came stomped (R199), whether it is over its MAX_SDU alone (R215), ended with a good FCS (R192) and was no longer than 64 bytes
(R194); whether its arrival port resequences (R205), whether it leaves by an engine's or a supervisor's own choice of port (R223, R242), whether it is a sample
(R221), the link delay of its ingress port (R307), the instance it is diverted to (R305), and the port a reply leaves through (R223). -/
structure Frm where
  bytes : List Byte := []
  vtag : Bool := false
  vid : Nat := 0
  pcp : Nat := 0
  tc : Nat := 0
  colour : Nat := 0
  dei : Bool := false
  stag : Option Stag := none
  line : Option Nat := none
  ingress : Nat := 0
  rate : Nat := 6
  stamp : DevTime := {}
  crossed : Bool := false
  sid : Option Nat := none
  handle : Nat := 0
  fcs : Option Nat := none
  tx : Option (Nat × List Word) := none
  epoch : Nat := 0
  stomped : Bool := false
  large : Bool := false
  ends : Bool := true
  short : Bool := false
  rsq : Bool := false
  raw : Bool := false
  sample : Bool := false
  plink : Nat := 0
  dst : Nat := 0
  outPort : Option Nat := none
deriving DecidableEq, Repr

/-- A frame stored in a frame buffer, or a TC 7 frame in the management buffer (R184, R223): lines held, copies not yet sent or dropped, and its
descriptor tag. -/
structure Stored where
  lines : Nat := 0
  refs : Nat := 0
  tag : Nat := 0
deriving DecidableEq, Repr

/-- An entry of a flow table (R190, R226): type (0 empty, 1 learned, 2 static), address, VID, class, group, target, when refreshed, and for a static
entry its flow's handle. -/
structure FtEntry where
  type : Nat := 0
  mac : Nat := 0
  vid : Nat := 0
  tc : Nat := 0
  group : Bool := false
  target : Nat := 0
  seen : Nat := 0
  handle : Nat := 0
deriving DecidableEq, Repr

/-- What a stream entry holds besides its words (R215, R216): the two token buckets in units of 10^-6 bit with the time they were
filled (full before the first frame), R-TAG sequence, recovery: whether any number is taken, number, history. -/
structure SidSt where
  started : Bool := false
  bc : Nat := 0
  be : Nat := 0
  at_ : Nat := 0
  genSeq : Nat := 0
  takeAny : Bool := true
  recov : Nat := 0
  hist : Nat := 0
deriving DecidableEq, Repr

/-- A resequencer context (R205): expected number once a frame has come, held frames by slot with their egress ports, and when
the oldest held one arrived. -/
structure Rsq where
  e : Option Nat := none
  held : List (Nat × List Nat × Frm) := []
deriving DecidableEq, Repr

/-- A gate control list at work (R212, R213): entries of the active bank, entry in force with its end and the cycle's, cycle time,
and the start of a list that waits. -/
structure Gcl where
  len : Nat := 0
  cur : Nat := 0
  endAt : Nat := 0
  cycEnd : Nat := 0
  cycle : Nat := 1_000_000
  pendAt : Option Nat := none
deriving DecidableEq, Repr

/-- The queues of an instance (R408 to R414): receive, write-back and incoming-signal descriptors oldest first, tags its transmit
descriptors and signals hold, the shadow target's read positions, and the second of the last discard logged. -/
structure InstQ where
  rx : List (List Word) := []
  done : List (List Word) := []
  sigin : List (List Word) := []
  used : Nat := 0
  shRx : Nat := 0
  shSig : Nat := 0
  liveRx : Nat := 0
  liveSig : Nat := 0
  lostSec : Option Nat := none
deriving DecidableEq, Repr

/-- The state of a primary role as its mirror holds it (R423): the interpreters' queues, or the planner's events and intents
and the configuration. -/
structure RoleCopy where
  interp : Tab Interp := []
  planQ : Tab (List PlanEv) := []
  intents : Tab Intent := []
  idxNext : Tab Nat := []
  idxFree : Tab (List Nat) := []
  cfg : Tab (List Word) := []
deriving DecidableEq, Repr

/-- The mirror of a role (R423, R429): the state applied, if any since the link came up, and updates held until the sender's next
passed self-test, oldest first. -/
structure Mirror where
  applied : Option RoleCopy := none
  held : List RoleCopy := []
deriving DecidableEq, Repr

/-- A fraction in lowest terms: what the ring's averaging and gains are computed in (R274). -/
structure Frac where
  num : Int := 0
  den : Nat := 1
deriving DecidableEq, Repr

/-- The ring pair of a die besides its registers (R248 to R288): the uplink that is its down port, the current and the pending schedule
record with when that was loaded and its down port, the membership table (state as A_OP numbers it, epoch) whose unlisted addresses are members
with epoch 1, prefetched output windows, a mask of the windows whose second half was published last, the cycle in progress and its
segments processed, the cycle at whose end fencing ends, whether a claim was refused; the correction: last deviation, rate, slew,
window; the last peer delays of both links.  As master: cycle number, start of the cycle, segments returned, copies waiting to
be combined, presence misses and tags seen, full returns, dual mode to come, the claim to answer (state, spare, address, UID),
announcements (address, UID, times left), turn and sequence, and the candidates of dead addresses. -/
structure Ring where
  dn : Nat := 0
  cur : List Word := []
  pend : List Word := []
  pendAt : Nat := 0
  pendDn : Nat := 0
  mem : Tab (Nat × Nat) := []
  pre : List (Nat × List Byte) := []
  pub : Nat := 0
  cyc : Nat := 0
  segs : Nat := 0
  unfence : Option Nat := none
  nak : Bool := false
  off : Frac := {}
  rate : Frac := {}
  slew : Frac := {}
  offWin : Frac := {}
  winNs : Frac := {}
  slewNs : Frac := {}
  winNew : Bool := true
  ldUp : List Nat := []
  ldDn : List Nat := []
  cycle : Nat := 0
  sentAt : Nat := 0
  ret : Nat := 0
  wait : List (Nat × List Byte) := []
  miss : Tab Nat := []
  seen : List Nat := []
  full : Nat := 0
  fullNow : Bool := false
  turned : Bool := false
  claim : Option (Nat × Nat × Nat × Nat) := none
  ann : List (Nat × Nat × Nat) := []
  annNext : Nat := 0
  annSeq : Nat := 0
  cand : List (Nat × Nat) := []
deriving DecidableEq, Repr

/-- A communication engine besides its registers (R353 to R384): each window's line buffer as (line address + 1, bytes) and the whole
length of each window; posted writes, oldest first, as (line address, bytes written); what the engine waits for (0 nothing, 1 to 3 a
line for window 0 to 2, 4 a stream FIFO, 5 an event of WAIT, 6 posted writes at FLUSH, 7 END) with the line and the window offset, and
WAIT's mask or END's status; the reads the instruction in progress has completed; the frames the cycle holds as (die number, first line, bytes); whether
the cycle in progress is lost to a halt, and whether a halt is asked for at the next boundary. -/
structure Ce where
  bufs : List (Nat × List Byte) := [(0, []), (0, []), (0, [])]
  lens : List Nat := [0, 0, 0]
  posted : List (Nat × List (Option Byte)) := []
  stall : Nat := 0
  line : Nat := 0
  off : Nat := 0
  mask : Nat := 0
  log : List Nat := []
  taken : List (Nat × Nat × Nat) := []
  lost : Bool := false
  halt : Bool := false
deriving DecidableEq, Repr


/-- The secure session of port H2 (R163 to R166): the committed pairing key, the nonces of an OPEN not yet confirmed, those of the open
session, and the last counter of each side. -/
structure H2 where
  key : List Byte := []
  pend : Option (List Byte × List Byte) := none
  sess : Option (List Byte × List Byte) := none
  hostCtr : Nat := 0
  devCtr : Nat := 0
deriving DecidableEq, Repr

/-- The port registers of H3 (R167): address, AINC in bit 8 of the third, the low half written, the high half latched, CAUSE and ERR. -/
structure H3 where
  addr0 : Nat := 0
  addr1 : Nat := 0
  addr2 : Nat := 0x80
  dataL : Nat := 0
  dataH : Nat := 0
  cause : Nat := 0
  err : Bool := false
deriving DecidableEq, Repr

/-- A supervisor pair's main core besides its registers (R438, R442): whether it stalls in IDLE, whether the debugger let it run one
instruction, whether it asked for a halt at the next boundary, and the self-tests an untrusted pair has still to pass (R432). -/
structure SupCore where
  idle : Bool := false
  step : Bool := false
  halt : Bool := false
  trust : Nat := 0
deriving DecidableEq, Repr

/-- A clock domain's ageing record (R505, R507, R510): ring-oscillator readings as (day of powered time, loss in 0.01 %), the last
1,000 normalised delays, and the greatest of each hour of the last 7 days as (hour, delay), delays in 10^-6 ps. -/
structure Age where
  readings : List (Nat × Nat) := []
  norms : List Nat := []
  hist : List (Nat × Nat) := []
deriving DecidableEq, Repr

/-- A frame of a flow that is changing its path, held until the old path is empty (R113): die, ingress port, frame, egress ports. -/
structure HeldFrm where
  die : Nat
  port : Nat
  frm : Frm
  es : List Nat
deriving DecidableEq, Repr

/-- A copy of the configuration committed to flash (R494): generation, slot, contents by key. -/
structure CfgCopy where
  gen : Nat := 0
  slot : Nat := 0
  body : Tab (List Word) := []
deriving DecidableEq, Repr

/-- A power-loss snapshot (R533): device time of PWRFAIL_N, the last counter checkpoint (HLT_LIFE registers by address), entries of both
logs by die × 2^32 + entry number, and the entries it may still take. -/
structure Snapshot where
  sec : Nat := 0
  ns : Nat := 0
  life : Tab Word := []
  ents : Tab (List Word) := []
  room : Nat := 64
deriving DecidableEq, Repr

/-- A copy of the ageing record (R530): registers by address, the domains' histories, first eye heights by die × 16 + lane, and the hours
of LOG_RATE by die. -/
structure AgeRec where
  regs : Tab Word := []
  ages : Tab Age := []
  eyes : Tab Nat := []
  rates : Tab (List (Nat × Nat)) := []
deriving DecidableEq, Repr

/-- The flash (R493, R529): committed configurations, newest first, and the configuration with every journal record applied; the two
Undercoat copies as written here (empty: as shipped), which one the boot header selects, whether it is on trial, whether it has run, the
consecutive resets of cause 3 meanwhile, and whether the other copy is to be booted for them (R488); the ageing records and the sealed snapshots, newest first, whether
the newest snapshot has been restored; the log stream by die × 2^32 + entry number. -/
structure Flash where
  copies : List CfgCopy := []
  now : Tab (List Word) := []
  copyA : List Byte := []
  copyB : List Byte := []
  bootB : Bool := false
  trial : Bool := false
  tried : Bool := false
  wd : Nat := 0
  fell : Bool := false
  recs : List AgeRec := []
  snaps : List Snapshot := []
  restored : Bool := false
  stream : Tab (List Word) := []
deriving DecidableEq, Repr

/-- A reset asked for while PWRFAIL_N defers it (R481): die (2 = the device), kind (1 warm, 2 cold, 3 power-on), cause. -/
structure RstReq where
  die : Nat
  kind : Nat
  cause : Nat
deriving DecidableEq, Repr

/-- Reset and power logic of the device (R479 to R483, R491, R533): kind of the device-wide reset under way (0 none), sources that still
hold it (a rail, TESTEN, RESET_N from outside), whether PWRFAIL_N is low and whether that waits for READY, the snapshot being written,
requests deferred, the RST_DEVICE accepted (1 warm, 2 cold), whether Die 0 holds a verified image and Die 1 has verified it, whether Die 1
is reported absent, whether the device's own configuration is loaded, and whether intents are being restored. -/
structure RstSt where
  kind : Nat := 0
  rails : Bool := false
  testen : Bool := false
  pin : Bool := false
  pfLow : Bool := false
  pfWait : Bool := false
  snap : Option Snapshot := none
  deferred : List RstReq := []
  asked : Option Nat := none
  img : Bool := false
  sent : Bool := false
  absent : Bool := false
  loaded : Bool := false
  restoring : Bool := false
deriving DecidableEq, Repr

/-- Start-up of a die (R491): 0 in reset, 1 released, 2 Primer, 3 Undercoat started, 4 configuration restored, 5 intents restored, 6
ready; whether it follows a warm reset and a device-wide one; whether the reference is present; the PWR_STATE that left P4. -/
structure Boot where
  stage : Nat := 1
  warm : Bool := false
  dev : Bool := true
  ref : Bool := true
  p4 : List HostCmd := []
deriving DecidableEq, Repr

/-- Power of a die besides its registers (R497, R500): commands that asked for the transition in progress, PWR_STATE commands that wait,
the VCORE reached by VOUT_COMMAND and the one before P4, the PWR_MARGIN whose ramp runs, the last proposal number, and the reasons
declined with the linear count until which they rest (R511). -/
structure Pwr where
  cmds : List HostCmd := []
  wait : List HostCmd := []
  mv : Nat := 750
  before : Nat := 750
  margin : Option HostCmd := none
  lastProp : Nat := 0
  declined : List (Nat × Nat) := []
deriving DecidableEq, Repr

/-- Temperature of a die (R505, R511): the last reading in 1/16 °C, and the linear count since which readings exceed 100 °C. -/
structure Therm where
  t16 : Option Int := none
  hotAt : Option Nat := none
deriving DecidableEq, Repr

/-- Why a step stops with a fault.  The block has none: every access it turns away is answered by an error response and every
exception of an engine or a supervisor is taken, so no constructor stands here (safe: nothing is cut short). -/
inductive Fault where
deriving DecidableEq, Repr

/-- Why a command is refused a meaning. -/
inductive Refusal where
  /-- Raised by `exec` for a command that has no meaning yet, by its mnemonic (safe: the model stops). -/
  | notModelled (mnemonic : String)
deriving DecidableEq, Repr

/-- The whole state of the block.  Each field's default is its value after a power-on reset. -/
structure State where
  /-- Commands waiting, first in, first out: the model's own queue. -/
  pending : List Instr := []
  /-- The model's own counter of free values drawn (log entry 3). -/
  fresh : Nat := 0
  /-- What the block has put on its ports, newest first: the model's own record. -/
  out : List Out := []
  /-- Registers by internal address; an unlisted register holds its reset value. -/
  regs : Tab Word := []
  /-- Bytes of pool, supervisor memory, event log memory and CE local memory by internal address (R23). -/
  mem : List Host.Cell := []
  /-- Device time of each die, by die number (R289). -/
  time : Tab DevTime := []
  /-- High halves latched per die and requester (R320). -/
  shadow : Tab Word := []
  /-- Time snapshots per die and requester (R321). -/
  snaps : Tab Snap := []
  /-- Doorbell bits raised on the other die and not yet carried across, by destination die and receiver (R179). -/
  dblRemote : Tab Word := []
  /-- MSI-X tables by (die, function, vector) (R156, R180). -/
  msix : Tab MsixVec := []
  /-- MSI-X Enable (1) and Function Mask (2) per function (R180). -/
  msixCtl : Tab Nat := []
  /-- MSI-X pending-bit arrays per function (R180). -/
  msixPba : Tab Word := []
  /-- Error registers per PCIe function (R154, R171). -/
  aer : Tab Aer := []
  /-- Owner codes whose channels on the other die are still to be released, once the link is up again (R159, R166, R177). -/
  chanLate : List Nat := []
  /-- The command channels, by die × 40 + channel. -/
  chans : Tab Chan := []
  /-- The Command Interpreters, by die. -/
  interp : Tab Interp := []
  /-- The planners' event queues in order of arrival, by die. -/
  planQ : Tab (List PlanEv) := []
  /-- The stream FIFOs, by die × 32 + number. -/
  sfq : Tab Sfq := []
  /-- Pool words with a bit error, by word address: 1 = single-bit, 2 = uncorrectable (R57). -/
  ecc : Tab Nat := []
  /-- Requests waiting per bank in order of arrival, by die × 512 + bank. -/
  bankQ : Tab (List PoolReq) := []
  /-- Round-robin pointer per bank (R53). -/
  bankPtr : Tab Nat := []
  /-- What each bank carries into its next pool cycle (R51, R54). -/
  bankHold : Tab BankHold := []
  /-- Pending corrected write-back per bank: word address + 1 (R58). -/
  bankWb : Tab Nat := []
  /-- Next line the scrubber reads, per bank (R60). -/
  scrubPos : Tab Nat := []
  /-- Bank groups entering retention and groups owed a priority scrub pass, as masks, by die (R65). -/
  retEnter : Tab Nat := []
  retPrio : Tab Nat := []
  /-- The Duolay directions, by receiving die. -/
  dly : Tab DlyDir := []
  /-- The event logs, by die. -/
  log : Tab LogSt := []
  /-- Health records of the testable units, by die, class and index (R513). -/
  units : Tab HUnit := []
  /-- The compare units' staged and written targets, by die × 64 + unit (R308). -/
  cmp : Tab CmpU := []
  /-- Trigger outputs with a pulse running, by die × 16 + output (R314). -/
  trigRun : Tab Bool := []
  /-- Level last accepted by each capture unit, by die × 32 + unit (R318). -/
  capLvl : Tab Bool := []
  /-- Consecutive slaving offsets within 2 ns (R300). -/
  slvRun : Nat := 0
  /-- Whether a steering domain has been chosen since reset (R306). -/
  steerSet : Bool := false
  /-- Local index of the CE that runs the steering domain's clock instance, by die of its ports + 1; 0 = none (R293). -/
  clockCe : Tab Nat := []
  /-- Deadline of each pending slot as a linear count, by (die × 24 + engine) × 64 + slot (R362). -/
  ceDeadline : Tab Nat := []
  /-- Banks the scrubber has passed since PASSES last advanced, as a mask, by die (R60, R84). -/
  scrubDone : Tab Nat := []
  /-- Pool slots each requester port has used in the running microsecond: (microsecond, slots), by die × 16 + port (R84). -/
  portUse : Tab (Nat × Nat) := []
  /-- Stalled accesses of engines and supervisors, by requester (R74). -/
  accWait : Tab AccWait := []
  /-- Intents, held and last released, by (issuer × 2 + kind) × 65,536 + index (R88). -/
  intents : Tab Intent := []
  /-- First index never yet issued, by issuer × 2 + kind, and released indexes, oldest first (R106). -/
  idxNext : Tab Nat := []
  idxFree : Tab (List Nat) := []
  /-- The field I/O section. -/
  fio : Fio := {}
  /-- The stencils, by die × 16 + local index. -/
  stn : Tab Stn := []
  /-- Level each general pin was last driven to, by die × 48 + pin (R458, R460 SAFE). -/
  padLvl : Tab Bool := []
  /-- Pads of general pins that a warm reset holds, die × 48 + pin (R482, R484). -/
  padHeld : Tab Bool := []
  /-- The CAN controllers, by die × 4 + local index. -/
  can : Tab Can := []
  /-- Egress queues, oldest first, and their average depths in 1/256 line, by (die × 17 + port) × 8 + class (R185, R217). -/
  swQ : Tab (List Frm) := []
  swAvg : Tab Nat := []
  /-- LFSR of each switch port, by die × 17 + port (R217). -/
  swLfsr : Tab Nat := []
  /-- Shaper credit in 1/1000 bit and when it was brought up to date, as the queues (R211). -/
  swCbs : Tab (Int × Nat) := []
  /-- Frames in the frame buffers, by die × 2^18 + first line (R184, R241). -/
  stored : Tab Stored := []
  /-- Frames counted towards the next sample and samples taken, by die × 17 + port (R221). -/
  smp : Tab (Nat × Nat) := []
  /-- VLAN tables: member and untagged sets, by die × 4,096 + VID (R189). -/
  vlan : Tab (Nat × Nat) := []
  /-- Flow tables, by die × 32,768 + 4 × bucket + way (R190). -/
  ft : Tab FtEntry := []
  /-- Stream identification entries and what they hold besides, by die × 4,096 + entry (R214). -/
  sid : Tab (List Word) := []
  sidSt : Tab SidSt := []
  /-- Buckets of a path group that are away from their home member, as masks, by die × 8 + group (R203). -/
  pgAway : Tab Nat := []
  /-- Resequencer contexts, by die × 256 + context (R205). -/
  rsq : Tab Rsq := []
  /-- Gate control lists at work, by die × 14 + port (R212). -/
  gcl : Tab Gcl := []
  /-- Whether a die's frame buffer is below its pause thresholds (R238). -/
  pausing : Tab Bool := []
  /-- Management-class meters: tokens used in bits and when, by die × 2 + destination die (R223). -/
  mgmtMeter : Tab (Nat × Nat) := []
  /-- Whether an uplink is held for cycle frames, by die × 2 + uplink (R263). -/
  ringHold : Tab Bool := []
  /-- Queues of the instances, as the intents (R408). -/
  iq : Tab InstQ := []
  /-- Next sequence number each die sends on each link class, by die (R31). -/
  dlyTx : Tab (List Nat) := []
  /-- Retry buffer of each sending die: transfers sent and not yet acknowledged, oldest first, as (class, number, payload) (R31). -/
  dlyBuf : Tab (List (Nat × Nat × List Byte)) := []
  /-- Payload each die sent in the last 1 ms, as (linear count, bytes), by die (R47). -/
  dlyUse : Tab (List (Nat × Nat)) := []
  /-- The mirrors of the roles on the die that is not primary, by role pair 0 or 1 (R423). -/
  mirror : Tab Mirror := []
  /-- The ring pairs, by die (R248). -/
  ring : Tab Ring := []
  /-- The communication engines, by die × 24 + local index. -/
  ce : Tab Ce := []
  /-- Bit errors in engines' local memories, by internal address of the word divided by 4: 1 single, 2 uncorrectable (R356). -/
  ceEcc : Tab Nat := []
  /-- The secure session of port H2, and the port registers of H3. -/
  h2 : H2 := {}
  h3 : H3 := {}
  /-- Bit errors in the supervisors' memories, by internal address of the word divided by 4: 1 single, 2 uncorrectable (R434). -/
  supEcc : Tab Nat := []
  /-- The supervisor pairs' main cores, by die × 2 + pair. -/
  sup : Tab SupCore := []
  /-- The image store, by image number (R390). -/
  images : Tab (List Byte) := []
  /-- The ageing records of the clock domains, by die × 8 + domain (R505). -/
  age : Tab Age := []
  /-- Frames held while their flow changes its path, by intent (R113). -/
  flowHold : Tab (List HeldFrm) := []
  /-- The flash on Die 0. -/
  flash : Flash := {}
  /-- Reset and power logic of the device. -/
  rst : RstSt := {}
  /-- Start-up and power of each die, by die. -/
  boot : Tab Boot := []
  pwr : Tab Pwr := []
  /-- HLT_LIFE registers at the last counter checkpoint, by address (R534). -/
  ckpt : Tab Word := []
  /-- Eye heights at first power-on, by die × 16 + lane (R512). -/
  eyes : Tab Nat := []
  /-- Linear counts of the corrected errors of the last second per bank, by die × 512 + bank (R61). -/
  corr : Tab (List Nat) := []
  /-- Banks retired for good, by die × 512 + bank (R516, R530). -/
  retired : Tab Bool := []
  /-- Temperature of each die, by die. -/
  therm : Tab Therm := []
deriving DecidableEq, Repr

/-- The block right after a power-on reset: nothing waits, every register holds its reset value (none is listed), no byte of
memory is listed, and every other piece of state stands as its field says (R13, R478 to R482). -/
def State.reset : State := {}

end Sys2Proof.Machine
end

