-- ==== Sys2Proof/Machine/Ops.lean ====
section
/-! DEFINITION. The named operations every meaning is written over: registers and their fields, memory, free values, device
time, doorbells with their interrupts, the event log and the planner's queue. -/

namespace Sys2Proof.Machine

/-! ## Registers -/

/-- Value of the register at an internal address. -/
def State.getReg (s : State) (a : Nat) : Word := Tab.get resetWord s.regs a

/-- The state with the register at an internal address holding `v`. -/
def State.setReg (s : State) (a : Nat) (v : Word) : State := { s with regs := Tab.put resetWord s.regs a v }

/-- A register field: `n` bits from bit `lo`. -/
def State.fld (s : State) (a lo n : Nat) : Nat := bits (s.getReg a) lo n

/-- The state with a register field replaced. -/
def State.setFld (s : State) (a lo n v : Nat) : State := s.setReg a (setBits (s.getReg a) lo n v)

/-- One register bit. -/
def State.flag (s : State) (a i : Nat) : Bool := bit (s.getReg a) i

/-- The state with one register bit set or cleared. -/
def State.setFlag (s : State) (a i : Nat) (b : Bool) : State := s.setFld a i 1 (if b then 1 else 0)

/-- The register's bits set that `v` holds. -/
def State.orReg (s : State) (a : Nat) (v : Word) : State := s.setReg a (s.getReg a ||| v)

/-- The register's bits cleared that `v` holds. -/
def State.andNotReg (s : State) (a : Nat) (v : Word) : State := s.setReg a (s.getReg a &&& ~~~v)

/-- A saturating counter field raised by `k` (R11 and the tables' "saturating"). -/
def State.countFld (s : State) (a lo n k : Nat) : State := s.setFld a lo n (min (s.fld a lo n + k) (2 ^ n - 1))

/-- A 32-bit counter register raised by `k`, saturating at its maximum. -/
def State.countBy (s : State) (a k : Nat) : State := s.setReg a (wd (min ((s.getReg a).toNat + k) 0xFFFFFFFF))

/-- A 32-bit counter register raised by one, saturating. -/
def State.count (s : State) (a : Nat) : State := s.countBy a 1

/-- A wrapping field advanced by one. -/
def State.wrapFld (s : State) (a lo n : Nat) : State := s.setFld a lo n (s.fld a lo n + 1)

/-- The 64-bit value of a register pair. -/
def State.getPair (s : State) (lo hi : Nat) : Nat := (s.getReg lo).toNat + (s.getReg hi).toNat * 0x1_0000_0000

/-- The state with a register pair holding a 64-bit value. -/
def State.setPair (s : State) (lo hi v : Nat) : State := (s.setReg lo (wd v)).setReg hi (wd (v / 0x1_0000_0000))

/-- A 64-bit counter pair raised by `k`, saturating at its maximum (R84, R247). -/
def State.countPair (s : State) (lo hi k : Nat) : State :=
  s.setPair lo hi (min (s.getPair lo hi + k) 0xFFFF_FFFF_FFFF_FFFF)

/-- Registers of a list of addresses at their reset values again. -/
def State.resetRegs (s : State) : List Nat → State
  | [] => s
  | a :: t => (s.setReg a (resetWord a)).resetRegs t

/-- Every register for which `p` holds at its reset value again: what a reset does to a range of registers (R482). -/
def State.resetRegsIf (s : State) (p : Nat → Bool) : State := { s with regs := s.regs.filter fun e => !p e.1 }

/-! ## Memory -/

/-- What a byte of memory that nothing has written reads as (log entry 2). -/
def memDefault (_ : Nat) : Byte := 0

/-- A byte of memory. -/
def State.byte (s : State) (a : Nat) : Byte := Tab.get memDefault s.mem a

/-- The state with one byte of memory written. -/
def State.setByte (s : State) (a : Nat) (b : Byte) : State := { s with mem := Tab.put memDefault s.mem a b }

/-- `n` bytes of memory from an address. -/
def State.load (s : State) (a : Nat) : Nat → List Byte
  | 0 => []
  | n + 1 => s.byte a :: s.load (a + 1) n

/-- The state with bytes of memory written from an address upward. -/
def State.store (s : State) (a : Nat) : List Byte → State
  | [] => s
  | b :: t => (s.setByte a b).store (a + 1) t

/-- The state with the enabled bytes of memory written (R50). -/
def State.storeEn (s : State) (a : Nat) : List (Option Byte) → State
  | [] => s
  | some b :: t => (s.setByte a b).storeEn (a + 1) t
  | none :: t => s.storeEn (a + 1) t

/-- A little-endian word of memory (R6). -/
def State.word (s : State) (a : Nat) : Word := wd (ofLe (s.load a 4))

/-- The state with a little-endian word of memory written. -/
def State.setWord (s : State) (a : Nat) (w : Word) : State := s.store a (leBytes 4 w.toNat)

/-- `n` words of memory from an address. -/
def State.words (s : State) (a : Nat) : Nat → List Word
  | 0 => []
  | n + 1 => s.word a :: s.words (a + 4) n

/-- The state with words of memory written. -/
def State.setWords (s : State) (a : Nat) : List Word → State
  | [] => s
  | w :: t => (s.setWord a w).setWords (a + 4) t

/-! ## Outputs and free values -/

/-- The state after the block has put something on a port. -/
def State.emit (s : State) (o : Out) : State := { s with out := o :: s.out }

/-- The free value the state draws next (log entry 3). -/
def State.freeNow (s : State) : Word := Config.freeValue s.fresh

/-- The state after it has drawn a free value. -/
def State.drawn (s : State) : State := { s with fresh := s.fresh + 1 }

/-! ## Device time -/

/-- Device time of a die (R289). -/
def State.now (s : State) (d : Die) : DevTime := Tab.get (fun _ => {}) s.time d.idx

/-- The state with a die's device time replaced. -/
def State.setNow (s : State) (d : Die) (t : DevTime) : State := { s with time := Tab.put (fun _ => {}) s.time d.idx t }

/-- The linear count of a device time (R290). -/
def DevTime.lin (t : DevTime) : Nat := (t.sec * 1_000_000_000 + t.ns) % 0x1_0000_0000_0000_0000

/-- The linear count of a die (R290). -/
def State.lin (s : State) (d : Die) : Nat := (s.now d).lin

/-- The time triple of a device time (R147). -/
def DevTime.triple (t : DevTime) : List Word :=
  [wd t.sec, wd (t.sec / 0x1_0000_0000 % 0x1_0000 + t.frac / 0x1_0000 % 0x1_0000 * 0x1_0000), wd t.ns]

/-- A device time `n` nanoseconds earlier. -/
def DevTime.ago (t : DevTime) (n : Nat) : DevTime :=
  let total := t.sec * 1_000_000_000 + t.ns - n
  { t with sec := total / 1_000_000_000, ns := total % 1_000_000_000 }

/-! ## The Duolay link and the dies' phases -/

/-- Whether the Duolay link is up: MODE full or degraded (R36, R47). -/
def State.linkUp (s : State) : Bool := decide (s.fld (R.SYS_DLY_STAT .d0) 4 2 < 2)

/-- Start-up and power of a die (R491, R497). -/
def State.bootOf (s : State) (d : Die) : Boot := Tab.get (fun _ => {}) s.boot d.idx
def State.setBoot (s : State) (d : Die) (b : Boot) : State := { s with boot := Tab.put (fun _ => {}) s.boot d.idx b }
def State.pwrOf (s : State) (d : Die) : Pwr := Tab.get (fun _ => {}) s.pwr d.idx
def State.setPwr (s : State) (d : Die) (p : Pwr) : State := { s with pwr := Tab.put (fun _ => {}) s.pwr d.idx p }

/-- Whether a die's start-up is complete: RST_STAT.PHASE of R502 reads 3. -/
def State.running (s : State) (d : Die) : Bool := decide (s.fld (R.RST_STAT d) 0 2 = 3)

/-! ## Doorbells (R178 to R180) -/

/-- Key of a receiver. -/
def rcvKey (d : Die) (r : Nat) : Nat := d.idx * 4 + r

/-- Key of a PCIe function's MSI-X vector. -/
def vecKey (d : Die) (fn vec : Nat) : Nat := (d.idx * 2 + fn) * 32 + vec

/-- MSI-X message of one doorbell bit that has become pending: sent, or held in the pending-bit array by a mask, or nothing
while MSI-X is disabled (R180). -/
def State.msixSend (s : State) (d : Die) (fn vec : Nat) : State :=
  let ctl := Tab.get (fun _ => 0) s.msixCtl (d.idx * 2 + fn)
  let v := Tab.get (fun _ => ({} : MsixVec)) s.msix (vecKey d fn vec)
  if ctl % 2 = 0 then s
  else if ctl / 2 % 2 = 1 ∨ v.masked then
    let old := Tab.get (fun _ => (0 : Word)) s.msixPba (d.idx * 2 + fn)
    { s with msixPba := Tab.put (fun _ => 0) s.msixPba (d.idx * 2 + fn) (old ||| maskOf vec 1) }
  else s.emit (.msix d fn vec)

/-- MSI-X messages for the bits of a mask, lowest bit first; `n` bits are left to look at. -/
def State.msixSendAll (s : State) (d : Die) (fn : Nat) (m : Word) : Nat → State
  | 0 => s
  | n + 1 =>
    let i := 32 - (n + 1)
    (if bit m i then s.msixSend d fn i else s).msixSendAll d fn m n

/-- Bits of a mask set in DBL_STAT of a receiver of a die, with DBL_TIME and the interrupts of the bits that become pending
by it (R178, R180); a die in reset or in Primer has its receivers reset (R179). -/
def State.dblSet (s : State) (d : Die) (r : Nat) (m : Word) : State :=
  if m = 0 ∨ s.fld (R.RST_STAT d) 0 2 = 0 then s else
  let old := s.getReg (R.DBL_STAT d r) &&& s.getReg (R.DBL_MASK d r)
  let s := s.orReg (R.DBL_STAT d r) m
  let s := s.setReg (R.DBL_TIME_S d r) (wd (s.now d).sec)
  let s := s.setReg (R.DBL_TIME_NS d r) (wd (s.now d).ns)
  let fresh := (s.getReg (R.DBL_STAT d r) &&& s.getReg (R.DBL_MASK d r)) &&& ~~~old
  if r = 1 ∨ r = 2 then s.msixSendAll d (r - 1) fresh 32 else s

/-- Whether H2_IRQ_N of Die 0, or H3_INT_N of Die 1, is driven low: while any bit of the receiver is pending (R180). -/
def State.irqLow (s : State) (d : Die) : Bool := decide (s.getReg (R.DBL_STAT d 3) &&& s.getReg (R.DBL_MASK d 3) ≠ 0)

/-- Doorbell bits kept to be carried to a receiver of a die (R179). -/
def State.dblQueue (s : State) (d : Die) (r : Nat) (m : Word) : State :=
  let old := Tab.get (fun _ => (0 : Word)) s.dblRemote (rcvKey d r)
  { s with dblRemote := Tab.put (fun _ => 0) s.dblRemote (rcvKey d r) (old ||| m) }

/-- A device event of a die: its bits are set on the host receivers of that die and kept for those of the other die, which
sees them when DOORBELL_REMOTE carries them over (R179). -/
def State.raise (s : State) (d : Die) (m : Word) : State :=
  let s := ((s.dblSet d 1 m).dblSet d 2 m).dblSet d 3 m
  ((s.dblQueue d.other 1 m).dblQueue d.other 2 m).dblQueue d.other 3 m

/-- A receiver 0 bit of a die's supervisors (R441). -/
def State.raiseSup (s : State) (d : Die) (i : Nat) : State := s.dblSet d 0 (maskOf i 1)

/-- An event register's bits set, and the doorbell bit it raises set with them (R179). -/
def State.event (s : State) (d : Die) (reg bitNo dbl : Nat) : State :=
  (s.setFlag reg bitNo true).raise d (maskOf dbl 1)

/-- Doorbell bit numbers of the device events (R179). -/
def dblREADY : Nat := 0
def dblREPLY : Nat := 1
def dblCMD : Nat := 2
def dblPLC : Nat := 3
def dblHLT : Nat := 4
def dblLOG : Nat := 5
def dblLINK : Nat := 6
def dblPWRFAIL : Nat := 7
def dblACCESS : Nat := 8
def dblTIME : Nat := 9
def dblRING : Nat := 10
def dblPORT : Nat := 11
def dblFIO : Nat := 12

/-! ## Unit epochs and health units (R513, R519, R520) -/

/-- The health record of a unit by die, class and per-die index (R513, R519, R520). -/
def unitKey (d : Die) (cls idx : Nat) : Nat := (d.idx * 16 + cls) * 512 + idx

/-- The health record of a unit. -/
def State.hunit (s : State) (d : Die) (cls idx : Nat) : HUnit := Tab.get (fun _ => {}) s.units (unitKey d cls idx)

/-- The state with a unit's health record replaced. -/
def State.setUnit (s : State) (d : Die) (cls idx : Nat) (u : HUnit) : State :=
  { s with units := Tab.put (fun _ => {}) s.units (unitKey d cls idx) u }

/-- Class and index of the testable unit of a MAC (R17, R127). -/
def portUnit (m : Nat) : Nat × Nat := if m < 12 then (4, m) else (5, m - 12)

/-- Whether a port is under test itself: of an uplink in an active ring pair only the Skim unit is (R514). -/
def State.portHeld (s : State) (d : Die) (m : Nat) : Bool :=
  decide (m < 14) && decide ((s.hunit d (portUnit m).1 (portUnit m).2).st = 1) &&
    (decide (m < 12) || decide ((Tab.get (fun _ => ({} : Ring)) s.ring d.idx).cur = []))

/-- A service request for a unit under test: held and counted; one with a hard deadline is noted as such (R518). -/
def State.serviceReq (s : State) (d : Die) (cls idx : Nat) (hard : Bool) : State :=
  let u := s.hunit d cls idx
  if u.st ≠ 1 then s else
  let n := min 8 (u.held + 1)
  let s := s.setUnit d cls idx { u with held := n, heldAt := if u.held = 0 then s.lin d else u.heldAt, hard := u.hard || hard }
  (s.count (R.HLT_CNT_QUEUED d)).setFld (R.HLT_TEST_STAT d) 8 4 n

/-- A frame queued for a port that is under test (R518). -/
def State.portReq (s : State) (d : Die) (m : Nat) (hard : Bool) : State :=
  if s.portHeld d m then s.serviceReq d (portUnit m).1 (portUnit m).2 hard else s

/-- The next epoch: one more, wrapping from 0xFFFF to 1 (R519). -/
def nextEpoch (e : Nat) : Nat := if e ≥ 0xFFFF then 1 else e + 1

/-! ## Banks of the pool (R24, R57, R58, R62) -/

/-- The bank of a pool address within a die (R24). -/
def bankOf (a : Nat) : Nat := if a < 0x03C0_0000 then a / 0x4_0000 else 240 + (a - 0x03C0_0000) / 0x2_0000

/-- Whether a bank group takes no accesses: entering retention, in retention or waking (R62, R65). -/
def State.groupOff (s : State) (d : Die) (g : Nat) : Bool :=
  s.flag (R.POOL_RET_STAT d) g || s.flag (R.POOL_RET_WAKE d) g || (Tab.get (fun _ => 0) s.retEnter d.idx).testBit g

/-- Error mark of a pool word by its global word number (R57). -/
def State.eccAt (s : State) (w : Nat) : Nat := Tab.get (fun _ => 0) s.ecc w

/-- The state with a word's error mark set. -/
def State.setEcc (s : State) (w m : Nat) : State := { s with ecc := Tab.put (fun _ => 0) s.ecc w m }

/-- Key of a bank. -/
def bankKey (d : Die) (b : Nat) : Nat := d.idx * 512 + b

/-- The pending write-back of a bank: word number + 1, 0 for none (R58). -/
def State.wbOf (s : State) (d : Die) (b : Nat) : Nat := Tab.get (fun _ => 0) s.bankWb (bankKey d b)

/-- The state with a bank's pending write-back replaced. -/
def State.setWb (s : State) (d : Die) (b x : Nat) : State :=
  { s with bankWb := Tab.put (fun _ => 0) s.bankWb (bankKey d b) x }

/-- Global word number of a pool address. -/
def wordNo (d : Die) (a : Nat) : Nat := (d.org + a) / 8

/-- Good check bits stored for `n` words written whole from a pool address, and a pending write-back of one of them cancelled (R57 to R59). -/
def State.wordsClean (s : State) (d : Die) (a : Nat) : Nat → State
  | 0 => s
  | n + 1 =>
    let s := s.setEcc (wordNo d a) 0
    (if s.wbOf d (bankOf a) = wordNo d a + 1 then s.setWb d (bankOf a) 0 else s).wordsClean d (a + 8) n

/-! ## The event log (R521 to R526) -/

/-- The log of a die. -/
def State.logOf (s : State) (d : Die) : LogSt := Tab.get (fun _ => {}) s.log d.idx

/-- The state with a die's log record replaced. -/
def State.setLog (s : State) (d : Die) (l : LogSt) : State := { s with log := Tab.put (fun _ => {}) s.log d.idx l }

/-- Codes stored whatever the allowance (R524). -/
def alwaysLogged (code : Nat) : Bool :=
  code = 0x111 || code = 0x620 || code = 0x621 || code = 0x703 || code = 0x801

/-- The three words after SECONDS of an entry, and SECONDS first (R521). -/
def logWords (d : Die) (t : DevTime) (code sev hi16 : Nat) (detail : Word) : List Word :=
  [wd t.sec, wd (t.ns + d.idx * 0x4000_0000), wd (code + sev * 0x1000 + hi16 * 0x1_0000), detail]

/-- Address of the slot of entry `n` in the event log memory of a die (R23, R521). -/
def logSlot (d : Die) (n : Nat) : Nat := d.org + 0x0900_0000 + n % 16384 * 16

/-- Address of the slot of entry `n` in the mirror of die `d`'s log, in a bank of the other die (R525). -/
def logMirSlot (s : State) (d : Die) (n : Nat) : Nat :=
  d.other.org + s.fld (R.LOG_MIRROR_BASE d) 6 20 * 64 + n % 16384 * 16

/-- Whether the mirror of a die's log stands, has a bank and lies behind a link that is up (R525 to R527). -/
def State.mirStands (s : State) (d : Die) : Bool :=
  (s.logOf d).mirOk && s.flag (R.LOG_MIRROR_BASE d) 31 && s.linkUp

/-- Whether the group of the mirror's bank takes no accesses (R64). -/
def State.mirRetained (s : State) (d : Die) : Bool := s.groupOff d.other (bankOf (s.fld (R.LOG_MIRROR_BASE d) 6 20 * 64) / 16)

/-- Whether the mirror of a die's log can be written (R64, R525 to R527). -/
def State.mirReach (s : State) (d : Die) : Bool := s.mirStands d && !s.mirRetained d

/-- Entry `n` of a die's log written into its mirror: two whole words of the other die's pool (R525). -/
def State.mirWrite (s : State) (d : Die) (n : Nat) (ws : List Word) : State :=
  (s.setWords (logMirSlot s d n) ws).wordsClean d.other (logMirSlot s d n - d.other.org) 2

/-- One entry into the Log Fault Record, a ring of the last four (R526). -/
def State.lfrWrite (s : State) (d : Die) (ws : List Word) : State :=
  let l := s.logOf d
  let es := (l.lfr ++ [ws])
  let es' := if es.length > 4 then es.drop (es.length - 4) else es
  let s := s.setLog d { l with lfr := es' }
  let s := (List.range 16).foldl (fun s i => s.setReg (R.LOG_LFR d i) (es'.flatten.getD i 0)) s
  let s := s.setFld (R.LOG_LFR_STAT d) 0 3 (min es'.length 4)
  s.raise d (maskOf dblLOG 1)

/-- An entry kept for flash: it waits to be streamed (R532), and while a power-loss snapshot is being written it goes into it, up to the
64th (R533). -/
def State.logFlash (s : State) (d : Die) (n : Nat) (ws : List Word) : State :=
  let l := s.logOf d
  let s := s.setLog d { l with unstr := l.unstr ++ [(n, ws)], stored := l.stored + 1 }
  let s := s.setFld (R.LOG_STAT d) 8 6 (min 32 (l.unstr.length + 1))
  match s.rst.snap with
  | some x =>
    if x.room = 0 then s
    else { s with rst := { s.rst with snap := some { x with ents := Tab.put (fun _ => []) x.ents (d.idx * 0x1_0000_0000 + n) ws, room := x.room - 1 } } }
  | none => s

/-- Storing of one entry: into the copies that stand, or into the Log Fault Record when neither can be written (R525, R526). -/
def State.logStore (s : State) (d : Die) (ws : List Word) : State :=
  let n := (s.getReg (R.LOG_HEAD d)).toNat
  let s := (s.logFlash d n ws).count (R.HLT_LIFE_ENTRIES d)
  let l := s.logOf d
  if l.primOk ∨ s.mirReach d then
    let s := if l.primOk then s.setWords (logSlot d n) ws else s
    let s := if s.mirReach d then s.mirWrite d n ws
      else
        let s := if s.mirStands d then s.count (R.POOL_RET_ERR d.other) else s
        s.setLog d { l with mirLack := some (l.mirLack.getD n) }
    let s := s.setReg (R.LOG_HEAD d) (wd (n + 1))
    if (n + 1 + 0x1_0000_0000 - (s.getReg (R.LOG_OLDEST d)).toNat) % 0x1_0000_0000 > 16384 then s.setReg (R.LOG_OLDEST d) (wd (n + 1 - 16384)) else s
  else (s.setFlag (R.LOG_LFR_STAT d) 3 true).lfrWrite d ws

/-- The storing allowance of a die's log brought up to its device time: one entry more per 100 µs, 16 at most (R524). -/
def State.logRefill (s : State) (d : Die) : State :=
  let l := s.logOf d
  let k := (s.lin d - l.allowAt) / 100_000
  s.setLog d { l with allow := min 16 (l.allow + k), allowAt := l.allowAt + k * 100_000 }

/-- LOG_STAT of a die: whether the copies stand, the mirror complete and reachable, and streaming (R527, R537). -/
def State.showLog (s : State) (d : Die) : State :=
  let l := s.logOf d
  let a := R.LOG_STAT d
  let s := (s.setFlag a 0 l.primOk).setFlag a 1 (s.mirReach d && l.mirLack.isNone)
  s.setFlag a 2 (decide (4 ≤ (s.bootOf d).stage) && (decide (d = .d0) || s.linkUp))

/-- An event logged on a die: stored while the allowance lasts, else counted as suppressed (R521, R524). `hi16` is word 2
[31:16]: CLASS and INDEX. -/
def State.logRaw (s : State) (d : Die) (code sev hi16 : Nat) (detail : Word) : State :=
  let s := s.logRefill d
  let s := s.setLog d { s.logOf d with offered := (s.logOf d).offered + 1 }
  let l := s.logOf d
  let ws := logWords d (s.now d) code sev hi16 detail
  if alwaysLogged code then s.logStore d ws
  else if 0 < l.allow then (s.setLog d { l with allow := l.allow - 1 }).logStore d ws
  else
    let s := s.setLog d { l with supp := l.supp + 1, suppCode := if l.supp = 0 then code else l.suppCode }
    (s.count (R.LOG_CNT_SUPP d)).setFlag (R.LOG_EVENT d) 2 true

/-- An event logged with its unit class and index (R521, R522). -/
def State.logEv (s : State) (d : Die) (code sev cls idx detail : Nat) : State :=
  s.logRaw d code sev (cls % 16 + idx % 4096 * 16) (wd detail)

/-- Number of a unit in the TARGET numbering (R127): device-wide for engines, pairs, ports, CAN controllers and stencils. -/
def unitNum (d : Die) (cls idx : Nat) : Nat :=
  match cls with
  | 2 => idx + d.idx * 24
  | 3 => idx + d.idx * 2
  | 4 => idx + d.idx * 12
  | 5 => idx + d.idx * 2
  | 6 => idx + d.idx * 4
  | 7 => idx + d.idx * 16
  | _ => idx

/-- An event of a testable unit logged, with its class and number (R521). -/
def State.logUnit (s : State) (d : Die) (code sev cls idx detail : Nat) : State := s.logEv d code sev cls (unitNum d cls idx) detail

/-- The highest rate code a port can take in its mode, and the rate code a field port is forced to (R227 to R229). -/
def State.portTop (s : State) (d : Die) (m : Nat) : Nat :=
  let mode := s.fld (R.MAC_PORT_MODE d m) 0 3
  if m < 12 then (if mode = 0 then 2 else mode - 1) else if mode = 1 ∨ mode = 2 then 6 else 5

/-- Whether a MAC's port exists: not one of the other three of a lane that runs as one SGMII port (R20). -/
def State.portExists (s : State) (d : Die) (m : Nat) : Bool :=
  decide (m < 14) && (decide (12 ≤ m) || decide (m % 4 = 0) || !s.flag (R.MAC_LANE d (m / 4)) 0)

/-- The configuration has changed and is to be committed: PEND on both dies (R495, R502). -/
def State.cfgTouch (s : State) : State := (s.setFlag (R.RST_CFG_STAT .d0) 0 true).setFlag (R.RST_CFG_STAT .d1) 0 true

/-! ## The planner's queue (R87, R116) -/

/-- The events waiting at a die's planner. -/
def State.planEvents (s : State) (d : Die) : List PlanEv := Tab.get (fun _ => []) s.planQ d.idx

/-- The state with a planner's queue replaced, and PLC_STAT.QDEPTH with it. -/
def State.setPlanEvents (s : State) (d : Die) (q : List PlanEv) : State :=
  ({ s with planQ := Tab.put (fun _ => []) s.planQ d.idx q }).setFld (R.PLC_STAT d) 8 8 (min q.length 255)

/-- The die whose planner plans a die: the primary one while the link is up, else the die's own (R86). -/
def State.plannerOf (s : State) (d : Die) : Die :=
  if s.linkUp then dieOf (s.fld (R.SPR_ROLES d) 0 1) else d

/-- ACTIVE and ISLAND of both dies, by the link and the planner's role (R86). -/
def State.showPlanner (s : State) : State :=
  let one (s : State) (d : Die) : State :=
    (s.setFlag (R.PLC_STAT d) 0 (decide (s.plannerOf d = d))).setFlag (R.PLC_STAT d) 1 (!s.linkUp)
  one (one s .d0) .d1

/-- An event queued at the planner that plans a die. -/
def State.plan (s : State) (d : Die) (k : PlanKind) : State :=
  let p := s.plannerOf d
  s.setPlanEvents p (s.planEvents p ++ [⟨s.lin d, d, k⟩])

end Sys2Proof.Machine
end

