-- ==== Sys2Proof/Machine/Placed.lean ====
section
/-! DEFINITION. Intents and placements as the rest of the block asks for them: handles (R88, R89), the placement that runs in
a slot, and which slot of an engine a unit is assigned to (R407). -/

namespace Sys2Proof.Machine

/-- Key of a handle: issuer, kind and index (R88). -/
def intentKey (h : Nat) : Nat := ((h >>> 29) % 2 * 2 + (h >>> 30) % 2) * 65536 + h % 65536

/-- The intent at a handle's index. -/
def State.intent (s : State) (h : Nat) : Intent := Tab.get (fun _ => {}) s.intents (intentKey h)

/-- The state with the intent at a handle's index replaced. -/
def State.setIntent (s : State) (h : Nat) (i : Intent) : State :=
  { s with intents := Tab.put (fun _ => {}) s.intents (intentKey h) i }

/-- Whether a handle names an intent the device holds (R89). -/
def State.handleHeld (s : State) (h : Nat) : Bool :=
  decide (h ≠ 0) && (s.intent h).held && decide ((s.intent h).handle = h)

/-- Every intent held. -/
def State.heldIntents (s : State) : List Intent := (s.intents.map Prod.snd).filter fun i => i.held

/-- Field of an instance record (R91). -/
def Intent.recWord (i : Intent) (n : Nat) : Word := i.record.getD n 0

/-- Whether an intent is a flow intent (R88 KIND). -/
def Intent.isFlow (i : Intent) : Bool := decide ((i.handle >>> 30) % 4 = 1)

/-- A placement runs or will run in a slot: it is ADMITTED, SHADOW, LIVE, PINNED or DRAINING there (R105). -/
def Placement.occupies (p : Placement) (d : Die) (k slot : Nat) : Bool :=
  decide (p.die = d) && decide (p.ce = k) && decide (p.slot = slot) && decide (2 ≤ p.st) && decide (p.st ≤ 6)

/-- The placements of an intent: the live one and the target. -/
def Intent.placements (i : Intent) : List Placement := i.cur.toList ++ i.tgt.toList

/-- The instance intent one of whose placements is in a slot, with that placement. -/
def State.slotIntent (s : State) (d : Die) (k slot : Nat) : Option (Intent × Placement) :=
  s.intents.findSome? fun e =>
    if e.2.isFlow then none else
    (e.2.placements.find? fun p => p.occupies d k slot).map fun p => (e.2, p)

/-- The slot an engine is running, if any (R386 CE_STAT). -/
def State.runSlot (s : State) (d : Die) (k : Nat) : Option Nat :=
  if s.flag (R.CE_STAT d k) 14 then some (s.fld (R.CE_STAT d k) 8 6) else none

/-- Whether a slot is the target of a migration in SHADOW (R387 word 6). -/
def State.slotShadow (s : State) (d : Die) (k slot : Nat) : Bool := s.flag (R.CE_SLOT_W6 d k slot) 23

/-- Whether a slot's epoch is not the one its instance's output queues accept (R112). -/
def State.slotStale (s : State) (d : Die) (k slot : Nat) : Bool :=
  match s.slotIntent d k slot with
  | some (i, _) => decide (s.fld (R.CE_SLOT_W6 d k slot) 0 16 ≠ i.epoch)
  | none => false

/-- Whether the planner has assigned to a placement the unit a register belongs to: CAN controllers and stencils by the
intent's maps (R91), compare and capture units (R308, R317), stream FIFOs (R77). -/
def Intent.assigned (i : Intent) (p : Placement) (b off : Nat) : Bool :=
  if b = 38 then bit (i.recWord 5) (p.die.idx * 4 + off / 0x4000)
  else if b = 39 ∧ 0x1000 ≤ off ∧ off < 0x3000 then bit (i.recWord 6) (p.die.idx * 16 + (off - 0x1000) / 0x200)
  else if b = 37 ∧ 0x1000 ≤ off ∧ off < 0x1800 then p.cmps.contains ((off - 0x1000) / 0x20)
  else if b = 37 ∧ 0x1900 ≤ off ∧ off < 0x1D00 then p.caps.contains ((off - 0x1900) / 0x20)
  else if b = 9 ∧ 0x100 ≤ off ∧ off < 0x900 then p.sfqs.contains ((off - 0x100) / 0x40)
  else false

/-- Whether a requester is the slot in SHADOW of a placement the planner assigned the unit of a register to (R338, R345, R444). -/
def State.shadowHolds (s : State) (who : Requester) (d : Die) (b off : Nat) : Bool :=
  match who with
  | .ce e k =>
    decide (e = d) &&
    match s.runSlot d k with
    | some slot => s.slotShadow d k slot &&
      match s.slotIntent d k slot with
      | some (i, p) => i.assigned p b off
      | none => false
    | none => false
  | _ => false

/-- Whether the unit of a register is assigned to another slot of the engine than the one it runs (R407). -/
def State.otherSlot (s : State) (d : Die) (k b off : Nat) : Bool :=
  match s.runSlot d k with
  | none => false
  | some slot =>
    let owners := s.intents.flatMap fun e =>
      if e.2.isFlow then [] else
      (e.2.placements.filter fun p => decide (p.die = d) && decide (p.ce = k) && decide (2 ≤ p.st) && decide (p.st ≤ 6) &&
        e.2.assigned p b off).map fun p => p.slot
    decide (owners ≠ []) && !owners.contains slot

/-- Whether a register is TB_CMP_TGT_LO, TB_CMP_TGT_HI, TB_CMP_PERIOD or TB_CMP_CTRL of the first compare unit of a
placement of the engine (R404). -/
def State.firstCmp (s : State) (d : Die) (k b off : Nat) : Bool :=
  decide (b = 37) && decide (0x1000 ≤ off) && decide (off < 0x1800) && decide ((off - 0x1000) % 0x20 < 0x10) &&
  s.intents.any fun e => !e.2.isFlow && e.2.placements.any fun p =>
    decide (p.die = d) && decide (p.ce = k) && decide (2 ≤ p.st) && decide (p.st ≤ 6) &&
    decide (p.cmps.head? = some ((off - 0x1000) / 0x20))

/-- An output of a cycle kept for the compare of R110 while its intent has a target past its context copy: of the live
placement, or of the shadow one, whose outputs go nowhere else (R361, R414, R468).  `q` is the output queue (32 window writes,
33 field outputs), `bytes` its destination, length and bytes. -/
def State.recordOutput (s : State) (d : Die) (k slot q : Nat) (bytes : List Byte) : State :=
  match s.slotIntent d k slot with
  | none => s
  | some (i, p) =>
    if i.stage < 2 then s
    else if p.st = 3 then s.setIntent i.handle { i with outTgt := i.outTgt ++ [(q, bytes)] }
    else s.setIntent i.handle { i with outCur := i.outCur ++ [(q, bytes)] }

end Sys2Proof.Machine
end

