-- ==== Sys2Proof/Machine/Check.lean ====
section
/-! DEFINITION. The checks every register or memory access passes before it is performed (R546), and what a refusal and a
completed access leave (R170, R171): shared by every command that is an access. -/

namespace Sys2Proof

/-- The die a requester sits on (R16, R54's ports table). -/
def Requester.die : Requester → Die
  | .sup d _ => d
  | .ce d _ => d
  | .pf0 d => d
  | .pf1 d => d
  | .h2 => .d0
  | .h2s => .d0
  | .h3 => .d1

/-- The doorbell receiver of a host port (R178); none for an engine or a supervisor. -/
def Requester.receiver : Requester → Option Nat
  | .pf0 _ => some 1
  | .pf1 _ => some 2
  | .h2 => some 3
  | .h2s => some 3
  | .h3 => some 3
  | .sup _ _ => none
  | .ce _ _ => none

/-- The owner code of a host requester (MBX_CH_STAT.OWNER); 0 for the others. -/
def Requester.owner : Requester → Nat
  | .pf0 .d0 => 1
  | .pf1 .d0 => 2
  | .pf0 .d1 => 3
  | .pf1 .d1 => 4
  | .h2 => 5
  | .h2s => 6
  | .h3 => 7
  | .sup _ _ => 0
  | .ce _ _ => 0

/-- A host requester: one of the four ports. -/
def Requester.isHost (w : Requester) : Bool := w.receiver.isSome

/-- A supervisor of a die. -/
def Requester.isSup (w : Requester) (d : Die) : Bool :=
  match w with
  | .sup e _ => decide (e = d)
  | _ => false

/-- A requester that may use secure resources: PF1, H2 in session, or a supervisor (R172). -/
def Requester.secure : Requester → Bool
  | .pf1 _ => true
  | .h2s => true
  | .sup _ _ => true
  | _ => false

/-- The owner number of an on-die requester in the unit owner registers of a die: engines 0x00 to 0x17, supervisors 0x20;
0xFE for anyone else (R77, R308). -/
def Requester.unitOwner (w : Requester) (d : Die) : Nat :=
  match w with
  | .ce e k => if e = d then k.val else 0xFE
  | .sup e _ => if e = d then 0x20 else 0xFE
  | _ => 0xFE

/-- Size of an access in bytes; a narrow access names its word (its lanes are in the width). -/
def Width.size : Width → Nat
  | .w64 => 8
  | _ => 4

namespace Machine

/-- Cause codes (R170). -/
def causeWIDTH : Nat := 1
def causeALIGN : Nat := 2
def causeNO_TARGET : Nat := 3
def causeDOMAIN_OFF : Nat := 4
def causeFENCED : Nat := 5
def causeUNDER_TEST : Nat := 6
def causeRULE : Nat := 7
def causeMEMORY : Nat := 8
def causeLINK_LOST : Nat := 9
def causeTIMEOUT : Nat := 10
def causeCRC : Nat := 11
def causeSECURITY : Nat := 12

/-- The receiver and its die that an owner code names. -/
def ownerReceiver : Nat → Option (Die × Nat)
  | 1 => some (.d0, 1)
  | 2 => some (.d0, 2)
  | 3 => some (.d1, 1)
  | 4 => some (.d1, 2)
  | 5 => some (.d0, 3)
  | 6 => some (.d0, 3)
  | 7 => some (.d1, 3)
  | _ => none

/-- What an internal address names (R23 to R26, R539). -/
inductive Target where
  | reg (d : Die) (b off : Nat)
  | pool (d : Die) (off : Nat)
  | supMem (d : Die)
  | logMem (d : Die)
  | ceMem (d : Die) (k off : Nat)
  | nothing
deriving DecidableEq, Repr

/-- The target an internal address decodes to. -/
def targetOf (a : Nat) : Target :=
  let d := dieOfAddr a
  let x := a % 0x80_0000_0000
  if 0x100_0000_0000 ≤ a then .nothing
  else if x < 0x0400_0000 then .pool d x
  else if 0x0800_0000 ≤ x ∧ x < 0x0820_0000 then .supMem d
  else if 0x0900_0000 ≤ x ∧ x < 0x0904_0000 then .logMem d
  else if 0x1000_0000 ≤ x ∧ x < 0x1060_0000 then
    let off := x % 0x4_0000
    if off < 0x3_0000 then .ceMem d ((x - 0x1000_0000) / 0x4_0000) off else .nothing
  else match blockOf a with
    | some (b, off) => .reg d b off
    | none => .nothing

/-- Die 1 has no field I/O section: its FIO range is Die 0's (R540). -/
def canonAddr (a : Nat) : Nat :=
  match targetOf a with
  | .reg .d1 40 off => R.blk .d0 40 + off
  | _ => a

/-- The testable unit a register belongs to: class and per-die index (R547). -/
def unitOfReg (b off : Nat) : Option (Nat × Nat) :=
  if 10 ≤ b ∧ b ≤ 33 then some (2, b - 10)
  else if (b = 35 ∧ 0x1000 ≤ off ∧ off < 0x1E00) then
    let m := (off - 0x1000) / 0x100; some (if m < 12 then (4, m) else (5, m - 12))
  else if (b = 34 ∧ 0x1000 ≤ off ∧ off < 0x1700) then
    let m := (off - 0x1000) / 0x80; some (if m < 12 then (4, m) else (5, m - 12))
  else if b = 38 then some (6, off / 0x4000)
  else if (b = 39 ∧ 0x1000 ≤ off ∧ off < 0x3000) then some (7, (off - 0x1000) / 0x200)
  else if b = 40 then some (8, 0)
  else if (b = 37 ∧ 0x1000 ≤ off ∧ off < 0x1800) then some (9, (off - 0x1000) / 0x20)
  else if (b = 9 ∧ 0x100 ≤ off ∧ off < 0x900) then some (11, (off - 0x100) / 0x40)
  else if (b = 5 ∧ 0x1000 ≤ off ∧ off < 0x3000) then some (12, (off - 0x1000) / 0x100)
  else none

/-- Reads accepted in any state of the unit: CE_ID, CE_STAT, CE_HALT_CAUSE, CE_FADDR, CE_FCAUSE, CE_FS0–7, MBX_CH_STAT and the
reads of the FIO block (R547, R474, R475). -/
def readAlways (b off : Nat) : Bool :=
  if 10 ≤ b ∧ b ≤ 33 then
    off = 0 || off = 4 || off = 0xC || off = 0x40 || off = 0x44 || (decide (0x80 ≤ off) && decide (off < 0xA0))
  else if b = 5 then decide (0x1000 ≤ off) && off % 0x100 = 0x84
  else b = 40

/-- The _LO register of a declared 64-bit pair (R543). -/
def isPairLo (b off : Nat) : Bool :=
  (b = 9 && decide (0x100 ≤ off) && decide (off < 0x900) && (off - 0x100) % 0x40 = 8) ||
  (b = 37 && (off = 8 || (decide (0x1000 ≤ off) && decide (off < 0x1800) && off % 0x20 = 0) ||
      (decide (0x1900 ≤ off) && decide (off < 0x1D00) && (off - 0x1900) % 0x20 = 0))) ||
  (b = 35 && decide (0x1000 ≤ off) && decide (off < 0x1E00) && (off % 0x100 = 0x60 || off % 0x100 = 0x68))

/-- Registers whose read has a side effect and so refuses a narrow read (R541). -/
def sideEffectRead (b off : Nat) : Bool :=
  isPairLo b off ||
  (b = 38 && decide (0x2400 ≤ off % 0x4000) && decide (off % 0x4000 < 0x3600) && decide ((off % 0x4000 - 0x2400) % 0x900 < 0x820)) ||
  (match (blockRows b).find? fun r => r.hits off with
   | some r => decide (r.rc ≠ 0)
   | none => false)

/-- Power state of a die: PWR_STAT.STATE (R503). -/
def State.power (s : State) (d : Die) : Nat := s.fld (R.PWR_STAT d) 0 3

/-- Power state a die's targets answer by: the lower of the state and, during a transition, the target state (R548). -/
def State.powerEff (s : State) (d : Die) : Nat :=
  if s.flag (R.PWR_STAT d) 7 then max (s.power d) (s.fld (R.PWR_STAT d) 8 3) else s.power d

/-- Whether a register block answers in a power state (R548). -/
def blockAnswers (b p : Nat) : Bool :=
  if (b = 34 ∨ b = 35 ∨ b = 36) then decide (p ≤ 2)
  else if (10 ≤ b ∧ b ≤ 33) ∨ b = 38 ∨ b = 39 ∨ b = 9 then decide (p ≤ 1)
  else decide (p ≤ 3)

/-- Check 4 of R546 for a register or CE memory of a die: the link, the die's start-up and its power state. -/
def State.domainOff (s : State) (who : Requester) (d : Die) (b : Nat) : Bool :=
  (decide (who.die ≠ d) && !s.linkUp) ||
  (!s.running d && !(b = 0 || b = 6) && !who.isSup d) ||
  !blockAnswers b (s.powerEff d)

/-- Checks 5 and 6 of R546 for a testable unit: none for the die's own supervisors (R547). -/
def State.unitRefusal (s : State) (who : Requester) (d : Die) (cls idx : Nat) : Option Nat :=
  if who.isSup d then none else
  match (s.hunit d cls idx).st with
  | 0 => none
  | 4 => some causeFENCED
  | _ => some causeUNDER_TEST

/-- Check 3 of R546 on a register: widths and byte enables (R541 to R544). -/
def widthRefusal (w : Width) (wr : Bool) (b off : Nat) : Option Nat :=
  match w with
  | .w32 => none
  | .w64 => if isPairLo b off then none else some causeWIDTH
  | .w16 _ => if wr ∨ sideEffectRead b off then some causeWIDTH else none
  | .w8 _ => if wr ∨ sideEffectRead b off then some causeWIDTH else none
  | .odd => some causeWIDTH

/-- Whether a requester can name an internal address at all: a host not supervisor or event log memory (R25), an engine only
its own die's registers (R538). -/
def reachable (who : Requester) (t : Target) : Bool :=
  match t with
  | .nothing => false
  | .supMem d => who.isSup d || (match who with | .sup _ _ => true | _ => false)
  | .logMem d => who.isSup d || (match who with | .sup _ _ => true | _ => false)
  | .reg d _ _ => (match who with | .ce e _ => decide (e = d) | _ => true)
  | _ => true

/-- Checks 1 to 6 of R546 for a register access: the cause of the first that fails. -/
def State.regCheck (s : State) (who : Requester) (a : Nat) (w : Width) (wr : Bool) : Option Nat :=
  match targetOf (canonAddr a) with
  | .reg d b off =>
    if !reachable who (.reg d b off) ∧ canonAddr a = a then some causeNO_TARGET
    -- per-port MAC registers of a port that does not exist (R230)
    else if b = 35 ∧ 0x1000 ≤ off ∧ off < 0x1E00 ∧ !s.portExists d ((off - 0x1000) / 0x100) then some causeNO_TARGET
    else if a % w.size ≠ 0 then some causeALIGN
    else match widthRefusal w wr b off with
      | some c => some c
      | none =>
        if s.domainOff who d b then some causeDOMAIN_OFF
        else if !wr ∧ readAlways b off then none
        else match unitOfReg b off with
          | some (cls, idx) =>
            -- FIO_OUT_WR is accepted during the section's own test (R474)
            if cls = 8 ∧ off = 0x10 ∧ (s.hunit d 8 0).st = 1 then none else s.unitRefusal who d cls idx
          | none => none
  | _ => some causeNO_TARGET

/-- The status of the completion of a refused request of a PCIe function: a read has one, a posted write none (R170, R171). -/
def cplOf (who : Requester) (wr : Bool) (cause : Nat) : Option Cpl :=
  match who, wr with
  | .pf0 _, false => some (if cause = causeNO_TARGET then .ur else .ca)
  | .pf1 _, false => some (if cause = causeNO_TARGET then .ur else .ca)
  | _, _ => none

/-- A refused posted write in the AER registers of a function: Completer Abort or Unsupported Request, signalled upstream where the host has
not masked it and has enabled its message (R171). -/
def State.aerLog (s : State) (d : Die) (fn cause : Nat) : State :=
  let a := Tab.get (fun _ => ({} : Aer)) s.aer (d.idx * 2 + fn)
  let i := if cause = causeNO_TARGET then 20 else 15
  let fatal := bit a.severity i
  let s := { s with aer := Tab.put (fun _ => {}) s.aer (d.idx * 2 + fn) { a with status := a.status ||| maskOf i 1 } }
  if !bit a.mask i && bit a.control (if fatal then 2 else 1) && (i = 15 || bit a.control 3) then s.emit (.aer d fn fatal) else s

/-- A refused access in the error registers of its function: one that is a posted write (R171). -/
def State.aerPosted (s : State) (who : Requester) (wr : Bool) (cause : Nat) : State :=
  match who, wr with
  | .pf0 d, true => s.aerLog d 0 cause
  | .pf1 d, true => s.aerLog d 1 cause
  | _, _ => s

/-- The record a refused access of a host port leaves: MBX_ERR of its receiver on its die while VALID is 0, the count, and
ACCESS_ERR; a posted write's in the AER registers too (R171, R181). -/
def State.recordRefusal (s : State) (who : Requester) (a : Nat) (wr : Bool) (cause : Nat) : State :=
  match who.receiver with
  | none => s
  | some r =>
    let d := who.die
    let s := if s.flag (R.MBX_ERR_HI d (r - 1)) 31 then s else
      (s.setReg (R.MBX_ERR_LO d (r - 1)) (wd a)).setReg (R.MBX_ERR_HI d (r - 1))
        (wd (0x8000_0000 + (if wr then 0x4000_0000 else 0) + cause % 16 * 0x1_0000 + a / 0x1_0000_0000 % 256))
    ((s.count (R.MBX_ERR_CNT d (r - 1))).dblSet d r (maskOf dblACCESS 1)).aerPosted who wr cause

/-- A refused access: recorded when it came through a host port, and answered (R170, R171). -/
def State.refuse (s : State) (who : Requester) (a : Nat) (wr : Bool) (cause : Nat) : State :=
  (s.recordRefusal who a wr cause).emit (.answer who a (.refused cause (cplOf who wr cause)))

/-- What a register effect gives: a cause of refusal, or the state after it. -/
abbrev Eff := Except Nat State

/-- A shadow slot's write goes to the compare as one more output, with its address and value, and is not performed; a live
slot's write is kept for the compare as well (R338, R444). -/
def State.divert (s : State) (who : Requester) (a : Nat) (v : Word) (e : Eff) : Eff :=
  match who, e with
  | .ce d k, .ok t =>
    match s.runSlot d k with
    | some slot =>
      let bs := leBytes 8 a ++ leBytes 4 v.toNat
      if s.slotShadow d k slot then .ok (s.recordOutput d k slot 34 bs) else .ok (t.recordOutput d k slot 34 bs)
    | none => .ok t
  | _, e => e

/-- What R404 and R407 refuse an engine: a write outside the SFQ, TB, CAN, STN and FIO blocks and its own CE block, to a unit
assigned to another of its slots, or to the grid of a first compare unit. -/
def State.engineRefuses (s : State) (who : Requester) (a : Nat) : Bool :=
  match who, targetOf a with
  | .ce d k, .reg _ b off =>
    !(b = 9 || b = 37 || b = 38 || b = 39 || b = 40 || b = 10 + k.val) || s.otherSlot d k.val b off || s.firstCmp d k.val b off
  | _, _ => false

/-- A checked register write of 32 bits: checks 1 to 6, then the register's own effect, which is check 7 (R546). -/
def State.guardWrite (s : State) (who : Requester) (a : Nat) (w : Width) (eff : State → Eff) : State :=
  match s.regCheck who a w true with
  | some c => s.refuse who a true c
  | none => if s.engineRefuses who a then s.refuse who a true causeRULE else match eff s with
    | .error c => s.refuse who a true c
    | .ok t => t.emit (.answer who a .done)

/-- A checked register read: checks 1 to 6, then the register's own effect, which gives the words read and the state after. -/
def State.guardRead (s : State) (who : Requester) (a : Nat) (w : Width) (eff : State → Except Nat (List Word × State)) : State :=
  match s.regCheck who a w false with
  | some c => s.refuse who a false c
  | none => match eff s with
    | .error c => s.refuse who a false c
    | .ok (ws, t) => t.emit (.answer who a (.data ws))

end Machine
end Sys2Proof
end

