-- ==== Sys2Proof/Machine/PoolPort.lean ====
section
/-! DEFINITION. The shared pool as its requester ports reach it (R49 to R52, R57 to R59, R61, R64, R84): banks, accesses, error correction,
counts. -/

namespace Sys2Proof.Machine

/-- First address of a bank, and its number of lines (R24, R49). -/
def bankBase (b : Nat) : Nat := if b < 240 then b * 0x4_0000 else 0x03C0_0000 + (b - 240) * 0x2_0000
def bankLines (b : Nat) : Nat := if b < 240 then 4096 else 2048

/-- Size of a FIFO's pool buffer in bytes (R79). -/
def State.sfqBuf (s : State) (d : Die) (n : Nat) : Nat := 4096 * 2 ^ (s.fld (R.SFQ_BUF_SIZE d n) 0 4)

/-- Whether the drain buffer of a stream FIFO in drain mode lies on a bank, wholly or in part (R79, R96). -/
def State.sfqBufOn (s : State) (d : Die) (n b : Nat) : Bool :=
  let base := s.fld (R.SFQ_BUF_BASE d n) 6 20 * 64
  s.flag (R.SFQ_CTRL d n) 1 && decide (bankBase b < base + s.sfqBuf d n) && decide (base < bankBase b + bankLines b * 64)

/-- A dual-port bank (R21). -/
def dualPort (b : Nat) : Bool := decide (240 ≤ b)

/-- Whether a bank is marked out of service (R61, R84). -/
def State.bankOos (s : State) (d : Die) (b : Nat) : Bool := s.flag (R.POOL_BANK_OOS d (b / 32)) (b % 32)

/-- The error address word: VALID, SCRUB, PORT and ADDR (R84). -/
def errWord (scrub : Bool) (port a : Nat) : Word :=
  wd (0x8000_0000 + (if scrub then 0x4000_0000 else 0) + port % 16 * 0x400_0000 + a / 8 * 8 % 0x400_0000)

/-- A corrected error of a bank taken down: more than 64 in 1 s retire the bank (R61, R116, R441, R522). -/
def State.corrCount (s : State) (d : Die) (b a : Nat) : State :=
  let l := ((Tab.get (fun _ => []) s.corr (bankKey d b)).filter fun t => decide (s.lin d < t + 1_000_000_000)) ++ [s.lin d]
  if l.length ≤ 64 then { s with corr := Tab.put (fun _ => []) s.corr (bankKey d b) l }
  else
    let s := { s with corr := Tab.put (fun _ => []) s.corr (bankKey d b) [] }
    ((s.raiseSup d 28).logEv d 0x617 2 0 b (a / 8 * 8)).plan d (.vacateBank b)

/-- A single-bit error met at pool address `a`: counted, its address recorded, a write-back made pending unless the bank has
one (R58). -/
def State.eccCorrect (s : State) (d : Die) (port : Nat) (scrub : Bool) (a : Nat) : State :=
  let s := ((s.count (R.POOL_ECC_CORR d)).setReg (R.POOL_CE_ADDR d) (errWord scrub port a)).corrCount d (bankOf a) a
  if s.wbOf d (bankOf a) = 0 then s.setWb d (bankOf a) (wordNo d a + 1) else s

/-- Whether a fault of a bank waits at the planner already. -/
def State.bankFaultWaits (s : State) (d : Die) (b : Nat) : Bool :=
  (s.planEvents (s.plannerOf d)).any fun e => decide (e.die = d) && (match e.kind with | .bankFault a => decide (bankOf a = b) | _ => false)

/-- An uncorrectable word met at pool address `a`: counted, and the first since POOL_UE_ADDR was cleared recorded; the Health Manager is told
and logs it, and a bank still in service is to be taken out of it (R59, R61, R441, R522). -/
def State.eccFail (s : State) (d : Die) (port : Nat) (scrub : Bool) (a : Nat) : State :=
  let s := (s.count (R.POOL_ECC_UNCORR d)).raiseSup d 28
  let s := if s.flag (R.POOL_UE_ADDR d) 31 then s else s.setReg (R.POOL_UE_ADDR d) (errWord scrub port a)
  let s := s.logEv d 0x618 3 0 (bankOf a) (a / 8 * 8)
  if s.bankOos d (bankOf a) ∨ s.bankFaultWaits d (bankOf a) then s else s.plan d (.bankFault a)

/-- What a read of the words from `a` upward, `n` of them, leaves in the error records, and whether one is uncorrectable. -/
def State.eccScan (s : State) (d : Die) (port : Nat) (scrub : Bool) (a : Nat) : Nat → Bool × State
  | 0 => (false, s)
  | n + 1 =>
    let m := s.eccAt (wordNo d a)
    let t := if m = 1 then s.eccCorrect d port scrub a else if m = 2 then s.eccFail d port scrub a else s
    let (bad, u) := t.eccScan d port scrub (a + 8) n
    (decide (m = 2) || bad, u)

/-- Pool slots charged to a requester port, for POOL_PORT_UTIL: a new microsecond publishes the counts of those that are over, of which UTIL
shows the last; a read of the register publishes them too (R51, R84). -/
def State.slotUse (s : State) (d : Die) (port k : Nat) : State :=
  let us := s.lin d / 1000
  let (u, n) := Tab.get (fun _ => (0, 0)) s.portUse (d.idx * 16 + port)
  if us = u then { s with portUse := Tab.put (fun _ => (0, 0)) s.portUse (d.idx * 16 + port) (u, n + k) }
  else
    let v := if us = u + 1 then min n 4095 else 0
    let a := R.POOL_PORT_UTIL d port
    let s := (s.setFld a 0 12 v).setFld a 16 12 (max (min n 4095) (s.fld a 16 12))
    { s with portUse := Tab.put (fun _ => (0, 0)) s.portUse (d.idx * 16 + port) (us, k) }

/-- Whether the bank of an address answers a port: a group in retention or waking is counted and refused with MEMORY, a bank out
of service with UNDER_TEST, but for the supervisors of port 13 (R64, R547, R548). -/
def State.bankRefusal (s : State) (d : Die) (port a : Nat) : Option Nat :=
  if s.groupOff d (bankOf a / 16) ∨ s.powerEff d = 3 then some causeMEMORY
  else if s.powerEff d ≥ 4 then some causeDOMAIN_OFF
  else if s.bankOos d (bankOf a) ∧ port ≠ 13 then some causeUNDER_TEST
  else none

/-- A refusal of R64 is counted in POOL_RET_ERR. -/
def State.countRet (s : State) (d : Die) (cause : Nat) : State :=
  if cause = causeMEMORY then s.count (R.POOL_RET_ERR d) else s

/-- The number of 64-bit words that `n` bytes from `a` touch. -/
def wordSpan (a n : Nat) : Nat := if n = 0 then 0 else (a + n - 1) / 8 - a / 8 + 1

/-- The round-robin pointer of a bank moved to the port above the one served (R53). -/
def State.setPtr (s : State) (d : Die) (b p : Nat) : State :=
  { s with bankPtr := Tab.put (fun _ => 0) s.bankPtr (bankKey d b) (p % 16) }

/-- A grant of `k` slots of the bank of an address to a port: counted for the port, and the bank's pointer moves on (R51, R53, R84). -/
def State.grant (s : State) (d : Die) (port a k : Nat) : State := (s.slotUse d port k).setPtr d (bankOf a) (port + 1)

/-- A read of `n` bytes of one line (R50, R58, R59). -/
def State.poolRead (s : State) (d : Die) (port a n : Nat) : Except Nat (List Byte) × State :=
  match s.bankRefusal d port a with
  | some c => (.error c, s.countRet d c)
  | none =>
    let (bad, t) := (s.grant d port a 1).eccScan d port false (a / 8 * 8) (wordSpan a n)
    (if bad then .error causeMEMORY else .ok (t.load (d.org + a) n), t)

/-- Byte enables of the word at offset `i` words of a write that begins at `a`: how many of its eight bytes are written. -/
def enabledIn (a : Nat) (bs : List (Option Byte)) (w : Nat) : Nat :=
  ((List.range 8).filter fun j => decide (a ≤ w * 8 + j) && (bs.getD (w * 8 + j - a) none).isSome && decide (w * 8 + j - a < bs.length)).length

/-- The word numbers within the die that a write touches. -/
def wordsOf (a : Nat) (bs : List (Option Byte)) : List Nat := (List.range (wordSpan a bs.length)).map fun i => a / 8 + i

/-- Words a write covers only in part (R51). -/
def partialWords (a : Nat) (bs : List (Option Byte)) : List Nat :=
  (wordsOf a bs).filter fun w => decide (0 < enabledIn a bs w) && decide (enabledIn a bs w < 8)

/-- Good check bits stored for the words a write touches, and a pending write-back of one of them cancelled (R57 to R59). -/
def State.eccClear (s : State) (d : Die) (a : Nat) (bs : List (Option Byte)) : List Nat → State
  | [] => s
  | w :: t =>
    let s := if 0 < enabledIn a bs w then
        let s := s.setEcc (d.org / 8 + w) 0
        if s.wbOf d (bankOf (w * 8)) = d.org / 8 + w + 1 then s.setWb d (bankOf (w * 8)) 0 else s
      else s
    s.eccClear d a bs t

/-- The error records of the reads that a write's merges make, word by word (R51, R58, R59). -/
def State.mergeScan (s : State) (d : Die) (port : Nat) : List Nat → Bool × State
  | [] => (false, s)
  | w :: t =>
    let (b1, u) := s.eccScan d port false (w * 8) 1
    let (b2, v) := u.mergeScan d port t
    (b1 || b2, v)

/-- A write of one line or a part of it with byte enables; a partial word is merged, and an uncorrectable word met in the merge
leaves the whole access undone (R50, R51, R59). -/
def State.poolWrite (s : State) (d : Die) (port a : Nat) (bs : List (Option Byte)) : Except Nat Unit × State :=
  match s.bankRefusal d port a with
  | some c => (.error c, s.countRet d c)
  | none =>
    let ps := partialWords a bs
    let (bad, t) := (s.grant d port a (if ps = [] then 1 else 2)).mergeScan d port ps
    if bad then (.error causeMEMORY, t)
    else (.ok (), (t.storeEn (d.org + a) bs).eccClear d a bs (wordsOf a bs))

/-- Bytes of the line that a span of `n` bytes from `a` still covers (R50). -/
def linePart (a n : Nat) : Nat := min n (64 - a % 64)

/-- A read over several lines, line by line in address order, stopping at the first refused part (R50, R157). -/
def State.poolReadSpan (s : State) (d : Die) (port a n : Nat) : Nat → Except Nat (List Byte) × State
  | 0 => (.ok [], s)
  | fuel + 1 =>
    if n = 0 then (.ok [], s)
    else match s.poolRead d port a (linePart a n) with
      | (.error c, t) => (.error c, t)
      | (.ok bs, t) => match t.poolReadSpan d port (a + linePart a n) (n - linePart a n) fuel with
        | (.error c, u) => (.error c, u)
        | (.ok cs, u) => (.ok (bs ++ cs), u)

/-- A write over several lines, line by line, stopping at the first refused part (R50, R157). -/
def State.poolWriteSpan (s : State) (d : Die) (port a : Nat) (bs : List (Option Byte)) : Nat → Except Nat Unit × State
  | 0 => (.ok (), s)
  | fuel + 1 =>
    if bs = [] then (.ok (), s)
    else match s.poolWrite d port a (bs.take (linePart a bs.length)) with
      | (.error c, t) => (.error c, t)
      | (.ok _, t) => t.poolWriteSpan d port (a + linePart a bs.length) (bs.drop (linePart a bs.length)) fuel

/-- Bytes made whole 64-bit words: the rest of the last one is a free value (R259, R341; log entry 97). -/
def State.wordPad (s : State) (bs : List Byte) : List Byte :=
  bs ++ (leBytes 4 (Config.freeValue s.fresh).toNat ++ leBytes 4 (Config.freeValue (s.fresh + 1)).toNat).take ((8 - bs.length % 8) % 8)

/-- Lines a span of `n` bytes from `a` touches: enough turns for the two spans above. -/
def lineCount (a n : Nat) : Nat := (a % 64 + n) / 64 + 1

end Sys2Proof.Machine
end

