-- ==== Sys2Proof/Machine/Egress.lean ====
section
/-! DEFINITION. The frame buffer, tags and egress queues of a switch, and the queues of instances: what every sender and receiver of
frames shares (R183 to R185, R223, R241, R408). -/

namespace Sys2Proof.Machine

/-! ## Ports -/

/-- Key of a switch port. -/
def swKey (d : Die) (e : Nat) : Nat := d.idx * 17 + e

/-- Key of an egress queue. -/
def queueKey (d : Die) (e t : Nat) : Nat := swKey d e * 8 + t

/-- Rate of a rate code in Mb/s (R247 SPEED). -/
def speedMbps : Nat → Nat
  | 0 => 10
  | 1 => 100
  | 2 => 1000
  | 3 => 2500
  | 4 => 5000
  | 5 => 10000
  | 6 => 25000
  | _ => 0

/-- Rate code of a switch port: its MAC's, or that of a fast internal port. -/
def State.portSpeed (s : State) (d : Die) (e : Nat) : Nat := if e < 14 then s.fld (R.MAC_PORT_MODE d e) 4 3 else 6

/-- Whether a switch port is up: administratively and by link, or for port 15 the Duolay link (R222). -/
def State.portUp (s : State) (d : Die) (e : Nat) : Bool :=
  if e < 14 then s.flag (R.SW_PORT_CFG d e) 31 && s.flag (R.SW_PORT_CFG d e) 30
  else if e = 15 then s.linkUp
  else true

/-! ## The frame buffer (R183, R184, R241) -/

/-- The frame-buffer banks of a die in ascending order: those PLC_BANK names, or the default ones before start-up (R183, R568). -/
def State.fbBanks (s : State) (d : Die) : List Nat :=
  let l := (List.range 240).filter fun b => s.fld (R.PLC_BANK d b) 26 4 = 1
  if l = [] then List.range 48 else l

/-- Internal address of a frame-buffer line (R241). -/
def lineAddr (d : Die) (banks : List Nat) (l : Nat) : Nat := d.org + banks.getD (l % 48) 0 * 0x4_0000 + l / 48 * 64

/-- Lines of a frame buffer. -/
def fbLines : Nat := 196_608

/-- Key of a stored frame. -/
def storedKey (d : Die) (l : Nat) : Nat := d.idx * 0x4_0000 + l

/-- The frames a die has stored, as (first line, lines). -/
def State.storedRuns (s : State) (d : Die) : List (Nat × Nat) :=
  (s.stored.filter fun e => e.1 / 0x4_0000 = d.idx ∧ e.1 % 0x4_0000 < fbLines).map fun e => (e.1 % 0x4_0000, e.2.lines)

/-- Free lines of a die's frame buffer. -/
def State.freeLines (s : State) (d : Die) : Nat := fbLines - ((s.storedRuns d).map Prod.snd).sum

/-- Whether two runs of line numbers share none, both wrapping from the last line to 0 (R241): first line and lines of each. -/
def runsApart (l n r k : Nat) : Bool := decide (n ≤ (r + fbLines - l) % fbLines) && decide (k ≤ (l + fbLines - r) % fbLines)

/-- A run of `n` free lines: the lowest that begins at line 0 or behind a stored frame, and may wrap (R241; log entry 6). -/
def State.findRun (s : State) (d : Die) (n : Nat) : Option Nat :=
  let runs := s.storedRuns d
  (0 :: (runs.map fun r => (r.1 + r.2) % fbLines)).find? fun l => runs.all fun r => runsApart l n r.1 r.2

/-- A list of bytes cut into lines of 64; `n` lines. -/
def cutLines (bs : List Byte) (n : Nat) : List (List Byte) := (List.range n).map fun i => (bs.drop (i * 64)).take 64

/-- Bytes filled up with zeros to whole 64-bit words, as a write that enables them all. -/
def wholeWords (bs : List Byte) : List (Option Byte) := (bs ++ List.replicate ((8 - bs.length % 8) % 8) 0).map some

/-- Lines written by the switch, one access each, through requester ports 4 and 5 in turn; `at_` gives the address of a line (R28, R57; log
entry 92). -/
def State.storeLines (s : State) (d : Die) (at_ : Nat → Nat) (l : Nat) : List (List Byte) → State
  | [] => s
  | c :: t => ((s.poolWrite d (4 + l % 2) (at_ l % 0x0400_0000) (wholeWords c)).2).storeLines d at_ (l + 1) t

/-- Lines read by the switch through requester ports 6 and 7 in turn, `n` of them: whether a word was uncorrectable or a bank did not answer
(R28, R58, R59). -/
def State.readLines (s : State) (d : Die) (at_ : Nat → Nat) (l : Nat) : Nat → Bool × State
  | 0 => (false, s)
  | n + 1 =>
    let (r, t) := s.poolRead d (6 + l % 2) (at_ l % 0x0400_0000) 64
    let (bad, u) := t.readLines d at_ (l + 1) n
    ((match r with | .ok _ => false | .error _ => true) || bad, u)

/-- Lines of a frame. -/
def linesOf (bs : List Byte) : Nat := max 1 ((bs.length + 63) / 64)

/-- Address of a frame-buffer line of a die, its number taken as it wraps. -/
def State.fbAddr (s : State) (d : Die) : Nat → Nat :=
  let banks := s.fbBanks d
  fun l => lineAddr d banks (l % fbLines)

/-! ## The descriptor store (R28, R59, R568) -/

/-- Address of the descriptor of a tag: the store's banks in ascending order hold the tags in turn. -/
def State.descAddr (s : State) (d : Die) (tag : Nat) : Nat :=
  let l := (List.range 240).filter fun b => s.fld (R.PLC_BANK d b) 26 4 = 3
  bankBase ((if l = [] then (List.range 16).map (208 + ·) else l).getD (tag / 8192) 0) + tag % 8192 * 32

/-- The lowest tag of a die that no stored frame holds. -/
def State.freeTag (s : State) (d : Die) : Nat :=
  let used := (s.stored.filter fun e => e.1 / 0x4_0000 = d.idx).map fun e => e.2.tag
  ((List.range (used.length + 1)).find? fun t => !used.contains t).getD used.length

/-- A descriptor of free words written by the descriptor manager through port 15: the spec gives no layout of a frame within the switch. -/
def State.descWrite (s : State) (d : Die) (tag : Nat) : State :=
  let w := wordBytes ((List.range 8).map fun i => Config.freeValue (s.fresh + i))
  (({ s with fresh := s.fresh + 8 } : State).poolWrite d 15 (s.descAddr d tag) (w.map some)).2

/-- The descriptor of a stored frame read through port 15: whether it holds an uncorrectable word, in which case the operation is not
performed (R59). -/
def State.descBad (s : State) (d : Die) (line : Option Nat) : Bool × State :=
  match line with
  | some l =>
    if fbLines ≤ l then (false, s)
    else
      let (r, t) := s.poolRead d 15 (s.descAddr d (Tab.get (fun _ => ({} : Stored)) s.stored (storedKey d l)).tag) 32
      ((match r with | .ok _ => false | .error _ => true), t)
  | none => (false, s)

/-! ## Pause of peers (R238) -/

/-- A pause frame with given quanta sent by a port: counted as pause and among the frames and octets sent (R238, R247). -/
def State.sendPause (s : State) (d : Die) (m quanta : Nat) : State :=
  let bs := [0x01, 0x80, 0xC2, 0x00, 0x00, 0x01] ++ leBytes 4 (s.getReg (R.MAC_ADDR_LO d m)).toNat ++
    leBytes 2 (s.fld (R.MAC_ADDR_HI d m) 0 16) ++ [0x88, 0x08, 0x00, 0x01] ++ beBytes 2 quanta ++ List.replicate 42 0
  let s := ((s.emit (.frame d m (bs ++ leBytes 4 (fcs32 bs)))).count (R.MAC_TX_PAUSE d m)).count (R.MAC_TX_MCAST d m)
  s.setPair (R.MAC_TX_OCTETS_LO d m) (R.MAC_TX_OCTETS_HI d m)
    ((s.getPair (R.MAC_TX_OCTETS_LO d m) (R.MAC_TX_OCTETS_HI d m) + 64) % 2 ^ 64)

/-- Pause frames of every port that sends them and is up; `n` ports are left. -/
def State.pauseAll (s : State) (d : Die) (quanta : Nat) : Nat → State
  | 0 => s
  | n + 1 =>
    let m := 14 - (n + 1)
    (if s.flag (R.MAC_PAUSE_CFG d m) 1 && s.portUp d m then s.sendPause d m quanta else s).pauseAll d quanta n

/-- The frame buffer compared with the pause thresholds: below XOFF pause goes out, at XON it is ended (R238). -/
def State.pauseCheck (s : State) (d : Die) : State :=
  let free := s.freeLines d
  let on := Tab.get (fun _ => false) s.pausing d.idx
  if !on && decide (free < s.fld (R.MAC_PAUSE_XOFF d) 0 18) then
    ({ s with pausing := Tab.put (fun _ => false) s.pausing d.idx true }).pauseAll d 0xFFFF 14
  else if on && decide (free ≥ s.fld (R.MAC_PAUSE_XON d) 0 18) then
    ({ s with pausing := Tab.put (fun _ => false) s.pausing d.idx false }).pauseAll d 0 14
  else s

/-! ## Frames stored -/

/-- A frame stored with `refs` copies to come: its first line, or none where no tag (131,072 per die) or no room is left, which
is counted; pause is sent where the free lines have become few (R184, R238). -/
def State.storeFrame (s : State) (d : Die) (bs : List Byte) (refs : Nat) : Option Nat × State :=
  let n := linesOf bs
  if (s.storedRuns d).length ≥ 131_072 then (none, s.count (R.SW_CNT_NOTAG d))
  else match s.findRun d n with
    | none => (none, s.count (R.SW_CNT_NOBUF d))
    | some l =>
      let tag := s.freeTag d
      let s := { s with stored := Tab.put (fun _ => {}) s.stored (storedKey d l) { lines := n, refs := refs, tag := tag } }
      (some l, ((s.storeLines d (s.fbAddr d) l (cutLines bs n)).descWrite d tag).pauseCheck d)

/-- One copy of a stored frame sent or dropped; the last frees lines and tag, which may end the pause of peers (R184, R208, R238). -/
def State.dropRef (s : State) (d : Die) (line : Option Nat) : State :=
  match line with
  | none => s
  | some l =>
    let r := Tab.get (fun _ => ({} : Stored)) s.stored (storedKey d l)
    if 1 < r.refs then { s with stored := Tab.put (fun _ => {}) s.stored (storedKey d l) { r with refs := r.refs - 1 } }
    else ({ s with stored := Tab.put (fun _ => {}) s.stored (storedKey d l) {} }).pauseCheck d

/-! ## Egress queues (R185) -/

/-- An egress queue. -/
def State.queue (s : State) (d : Die) (e t : Nat) : List Frm := Tab.get (fun _ => []) s.swQ (queueKey d e t)

/-- The state with an egress queue replaced. -/
def State.setQueue (s : State) (d : Die) (e t : Nat) (q : List Frm) : State :=
  { s with swQ := Tab.put (fun _ => []) s.swQ (queueKey d e t) q }

/-- Depth of a queue in lines (R217). -/
def State.depth (s : State) (d : Die) (e t : Nat) : Nat := ((s.queue d e t).map fun f => linesOf f.bytes).sum

/-- Depth of all queues of a port (R219). -/
def State.portDepth (s : State) (d : Die) (e : Nat) : Nat := ((List.range 8).map fun t => s.depth d e t).sum

/-! ## The management buffer (R223, R568) -/

/-- Lines of the management buffer; they are numbered above those of the frame buffer. -/
def mgmtLines : Nat := 16_384

/-- Address of a line of the management buffer: its banks in ascending order hold the lines in turn. -/
def State.mgmtAddr (s : State) (d : Die) : Nat → Nat :=
  let l := (List.range 240).filter fun b => s.fld (R.PLC_BANK d b) 26 4 = 4
  let banks := if l = [] then [232, 233, 234, 235] else l
  fun k => bankBase (banks.getD ((k - fbLines) / 4096) 0) + (k - fbLines) % 4096 * 64

/-- The lowest run of `n` free lines of the management buffer that begins at its first line or behind a frame (log entry 92). -/
def State.mgmtRun (s : State) (d : Die) (n : Nat) : Option Nat :=
  let runs := (s.stored.filter fun e => e.1 / 0x4_0000 = d.idx ∧ fbLines ≤ e.1 % 0x4_0000).map fun e => (e.1 % 0x4_0000, e.2.lines)
  (fbLines :: (runs.map fun r => r.1 + r.2)).find? fun l =>
    decide (l + n ≤ fbLines + mgmtLines) && runs.all fun r => decide (l + n ≤ r.1) || decide (r.1 + r.2 ≤ l)

/-- A TC 7 frame queued at a port, which holds four at most, the management port apart, and stored in the management buffer; one more, or one
that finds no room, is dropped and counted (R223); a port under test has a hard deadline then (R518). -/
def State.enqMgmt (s : State) (d : Die) (e : Nat) (f : Frm) : State :=
  if (s.queue d e 7).length ≥ 4 ∧ e ≠ 16 then s.count (R.SW_CNT_MGMT_DROP d)
  else
    let n := linesOf f.bytes
    match s.mgmtRun d n with
    | none => s.count (R.SW_CNT_MGMT_DROP d)
    | some l =>
      let s := { s with stored := Tab.put (fun _ => {}) s.stored (storedKey d l) { lines := n, refs := 1 } }
      let s := s.storeLines d (s.mgmtAddr d) l (cutLines f.bytes n)
      (s.setQueue d e 7 (s.queue d e 7 ++ [{ f with tc := 7, line := some l }])).portReq d e true

/-! ## Queues of an instance (R408) -/

/-- The queues of an instance. -/
def State.iqOf (s : State) (h : Nat) : InstQ := Tab.get (fun _ => {}) s.iq (intentKey h)

/-- The state with the queues of an instance replaced. -/
def State.setIq (s : State) (h : Nat) (q : InstQ) : State := { s with iq := Tab.put (fun _ => {}) s.iq (intentKey h) q }

/-- A queue bound to an instance has received a descriptor: CE_EVT.QUEUE of the engine that runs it now (R386). -/
def State.queueEvt (s : State) (h : Nat) : State :=
  match (s.intent h).cur with
  | some p => if s.runSlot p.die p.ce = some p.slot then s.setFlag (R.CE_EVT p.die p.ce) 3 true else s
  | none => s

/-- Words 4 to 7 of a transmit descriptor written back, its tag freed; a full DONE queue discards it, logged at most once per
second (R242, R411). -/
def State.txBack (s : State) (d : Die) (f : Frm) (sent stomped : Bool) (cause port : Nat) (stamp : Option DevTime) : State :=
  match f.tx with
  | none => s
  | some (h, ws) =>
    let w4 := wd (1 + (if sent then 2 else 0) + (if stamp.isSome then 4 else 0) + (if stomped then 8 else 0) + cause * 16 +
      port * 256 + d.idx * 8192)
    let q := s.iqOf h
    let q := { q with used := q.used - 1 }
    if q.done.length ≥ 256 then
      if q.lostSec = some (s.now d).sec then s.setIq h q
      else ((s.drawn).logEv d (s.freeNow.toNat % 4096) 2 0 0 h).setIq h { q with lostSec := some (s.now d).sec }
    else (s.setIq h { q with done := q.done ++ [ws.take 4 ++ [w4] ++ (match stamp with | some t => t.triple | none => [0, 0, 0])] }).queueEvt h

/-! ## Sending on the Duolay link (R31, R32) -/

/-- The retry buffer of a sending die. -/
def State.dlyWait (s : State) (d : Die) : List (Nat × Nat × List Byte) := Tab.get (fun _ => []) s.dlyBuf d.idx

/-- The state with it replaced. -/
def State.setDlyWait (s : State) (d : Die) (l : List (Nat × Nat × List Byte)) : State :=
  { s with dlyBuf := Tab.put (fun _ => []) s.dlyBuf d.idx l }

/-- What a die sent in the last 1 ms, as (linear count, bytes). -/
def State.dlyRecent (s : State) (d : Die) : List (Nat × Nat) :=
  (Tab.get (fun _ => []) s.dlyUse d.idx).filter fun r => s.lin d < r.1 + 1_000_000

/-- `n` bytes of payload put on the link by a die. -/
def State.dlyCarry (s : State) (d : Die) (n : Nat) : State :=
  { s with dlyUse := Tab.put (fun _ => []) s.dlyUse d.idx (s.dlyRecent d ++ [(s.lin d, n)]) }

/-- SYS_DLY_TXUTIL.UTIL: payload over the last 1 ms in units of 0.1 Gb/s, that is of 12,500 bytes per 1 ms (R47). -/
def State.dlyUtil (s : State) (d : Die) : Nat := min 0xFFF (((s.dlyRecent d).map Prod.snd).sum / 12_500)

/-- A transfer of a link class handed to the link by a die, with the next sequence number of its class; the sender holds it until it is
acknowledged (R31). -/
def State.dlySend (s : State) (d : Die) (cls : Nat) (payload : List Byte) : State :=
  let l := Tab.get (fun _ => [0, 0, 0, 0]) s.dlyTx d.idx
  let n := l.getD cls 0
  let s := (s.setDlyWait d (s.dlyWait d ++ [(cls, n, payload)])).dlyCarry d payload.length
  ({ s with dlyTx := Tab.put (fun _ => [0, 0, 0, 0]) s.dlyTx d.idx (l.set cls (n + 1)) }).emit (.duolay d cls n payload)

/-- Transfers of a die's retry buffer put on the link again, with their numbers (R31, R34). -/
def State.dlyResend (s : State) (d : Die) : List (Nat × Nat × List Byte) → State
  | [] => s
  | x :: t => ((s.dlyCarry d x.2.2.length).emit (.duolay d x.1 x.2.1 x.2.2)).dlyResend d t

/-- The acknowledgement of a transfer: its sender holds it no longer (R31). -/
def State.dlyAck (s : State) (d : Die) (cls n : Nat) : State :=
  s.setDlyWait d ((s.dlyWait d).filter fun x => !(x.1 = cls && x.2.1 = n))

/-- A frame and its tail status as a transfer's payload (R200): the model's own layout (log entry 7).  An FCS to be sent unchanged goes with
it (R201), as do the descriptor it answers (R240) and the port a reply leaves through (R223). -/
def encodeFrm (f : Frm) (bad : Bool) : List Byte :=
  let flag (b : Bool) : List Byte := [if b then 1 else 0]
  [BitVec.ofNat 8 0, BitVec.ofNat 8 f.tc, BitVec.ofNat 8 f.rate, if bad then 1 else 0, BitVec.ofNat 8 f.colour,
    if f.vtag then 1 else 0, if f.dei then 1 else 0] ++ leBytes 2 f.vid ++ leBytes 1 f.pcp ++ leBytes 4 f.handle ++
    leBytes 2 (match f.sid with | some n => n + 1 | none => 0) ++ leBytes 6 f.stamp.sec ++ leBytes 4 f.stamp.ns ++ leBytes 4 f.stamp.frac ++
    (match f.stag with
     | some t => [1, if t.seqv then 1 else 0, if t.cm then 1 else 0] ++ leBytes 2 t.seq ++ leBytes 2 t.flow
     | none => [0, 0, 0, 0, 0, 0, 0]) ++
    flag f.rsq ++ flag f.raw ++ leBytes 4 f.plink ++ leBytes 1 (match f.outPort with | some n => n + 1 | none => 0) ++
    leBytes 5 (match f.fcs with | some n => n + 1 | none => 0) ++
    (match f.tx with
     | some (h, ws) => [1] ++ leBytes 4 h ++ wordBytes ((List.range 4).map fun i => ws.getD i 0)
     | none => List.replicate 21 0) ++ leBytes 2 f.epoch ++ f.bytes

/-- The frame a payload carries, and whether its tail status is BAD. -/
def decodeFrm (p : List Byte) : Frm × Bool :=
  let at_ (i n : Nat) : Nat := ofLe ((p.drop i).take n)
  let opt (n : Nat) : Option Nat := if n = 0 then none else some (n - 1)
  ({ bytes := p.drop 72, tc := byteAt p 1, rate := byteAt p 2, colour := byteAt p 4, vtag := byteAt p 5 = 1, dei := byteAt p 6 = 1,
     vid := at_ 7 2, pcp := byteAt p 9, handle := at_ 10 4, sid := opt (at_ 14 2),
     stamp := { sec := at_ 16 6, ns := at_ 22 4, frac := at_ 26 4 }, crossed := true, ingress := 15,
     stag := if byteAt p 30 = 1 then some { seqv := byteAt p 31 = 1, cm := byteAt p 32 = 1, seq := at_ 33 2, flow := at_ 35 2 } else none,
     rsq := byteAt p 37 = 1, raw := byteAt p 38 = 1, plink := at_ 39 4, outPort := opt (at_ 43 1), fcs := opt (at_ 44 5),
     tx := if byteAt p 49 = 1 then some (at_ 50 4, bytesWords ((p.drop 54).take 16)) else none, epoch := at_ 70 2 },
   byteAt p 3 = 1)

end Sys2Proof.Machine
end

