-- ==== Sys2Proof/Machine/Replies.lean ====
section
/-! DEFINITION. Replies of the Command Interpreter and their way through the mailbox (R132, R133, R136, R139, R174 to R176). -/

namespace Sys2Proof.Machine

/-- Status codes (R132). -/
def stOK : Nat := 0x0000
def stACCEPTED : Nat := 0x0001
def stBAD_OPCODE : Nat := 0x0010
def stBAD_PARAM : Nat := 0x0011
def stBAD_LENGTH : Nat := 0x0012
def stBAD_CRC : Nat := 0x0013
def stNO_RESOURCE : Nat := 0x0020
def stOVERCOMMIT : Nat := 0x0021
def stDENIED : Nat := 0x0030
def stUNDER_TEST : Nat := 0x0040
def stFENCED : Nat := 0x0041
def stDOMAIN_OFF : Nat := 0x0050
def stTIMEOUT : Nat := 0x0060

/-- The command channel `ch` of a die: 0 to 31 are mailbox channels, 32 to 39 in-band. -/
def State.chan (s : State) (d : Die) (ch : Nat) : Chan := Tab.get (fun _ => {}) s.chans (d.idx * 40 + ch)

/-- The state with a command channel replaced. -/
def State.setChan (s : State) (d : Die) (ch : Nat) (c : Chan) : State :=
  { s with chans := Tab.put (fun _ => {}) s.chans (d.idx * 40 + ch) c }

/-- The interpreter of a die. -/
def State.interpOf (s : State) (d : Die) : Interp := Tab.get (fun _ => {}) s.interp d.idx

/-- The state with a die's interpreter replaced, and CMD_STAT.QDEPTH with it. -/
def State.setInterp (s : State) (d : Die) (i : Interp) : State :=
  ({ s with interp := Tab.put (fun _ => {}) s.interp d.idx i }).setFld (R.CMD_STAT d) 0 8
    (min (i.urgent.length + i.normal.length) 255)

/-- The die whose interpreter interprets the commands of a die's channels (R137). -/
def State.interpDie (s : State) (d : Die) : Die :=
  if s.linkUp then (if s.flag (R.CMD_STAT .d0) 8 then .d0 else .d1) else d

/-- The current command epoch as an interpreter knows it (R134). -/
def State.cmdEpoch (s : State) (d : Die) : Nat := s.fld (R.CMD_STAT d) 16 16

/-- A packet with its CRC word (R125, R128, R132). -/
def sealPacket (ws : List Word) : List Word := ws ++ [wd (crc32c (wordBytes ws))]

/-- A reply packet (R132). -/
def replyPacket (status : Nat) (final async dup : Bool) (op detail seq epoch : Nat) (tag : Word) (ws : List Word) : List Word :=
  sealPacket ([wd (status + (if final then 0x1_0000 else 0) + (if async then 0x2_0000 else 0) + (if dup then 0x4_0000 else 0)
      + (ws.length + 5) * 0x100_0000),
    tag, wd (op + detail * 0x1_0000), wd (seq + epoch * 0x1_0000)] ++ ws)

/-- The in-band frame that carries a reply: to the command's source address, from CMD_IB_MAC, EtherType 0x88B5, type 2 (R144). -/
def inbandFrame (s : State) (d : Die) (src : Nat) (ws : List Word) : List Byte :=
  leBytes 6 src ++ leBytes 4 (s.getReg (R.CMD_IB_MAC_LO d)).toNat ++ leBytes 2 (s.getReg (R.CMD_IB_MAC_HI d)).toNat ++
    [0x88, 0xB5, 1, 2, 0, 0] ++ wordBytes ws

/-- An in-band reply of a die leaves through the port its command arrived on, across the link where that is the other die's; a port that is
down takes none (R144, R222, R223). -/
def State.sendInband (s : State) (d : Die) (ib : IbFrom) (ws : List Word) : State :=
  let e := if ib.die = d then ib.port else 15
  if !s.portUp d e then s.count (R.SW_FLUSH d e)
  else s.enqMgmt d e { bytes := inbandFrame s d ib.src ws, ingress := 16, stamp := s.now d, raw := true,
                       outPort := if ib.die = d then none else some ib.port }

/-- REPLY on the receiver of a channel's owner: at once on the channel's own die, carried over otherwise (R179). -/
def State.raiseReply (s : State) (d : Die) (owner : Nat) : State :=
  match ownerReceiver owner with
  | some (e, r) => if e = d then s.dblSet d r (maskOf dblREPLY 1) else s.dblQueue e r (maskOf dblREPLY 1)
  | none => s

/-- The next part of the waiting replies of a mailbox channel moved into MBX_OUT while OUT_VALID is 0: up to 16 words of one
reply, OUT_COUNT, OUT_VALID and REPLY (R175). -/
def State.pump (s : State) (d : Die) (ch : Nat) : State :=
  let c := s.chan d ch
  let st := R.MBX_CH_STAT d ch
  if s.flag st 8 then s else
  match c.replies with
  | [] => s
  | r :: rest =>
    let part := r.take 16
    let more := r.drop 16
    let s := s.setChan d ch { c with replies := if more = [] then rest else more :: rest }
    let s := (List.range 16).foldl (fun s i => match part[i]? with | some w => s.setReg (R.MBX_OUT d ch i) w | none => s) s
    let s := (s.setFld st 16 5 part.length).setFlag st 8 true
    s.raiseReply d (s.fld st 29 3)

/-- A reply packet sent on a command's channel: discarded and counted when the channel has been released since, sent as a frame
on an in-band channel, else queued for MBX_OUT (R144, R175, R176). -/
def State.sendPacket (s : State) (d : Die) (ch gen : Nat) (ib : IbFrom) (pkt : List Word) : State :=
  let c := s.chan d ch
  if ch ≥ 32 then s.sendInband d ib pkt
  else if c.gen ≠ gen then s.countBy (R.MBX_CH_DROP d ch) pkt.length
  else (s.setChan d ch { c with replies := c.replies ++ [pkt] }).pump d ch

/-- Counters and events a status brings: DENIED and TMO (R139, R153). -/
def State.statusEvent (s : State) (d : Die) (status : Nat) : State :=
  let i := s.interpDie d
  if status = stDENIED then (s.count (R.CMD_CNT_DENIED i)).event i (R.CMD_EVENT i) 5 dblCMD
  else if status = stTIMEOUT then (s.count (R.CMD_CNT_TMO i)).event i (R.CMD_EVENT i) 4 dblCMD
  else if status = stBAD_CRC then (s.count (R.CMD_CNT_CRC i)).event i (R.CMD_EVENT i) 0 dblCMD
  else s

/-- A reply of an accepted command, which does not cross a link that is down (R137; log entry 93); kept as the latest reply of the channel's last command, for duplicates (R133). -/
def State.reply (s : State) (c : HostCmd) (status : Nat) (final async : Bool) (detail : Nat) (ws : List Word) : State :=
  let e := s.cmdEpoch (s.interpDie c.die)
  let pkt := replyPacket status final async false c.op detail c.seq e c.tag ws
  let k := s.chan c.die c.ch
  let s := if s.fld (R.CMD_CH_STAT c.die c.ch) 16 16 = c.seq ∧ k.gen = c.gen then
    s.setChan c.die c.ch { k with lastReply := pkt } else s
  let s := s.statusEvent c.die status
  let d := s.interpDie c.die
  let s := if final then s.setInterp d { s.interpOf d with exposed := (s.interpOf d).exposed ++ [c.tag] } else s
  let s := if final ∧ k.gen = c.gen then
    s.setFld (R.CMD_CH_STAT c.die c.ch) 0 4 (s.fld (R.CMD_CH_STAT c.die c.ch) 0 4 - 1) else s
  if !s.linkUp ∧ c.taker ≠ c.die then s else s.sendPacket c.die c.ch c.gen c.ib pkt

/-- A final reply of a synchronous command, or a refusal. -/
def State.finish (s : State) (c : HostCmd) (status detail : Nat) (ws : List Word) : State :=
  s.reply c status true false detail ws

/-- An asynchronous command accepted: the interim reply, and the command kept until its completion (R139). -/
def State.accept (s : State) (c : HostCmd) : State :=
  let s := s.reply c stACCEPTED false false 0 []
  let d := s.interpDie c.die
  let i := s.interpOf d
  s.setInterp d { i with async := i.async ++ [c] }

/-- The completion of an asynchronous command: FINAL and ASYNC set, the command no longer outstanding; one that has ended already, by
its bound, sends nothing more (R139). -/
def State.complete (s : State) (c : HostCmd) (status detail : Nat) (ws : List Word) : State :=
  if !((s.interpOf .d0).async ++ (s.interpOf .d1).async).contains c then s else
  let drop (s : State) (d : Die) : State :=
    s.setInterp d { s.interpOf d with async := (s.interpOf d).async.filter fun x => x ≠ c }
  ((drop (drop s .d0) .d1)).reply c status true true detail ws

/-- Every asynchronous command accepted and not completed, of both interpreters. -/
def State.asyncCmds (s : State) : List HostCmd := (s.interpOf .d0).async ++ (s.interpOf .d1).async

/-- The first asynchronous command of an opcode that satisfies `p`. -/
def State.findAsync (s : State) (op : Nat) (p : HostCmd → Bool) : Option HostCmd :=
  s.asyncCmds.find? fun c => c.op = op && p c

/-- TARGET fields of a command (R127). -/
def HostCmd.cls (c : HostCmd) : Nat := bits c.target 0 8
def HostCmd.tdie (c : HostCmd) : Die := dieOf (bits c.target 8 1)
def HostCmd.index (c : HostCmd) : Nat := bits c.target 16 16

/-- Dies that a command for the device or for one die concerns: of the device, those its interpreter reaches (R127, R137). -/
def State.dies (s : State) (c : HostCmd) : List Die :=
  if c.cls ≠ 0 then [c.tdie] else if s.linkUp then [.d0, .d1] else [s.interpDie c.die]

/-- The per-die index of a command's target: device-wide numbers less the die's first (R17, R127). -/
def HostCmd.unit (c : HostCmd) : Nat :=
  let i := c.index
  match c.cls with
  | 2 => i % 24
  | 3 => i % 2
  | 4 => i % 12
  | 5 => i % 2
  | 6 => i % 4
  | 7 => i % 16
  | _ => i

/-- The MAC number of a command's target port (R19). -/
def HostCmd.mac (c : HostCmd) : Nat := if c.cls = 5 then 12 + c.unit else c.unit

/-- Parameter word `i` of a command, 0 beyond the last. -/
def HostCmd.par (c : HostCmd) (i : Nat) : Word := c.params.getD i 0

end Sys2Proof.Machine
end

