-- ==== Sys2Proof/Machine/Units.lean ====
section
/-! DEFINITION. The testable units of a die: their states with the registers that show them (R513, R519, R520, R536), the fault
of a unit, its return, and the discarding of fenced outputs every consumer shares (R520). -/

namespace Sys2Proof.Machine

/-- Number of units of a class on a die (R127, R513); bank groups, stream FIFOs and mailbox channels among them. -/
def unitCount (d : Die) (cls : Nat) : Nat :=
  match cls with
  | 2 => 24
  | 3 => 2
  | 4 => 12
  | 5 => 2
  | 6 => 4
  | 7 => 16
  | 8 => if d = .d0 then 1 else 0
  | 9 => 64
  | 10 => 17
  | 11 => 32
  | 12 => 32
  | _ => 0

/-- Units of a die in a state for which `p` holds. -/
def State.unitsIn (s : State) (d : Die) (p : Nat → Bool) : Nat :=
  (s.units.filter fun e => decide (e.1 / 8192 = d.idx) && p e.2.st).length

/-- The out-of-service bit of a unit in the HLT and FIO registers (R477, R536). -/
def State.showOos (s : State) (d : Die) (cls idx : Nat) (b : Bool) : State :=
  match cls with
  | 2 => s.setFlag (R.HLT_OOS_CE d) idx b
  | 3 => s.setFlag (R.HLT_OOS_MISC d) (18 + idx) b
  | 4 => s.setFlag (R.HLT_OOS_MISC d) idx b
  | 5 => s.setFlag (R.HLT_OOS_MISC d) (12 + idx) b
  | 6 => s.setFlag (R.HLT_OOS_MISC d) (14 + idx) b
  | 8 => s.setFlag (R.HLT_OOS_MISC d) 20 b
  | 9 => if idx < 32 then s.setFlag (R.HLT_OOS_CMP_LO d) idx b else s.setFlag (R.HLT_OOS_CMP_HI d) (idx - 32) b
  | _ => s

/-- A unit's state of R513, with the registers that show it and the events of leaving and returning to service (R536). -/
def State.setUnitSt (s : State) (d : Die) (cls idx st : Nat) : State :=
  let u := s.hunit d cls idx
  let s := (s.setUnit d cls idx { u with st := st }).showOos d cls idx (decide (st ≠ 0))
  let s := (s.setFld (R.HLT_STAT d) 8 8 (min 255 (s.unitsIn d fun x => decide (x ≠ 0)))).setFld (R.HLT_STAT d) 16 8
    (min 255 (s.unitsIn d fun x => decide (x = 3)))
  let s := if cls = 8 then (s.setFlag (R.FIO_STAT .d0) 2 (decide (st = 1))).setFlag (R.FIO_STAT .d0) 3 (decide (2 ≤ st)) else s
  let s := if cls = 2 ∧ st = 0 then (if s.fld (R.CE_STAT d idx) 0 2 = 3 then s.setFld (R.CE_STAT d idx) 0 2 0 else s)
    else if cls = 2 ∧ st ≠ 4 then (s.setFld (R.CE_STAT d idx) 0 2 3).setFlag (R.CE_STAT d idx) 14 false else s
  let s := if cls = 9 then s.setFld (R.PLC_CMP d) 8 7
    (64 - popcount 32 (s.getReg (R.HLT_OOS_CMP_LO d)).toNat - popcount 32 (s.getReg (R.HLT_OOS_CMP_HI d)).toNat) else s
  if u.st = 0 ∧ st ≠ 0 then s.event d (R.HLT_EVENT d) 4 dblHLT
  else if u.st ≠ 0 ∧ st = 0 then s.event d (R.HLT_EVENT d) 5 dblHLT
  else s

/-- Whether the CAN controllers, stencils and stream FIFOs of a die run: their clocks are gated from P2 on (R496). -/
def State.unitsRun (s : State) (d : Die) : Bool := decide (s.powerEff d ≤ 1)

/-- The epoch of a unit that CAN_OWNER and STN_OWNER show (R519). -/
def State.showEpoch (s : State) (d : Die) (cls idx e : Nat) : State :=
  match cls with
  | 6 => s.setFld (R.CAN_OWNER d idx) 16 16 e
  | 7 => s.setFld (R.STN_OWNER d idx) 16 16 e
  | _ => s

/-! ## Fencing (R520) -/

/-- `k` outputs of a unit discarded for a stale epoch: counted, FENCED set, logged at most once per second with the count. -/
def State.fenceDiscard (s : State) (d : Die) (cls idx k : Nat) : State :=
  if k = 0 then s else
  let u := s.hunit d cls idx
  let s := (s.countBy (R.HLT_CNT_FENCED d) k).event d (R.HLT_EVENT d) 10 dblHLT
  if u.fenceSec = some (s.now d).sec then s.setUnit d cls idx { u with fencedOut := u.fencedOut + k }
  else (s.logUnit d 0x616 2 cls idx (u.fencedOut + k)).setUnit d cls idx { u with fencedOut := 0, fenceSec := some (s.now d).sec }

/-! ## Entries of a replaced source (R72) -/

/-- The hidden side of a stream FIFO. -/
def State.sfqOf (s : State) (d : Die) (n : Nat) : Sfq := Tab.get (fun _ => {}) s.sfq (d.idx * 32 + n)

/-- The state with a FIFO replaced, and LEVEL, FULL, PKT_OPEN and its SFQ_NONEMPTY bit with it (R85). -/
def State.showSfq (s : State) (d : Die) (n : Nat) (q : Sfq) : State :=
  let s := { s with sfq := Tab.put (fun _ => {}) s.sfq (d.idx * 32 + n) q }
  let a := R.SFQ_STAT d n
  let s := ((s.setFld a 0 7 q.entries.length).setFlag a 9 (decide (q.entries.length ≥ 64))).setFlag a 8 q.pkt.isSome
  s.setFlag (R.SFQ_NONEMPTY d) n (decide (q.entries ≠ []))

/-- The source of a FIFO as a testable unit: a stencil or a CAN controller (R85). -/
def State.sfqSource (s : State) (d : Die) (n : Nat) : Nat × Nat :=
  let src := s.fld (R.SFQ_CTRL d n) 4 5
  if src < 16 then (7, src) else (6, src - 16)

/-- Epoch accepted from a FIFO's source (R520). -/
def State.sfqAccepted (s : State) (d : Die) (n : Nat) : Nat :=
  (s.hunit d (s.sfqSource d n).1 (s.sfqSource d n).2).accepted

/-- Entries that carry an epoch the FIFO no longer accepts discarded and counted, an open word and an open packet among them (R72, R81). -/
def State.sfqPurge (s : State) (d : Die) (n : Nat) : State :=
  let q := s.sfqOf d n
  let acc := s.sfqAccepted d n
  let keep := q.entries.filter fun e => e.epoch = acc
  let wordGone := decide (q.lanes ≠ []) && decide (q.laneEpoch ≠ acc)
  let pktGone : Bool := match q.pkt with | some p => decide (p.epoch ≠ acc) | none => false
  if keep.length = q.entries.length ∧ !wordGone ∧ !pktGone then s
  else
    let headGone : Bool := match q.entries with | e :: _ => e.len && decide (e.epoch ≠ acc) | [] => false
    let q' := { q with entries := keep, lanes := if wordGone then [] else q.lanes, pkt := if pktGone then none else q.pkt }
    let q' := if headGone ∧ q.lenPos.isSome then { q' with lenPos := none, drainPos := s.fld (R.SFQ_WPTR d n) 0 20 } else q'
    (s.showSfq d n q').fenceDiscard d (s.sfqSource d n).1 (s.sfqSource d n).2 (q.entries.length - keep.length + (if wordGone then 1 else 0))

/-- The FIFOs a CAN controller or a stencil feeds purged: its accepted epoch has advanced (R72). -/
def State.sourcePurge (s : State) (d : Die) (cls idx : Nat) : State :=
  if cls ≠ 6 ∧ cls ≠ 7 then s
  else (List.range 32).foldl (fun s n => if s.sfqSource d n = (cls, idx) then s.sfqPurge d n else s) s

/-- A unit returns to service: its epoch advances, and its consumers' with it, or to it after a fault (R519, R520); logged as
0x606 with the new epoch. -/
def State.unitReturn (s : State) (d : Die) (cls idx : Nat) : State :=
  let e := nextEpoch (s.hunit d cls idx).epoch
  let s := s.setUnitSt d cls idx 0
  let s := s.setUnit d cls idx { s.hunit d cls idx with epoch := e, accepted := e }
  ((s.showEpoch d cls idx e).logUnit d 0x606 1 cls idx e).sourcePurge d cls idx

/-- Opcodes of HLT_TEST and HLT_SERVICE (R147). -/
def opTEST : Nat := 0x0600
def opSERVICE : Nat := 0x0601

/-- The health command at work on a unit, if any. -/
def State.healthCmd (s : State) (d : Die) (cls idx : Nat) : Option HostCmd :=
  s.asyncCmds.find? fun c => (c.op = opTEST || c.op = opSERVICE) && c.cls = cls && decide (c.tdie = d) && c.unit = idx

/-- Whether a die's test is on a unit (HLT_TEST_STAT). -/
def State.testingUnit (s : State) (d : Die) (cls idx : Nat) : Bool :=
  s.flag (R.HLT_TEST_STAT d) 15 && s.fld (R.HLT_TEST_STAT d) 0 4 = cls && s.fld (R.HLT_TEST_STAT d) 16 16 = unitNum d cls idx

/-- A test in progress ends without a verdict: idle again, with the registers of the last test (R518, R536): RESULT 3. -/
def State.testOff (s : State) (d : Die) (cls idx res : Nat) : State :=
  let s := s.setReg (R.HLT_TEST_STAT d) 0
  let s := s.setReg (R.HLT_TEST_LAST d) (wd (unitNum d cls idx * 0x1_0000 + res * 0x100 + cls))
  let u := s.hunit d cls idx
  s.setUnit d cls idx { u with result := res, lastS := (s.now d).sec % 0x1_0000_0000, held := 0, hard := false }

/-- A unit fault is declared: a test on it ends without a verdict (R570), the unit is fenced with its consumers at the next epoch
(R520), the fault counts, and the planner has a rank-1 event (R116). -/
def State.unitFault (s : State) (d : Die) (cls idx : Nat) : State :=
  let u := s.hunit d cls idx
  if u.st = 4 then s else
  let s := if u.st = 1 ∨ s.testingUnit d cls idx then
      let s := (((s.testOff d cls idx 3).count (R.HLT_CNT_TEST_ABORT d)).event d (R.HLT_EVENT d) 2 dblHLT).logUnit d 0x603 1 cls idx 0
      match s.healthCmd d cls idx with
      | some c => s.complete c stFENCED 0 []
      | none => s
    else s
  let s := s.setUnitSt d cls idx 4
  let u := s.hunit d cls idx
  let s := s.setUnit d cls idx { u with accepted := nextEpoch u.epoch, faults := min 65535 (u.faults + 1) }
  ((s.count (R.HLT_LIFE_FAULTS d)).plan d (.unitFault cls idx)).sourcePurge d cls idx

/-- A test given up for service requests: counted and logged, and the unit returns without a verdict; a host's test counts one more restart
(R513, R518, R519). -/
def State.testAbort (s : State) (d : Die) (cls idx : Nat) : State :=
  if (s.hunit d cls idx).st ≠ 1 then s else
  let s := (((s.testOff d cls idx 3).count (R.HLT_CNT_TEST_ABORT d)).event d (R.HLT_EVENT d) 2 dblHLT).logUnit d 0x603 1 cls idx 0
  let s := s.unitReturn d cls idx
  if (s.healthCmd d cls idx).isSome then s.setUnit d cls idx { s.hunit d cls idx with tries := (s.hunit d cls idx).tries + 1 } else s

/-- A per-function reset noted in the event log, which is all that records it; DETAIL, a cause code, has none stated: a free value (R479,
R490, R522). -/
def State.fnReset (s : State) (d : Die) (cls idx : Nat) : State := s.drawn.logUnit d 0x805 1 cls idx s.freeNow.toNat

/-- An engine of a ready die is in service (R94 CE_COUNT, R485); at start-up a die counts while its intents are restored. -/
def State.ceUsable (s : State) (d : Die) (k : Nat) : Bool :=
  (s.running d || (s.rst.restoring && decide (1 ≤ s.fld (R.RST_STAT d) 0 2))) && decide ((s.hunit d 2 k).st = 0) && decide (s.fld (R.CE_STAT d k) 0 2 < 2)

/-- Instances an engine holds (PLC_CE.NINST). -/
def State.ceInst (s : State) (d : Die) (k : Nat) : Nat := s.fld (R.PLC_CE d k) 2 6

/-- PLC_CE of an engine as it reads: COMMIT and NINST as the ledger holds them, STATE 3 out of service, 2 halted, 0 empty or 1 in use as the
engine now is (R124). -/
def State.ceShown (s : State) (d : Die) (k : Nat) : Word :=
  setBits (s.getReg (R.PLC_CE d k)) 0 2
    (if s.fld (R.CE_STAT d k) 0 2 = 2 then 2 else if !s.ceUsable d k then 3 else if s.ceInst d k = 0 then 0 else 1)

end Sys2Proof.Machine
end

