-- ==== Sys2Proof/Machine/Pool.lean ====
section
/-! DEFINITION. The banks of the shared pool (R53 to R66): arbitration, scrubbing and retention. -/

namespace Sys2Proof.Machine

/-! ## One pool cycle of a bank (R53 to R55) -/

/-- Distance of a port from the round-robin pointer. -/
def rrDist (p port : Nat) : Nat := (port + 16 - p % 16) % 16

/-- The request served first: the nearest port from the pointer, and of one port the oldest (R52, R53). -/
def rrPick (p : Nat) : List PoolReq → Option PoolReq
  | [] => none
  | r :: t => match rrPick p t with
    | none => some r
    | some x => if rrDist p x.port < rrDist p r.port then some x else some r

/-- Bytes a request covers. -/
def reqSize (r : PoolReq) : Nat := if r.isWr then r.wr.length else r.rd

/-- Whether two requests touch the same 64-bit word (R54, R55). -/
def sameWord (a b : PoolReq) : Bool :=
  decide (a.addr / 8 < b.addr / 8 + wordSpan b.addr (reqSize b)) && decide (b.addr / 8 < a.addr / 8 + wordSpan a.addr (reqSize a))

/-- A granted request performed, its result put on its port (R50). -/
def State.poolDo (s : State) (d : Die) (r : PoolReq) : State :=
  if r.isWr then
    match s.poolWrite d r.port r.addr r.wr with
    | (.ok _, t) => t.emit (.pool d r.port r.addr .done)
    | (.error c, t) => t.emit (.pool d r.port r.addr (.refused c))
  else
    match s.poolRead d r.port r.addr r.rd with
    | (.ok bs, t) => t.emit (.pool d r.port r.addr (.data (bytesWords bs)))
    | (.error c, t) => t.emit (.pool d r.port r.addr (.refused c))

/-- The requests waiting at a bank. -/
def State.waiting (s : State) (d : Die) (b : Nat) : List PoolReq := Tab.get (fun _ => []) s.bankQ (bankKey d b)

/-- The state with a bank's waiting requests replaced. -/
def State.setWaiting (s : State) (d : Die) (b : Nat) (q : List PoolReq) : State :=
  { s with bankQ := Tab.put (fun _ => []) s.bankQ (bankKey d b) q }

/-- What a bank carries into its next pool cycle. -/
def State.holdOf (s : State) (d : Die) (b : Nat) : BankHold := Tab.get (fun _ => {}) s.bankHold (bankKey d b)

/-- The state with it replaced. -/
def State.setHold (s : State) (d : Die) (b : Nat) (h : BankHold) : State :=
  { s with bankHold := Tab.put (fun _ => {}) s.bankHold (bankKey d b) h }

/-- Whether a request is a partial-word write, which holds its side of the bank for two cycles (R51, R53, R54). -/
def twoCycles (r : PoolReq) : Bool := r.isWr && decide (partialWords r.addr r.wr ≠ [])

/-- What one pool cycle of a bank serves, and the write that it holds for the next: first a write held from the cycle before, then the next
in round-robin order; a single-port bank has one side, a dual-port bank two for different ports, less the sides that partial-word writes
still occupy; of two writes to one word the second is held (R51, R53, R54). -/
def bankServes (dual : Bool) (ptr : Nat) (h : BankHold) (q : List PoolReq) : List PoolReq × Option PoolReq :=
  let sides := (if dual then 2 else 1) - h.busy.length
  let q := q.filter fun r => !h.busy.contains r.port
  if sides = 0 then ([], h.held)
  else match h.held.or (rrPick ptr q) with
    | none => ([], none)
    | some r1 =>
      let others := if h.held.isSome then q else q.erase r1
      let free := others.filter fun r => r.port ≠ r1.port
      match (if sides < 2 then none else rrPick (r1.port + 1) free) with
      | none => ([r1], none)
      | some r2 => if r1.isWr ∧ r2.isWr ∧ sameWord r1 r2 then ([r1], some r2) else ([r1, r2], none)

/-- One pool cycle of a bank over the requests that wait; of a read and a write of the same cycle the read goes first, and the bank's pointer
stands above the last one served.  A cycle in which a request waits behind another port's counts in POOL_CONFLICT (R53, R54, R64, R84). -/
def State.bankCycle (s : State) (d : Die) (b : Nat) : State :=
  let q := s.waiting d b
  if s.groupOff d (b / 16) then
    (q.foldl (fun s r => s.poolDo d r) s).setWaiting d b []
  else
    let h := s.holdOf d b
    let (go, held) := bankServes (dualPort b) (Tab.get (fun _ => 0) s.bankPtr (bankKey d b)) h q
    let rest := (match held with | some r => (go.foldl List.erase q).erase r | none => go.foldl List.erase q)
    let wait := rest ++ held.toList
    let holders := h.busy ++ go.map fun r => r.port
    let s := if wait.any fun r => holders.any fun p => p ≠ r.port then s.count (R.POOL_CONFLICT d) else s
    let s := (s.setWaiting d b rest).setHold d b { held := held, busy := (go.filter twoCycles).map fun r => r.port }
    let s := ((go.filter fun r => !r.isWr) ++ go.filter fun r => r.isWr).foldl (fun s r => s.poolDo d r) s
    match go.getLast? with
    | some r => s.setPtr d b (r.port + 1)
    | none => s

/-- Bit errors that have struck words of a bank since: the word's index in the bank, and whether two bits flipped (R57). -/
def State.strike (s : State) (d : Die) (b : Nat) : List (Nat × Bool) → State
  | [] => s
  | (i, dbl) :: t =>
    let w := wordNo d (bankBase b + i % (bankLines b * 8) * 8)
    (s.setEcc w (if dbl ∨ s.eccAt w ≠ 0 then 2 else 1)).strike d b t

/-! ## Scrubbing (R60) -/

/-- One bank's pass noted; PASSES advances when every bank of the die has been passed (R84). -/
def State.scrubPassed (s : State) (d : Die) (b : Nat) : State :=
  let oos := (List.range 272).foldl (fun acc i => if s.bankOos d i then acc ||| 2 ^ i else acc) 0
  let m := Tab.get (fun _ => 0) s.scrubDone d.idx ||| 2 ^ b
  if m ||| oos = 2 ^ 272 - 1 then
    { s.wrapFld (R.POOL_SCRUB d) 0 16 with scrubDone := Tab.put (fun _ => 0) s.scrubDone d.idx 0 }
  else { s with scrubDone := Tab.put (fun _ => 0) s.scrubDone d.idx m }

/-- The scrubber's step past the line it has read. -/
def State.scrubNext (s : State) (d : Die) (b : Nat) : State :=
  let p := Tab.get (fun _ => 0) s.scrubPos (bankKey d b)
  let s := { s with scrubPos := Tab.put (fun _ => 0) s.scrubPos (bankKey d b) ((p + 1) % bankLines b) }
  if p + 1 = bankLines b then s.scrubPassed d b else s

/-- Address of the line the scrubber reads next in a bank. -/
def State.scrubAddr (s : State) (d : Die) (b : Nat) : Nat := bankBase b + Tab.get (fun _ => 0) s.scrubPos (bankKey d b) * 64

/-- Single-bit errors of `n` words from `a` corrected in place; a write-back that was pending for one of them is done with it. -/
def State.eccFix (s : State) (d : Die) (a : Nat) : Nat → State
  | 0 => s
  | n + 1 =>
    let s := if s.eccAt (wordNo d a) = 1 then s.setEcc (wordNo d a) 0 else s
    (if s.wbOf d (bankOf a) = wordNo d a + 1 then s.setWb d (bankOf a) 0 else s).eccFix d (a + 8) n

/-- The pending write-back of a bank done: the corrected word is stored (R58). -/
def State.writeBack (s : State) (d : Die) (b : Nat) : State :=
  match s.wbOf d b with
  | 0 => s
  | w + 1 => (if s.eccAt w = 1 then s.setEcc w 0 else s).setWb d b 0

/-- What a group still has to finish before its supply goes down: granted requests that wait for their cycle and pending write-backs (R65,
entering, step 2). -/
def State.groupSettle (s : State) (d : Die) (g : Nat) : State :=
  (List.range 16).foldl (fun s j =>
    let b := 16 * g + j
    let s := match (s.holdOf d b).held with
      | some r => (s.setHold d b {}).poolDo d r
      | none => s
    s.writeBack d b) s

/-- Every line of a bank scrubbed once: the priority pass of R65. -/
def State.scrubLines (s : State) (d : Die) (b : Nat) : Nat → State
  | 0 => s
  | n + 1 =>
    let a := bankBase b + (bankLines b - (n + 1)) * 64
    (((s.eccScan d 0 true a 8).2).eccFix d a 8).scrubLines d b n

/-! ## Retention (R62 to R65) -/

/-- Whether a group holds something R63 protects: a committed placement, a context or a device structure; the first such bank. -/
def State.retainBlock (s : State) (d : Die) (g : Nat) : Option Nat :=
  (List.range 16).map (fun j => 16 * g + j) |>.find? fun b =>
    s.flag (R.PLC_BANK d b) 31 || s.flag (R.PLC_BANK d b) 30 || decide (s.fld (R.PLC_BANK d b) 0 24 ≠ 0)
      || ((List.range 32).any fun n => s.sfqBufOn d n b)

/-- Whether a group is between states. -/
def State.groupMoving (s : State) (d : Die) (g : Nat) : Bool :=
  s.flag (R.POOL_RET_WAKE d) g || (Tab.get (fun _ => 0) s.retEnter d.idx).testBit g

/-- A group starts to enter retention or to wake (R65, step 1 of each table); what was granted and the pending write-backs of a group that
enters complete within 32 pool cycles, here at once. -/
def State.groupStart (s : State) (d : Die) (g : Nat) (enter : Bool) : State :=
  if enter then
    let s := s.groupSettle d g
    { s with retEnter := Tab.put (fun _ => 0) s.retEnter d.idx (Tab.get (fun _ => 0) s.retEnter d.idx ||| 2 ^ g) }
  else s.setFlag (R.POOL_RET_WAKE d) g true

/-- The groups of a POOL_RETAIN mask. -/
def retainGroups (c : HostCmd) : List Nat := (List.range 17).filter fun g => (c.par 0).toNat.testBit g

/-- Whether a group already stands as a POOL_RETAIN asks. -/
def State.groupDone (s : State) (d : Die) (enter : Bool) (g : Nat) : Bool :=
  !s.groupMoving d g && decide (s.flag (R.POOL_RET_STAT d) g = enter)

/-- One POOL_RETAIN carried on: groups out of transition that do not stand as asked start, R63 checked at that moment; when all
stand as asked the command completes (R63, R65).  The last two words of the record that refuses are not stated: free values. -/
def State.retainStep (s : State) (c : HostCmd) : State :=
  let enter := bit (c.par 1) 0
  let all := (s.dies c).flatMap fun d => (retainGroups c).map fun g => (d, g)
  let todo := all.filter fun (x : Die × Nat) => !s.groupDone x.1 enter x.2
  if todo = [] then s.complete c stOK 0 []
  else
    let go := todo.filter fun (x : Die × Nat) => !s.groupMoving x.1 x.2
    match (if enter then go.findSome? fun (x : Die × Nat) => (s.retainBlock x.1 x.2).map fun b => (x.1, b) else none) with
    | some (d, b) => s.drawn.drawn.complete c stOVERCOMMIT 0 [wd (4 + d.idx * 0x100 + b * 0x1_0000), 0, s.freeNow, s.drawn.freeNow]
    | none => go.foldl (fun s (x : Die × Nat) => s.groupStart x.1 x.2 enter) s

/-- Every POOL_RETAIN of a die that waits carried on. -/
def State.retainAll (s : State) (d : Die) : State :=
  (s.asyncCmds.filter fun c => c.op = 0x0112 && (s.dies c).contains d).foldl (fun s c => s.retainStep c) s

/-! ## Meanings -/

/-- POOL_ACCESS: requests arrive at a bank, and the bank serves one pool cycle (R50 to R59, R64). -/
def execPoolAccess (d : Die) (bank : Fin 272) (reqs : List PoolReq) (flips : List (Nat × Bool)) (s : State) :
    Host.Outcome State Fault Refusal :=
  .next (((s.strike d bank flips).setWaiting d bank ((s.strike d bank flips).waiting d bank ++ reqs)).bankCycle d bank)

/-- ECC_WRITE_BACK: the corrected word is stored (R58). -/
def execEccWriteBack (d : Die) (bank : Fin 272) (s : State) : Host.Outcome State Fault Refusal :=
  .next (if s.groupOff d (bank.val / 16) ∨ 3 ≤ s.powerEff d then s else s.writeBack d bank)

/-- SCRUB_LINE: the scrubber reads one line in an idle cycle (R60). -/
def execScrubLine (d : Die) (bank : Fin 272) (s : State) : Host.Outcome State Fault Refusal :=
  .next (if s.groupOff d (bank.val / 16) then s
    else ((s.eccScan d 0 true (s.scrubAddr d bank) 8).2).scrubNext d bank)

/-- SCRUB_FORCED: a forced scrub holds the bank for a read and a conditional write-back (R60). -/
def execScrubForced (d : Die) (bank : Fin 272) (s : State) : Host.Outcome State Fault Refusal :=
  .next (if s.groupOff d (bank.val / 16) then s
    else ((((s.count (R.POOL_SCRUB_STEAL d)).eccScan d 0 true (s.scrubAddr d bank) 8).2).eccFix d (s.scrubAddr d bank) 8).scrubNext d bank)

/-- RETENTION_ENTERED: VSRAM has reached 0.55 V (R65, entering, step 4). -/
def execRetentionEntered (d : Die) (g : Fin 17) (s : State) : Host.Outcome State Fault Refusal :=
  .next (
    let m := Tab.get (fun _ => 0) s.retEnter d.idx
    if m.testBit g.val then
      (({ s with retEnter := Tab.put (fun _ => 0) s.retEnter d.idx (m ^^^ 2 ^ g.val) }).setFlag (R.POOL_RET_STAT d) g true).retainAll d
    else s)

/-- RETENTION_WAKE_DONE: both bits of the group read 0 and it accepts requests; a priority pass is owed (R65, waking, step 3). -/
def execRetentionWakeDone (d : Die) (g : Fin 17) (s : State) : Host.Outcome State Fault Refusal :=
  .next (if s.flag (R.POOL_RET_WAKE d) g then
      let s := (s.setFlag (R.POOL_RET_WAKE d) g false).setFlag (R.POOL_RET_STAT d) g false
      ({ s with retPrio := Tab.put (fun _ => 0) s.retPrio d.idx (Tab.get (fun _ => 0) s.retPrio d.idx ||| 2 ^ g.val) }).retainAll d
    else s)

/-- PRIORITY_SCRUB_PASS: the pass through a woken group (R65, waking, step 4; R66). -/
def execPriorityScrubPass (d : Die) (g : Fin 17) (s : State) : Host.Outcome State Fault Refusal :=
  .next (
    let m := Tab.get (fun _ => 0) s.retPrio d.idx
    if m.testBit g.val ∧ !s.groupOff d g then
      (List.range 16).foldl (fun s j => s.scrubLines d (16 * g.val + j) (bankLines (16 * g.val + j)))
        { s with retPrio := Tab.put (fun _ => 0) s.retPrio d.idx (m ^^^ 2 ^ g.val) }
    else s)

end Sys2Proof.Machine
end

