-- ==== Sys2Proof/Machine/TimeBase.lean ====
section
/-! DEFINITION. The time base of each die (R289 to R322): the tick, steering, steps, compare units, trigger outputs, capture
units and the per-requester reads. -/

namespace Sys2Proof.Machine

/-! ## Advance (R289 to R292, R295) -/

/-- 2^32: one nanosecond in the hidden fraction. -/
def oneNs : Nat := 0x1_0000_0000

/-- The increment for a rate in ppb, in units of 2^-32 ns, rounded to nearest (R291). -/
def incOf (ppb : Int) : Int := (2 * 0x2_0000_0000 * (1_000_000_000 + ppb) + 1_000_000_000) / 2_000_000_000

/-- TB_RATE of a die, signed. -/
def State.rate (s : State) (d : Die) : Int := (s.getReg (R.TB_RATE d)).toInt

/-- The slew rate in force: TB_SLEW_MAX in the direction that consumes the remainder (R295). -/
def State.slewRate (s : State) (d : Die) : Int :=
  let m : Int := (s.fld (R.TB_SLEW_MAX d) 0 14 : Nat)
  if (s.now d).slew > 0 then m else if (s.now d).slew < 0 then -m else 0

/-- The increment of the next tick and the remainder after it: the final tick applies a partial slew, so that the remainder
reaches exactly 0 (R291, R295). -/
def State.nextInc (s : State) (d : Die) : Int × Int :=
  let base := incOf (s.rate d)
  let gain := incOf (s.rate d + s.slewRate d) - base
  let rem := (s.now d).slew
  if gain.natAbs ≥ rem.natAbs then (base + rem, 0) else (base + gain, rem - gain)

/-- Device time from a count of 2^-32 ns since 0 s, the seconds wrapping at 2^48 (R289). -/
def timeOfFrac (x slew : Int) : DevTime :=
  let m : Int := 0x1_0000_0000_0000 * 1_000_000_000 * 0x1_0000_0000
  let y := (x % m).toNat
  { sec := y / oneNs / 1_000_000_000, ns := y / oneNs % 1_000_000_000, frac := y % oneNs, slew := slew }

/-- Device time as a count of 2^-32 ns since 0 s. -/
def DevTime.total (t : DevTime) : Int := ((t.sec * 1_000_000_000 + t.ns) * oneNs + t.frac : Nat)

/-- Device time moved by a count of 2^-32 ns. -/
def DevTime.plus (t : DevTime) (x : Int) : DevTime := if x = 0 then t else timeOfFrac (t.total + x) t.slew

/-- TB_PCOMP of a port: what is added to its receive or its transmit stamps, in 2^-32 ns (R303). -/
def State.pcomp (s : State) (d : Die) (m : Nat) (tx : Bool) : Int := signed 16 (s.fld (R.TB_PCOMP d m) (if tx then 16 else 0) 16) * 0x1000_0000

/-- Receive stamp of a frame whose first bit passed a port's stamping point `age` ns ago, and transmit stamp of one that leaves now (R239, R303). -/
def State.rxStamp (s : State) (d : Die) (m age : Nat) : DevTime := ((s.now d).ago age).plus (s.pcomp d m false)
def State.txStamp (s : State) (d : Die) (m : Nat) : DevTime := (s.now d).plus (s.pcomp d m true)

/-- Whole nanoseconds of a count of 2^-32 ns; how a part of one is shown is open (log entry 12). -/
def wholeNs (x : Int) : Int := if x % oneNs = 0 then x / oneNs else if Config.roundUp x oneNs then x / oneNs + 1 else x / oneNs

/-- One tick of a die's time base (R291). -/
def State.tick (s : State) (d : Die) : State :=
  let (inc, rem) := s.nextInc d
  s.setNow d (timeOfFrac ((s.now d).total + inc) rem)

/-- The block with no command waiting: 2 ns pass, one tick of each time base (log entry 1). -/
def State.idle (s : State) : State := (s.tick .d0).tick .d1

/-- Signed 64-bit difference of linear counts (R290). -/
def sdiff (a b : Nat) : Int := signed 64 ((a + 0x1_0000_0000_0000_0000 - b % 0x1_0000_0000_0000_0000) % 0x1_0000_0000_0000_0000)

/-! ## Events to owners -/

/-- An event to a unit's owner: the bit of CE_EVT when the owner is an engine (R312, R319). -/
def State.ownerEvent (s : State) (d : Die) (owner evt : Nat) : State :=
  if owner < 24 then s.setFlag (R.CE_EVT d owner) evt true else s

/-- A time-base event: its bit in TB_EVENT and doorbell TIME (R322). -/
def State.tbEvent (s : State) (d : Die) (i : Nat) : State := s.event d (R.TB_EVENT d) i dblTIME

/-! ## Cycle triggers (R312, R362) -/

/-- Key of an engine's slot. -/
def slotKey (d : Die) (k n : Nat) : Nat := (d.idx * 24 + k) * 64 + n

/-- The PEND register and bit of a slot (R386). -/
def pendReg (d : Die) (k n : Nat) : Nat := if n < 32 then R.CE_PEND_LO d k else R.CE_PEND_HI d k

/-- Whether a slot is valid. -/
def State.slotValid (s : State) (d : Die) (k n : Nat) : Bool := s.flag (R.CE_SLOT_W0 d k n) 31

/-- The valid slot of an engine that a compare unit starts: the lowest whose CMP names it (R362). -/
def State.slotOfCmp (s : State) (d : Die) (k u : Nat) : Option Nat :=
  firstIdx 63 fun n => s.slotValid d k n && s.flag (R.CE_SLOT_W6 d k n) 22 && decide (s.fld (R.CE_SLOT_W6 d k n) 16 6 = u)

/-- A CE_CYC fire: the slot becomes pending with its deadline; a fire that finds it pending is counted as an overrun, one that
names no valid slot as NOSLOT (R362). -/
def State.cycleTrigger (s : State) (d : Die) (u k : Nat) : State :=
  match s.slotOfCmp d k u with
  | none => s.count (R.CE_CNT_NOSLOT d k)
  | some n =>
    if s.flag (pendReg d k n) (n % 32) then s.count (R.CE_CNT_OVERRUN d k)
    else
      let dl := (s.lin d + (s.getReg (R.CE_SLOT_W5 d k n)).toNat) % 0x1_0000_0000_0000_0000
      let s := s.setFlag (pendReg d k n) (n % 32) true
      { s with ceDeadline := Tab.put (fun _ => 0) s.ceDeadline (slotKey d k n) dl }

/-! ## Trigger outputs (R314 to R316) -/

/-- The idle level of a trigger output: high when INV = 1 (R314). -/
def State.trigIdle (s : State) (d : Die) (n : Nat) : Bool := s.flag (R.TB_TRIG_CFG d n) 14

/-- A fire on one trigger output (R314). -/
def State.trigFire (s : State) (d : Die) (n : Nat) : State :=
  let a := R.TB_TRIG_CFG d n
  if s.flag a 13 then s.setFlag a 0 (!s.flag a 0)
  else
    let s := if Tab.get (fun _ => false) s.trigRun (d.idx * 16 + n) then s.setFlag a 1 true else s
    let s := s.setFlag a 0 (!s.trigIdle d n)
    { s with trigRun := Tab.put (fun _ => false) s.trigRun (d.idx * 16 + n) true }

/-- A fire on every enabled output whose SRC names the unit (R312). -/
def State.trigFireAll (s : State) (d : Die) (u : Nat) : Nat → State
  | 0 => s
  | n + 1 =>
    let a := R.TB_TRIG_CFG d n
    (if s.flag a 15 && decide (s.fld a 16 6 = u) then s.trigFire d n else s).trigFireAll d u n

/-- An output freed: idle level, no owner, no pulse, EN = 0 (R315). -/
def State.trigFree (s : State) (d : Die) (n : Nat) : State :=
  let a := R.TB_TRIG_CFG d n
  let s := ((s.setFld a 24 8 0xFF).setFlag a 15 false).setFlag a 0 (s.trigIdle d n)
  { s with trigRun := Tab.put (fun _ => false) s.trigRun (d.idx * 16 + n) false }

/-- An output at its idle level, no pulse running, until it is re-routed (R316). -/
def State.trigRest (s : State) (d : Die) (n : Nat) : State :=
  { s.setFlag (R.TB_TRIG_CFG d n) 0 (s.trigIdle d n) with trigRun := Tab.put (fun _ => false) s.trigRun (d.idx * 16 + n) false }

/-- An output re-routed to another compare unit and its owner (R316). -/
def State.trigRoute (s : State) (d : Die) (n unit owner : Nat) : State :=
  (s.setFld (R.TB_TRIG_CFG d n) 16 6 unit).setFld (R.TB_TRIG_CFG d n) 24 8 owner

/-- The owned outputs of a die whose SRC names a compare unit. -/
def State.trigsOn (s : State) (d : Die) (u : Nat) : List Nat :=
  (List.range 16).filter fun n => decide (s.fld (R.TB_TRIG_CFG d n) 24 8 ≠ 0xFF) && decide (s.fld (R.TB_TRIG_CFG d n) 16 6 = u)

/-! ## Compare units (R308 to R313) -/

/-- The hidden side of a compare unit. -/
def State.cmpU (s : State) (d : Die) (u : Nat) : CmpU := Tab.get (fun _ => {}) s.cmp (d.idx * 64 + u)

/-- The state with a compare unit's hidden side replaced. -/
def State.setCmpU (s : State) (d : Die) (u : Nat) (c : CmpU) : State :=
  { s with cmp := Tab.put (fun _ => {}) s.cmp (d.idx * 64 + u) c }

/-- The running target of a compare unit. -/
def State.cmpTgt (s : State) (d : Die) (u : Nat) : Nat := s.getPair (R.TB_CMP_TGT_LO d u) (R.TB_CMP_TGT_HI d u)

/-- Whether a compare unit is armed. -/
def State.cmpArmed (s : State) (d : Die) (u : Nat) : Bool := s.flag (R.TB_CMP_STAT d u) 0

/-- A unit armed or disarmed: ARMED and ARM read alike (R309). -/
def State.setArmed (s : State) (d : Die) (u : Nat) (b : Bool) : State :=
  (s.setFlag (R.TB_CMP_STAT d u) 0 b).setFlag (R.TB_CMP_CTRL d u) 0 b

/-- The unit's owner number (R308). -/
def State.cmpOwner (s : State) (d : Die) (u : Nat) : Nat := s.fld (R.TB_CMP_OWNER d u) 0 8

/-- Arming with a target: refused with cause RULE when it lies more than 2^62 ns off, LATE when it is past (R309). -/
def State.arm (s : State) (d : Die) (u : Nat) (tgt : Nat) : Eff :=
  let dd := sdiff tgt (s.lin d)
  if dd > 0x4000_0000_0000_0000 ∨ dd ≤ -0x4000_0000_0000_0000 then .error causeRULE
  else
    let s := (s.setPair (R.TB_CMP_TGT_LO d u) (R.TB_CMP_TGT_HI d u) tgt).setArmed d u true
    .ok (if dd ≤ 0 then (s.setFlag (R.TB_CMP_STAT d u) 1 true).tbEvent d 5 else s)

/-- Whether the unit's placement runs in SHADOW: the slot it starts has SHADOW set (R312). -/
def State.cmpShadow (s : State) (d : Die) (u : Nat) : Bool :=
  match s.slotOfCmp d (s.cmpOwner d u) u with
  | some n => s.flag (R.CE_SLOT_W6 d (s.cmpOwner d u) n) 23
  | none => false

/-- The destinations of a fire, and SEQ (R310, R312). -/
def State.cmpDrive (s : State) (d : Die) (u : Nat) : State :=
  let o := s.cmpOwner d u
  let c := s.getReg (R.TB_CMP_CTRL d u)
  let s := s.wrapFld (R.TB_CMP_STAT d u) 16 16
  let s := if bit c 1 ∧ o < 24 then s.cycleTrigger d u o else s
  let s := if bit c 2 then s.ownerEvent d o 0 else s
  if s.cmpShadow d u then s else s.trigFireAll d u 16

/-- The periodic advance by k periods, MISSED raised by `k` less `spared` (R310, R311). -/
def State.cmpAdvance (s : State) (d : Die) (u spared : Nat) : State :=
  let p := (s.getReg (R.TB_CMP_PERIOD d u)).toNat
  let t := s.cmpTgt d u
  let k := (s.lin d + 0x1_0000_0000_0000_0000 - t) % 0x1_0000_0000_0000_0000 / p + 1
  (s.countFld (R.TB_CMP_STAT d u) 8 8 (k - spared)).setPair (R.TB_CMP_TGT_LO d u) (R.TB_CMP_TGT_HI d u)
    ((t + k * p) % 0x1_0000_0000_0000_0000)

/-- Evaluation of one armed unit at a tick (R310). -/
def State.cmpEval (s : State) (d : Die) (u : Nat) : State :=
  let dd := sdiff (s.cmpTgt d u) (s.lin d)
  if s.cmpArmed d u ∧ dd ≤ 0 ∧ dd > -0x4000_0000_0000_0000 then
    let s := s.cmpDrive d u
    if s.getReg (R.TB_CMP_PERIOD d u) = 0 then s.setArmed d u false else s.cmpAdvance d u 1
  else s

/-- Evaluation of one armed unit after a step: fired once, advanced without a fire (NOSTEP), or disarmed as lost (R311). -/
def State.cmpStepEval (s : State) (d : Die) (u : Nat) : State :=
  let dd := sdiff (s.cmpTgt d u) (s.lin d)
  if !s.cmpArmed d u then s
  else if dd ≤ -0x4000_0000_0000_0000 then
    ((s.setArmed d u false).setFlag (R.TB_CMP_STAT d u) 2 true).tbEvent d 6
  else if dd ≤ 0 then
    let s := s.tbEvent d 5
    if s.flag (R.TB_CMP_CTRL d u) 3 then
      if s.getReg (R.TB_CMP_PERIOD d u) = 0 then (s.setArmed d u false).setFlag (R.TB_CMP_STAT d u) 1 true
      else (s.setFlag (R.TB_CMP_STAT d u) 1 true).cmpAdvance d u 0
    else (s.setFlag (R.TB_CMP_STAT d u) 1 true).cmpEval d u
  else s

/-- Every unit of a die evaluated after a step. -/
def State.cmpStepAll (s : State) (d : Die) : Nat → State
  | 0 => s
  | n + 1 => (s.cmpStepEval d (64 - (n + 1))).cmpStepAll d n

/-! ## Steering (R293 to R301) -/

/-- A requester's number among the steering owners (TB_STAT.OWNER). -/
def steerCode (who : Requester) (d : Die) : Nat := who.unitOwner d

/-- A write by the steering owner ends holdover (R297). -/
def State.endHoldover (s : State) (d : Die) : State := s.setFlag (R.TB_STAT d) 3 false

/-- The remaining slew of a die set, in 2^-32 ns. -/
def State.setSlew (s : State) (d : Die) (x : Int) : State := s.setNow d { s.now d with slew := x }

/-- The step of device time to `new` at a tick boundary: slew cancelled, STEP, the count, the log entries, then the compare
units (R296, R311). -/
def State.stepTime (s : State) (d : Die) (new : DevTime) : State :=
  let old := s.now d
  let diff : Int := ((new.sec * 1_000_000_000 + new.ns : Nat) : Int) - (old.sec * 1_000_000_000 + old.ns : Nat)
  let sat := decide (diff < -0x8000_0000) || decide (diff > 0x7FFF_FFFF)
  let dt := if diff < -0x8000_0000 then wd 0x8000_0000 else if diff > 0x7FFF_FFFF then wd 0x7FFF_FFFF else wdInt diff
  let s := s.logRaw d 0x501 1 (if sat then 16 else 0) dt
  let s := s.setNow d { new with slew := 0 }
  let s := if sat then s.logRaw d 0x501 1 32 0 else s
  let s := (s.tbEvent d 0).count (R.TB_CNT_STEP d)
  s.cmpStepAll d 64

/-- A relative step by `ns` nanoseconds, added with the tick's increment (R296). -/
def State.stepRel (s : State) (d : Die) (ns : Int) : State :=
  s.stepTime d (timeOfFrac ((s.now d).total + (s.nextInc d).1 + ns * oneNs) 0)

/-- The engine of the steering domain's clock instance, as 1 and its device-wide number: that of the die's own ports, else of the other die's
(R293, R306); 0 for none. -/
def State.steerCe (s : State) (d : Die) : Nat :=
  let ce (e : Die) : Nat := Tab.get (fun _ => 0) s.clockCe e.idx
  if ce d ≠ 0 then ce d else if s.linkUp then ce d.other else 0

/-- The source that steers a die by the first row of R293 that applies, with its owner. -/
def State.steerSource (s : State) (d : Die) : Nat × Nat :=
  let ring (e : Die) : Bool := s.flag (R.TFR_STAT e) 13 && s.flag (R.TFR_SYNC_CFG e) 23 && !s.flag (R.TFR_SYNC_CFG e) 22
  let role (e : Die) (m : Nat) : Bool :=
    let r := s.fld (R.TB_PTC e m) 0 3
    (r = 1 || r = 2 || r = 4) && s.steerSet && decide (s.fld (R.TB_PTC e m) 8 8 = s.fld (R.TB_STAT d) 8 8)
  let any (p : Die → Bool) : Bool := p d || (s.linkUp && p d.other)
  if d = .d1 ∧ s.linkUp then (3, 0x31)
  else if any ring then (1, 0x30)
  else if any (fun e => (List.range 14).any fun m => role e m) then
    (2, if s.steerCe d = 0 then 0x20 else (s.steerCe d - 1) % 24)
  else (0, 0x20)

/-- Whether the requester is the steering owner of a die; an engine that steers is known by its die as well (R293, R294). -/
def State.steers (s : State) (who : Requester) (d : Die) : Bool :=
  decide (s.fld (R.TB_STAT d) 16 8 = steerCode who d) &&
  (match who with
   | .ce e k => decide (s.steerCe d = 1 + e.idx * 24 + k.val)
   | _ => true)

/-- Holdover: device time free-runs at the last rate, the remaining slew cancelled (R277, R297). -/
def State.holdover (s : State) (d : Die) : State := (((s.setFlag (R.TB_STAT d) 3 true).setSlew d 0).tbEvent d 2).logEv d 0x502 2 0 0 0

/-- The steering source of a die chosen anew; a change sets SRC_CHG and is logged (R293, R522). -/
def State.chooseSource (s : State) (d : Die) : State :=
  let (src, own) := s.steerSource d
  if s.fld (R.TB_STAT d) 0 3 = src then s.setFld (R.TB_STAT d) 16 8 own
  else
    (((s.setFld (R.TB_STAT d) 0 3 src).setFld (R.TB_STAT d) 16 8 own).tbEvent d 1).logEv d 0x504 1 0 0 src

/-- TIME_SLAVED and its mirrors on both dies (R300). -/
def State.setSlaved (s : State) (b : Bool) : State :=
  (((s.setFlag (R.SYS_DLY_STAT .d0) 8 b).setFlag (R.SYS_DLY_STAT .d1) 8 b).setFlag (R.TB_STAT .d0) 4 b).setFlag (R.TB_STAT .d1) 4 b

/-- Slaving lost: TIME_SLAVED clears, SLV_LOST is set on both dies and logged (R300, R301). -/
def State.slaveLost (s : State) : State :=
  ((({ s.setSlaved false with slvRun := 0 }).tbEvent .d0 4).tbEvent .d1 4).logEv .d1 0x503 2 0 0 0

/-! ## Register effects -/

/-- TB_RATE (R294, R297, R322). -/
def effRate (who : Requester) (d : Die) (v : Word) (s : State) : Eff :=
  if !s.steers who d then .error causeRULE
  else if v.toInt < -500_000 ∨ v.toInt > 500_000 then .error causeRULE
  else .ok ((s.setReg (R.TB_RATE d) v).endHoldover d)

/-- TB_SLEW: a signed offset in ns added to the remainder (R295). -/
def effSlew (who : Requester) (d : Die) (v : Word) (s : State) : Eff :=
  if !s.steers who d then .error causeRULE
  else .ok ((s.setSlew d ((s.now d).slew + v.toInt * oneNs)).endHoldover d)

/-- TB_STEP_CTRL: GO takes the staged values, and the step takes effect at the next tick (R296). -/
def effStep (who : Requester) (d : Die) (v : Word) (s : State) : Eff :=
  if !s.steers who d then .error causeRULE
  else if !bit v 0 then .ok (s.endHoldover d)
  else
    let ns := s.fld (R.TB_STEP_NS d) 0 30
    let s' := s.endHoldover d
    if bit v 1 then
      .ok (s'.stepRel d (if s.flag (R.TB_STEP_NS d) 31 then -(ns : Int) else ns))
    else if ns ≥ 1_000_000_000 then .error causeRULE
    else .ok (s'.stepTime d
      { sec := (s.getReg (R.TB_STEP_S d)).toNat + s.fld (R.TB_STEP_SH d) 0 16 * 0x1_0000_0000
        ns := ns, frac := s.fld (R.TB_STEP_SH d) 16 16 * 0x1_0000, slew := 0 })

/-- TB_CMP_TGT_LO: staged (R308). -/
def effCmpLo (who : Requester) (d : Die) (u : Nat) (v : Word) (s : State) : Eff :=
  if s.cmpOwner d u ≠ who.unitOwner d then .error causeRULE
  else .ok (s.setCmpU d u { s.cmpU d u with lo := v })

/-- The written target committed, arming anew when the unit is armed (R308, R309, R313). -/
def effCmpHi (who : Requester) (d : Die) (u : Nat) (lo : Option Word) (hi : Word) (s : State) : Eff :=
  if s.cmpOwner d u ≠ who.unitOwner d then .error causeRULE
  else
    let l := lo.getD (s.cmpU d u).lo
    let tgt := l.toNat + hi.toNat * 0x1_0000_0000
    let t := s.setCmpU d u { lo := l, written := tgt }
    if s.cmpArmed d u then t.arm d u tgt
    else .ok (t.setPair (R.TB_CMP_TGT_LO d u) (R.TB_CMP_TGT_HI d u) tgt)

/-- TB_CMP_PERIOD: 0, or 100 and more (R308). -/
def effCmpPeriod (who : Requester) (d : Die) (u : Nat) (v : Word) (s : State) : Eff :=
  if s.cmpOwner d u ≠ who.unitOwner d then .error causeRULE
  else if v ≠ 0 ∧ v.toNat < 100 then .error causeRULE
  else .ok (s.setReg (R.TB_CMP_PERIOD d u) v)

/-- TB_CMP_CTRL: NOSTEP, IRQ and CE_CYC replaced; ARM arms a disarmed unit with the written target or disarms (R309, R313). -/
def effCmpCtrl (who : Requester) (d : Die) (u : Nat) (v : Word) (s : State) : Eff :=
  if s.cmpOwner d u ≠ who.unitOwner d then .error causeRULE
  else
    let t := s.setFld (R.TB_CMP_CTRL d u) 1 3 (v.toNat / 2)
    if !bit v 0 then .ok (t.setArmed d u false)
    else if s.cmpArmed d u then .ok t
    else t.arm d u (s.cmpU d u).written

/-- TB_TRIG_CFG (R315). -/
def effTrigCfg (who : Requester) (d : Die) (n : Nat) (v : Word) (s : State) : Eff :=
  let a := R.TB_TRIG_CFG d n
  let own := s.fld a 24 8
  let me := who.unitOwner d
  let src := bits v 16 6
  let w := setBits (setBits (s.getReg a) 13 3 (bits v 13 3)) 16 6 src
  let w := if bit v 1 then setBits w 1 1 0 else w
  if bit v 15 then
    if me ≠ s.cmpOwner d src then .error causeRULE
    else if own ≠ 0xFF ∧ own ≠ me then .error causeRULE
    else
      let s := s.setReg a (setBits w 24 8 me)
      .ok (if own = 0xFF then s.setFlag a 0 (s.trigIdle d n) else s)
  else if own = 0xFF then .ok ((s.setReg a w).setFlag a 0 (bit w 14))
  else if own = me then .ok ((s.setReg a w).trigFree d n)
  else if who.isSup d then .ok (s.setReg a w)
  else .error causeRULE

/-- TB_TRIG_WIDTH (R315): 0 is refused. -/
def effTrigWidth (who : Requester) (d : Die) (n : Nat) (v : Word) (s : State) : Eff :=
  let own := s.fld (R.TB_TRIG_CFG d n) 24 8
  if own ≠ 0xFF ∧ own ≠ who.unitOwner d ∧ !who.isSup d then .error causeRULE
  else if bits v 0 16 = 0 then .error causeRULE
  else .ok (s.setFld (R.TB_TRIG_WIDTH d n) 0 16 v.toNat)

/-- The level of a capture source: a general pin, or a trigger output read back at its pad (R318). -/
def State.capSource (s : State) (d : Die) (src : Nat) : Bool :=
  if src < 48 then s.flag (R.PIN_CFG d src) 24 else s.flag (R.TB_TRIG_CFG d (src - 48)) 0

/-- TB_CAP_CFG: owner only; the accepted level is the source's when SRC changes or EDGE leaves 0 (R318, R322). -/
def effCapCfg (who : Requester) (d : Die) (c : Nat) (v : Word) (s : State) : Eff :=
  let a := R.TB_CAP_CFG d c
  if s.fld (R.TB_CAP_OWNER d c) 0 8 ≠ who.unitOwner d then .error causeRULE
  else
    let s' := s.setReg a (wd (bits v 0 6 + bits v 8 8 * 256))
    .ok (if bits v 0 6 ≠ s.fld a 0 6 ∨ (s.fld a 8 2 = 0 ∧ bits v 8 2 ≠ 0) then
      { s' with capLvl := Tab.put (fun _ => false) s'.capLvl (d.idx * 32 + c) (s.capSource d (bits v 0 6)) } else s')

/-- TB_SNAP_CTRL: TAKE latches device time and linear count for the requester (R321). -/
def reqKey (who : Requester) : Nat :=
  match who with
  | .sup d _ => d.idx * 256 + 0x20
  | .ce d k => d.idx * 256 + k.val
  | w => 0x40 + w.owner

/-- Key of a requester's stalled access: as `reqKey`, but each supervisor pair its own. -/
def waitKey (who : Requester) : Nat :=
  match who with
  | .sup d p => d.idx * 256 + 0x20 + p.val
  | w => reqKey w

/-- Key of a requester's shadow or snapshot in a block of a die (R320, R321). -/
def shadowKey (who : Requester) (d : Die) (b : Nat) : Nat := (d.idx * 64 + b) * 1024 + reqKey who

/-- The snapshot of device time a requester takes on a die (R321). -/
def State.snapTake (s : State) (who : Requester) (d : Die) : State :=
  let t := s.now d
  let snap : Snap :=
      { s := t.sec % 0x1_0000_0000, sh := t.sec / 0x1_0000_0000 % 0x1_0000 + t.frac / 0x1_0000 * 0x1_0000, ns := t.ns, lin := t.lin }
  { s with snaps := Tab.put (fun _ => {}) s.snaps (shadowKey who d 37) snap }

/-- TB_SNAP_CTRL. -/
def effSnap (who : Requester) (d : Die) (v : Word) (s : State) : Eff := .ok (if bit v 0 then s.snapTake who d else s)

/-- A requester's shadow in a block. -/
def State.shadowOf (s : State) (who : Requester) (d : Die) (b : Nat) : Word :=
  Tab.get (fun _ => 0) s.shadow (shadowKey who d b)

/-- The state with a requester's shadow latched (R320). -/
def State.latch (s : State) (who : Requester) (d : Die) (b : Nat) (hi : Word) : State :=
  { s with shadow := Tab.put (fun _ => 0) s.shadow (shadowKey who d b) hi }

/-- A read of a TB pair's _LO: one tick's value, the high half latched; the owner's read of a capture clears FULL (R319, R320). -/
def readTbPair (who : Requester) (d : Die) (off : Nat) (s : State) : Nat × State :=
  let v := if off = 8 then s.lin d
    else if off < 0x1800 then s.cmpTgt d ((off - 0x1000) / 0x20)
    else s.getPair (R.TB_CAP_LO d ((off - 0x1900) / 0x20)) (R.TB_CAP_HI d ((off - 0x1900) / 0x20))
  let t := s.latch who d 37 (wd (v / 0x1_0000_0000))
  let c := (off - 0x1900) / 0x20
  (v, if 0x1900 ≤ off ∧ s.fld (R.TB_CAP_OWNER d c) 0 8 = who.unitOwner d then t.setFlag (R.TB_CAP_STAT d c) 0 false else t)

/-- What a read of a time-base register that is a view of the time base gives: TB_NOW_HI and the other _HI halves from the
shadow, the snapshot registers, TB_INC and TB_SLEW_REM (R291, R320, R321). -/
def State.tbView (s : State) (who : Requester) (d : Die) (off : Nat) : Option Word :=
  let sn := Tab.get (fun _ => ({} : Snap)) s.snaps (shadowKey who d 37)
  match off with
  | 0x0C => some (s.shadowOf who d 37)
  | 0x28 => some (wdInt (wholeNs (s.now d).slew))
  | 0x4C => some (wdInt ((s.nextInc d).1 - 0x2_0000_0000))
  | 0x64 => some (wd sn.s)
  | 0x68 => some (wd sn.sh)
  | 0x6C => some (wd sn.ns)
  | 0x70 => some (wd sn.lin)
  | 0x74 => some (wd (sn.lin / 0x1_0000_0000))
  | _ =>
    if 0x1000 ≤ off ∧ off < 0x1800 ∧ off % 0x20 = 4 then some (s.shadowOf who d 37)
    else if 0x1900 ≤ off ∧ off < 0x1D00 ∧ (off - 0x1900) % 0x20 = 4 then some (s.shadowOf who d 37)
    else none

/-! ## Meanings -/

/-- SLEW_DONE: the final tick of a slew, whose partial slew takes the remainder to exactly 0 (R295). -/
def execSlewDone (d : Die) (s : State) : Host.Outcome State Fault Refusal :=
  .next (if (s.now d).slew ≠ 0 ∧ (s.nextInc d).2 = 0 then s.tick d else s)

/-- TB_RATE_WRITE (R294). -/
def execTbRateWrite (who : Requester) (d : Die) (v : Word) (s : State) : Host.Outcome State Fault Refusal :=
  .next (s.guardWrite who (R.TB_RATE d) .w32 (effRate who d v))

/-- TB_SLEW_WRITE (R295). -/
def execTbSlewWrite (who : Requester) (d : Die) (v : Word) (s : State) : Host.Outcome State Fault Refusal :=
  .next (s.guardWrite who (R.TB_SLEW d) .w32 (effSlew who d v))

/-- TB_STEP_GO (R296). -/
def execTbStepGo (who : Requester) (d : Die) (v : Word) (s : State) : Host.Outcome State Fault Refusal :=
  .next (s.guardWrite who (R.TB_STEP_CTRL d) .w32 (effStep who d v))

/-- HOLDOVER: sources 0 and 3 are exempt (R297). -/
def execHoldover (d : Die) (s : State) : Host.Outcome State Fault Refusal :=
  .next (if s.fld (R.TB_STAT d) 0 3 = 1 ∨ s.fld (R.TB_STAT d) 0 3 = 2 then
    s.holdover d else s)

/-- SLAVE_TIME_MESSAGE: Die 1's measured offset from Die 0 in 1/16 ns and the frequency difference in ppb; a step beyond
1,000 ns, else a slew and a rate correction (R299, R300). -/
def execSlaveTimeMessage (off : Int) (ppb : Int) (s : State) : Host.Outcome State Fault Refusal :=
  .next (
    if !s.linkUp ∨ s.fld (R.TB_STAT .d1) 0 3 ≠ 3 then s else
    let s := s.setReg (R.TB_SLV_OFF .d1) (wdInt off)
    let s := { s with slvRun := if off.natAbs ≤ 32 then s.slvRun + 1 else 0 }
    let s := if s.flag (R.SYS_DLY_STAT .d1) 8 ∧ off.natAbs > 64 then s.slaveLost else s
    if off.natAbs > 16_000 then s.stepTime .d1 (timeOfFrac ((s.now .d1).total + (s.nextInc .d1).1 - off * 0x1000_0000) 0)
    else
      let s := s.setReg (R.TB_RATE .d1) (wdInt (s.rate .d1 - ppb))
      s.setSlew .d1 (-off * 0x1000_0000))

/-- SLAVE_LOCK: 1,000 consecutive offsets within 2 ns (R300). -/
def execSlaveLock (s : State) : Host.Outcome State Fault Refusal :=
  .next (if s.slvRun ≥ 1000 ∧ s.linkUp ∧ !s.flag (R.SYS_DLY_STAT .d1) 8 then
    ((s.setSlaved true).tbEvent .d0 3).tbEvent .d1 3 else s)

/-- CMP_TARGET_COMMIT (R308): `lo` is given by a 64-bit write of the pair. -/
def execCmpTargetCommit (who : Requester) (d : Die) (u : Fin 64) (lo : Option Word) (hi : Word) (s : State) :
    Host.Outcome State Fault Refusal :=
  .next (s.guardWrite who (match lo with | some _ => R.TB_CMP_TGT_LO d u | none => R.TB_CMP_TGT_HI d u)
    (match lo with | some _ => .w64 | none => .w32) (effCmpHi who d u lo hi))

/-- CMP_ARM: a write of TB_CMP_CTRL with ARM = 1 (R309). -/
def execCmpArm (who : Requester) (d : Die) (u : Fin 64) (v : Word) (s : State) : Host.Outcome State Fault Refusal :=
  .next (s.guardWrite who (R.TB_CMP_CTRL d u) .w32 (effCmpCtrl who d u (v ||| 1)))

/-- CMP_DISARM: a write of TB_CMP_CTRL with ARM = 0 (R313). -/
def execCmpDisarm (who : Requester) (d : Die) (u : Fin 64) (v : Word) (s : State) : Host.Outcome State Fault Refusal :=
  .next (s.guardWrite who (R.TB_CMP_CTRL d u) .w32 (effCmpCtrl who d u (v &&& ~~~1)))

/-- COMPARE_FIRE: the evaluation of R310 at the present tick. -/
def execCompareFire (d : Die) (u : Fin 64) (s : State) : Host.Outcome State Fault Refusal := .next (s.cmpEval d u)

/-- TRIG_PULSE_END: WIDTH ticks have passed (R314). -/
def execTrigPulseEnd (d : Die) (n : Fin 16) (s : State) : Host.Outcome State Fault Refusal :=
  .next (if Tab.get (fun _ => false) s.trigRun (d.idx * 16 + n) then
    let s := s.setFlag (R.TB_TRIG_CFG d n) 0 (s.trigIdle d n)
    { s with trigRun := Tab.put (fun _ => false) s.trigRun (d.idx * 16 + n) false } else s)

/-- TRIG_CONFIG (R315). -/
def execTrigConfig (who : Requester) (d : Die) (n : Fin 16) (v : Word) (s : State) : Host.Outcome State Fault Refusal :=
  .next (s.guardWrite who (R.TB_TRIG_CFG d n) .w32 (effTrigCfg who d n v))

/-- The edge a capture unit accepts: a capture when EDGE names its direction; with FULL = 1 it is discarded or overwrites
as OVWR says, and is counted (R318, R319). -/
def State.capture (s : State) (d : Die) (c : Nat) (rise : Bool) : State :=
  let s := { s with capLvl := Tab.put (fun _ => false) s.capLvl (d.idx * 32 + c) rise }
  let cfg := s.getReg (R.TB_CAP_CFG d c)
  let st := R.TB_CAP_STAT d c
  if !(if rise then bit cfg 8 else bit cfg 9) then s
  else
    let full := s.flag st 0
    let s := if full then (s.countFld st 8 8 1).tbEvent d 7 else s
    if full ∧ !bit cfg 10 then s
    else
      let s := s.setPair (R.TB_CAP_LO d c) (R.TB_CAP_HI d c) (s.lin d)
      let s := ((s.setFlag st 0 true).wrapFld st 16 16).setFlag st 1 rise
      if bit cfg 11 then s.ownerEvent d (s.fld (R.TB_CAP_OWNER d c) 0 8) 0 else s

/-- CAPTURE_EDGE: a filtered change of the source against the accepted level (R318, R319). -/
def execCaptureEdge (d : Die) (c : Fin 32) (rise : Bool) (s : State) : Host.Outcome State Fault Refusal :=
  .next (if Tab.get (fun _ => false) s.capLvl (d.idx * 32 + c) = rise then s else s.capture d c rise)

/-- CAPTURE_CONFIG (R318). -/
def execCaptureConfig (who : Requester) (d : Die) (c : Fin 32) (v : Word) (s : State) : Host.Outcome State Fault Refusal :=
  .next (s.guardWrite who (R.TB_CAP_CFG d c) .w32 (effCapCfg who d c v))

/-- CAPTURE_OWNER_READ: a read of TB_CAP_LO, or of the pair (R319, R320). -/
def execCaptureOwnerRead (who : Requester) (d : Die) (c : Fin 32) (w : Width) (s : State) :
    Host.Outcome State Fault Refusal :=
  .next (s.guardRead who (R.TB_CAP_LO d c) w fun s =>
    let (v, t) := readTbPair who d (0x1900 + 0x20 * c.val) s
    .ok (if w = .w64 then [wd v, wd (v / 0x1_0000_0000)] else [wd v], t))

/-- TB_SNAPSHOT (R321). -/
def execTbSnapshot (who : Requester) (d : Die) (v : Word) (s : State) : Host.Outcome State Fault Refusal :=
  .next (s.guardWrite who (R.TB_SNAP_CTRL d) .w32 (effSnap who d v))

end Sys2Proof.Machine
end

