-- ==== Sys2Proof/Machine/Sfq.lean ====
section
/-! DEFINITION. The stream FIFOs (R67 to R83, R85): packing, register mode with its stalled reads, drain mode and packet mode. -/

namespace Sys2Proof.Machine

/-! ## State of a FIFO -/

/-- The state with a FIFO replaced and shown; one that becomes non-empty is an event to an owning engine (R386 CE_EVT). -/
def State.setSfq (s : State) (d : Die) (n : Nat) (q : Sfq) : State :=
  (if q.entries ≠ [] ∧ !s.flag (R.SFQ_NONEMPTY d) n then s.ownerEvent d (s.fld (R.SFQ_OWNER d n) 0 8) 2 else s).showSfq d n q

/-- Bytes dropped: OVF, the sum bit and the count; the open packet is marked truncated (R71). -/
def State.sfqDrop (s : State) (d : Die) (n k : Nat) : State :=
  let s := ((s.setFlag (R.SFQ_STAT d n) 10 true).setFlag (R.SFQ_OVF_SUM d) n true).countBy (R.SFQ_OVF_CNT d n) k
  let q := s.sfqOf d n
  s.setSfq d n { q with pkt := q.pkt.map fun p => { p with trunc := true } }

/-! ## Packing (R69, R70) -/

/-- Why the open word becomes an entry: it is full, a packet closes, or a FLUSH or the idle time (R69, R70). -/
inductive PushWhy where
  | full
  | close
  | flush
deriving DecidableEq, Repr

/-- The open word made an entry; where no entry is free its bytes are dropped and are none of the packet's (R69, R70, R71, R81). -/
def State.sfqPush (s : State) (d : Die) (n : Nat) (why : PushWhy) : State :=
  let q := s.sfqOf d n
  if q.lanes = [] then s
  else if q.entries.length ≥ 64 then
    let k := q.lanes.length
    (s.setSfq d n { q with lanes := [], pkt := q.pkt.map fun p => { p with bytes := p.bytes - k } }).sfqDrop d n k
  else
    let e : SfqEntry := { word := ofLe q.lanes, valid := q.lanes.length, epoch := q.laneEpoch, first := q.firstNext, last := decide (why = .flush), len := false, ready := true, brk := decide (why ≠ .full) }
    s.setSfq d n { q with entries := q.entries ++ [e], lanes := [], firstNext := false }

/-- One byte into the open word; the eighth makes it an entry (R69). The epoch is that of the entry's first byte (R72). -/
def State.sfqByte (s : State) (d : Die) (n epoch : Nat) (b : Byte) : State :=
  let q := s.sfqOf d n
  let q' := { q with lanes := q.lanes ++ [b], laneEpoch := if q.lanes = [] then epoch else q.laneEpoch }
  let s := s.setSfq d n q'
  if q'.lanes.length = 8 then s.sfqPush d n .full else s

/-- The length word of a packet (R81). -/
def lenWord (p : SfqPkt) (idle : Bool) (seq : Nat) : Nat :=
  p.bytes % 0x100_0000 + (if p.trunc then 0x100_0000 else 0) + (if idle then 0x200_0000 else 0) + seq * 0x1_0000_0000 + p.epoch * 0x1_0000_0000_0000

/-- The length slot of the open packet given its word (R81). -/
def fillLen (w : Nat) : List SfqEntry → List SfqEntry
  | [] => []
  | e :: t => if e.len ∧ !e.ready then { e with word := w, ready := true } :: t else e :: fillLen w t

/-- The newest entry of a list, unless it is a length slot, marked for the drain. -/
def brkLast : List SfqEntry → List SfqEntry
  | [] => []
  | [e] => [{ e with brk := e.brk || !e.len }]
  | e :: t => e :: brkLast t

/-- A close, a FLUSH or the idle time: the partial word becomes an entry, and the words that wait are to be drained even where they fill
their line only in part (R70, R79). -/
def State.sfqCut (s : State) (d : Die) (n : Nat) (why : PushWhy) : State :=
  let s := s.sfqPush d n why
  let q := s.sfqOf d n
  s.setSfq d n { q with entries := brkLast q.entries }

/-- Packet close: the partial word closed, the length word made ready, the packet number advanced; the dropping of an over-long packet's
rest ends with it (R81, R82). -/
def State.sfqClosePkt (s : State) (d : Die) (n : Nat) (idle : Bool) : State :=
  let s := s.sfqCut d n (if idle then .flush else .close)
  let q := s.sfqOf d n
  match q.pkt with
  | none => s.setSfq d n { q with skip := false }
  | some p => s.setSfq d n { q with entries := fillLen (lenWord p idle q.seq) q.entries, pkt := none, seq := (q.seq + 1) % 0x1_0000, skip := false }

/-- A packet opened where none is: one entry is reserved as its length slot (R81). -/
def State.sfqOpenPkt (s : State) (d : Die) (n epoch : Nat) : State :=
  let q := s.sfqOf d n
  if s.flag (R.SFQ_CTRL d n) 2 ∧ q.pkt.isNone then
    let e : SfqEntry := { word := 0, valid := 8, epoch := epoch, first := false, last := false, len := true, ready := false }
    s.setSfq d n { q with pkt := some { bytes := 0, trunc := false, epoch := epoch }, entries := q.entries ++ [e] }
  else s

/-- The source's end mark: the packet closes, and the dropping of an over-long one ends (R81, R82). -/
def State.sfqEnd (s : State) (d : Die) (n : Nat) (mark : Bool) : State :=
  if mark then s.sfqClosePkt d n false else s

/-- A unit taken from the source (R69 to R71, R81, R82). -/
def State.sfqUnit (s : State) (d : Die) (n : Nat) (bs : List Byte) (epoch : Nat) (mark : Bool) : State :=
  let q := s.sfqOf d n
  if q.skip then (s.sfqDrop d n bs.length).sfqEnd d n mark
  else if q.entries.length ≥ 64 then (s.sfqDrop d n bs.length).sfqEnd d n mark
  else
    let s := s.sfqOpenPkt d n epoch
    let q := s.sfqOf d n
    let tooLong : Bool := match q.pkt with
      | some p => decide (p.bytes + bs.length > s.sfqBuf d n - 8)
      | none => false
    if tooLong then
      let s := (s.sfqDrop d n bs.length).sfqClosePkt d n false
      (s.setSfq d n { s.sfqOf d n with skip := true }).sfqEnd d n mark
    else if q.entries.length ≥ 64 then (s.sfqDrop d n bs.length).sfqEnd d n mark
    else
      let s := s.setSfq d n { q with pkt := q.pkt.map fun p => { p with bytes := p.bytes + bs.length } }
      (bs.foldl (fun s b => s.sfqByte d n epoch b) s).sfqEnd d n mark

/-- A unit as it comes from the source with its epoch: nothing while EN = 0 or the FIFO is not clocked (R496); a stale epoch is discarded before everything else, and what waits
of an older epoch goes before it is packed (R69 to R72, R520). -/
def State.sfqTake (s : State) (d : Die) (n : Nat) (bs : List Byte) (epoch : Nat) (mark : Bool) : State :=
  if !s.unitsRun d ∨ !s.flag (R.SFQ_CTRL d n) 0 then s
  else if epoch ≠ s.sfqAccepted d n then s.fenceDiscard d (s.sfqSource d n).1 (s.sfqSource d n).2 1
  else (s.sfqPurge d n).sfqUnit d n bs epoch mark

/-! ## Stalled reads (R74, R75) -/

/-- A stalled read answered, or refused where a cause is given, and the requester's own wait ended with it. -/
def State.sfqAnswer (s : State) (d : Die) (n : Nat) (r : Requester × Bool) (res : Except Nat Nat) : State :=
  let (who, wide) := r
  let a := R.SFQ_RDATA_LO d n
  let w := Tab.get (fun _ => ({} : AccWait)) s.accWait (waitKey who)
  let s := if w.addr = a + 1 then
      let w' : AccWait := match res with
        | .ok v => { w with done := true, cause := 0, val := v }
        | .error c => { w with done := true, cause := c, val := 0 }
      { s with accWait := Tab.put (fun _ => {}) s.accWait (waitKey who) w' }
    else s
  match res with
  | .ok v => s.emit (.answer who a (.data (if wide then [wd v, wd (v / 0x1_0000_0000)] else [wd v])))
  | .error c => s.refuse who a false c

/-- The stalled read that has waited longest ended. -/
def State.sfqEndStall (s : State) (d : Die) (n : Nat) (res : Except Nat Nat) : State :=
  let q := s.sfqOf d n
  match q.stalled with
  | [] => s
  | r :: t => (s.setSfq d n { q with stalled := t }).sfqAnswer d n r res

/-- Every stalled read of a requester for which `p` holds ended with an error, oldest first (R38, R75). -/
def State.sfqEndWhere (s : State) (d : Die) (n : Nat) (p : Requester → Bool) (cause : Nat) : State :=
  let q := s.sfqOf d n
  let go := q.stalled.filter fun r => p r.1
  if go = [] then s
  else go.foldl (fun s r => s.sfqAnswer d n r (.error cause)) (s.setSfq d n { q with stalled := q.stalled.filter fun r => !p r.1 })

/-- SFQ_OWNER replaced: a change ends the stalled reads of the owner before (R75, R77). -/
def State.sfqSetOwner (s : State) (d : Die) (n o : Nat) : State :=
  if s.fld (R.SFQ_OWNER d n) 0 8 = o then s
  else (s.sfqEndWhere d n (fun _ => true) causeRULE).setFld (R.SFQ_OWNER d n) 0 8 o

/-- The oldest entry removed: its high half and tag latched (R73). -/
def State.sfqPop (s : State) (d : Die) (n : Nat) : Option (Nat × State) :=
  let q := s.sfqOf d n
  match q.entries with
  | [] => none
  | e :: t =>
    let s := s.setSfq d n { q with entries := t }
    let s := s.setReg (R.SFQ_RDATA_HI d n) (wd (e.word / 0x1_0000_0000))
    some (e.word, s.setReg (R.SFQ_TAG d n)
      (wd (e.epoch * 0x1_0000 + (if e.first then 32 else 0) + (if e.last then 16 else 0) + e.valid)))

/-- A read that removes an entry: its value, a stall on an empty FIFO or behind reads that stall already, or a refusal to another than the
owner (R73 to R77). -/
def State.sfqRead (s : State) (who : Requester) (d : Die) (n : Nat) (wide : Bool) : Except Nat (Option Nat) × State :=
  if s.fld (R.SFQ_OWNER d n) 0 8 ≠ who.unitOwner d then (.error causeRULE, s)
  else
    let s := s.sfqPurge d n
    let q := s.sfqOf d n
    let wait : State := if q.stalled.any (fun r => r.1 = who) then s else s.setSfq d n { q with stalled := q.stalled ++ [(who, wide)] }
    if q.stalled ≠ [] then (.ok none, wait)
    else match s.sfqPop d n with
    | some (v, t) => (.ok (some v), t)
    | none => if !s.flag (R.SFQ_CTRL d n) 0 then (.error causeRULE, s) else (.ok none, wait)

/-- A checked read of SFQ_RDATA_LO or of the pair. -/
def State.sfqReadCmd (s : State) (who : Requester) (d : Die) (n : Nat) (wide : Bool) : State :=
  let a := R.SFQ_RDATA_LO d n
  let w : Width := if wide then .w64 else .w32
  let barred := match who with | .h2 => true | .h2s => true | .h3 => true | _ => false
  match s.regCheck who a w false with
  | some c => s.refuse who a false c
  | none =>
    if barred then s.refuse who a false causeRULE
    else match s.sfqRead who d n wide with
    | (.error c, t) => t.refuse who a false c
    | (.ok none, t) => t.emit (.answer who a .stalled)
    | (.ok (some v), t) => t.emit (.answer who a (.data (if wide then [wd v, wd (v / 0x1_0000_0000)] else [wd v])))

/-! ## Register effects -/

/-- RESET of a stream FIFO: entries and the open packet discarded, a stalled read ended, both pointers cleared (R75, R85, R490). -/
def State.sfqReset (s : State) (d : Die) (n : Nat) : State :=
  let s := s.sfqEndWhere d n (fun _ => true) causeRULE
  let s := (s.setReg (R.SFQ_WPTR d n) 0).setReg (R.SFQ_RPTR d n) 0
  (s.setSfq d n { ({} : Sfq) with seq := (s.sfqOf d n).seq }).fnReset d 11 n

/-- SFQ_CTRL (R70, R75, R77, R78, R81, R85): RESET, CLOSE and FLUSH act, then SRC, WIDTH, PKT, MODE and EN are replaced. -/
def effSfqCtrl (who : Requester) (d : Die) (n : Nat) (v : Word) (s : State) : Eff :=
  if s.fld (R.SFQ_OWNER d n) 0 8 ≠ who.unitOwner d then .error causeRULE
  else if bit v 2 ∧ !bit v 1 then .error causeRULE
  else if bits v 4 5 > 19 then .error causeRULE
  else
    let s := if bit v 18 then s.sfqReset d n else s
    let s := if bit v 17 then s.sfqClosePkt d n false else s
    let s := if bit v 16 then
        let s := s.sfqCut d n .flush
        s.setSfq d n { s.sfqOf d n with firstNext := true }
      else s
    let was := s.flag (R.SFQ_CTRL d n) 0
    let s := s.setReg (R.SFQ_CTRL d n) (wd (bits v 0 9))
    let s := if !bit v 0 then s.sfqEndWhere d n (fun _ => true) causeRULE else s
    .ok (if bit v 0 ∧ !was then s.setSfq d n { s.sfqOf d n with firstNext := true } else s)

/-- SFQ_RPTR: bits [2:0] are ignored (R80, R85). -/
def effSfqRptr (who : Requester) (d : Die) (n : Nat) (v : Word) (s : State) : Eff :=
  if s.fld (R.SFQ_OWNER d n) 0 8 ≠ who.unitOwner d then .error causeRULE
  else .ok (s.setReg (R.SFQ_RPTR d n) (wd (bits v 3 17 * 8)))

/-- SFQ_TIMEOUT and SFQ_IDLE (R74, R85): a TIMEOUT of 0 is kept as written and treated as 1. -/
def effSfqUs (who : Requester) (d : Die) (n a : Nat) (v : Word) (s : State) : Eff :=
  if s.fld (R.SFQ_OWNER d n) 0 8 ≠ who.unitOwner d then .error causeRULE
  else .ok (s.setReg a (wd (bits v 0 16)))

/-- SFQ_BUF_BASE and SFQ_BUF_SIZE: not while EN = 1, a size to 8, a base aligned to the size (R79, R85).  The spec does not say what a write
that leaves the base unaligned does: a base not aligned to the size that stands is refused with RULE, and a size is taken whatever base
stands (DESIGN CHOICE, log entry 90). -/
def effSfqBuf (who : Requester) (d : Die) (n : Nat) (size : Bool) (v : Word) (s : State) : Eff :=
  if s.fld (R.SFQ_OWNER d n) 0 8 ≠ who.unitOwner d then .error causeRULE
  else if s.flag (R.SFQ_CTRL d n) 0 then .error causeRULE
  else if size then
    if bits v 0 4 > 8 then .error causeRULE else .ok (s.setReg (R.SFQ_BUF_SIZE d n) (wd (bits v 0 4)))
  else if bits v 6 20 * 64 % s.sfqBuf d n ≠ 0 then .error causeRULE
  else .ok (s.setReg (R.SFQ_BUF_BASE d n) (wd (bits v 6 20 * 64)))

/-! ## Draining (R79 to R83) -/

/-- Data entries at the head of a list, before the next length slot. -/
def dataRun : List SfqEntry → List SfqEntry
  | [] => []
  | e :: t => if e.len then [] else e :: dataRun t

/-- Whether the buffer has room for the entry at an offset: it is full when WPTR would come to equal RPTR (R80). -/
def sfqRoom (size pos rptr : Nat) : Bool := decide ((pos + 8) % size ≠ rptr)

/-- The data words of one drain write: to the end of the line or a word marked to be drained, as many as there is room for. -/
def drainTake (size pos rptr : Nat) : List SfqEntry → List SfqEntry
  | [] => []
  | e :: t =>
    if !sfqRoom size pos rptr then []
    else if (pos + 8) % 64 = 0 ∨ e.brk then [e] else e :: drainTake size ((pos + 8) % size) rptr t

/-- The pool write of a drain: whole words at a buffer offset through port 11; a refusal stops the draining (R79, R83). -/
def State.sfqWrite (s : State) (d : Die) (n pos : Nat) (es : List SfqEntry) : Bool × State :=
  match s.poolWrite d 11 (s.fld (R.SFQ_BUF_BASE d n) 6 20 * 64 + pos) ((es.flatMap fun e => leBytes 8 e.word).map some) with
  | (.ok _, t) => (true, t)
  | (.error _, t) =>
    let t := t.setFlag (R.SFQ_STAT d n) 11 true
    (false, t.setSfq d n { t.sfqOf d n with stopped := true })

/-- One drain write: the data words of a completed line, or what is left of one closed early; in packet mode the length word
last, and only then WPTR past the packet (R79 to R82). -/
def State.sfqDrain (s : State) (d : Die) (n : Nat) : State :=
  let s := s.sfqPurge d n
  let q := s.sfqOf d n
  let size := s.sfqBuf d n
  let rptr := s.fld (R.SFQ_RPTR d n) 0 20
  match q.entries with
  | [] => s
  | e :: t =>
    if e.len then
      let (lp, pos) := match q.lenPos with
        | some p => (p, q.drainPos)
        | none => (q.drainPos, (q.drainPos + 8) % size)
      if q.lenPos.isNone ∧ !sfqRoom size q.drainPos rptr then s
      else
        let q := { q with lenPos := some lp, drainPos := pos }
        let run := dataRun t
        let part := drainTake size pos rptr run
        if run = [] ∧ e.ready then
          match (s.setSfq d n q).sfqWrite d n lp [e] with
          | (true, u) => ((u.setSfq d n { u.sfqOf d n with entries := t, lenPos := none }).setReg (R.SFQ_WPTR d n) (wd pos))
          | (false, u) => u
        else if part ≠ [] ∧ ((pos + 8 * part.length) % 64 = 0 ∨ part.any (fun x => x.brk) ∨ (e.ready ∧ part.length = run.length)) then
          match (s.setSfq d n q).sfqWrite d n pos part with
          | (true, u) => u.setSfq d n { u.sfqOf d n with entries := e :: t.drop part.length, drainPos := (pos + 8 * part.length) % size }
          | (false, u) => u
        else s.setSfq d n q
    else
      let part := drainTake size q.drainPos rptr (dataRun (e :: t))
      let early := part.any fun x => x.brk
      if part ≠ [] ∧ ((q.drainPos + 8 * part.length) % 64 = 0 ∨ early) then
        match s.sfqWrite d n q.drainPos part with
        | (true, u) =>
          let pos := (q.drainPos + 8 * part.length) % size
          (u.setSfq d n { u.sfqOf d n with entries := (e :: t).drop part.length, drainPos := pos }).setReg (R.SFQ_WPTR d n) (wd pos)
        | (false, u) => u
      else s

/-! ## Meanings -/

/-- SFQ_UNIT_IN: a unit of one or two bytes from the source with its epoch, and whether it carries the end mark (R69 to R72). -/
def execSfqUnitIn (d : Die) (n : Fin 32) (bs : List Byte) (epoch : Nat) (endMark : Bool) (s : State) :
    Host.Outcome State Fault Refusal :=
  .next (s.sfqTake d n bs epoch endMark)

/-- SFQ_IDLE_CLOSE: no unit for SFQ_IDLE µs (R70, R81); SFQ_IDLE = 0 means no idle close (R85). -/
def execSfqIdleClose (d : Die) (n : Fin 32) (s : State) : Host.Outcome State Fault Refusal :=
  .next (if !s.unitsRun d ∨ s.fld (R.SFQ_IDLE d n) 0 16 = 0 then s
    else if (s.sfqOf d n).pkt.isSome ∨ (s.sfqOf d n).skip then s.sfqClosePkt d n true
    else if (s.sfqOf d n).lanes ≠ [] then s.sfqCut d n .flush
    else s)

/-- SFQ_FLUSH: a write of SFQ_CTRL with FLUSH = 1 (R70). -/
def execSfqFlush (who : Requester) (d : Die) (n : Fin 32) (v : Word) (s : State) : Host.Outcome State Fault Refusal :=
  .next (s.guardWrite who (R.SFQ_CTRL d n) .w32 (effSfqCtrl who d n (v ||| 0x1_0000)))

/-- SFQ_CLOSE: a write of SFQ_CTRL with CLOSE = 1 (R81). -/
def execSfqClose (who : Requester) (d : Die) (n : Fin 32) (v : Word) (s : State) : Host.Outcome State Fault Refusal :=
  .next (s.guardWrite who (R.SFQ_CTRL d n) .w32 (effSfqCtrl who d n (v ||| 0x2_0000)))

/-- SFQ_RESET: a write of SFQ_CTRL with RESET = 1 (R75, R85). -/
def execSfqReset (who : Requester) (d : Die) (n : Fin 32) (v : Word) (s : State) : Host.Outcome State Fault Refusal :=
  .next (s.guardWrite who (R.SFQ_CTRL d n) .w32 (effSfqCtrl who d n (v ||| 0x4_0000)))

/-- SFQ_CONFIG_WRITE: a write of SFQ_CTRL (R77, R78, R85). -/
def execSfqConfigWrite (who : Requester) (d : Die) (n : Fin 32) (v : Word) (s : State) : Host.Outcome State Fault Refusal :=
  .next (s.guardWrite who (R.SFQ_CTRL d n) .w32 (effSfqCtrl who d n v))

/-- SFQ_READ_LO (R73, R74, R77). -/
def execSfqReadLo (who : Requester) (d : Die) (n : Fin 32) (s : State) : Host.Outcome State Fault Refusal :=
  .next (s.sfqReadCmd who d n false)

/-- SFQ_READ_PAIR (R73, R74, R77). -/
def execSfqReadPair (who : Requester) (d : Die) (n : Fin 32) (s : State) : Host.Outcome State Fault Refusal :=
  .next (s.sfqReadCmd who d n true)

/-- SFQ_STALLED_READ_DONE: an entry is there for the stalled read (R74). -/
def execSfqStalledReadDone (d : Die) (n : Fin 32) (s : State) : Host.Outcome State Fault Refusal :=
  .next (if (s.sfqOf d n).stalled = [] then s else
    match (s.sfqPurge d n).sfqPop d n with
    | some (v, t) => t.sfqEndStall d n (.ok v)
    | none => s.sfqPurge d n)

/-- SFQ_READ_TIMEOUT: a stalled read, of several the oldest, has waited SFQ_TIMEOUT µs (R74). -/
def execSfqReadTimeout (d : Die) (n : Fin 32) (s : State) : Host.Outcome State Fault Refusal :=
  .next (if (s.sfqOf d n).stalled = [] then s
    else ((s.count (R.SFQ_TMO_CNT d n)).setFlag (R.SFQ_STAT d n) 12 true).sfqEndStall d n (.error causeTIMEOUT))

/-- SFQ_DRAIN_WRITE (R79 to R83). -/
def execSfqDrainWrite (d : Die) (n : Fin 32) (s : State) : Host.Outcome State Fault Refusal :=
  .next (if s.unitsRun d ∧ s.flag (R.SFQ_CTRL d n) 1 ∧ !(s.sfqOf d n).stopped then s.sfqDrain d n else s)

/-- SFQ_RPTR_WRITE (R80). -/
def execSfqRptrWrite (who : Requester) (d : Die) (n : Fin 32) (v : Word) (s : State) : Host.Outcome State Fault Refusal :=
  .next (s.guardWrite who (R.SFQ_RPTR d n) .w32 (effSfqRptr who d n v))

end Sys2Proof.Machine
end

