-- ==== Sys2Proof/Machine/Can.lean ====
section
/-! DEFINITION. The CAN controllers (R323 to R352): modes, bit timing, bit-rate detection, transmit buffers, filters, receive
queues with their read windows, errors and bus-off, sleep and wake. -/

namespace Sys2Proof.Machine

/-! ## State of a controller -/

/-- The hidden side of a controller. -/
def State.canOf (s : State) (d : Die) (c : Nat) : Can := Tab.get (fun _ => {}) s.can (d.idx * 4 + c)

/-- The state with a controller's hidden side replaced. -/
def State.setCan (s : State) (d : Die) (c : Nat) (x : Can) : State :=
  { s with can := Tab.put (fun _ => {}) s.can (d.idx * 4 + c) x }

/-- Mode in effect (CAN_STAT.MODE_NOW). -/
def State.canMode (s : State) (d : Die) (c : Nat) : Nat := s.fld (R.CAN_STAT d c) 0 3

/-- Whether a transmit buffer is PENDING. -/
def State.canPend (s : State) (d : Die) (c n : Nat) : Bool := s.flag (R.CAN_TX_CTRL d c n) 8

/-- Whether the controller is in bus-off. -/
def State.canBusOff (s : State) (d : Die) (c : Nat) : Bool := decide (s.fld (R.CAN_STAT d c) 3 2 = 2)

/-- Bits of CAN_EVENT set; any that CAN_IRQ_EN enables raises CE_EVT.CAN of an owning engine (R352). -/
def State.canEvent (s : State) (d : Die) (c i : Nat) : State :=
  let s := s.setFlag (R.CAN_EVENT d c) i true
  if s.flag (R.CAN_IRQ_EN d c) i then s.ownerEvent d (s.fld (R.CAN_OWNER d c) 0 8) 1 else s

/-- A receive queue. -/
def Can.q (x : Can) (q : Nat) : CanQ := x.qs.getD q {}

/-- A receive queue replaced. -/
def Can.setQ (x : Can) (q : Nat) (y : CanQ) : Can := { x with qs := x.qs.set q y }

/-- A receive queue replaced, and LEVEL with it: the frames the owner has not passed. -/
def State.setCanQ (s : State) (d : Die) (c q : Nat) (y : CanQ) : State :=
  (s.setCan d c ((s.canOf d c).setQ q y)).setFld (R.CAN_Q_STAT d c q) 0 6 (y.held - y.posL)

/-! ## Ending requests and leaving the bus -/

/-- Nothing of the controller's is on the bus: TX_ACTIVE falls, and IDLE shows whether it has integrated (R352). -/
def State.canIdle (s : State) (d : Die) (c : Nat) : State :=
  (s.setFlag (R.CAN_STAT d c) 7 false).setFlag (R.CAN_STAT d c) 6 (s.canOf d c).integ

/-- A request ends (R337): words 4 to 7 written, PENDING cleared, TXn set.  The spec states no stamp for a frame that never started: free
values (log entry 98). -/
def State.canTxEnd (s : State) (d : Die) (c n result : Nat) (stamp : Option (List Word)) : State :=
  let x := s.canOf d c
  let open_ := (List.range 3).map fun i => wd (Config.freeValue (s.fresh + i)).toNat
  let s : State := match stamp with | none => { s with fresh := s.fresh + 3 } | some _ => s
  let s := (List.range 3).foldl (fun s i => s.setReg (R.CAN_TXB d c n (4 + i)) ((stamp.getD open_).getD i 0)) s
  let s := s.setReg (R.CAN_TXB d c n 7) (wd (1 + result * 2 + min 255 (x.retries.getD n 0) * 256))
  let s := s.setFlag (R.CAN_TX_CTRL d c n) 8 false
  let s := s.setCan d c { s.canOf d c with retries := x.retries.set n 0, abort := x.abort &&& (7 ^^^ 2 ^ n),
                                           onBus := if x.onBus = some n then none else x.onBus }
  (if x.onBus = some n then s.canIdle d c else s).canEvent d c (2 + n)

/-- Every pending request ends with a result; `k` buffers are left to look at. -/
def State.canEndAll (s : State) (d : Die) (c result : Nat) : Nat → State
  | 0 => s
  | k + 1 =>
    let n := 3 - (k + 1)
    (if s.canPend d c n then s.canTxEnd d c n result (if (s.canOf d c).onBus = some n then some (s.canOf d c).sof.triple else none)
      else s).canEndAll d c result k

/-- A queue flushed: every frame discarded and the lock released (R344). -/
def State.canFlush (s : State) (d : Die) (c q : Nat) : State :=
  let y := (s.canOf d c).q q
  (s.setCanQ d c q { head := (y.head + y.held) % 32 }).setFlag (R.CAN_Q_STAT d c q) 8 false

/-- The controller waits for 11 recessive bits before it takes part again (R328). -/
def State.canLeaveBus (s : State) (d : Die) (c : Nat) : State :=
  let s := s.setCan d c { s.canOf d c with integ := false, onBus := none }
  (s.setFlag (R.CAN_STAT d c) 6 false).setFlag (R.CAN_STAT d c) 7 false

/-- A mode in effect, written and shown. -/
def State.canSetMode (s : State) (d : Die) (c m : Nat) : State :=
  (s.setFld (R.CAN_CTRL d c) 0 3 m).setFld (R.CAN_STAT d c) 0 3 m

/-- ASLEEP, and CANn_STB with it: high puts the transceiver in standby (R348, R349). -/
def State.canStandby (s : State) (d : Die) (c : Nat) (b : Bool) : State :=
  (s.setCan d c { s.canOf d c with stb := b }).setFlag (R.CAN_STAT d c) 10 b

/-- Bit-rate detection stops with FAIL, CAN_NBT as it was (R332, R350). -/
def State.abrFail (s : State) (d : Die) (c : Nat) : State :=
  let x := s.canOf d c
  let s := if x.abrTry.isSome then s.setReg (R.CAN_NBT d c) x.abrNbt else s
  let s := s.setCan d c { x with abrTry := none, abrGood := 0 }
  ((s.setFlag (R.CAN_ABR d c) 30 false).setFlag (R.CAN_ABR d c) 28 true).canEvent d c 13

/-- A per-function reset of a controller (R350). -/
def State.canReset (s : State) (d : Die) (c : Nat) : State :=
  let s := (((s.canEndAll d c 5 3).canFlush d c 0).canFlush d c 1).canLeaveBus d c
  let s := (s.setFld (R.CAN_ERR d c) 0 16 0).setFld (R.CAN_STAT d c) 3 3 0
  let s := s.setFlag (R.CAN_STAT d c) 9 false
  (if s.flag (R.CAN_ABR d c) 30 then s.abrFail d c else s).fnReset d 6 c

/-- The placement that holds a controller is RELEASED: INIT, requests ended, queues flushed, the supervisors own it (R326, R328). -/
def State.canRelease (s : State) (d : Die) (c : Nat) : State :=
  let s := (((s.canEndAll d c 5 3).canFlush d c 0).canFlush d c 1).canLeaveBus d c
  ((s.canSetMode d c 0).canStandby d c false).setFld (R.CAN_OWNER d c) 0 8 0x20

/-- A wake: CANn_STB low, WAKE, counted, back to NORMAL after integration (R349). -/
def State.canWakeUp (s : State) (d : Die) (c : Nat) : State :=
  let s := ((s.canStandby d c false).canSetMode d c 1).canLeaveBus d c
  (s.count (R.CAN_CNT_WAKE d c)).canEvent d c 14

/-! ## Register writes -/

/-- Whether a requester may act on a controller: its owner, or a shadow slot that is to own it (R326, R338, R345). -/
def State.canOwned (s : State) (who : Requester) (d : Die) (c : Nat) : Bool :=
  decide (s.fld (R.CAN_OWNER d c) 0 8 = who.unitOwner d) || s.shadowHolds who d 38 (0x4000 * c)

/-- An owner's write; a shadow slot's is diverted. -/
def State.canWrite (s : State) (who : Requester) (d : Die) (c a : Nat) (v : Word) (e : Eff) : Eff :=
  if s.canOwned who d c then s.divert who a v e else .error causeRULE

/-- A mode written (R328, R348, R349). -/
def State.canModeWrite (s : State) (d : Die) (c m : Nat) : Eff :=
  let now := s.canMode d c
  let ctl := s.fld (R.CAN_CTRL d c) 0 3
  if m > 4 then .error causeRULE
  else if m = ctl then .ok s
  else if m = 4 then
    if s.canPend d c 0 || s.canPend d c 1 || s.canPend d c 2 then .error causeRULE
    else .ok (s.setFld (R.CAN_CTRL d c) 0 3 4)
  else if m = 1 ∧ ctl = 4 then .ok (s.canWakeUp d c)
  else if m = 0 then .ok (((s.canEndAll d c 5 3).canLeaveBus d c).canSetMode d c 0 |>.canStandby d c false)
  else
    let s := (s.canSetMode d c m).canStandby d c false
    .ok (if m ≤ 2 ∧ (now = 0 ∨ now = 4) then s.canLeaveBus d c else s)

/-- A RECOVER write: in bus-off, recovery starts (R347). -/
def State.canRecoverStart (s : State) (d : Die) (c : Nat) : State :=
  if s.canBusOff d c then s.setFlag (R.CAN_STAT d c) 9 true else s

/-- Effect of a write of CAN_CTRL: SRST, RECOVER and MODE (R328, R347, R350). -/
def effCanCtrl (who : Requester) (d : Die) (c : Nat) (v : Word) (s : State) : Eff :=
  s.canWrite who d c (R.CAN_CTRL d c) v
    (match s.canModeWrite d c (bits v 0 3) with
     | .error e => .error e
     | .ok s =>
       let s := if bit v 4 then s.canRecoverStart d c else s
       .ok (if bit v 5 then s.canReset d c else s))

/-- CAN clocks of a nominal bit (R329). -/
def canNomBit (w : Word) : Nat := (bits w 0 8 + 1) * (1 + (bits w 8 8 + 1) + (bits w 16 7 + 1))

/-- CAN clocks of a data bit (R329). -/
def canDatBit (w : Word) : Nat := (bits w 0 5 + 1) * (1 + (bits w 8 6 + 1) + (bits w 16 5 + 1))

/-- Whether a CAN_NBT value keeps the limits of R324 beside the data timings. -/
def State.canNbtOk (s : State) (d : Die) (c : Nat) (w : Word) : Bool :=
  decide (1 ≤ bits w 8 8) && decide (80 ≤ canNomBit w) && decide (canNomBit w ≤ 8000) &&
  decide (canDatBit (s.getReg (R.CAN_DBT d c)) ≤ canNomBit w) && decide (canDatBit (s.getReg (R.CAN_XBT d c)) ≤ canNomBit w)

/-- Whether a data timing keeps the limits of R324: 8 Mbit/s for CAN FD, 20 Mbit/s for CAN XL, never below the nominal rate. -/
def State.canDbtOk (s : State) (d : Die) (c : Nat) (xl : Bool) (w : Word) : Bool :=
  decide ((if xl then 4 else 10) ≤ canDatBit w) && decide (canDatBit w ≤ canNomBit (s.getReg (R.CAN_NBT d c)))

/-- Effect of a write of bit timing, CAN_CFG or CAN_Qq_CFG: in INIT only, within the limits (R324, R328, R331). -/
def effCanInit (who : Requester) (d : Die) (c a : Nat) (mask v : Word) (s : State) : Eff :=
  let ok := if a = R.CAN_NBT d c then s.canNbtOk d c v
    else if a = R.CAN_DBT d c then s.canDbtOk d c false v
    else if a = R.CAN_XBT d c then s.canDbtOk d c true v
    else if a = R.CAN_CFG d c then !(bit v 5 && !bit v 6) && decide (1 ≤ bits v 24 8)
    else true
  s.canWrite who d c a v
    (if s.canMode d c ≠ 0 ∨ !ok then .error causeRULE
     else .ok (s.setReg a ((s.getReg a &&& ~~~mask) ||| (v &&& mask))))

/-- Effect of a write of a plain register of a controller: IRQ_EN, wake match, candidates, filters (R339, R352). -/
def effCanPlain (who : Requester) (d : Die) (c a : Nat) (mask v : Word) (s : State) : Eff :=
  s.canWrite who d c a v (.ok (s.setReg a ((s.getReg a &&& ~~~mask) ||| (v &&& mask))))

/-- Effect of a write of CAN_EVENT: ones clear (R352). -/
def effCanEvent (who : Requester) (d : Die) (c : Nat) (v : Word) (s : State) : Eff :=
  s.canWrite who d c (R.CAN_EVENT d c) v (.ok (s.andNotReg (R.CAN_EVENT d c) (v &&& 0xFFFF)))

/-- Whether a controller sends and receives a frame format (R323, R333). -/
def State.canFmtOn (s : State) (d : Die) (c fmt : Nat) : Bool :=
  decide (fmt = 0) || (decide (fmt = 1) && s.flag (R.CAN_CFG d c) 3) || (decide (fmt = 2) && s.flag (R.CAN_CFG d c) 4)

/-- Whether the record in a transmit buffer may be sent (R333, R335). -/
def State.canTxOk (s : State) (d : Die) (c n : Nat) : Bool :=
  let w0 := s.getReg (R.CAN_TXB d c n 0)
  let fmt := s.fld (R.CAN_TXB d c n 1) 0 2
  let len := s.fld (R.CAN_TXB d c n 2) 0 12
  !s.canPend d c n && s.canMode d c ≠ 0 && s.canMode d c ≠ 2 && s.canFmtOn d c fmt && (decide (fmt = 0) || !bit w0 30) &&
  (decide (fmt ≠ 2) || (decide (1 ≤ len) && decide (len ≤ 2048)))

/-- A request that its frame has not started ends with RESULT 1; one on the bus is to end when its frame does (R338). -/
def State.canAbort (s : State) (d : Die) (c n : Nat) : State :=
  let x := s.canOf d c
  if !s.canPend d c n then s
  else if x.onBus = some n then s.setCan d c { x with abort := x.abort ||| 2 ^ n }
  else s.canTxEnd d c n 1 none

/-- Effect of a write of CAN_TXn_CTRL (R335, R338, R349). -/
def effCanTx (who : Requester) (d : Die) (c n : Nat) (v : Word) (s : State) : Eff :=
  let a := R.CAN_TX_CTRL d c n
  s.canWrite who d c a v
    (if bit v 0 ∧ bit v 1 then .ok s
     else if bit v 1 then .ok ((s.setFlag a 2 (bit v 2)).canAbort d c n)
     else if bit v 0 then
       if !s.canTxOk d c n then .error causeRULE
       else
         let s := (s.setFlag a 2 (bit v 2)).setFlag a 8 true
         .ok (if s.fld (R.CAN_CTRL d c) 0 3 = 4 then s.canWakeUp d c else s)
     else .ok (s.setFlag a 2 (bit v 2)))

/-- Effect of a write of a transmit buffer word: refused while PENDING; words 4 to 7 are read-only (R335). -/
def effCanTxb (who : Requester) (d : Die) (c n i : Nat) (v : Word) (s : State) : Eff :=
  s.canWrite who d c (R.CAN_TXB d c n i) v
    (if s.canPend d c n then .error causeRULE
     else if 4 ≤ i ∧ i ≤ 7 then .ok s
     else .ok (s.setReg (R.CAN_TXB d c n i) v))

/-- Effect of a write of CAN_ABR: TMO, and START in LISTEN only (R332, R569). -/
def effCanAbr (who : Requester) (d : Die) (c : Nat) (v : Word) (s : State) : Eff :=
  let a := R.CAN_ABR d c
  s.canWrite who d c a v
    (if bits v 20 8 = 0 ∨ (bit v 31 ∧ s.canMode d c ≠ 2) then .error causeRULE
     else
       let s := s.setFld a 20 8 (bits v 20 8)
       if bit v 31 then
         let s := s.setCan d c { s.canOf d c with abrTry := none, abrGood := 0, abrNbt := s.getReg (R.CAN_NBT d c) }
         .ok (((s.setFld a 28 3 4).setFld a 16 3 0).setFld a 0 16 0)
       else .ok s)

/-! ## Receive queues (R340, R341, R344, R345) -/

/-- Address of slot `i` of a queue. -/
def State.canSlot (s : State) (d : Die) (c q i : Nat) : Nat :=
  d.org + s.fld (R.CAN_Q_BASE d c q) 6 20 * 64 + i % 32 * (if s.flag (R.CAN_Q_CFG d c q) 0 then 2112 else 128)

/-- Frames both readers have passed are freed (R345). -/
def CanQ.freed (y : CanQ) (shadow : Bool) : CanQ :=
  let k := if shadow then min y.posL y.posS else y.posL
  { y with head := (y.head + k) % 32, held := y.held - k, posL := y.posL - k, posS := y.posS - k }

/-- A reader's position past `k` frames: the lock released and the slots freed that nobody still wants (R344, R345). -/
def State.canAdvance (s : State) (d : Die) (c q : Nat) (sh : Bool) (k : Nat := 1) : State :=
  let x := s.canOf d c
  let y := x.q q
  if sh then s.setCanQ d c q ({ y with posS := min (y.posS + k) y.held, lockS := false }.freed x.shadow)
  else (s.setCanQ d c q ({ y with posL := min (y.posL + k) y.held }.freed x.shadow)).setFlag (R.CAN_Q_STAT d c q) 8 false

/-- A read of window word `i` of a queue by its owner or a shadow target, loaded from the pool through port 12.  R59 does not say what
the controller gives its reader for an uncorrectable word, nor R64 for one it cannot load: a free value (R28, R326, R344, R345; log entry 98). -/
def readCanWindow (who : Requester) (d : Die) (c q i : Nat) (s : State) : Except Nat (Word × State) :=
  let x := s.canOf d c
  let y := x.q q
  if !s.canOwned who d c then .error causeRULE
  else
    let sh := s.shadowHolds who d 38 (0x4000 * c)
    let pos := if sh then y.posS else y.posL
    if y.held ≤ pos then .ok (0, s)
    else
      let slot := s.canSlot d c q (y.head + pos)
      let last := bits (s.word (slot + 8)) 16 10
      if i > last then .ok (0, s)
      else
        let s := if sh then s.setCan d c (x.setQ q { y with lockS := true }) else s.setFlag (R.CAN_Q_STAT d c q) 8 true
        let (v, t) : Word × State := match s.poolRead d 12 (slot - d.org + 4 * i) 4 with
          | (.error _, t) => (wd t.freeNow.toNat, t.drawn)
          | (.ok bs, t) => (wd (ofLe bs), t)
        .ok (v, if i = last then t.canAdvance d c q sh else t)

/-- Effect of a write of CAN_Qq_CTRL: FLUSH, else SKIP; a shadow target's moves its own position only, and is captured (R338, R344, R345). -/
def effCanQ (who : Requester) (d : Die) (c q : Nat) (v : Word) (s : State) : Eff :=
  let sh := s.shadowHolds who d 38 (0x4000 * c)
  let t := if bit v 1 then s.canAdvance d c q sh 32 else if bit v 0 then s.canAdvance d c q sh else s
  t.canWrite who d c (R.CAN_Q_CTRL d c q) v (.ok t)

/-- The target of a migration gets its own read positions, at the live owner's (R345). -/
def State.canShadow (s : State) (d : Die) (c : Nat) : State :=
  let x := s.canOf d c
  s.setCan d c { x with shadow := true, qs := x.qs.map fun y => { y with posS := y.posL, lockS := false } }

/-- The target's positions become the queues' at a switch-over, whose change of owner releases the locks, or are discarded (R344, R345). -/
def State.canShadowEnd (s : State) (d : Die) (c : Nat) (adopt : Bool) : State :=
  let x := s.canOf d c
  let one (s : State) (q : Nat) : State :=
    let y := x.q q
    (s.setCanQ d c q ({ y with posL := if adopt then y.posS else y.posL, posS := 0, lockS := false }.freed false)).setFlag
      (R.CAN_Q_STAT d c q) 8 (!adopt && s.flag (R.CAN_Q_STAT d c q) 8)
  one (one (s.setCan d c { x with shadow := false }) 0) 1

/-- CAN_OWNER replaced: a change releases the locks of both windows without advancing (R326, R344). -/
def State.canSetOwner (s : State) (d : Die) (c o : Nat) : State :=
  let s := if s.fld (R.CAN_OWNER d c) 0 8 = o then s
    else (s.setFlag (R.CAN_Q_STAT d c 0) 8 false).setFlag (R.CAN_Q_STAT d c 1) 8 false
  s.setFld (R.CAN_OWNER d c) 0 8 o

/-! ## Delivery of a frame (R339 to R343) -/

/-- Whether filter `f` matches a frame's header words. -/
def State.canMatches (s : State) (d : Die) (c f : Nat) (w0 w1 : Word) : Bool :=
  let ctl := s.getReg (R.CAN_FLT_CTRL d c f)
  let fmt := bits w1 0 2
  bit ctl 0 &&
  decide (((w0 ^^^ s.getReg (R.CAN_FLT_MATCH d c f)) &&& s.getReg (R.CAN_FLT_MASK d c f) &&& 0x1FFFFFFF) = 0) &&
  (bits ctl 4 2 = 0 || decide (bits ctl 4 2 = fmt + 1)) &&
  (!bit ctl 7 || (bit w0 29 == bit ctl 6)) &&
  (decide (fmt ≠ 2) || decide ((bits w1 16 8 ^^^ bits ctl 16 8) &&& bits ctl 24 8 = 0))

/-- Data words of a frame of `n` bytes. -/
def canDataWords (n : Nat) : Nat := (n + 3) / 4

/-- Destination 2: the record, in the units of the stream FIFO that names the controller (R342). -/
def State.canToFifo (s : State) (d : Die) (c : Nat) (ws : List Word) : State :=
  match firstIdx 32 fun q => s.flag (R.SFQ_CTRL d q) 0 && decide (s.fld (R.SFQ_CTRL d q) 4 5 = 16 + c) with
  | none => (s.count (R.CAN_CNT_FIFO_DROP d c)).canEvent d c 11
  | some q =>
    let bs := wordBytes ws
    let n := if s.flag (R.SFQ_CTRL d q) 3 then 2 else 1
    let units := bs.length / n
    (List.range units).foldl (fun s i =>
      s.sfqTake d q ((bs.drop (i * n)).take n) (s.fld (R.CAN_OWNER d c) 16 16) (decide (i + 1 = units))) s

/-- Destinations 0 and 1: the record into the queue's tail slot, in whole words through port 12, or dropped and counted (R28, R341).  The rest
of a last word that the record leaves half filled is a free value, and a frame that the pool refuses is dropped (log entry 98). -/
def State.canToQueue (s : State) (d : Die) (c q : Nat) (ws : List Word) (xl : Bool) (len : Nat) : State :=
  let y := (s.canOf d c).q q
  if xl && decide (len > 64) && !s.flag (R.CAN_Q_CFG d c q) 0 then s.count (R.CAN_CNT_TOOLONG d c)
  else if y.held ≥ 32 then
    (s.count (if q = 0 then R.CAN_CNT_OVR_A d c else R.CAN_CNT_OVR_B d c)).canEvent d c (9 + q)
  else
    let a := s.canSlot d c q (y.head + y.held) - d.org
    let bs := s.wordPad (wordBytes ws)
    match ({ s with fresh := s.fresh + 2 } : State).poolWriteSpan d 12 a (bs.map some) (lineCount a bs.length) with
    | (.ok _, s) => (s.setCanQ d c q { y with held := y.held + 1 }).canEvent d c q
    | (.error _, s) => s

/-- A frame through the filters to its destination; `frame` is words 0 to 3 and the data words (R333, R339, R343).  One that arrives while no
placement holds the controller is dropped, and CAN_CNT_NOMATCH counts it once (R341). -/
def State.canDeliver (s : State) (d : Die) (c : Nat) (frame : List Word) (stamp : List Word) (echo : Bool) : State :=
  let w0 := frame.getD 0 0
  let w1 := frame.getD 1 0
  let w2 := frame.getD 2 0
  let len := bits w2 0 12
  let hit := firstIdx 64 fun f => s.canMatches d c f w0 w1
  let dest := match hit with
    | some f => s.fld (R.CAN_FLT_CTRL d c f) 1 2
    | none => s.fld (R.CAN_CFG d c) 8 2
  let s := if hit.isNone then s.count (R.CAN_CNT_NOMATCH d c) else s
  let w7 := s.fld (R.CAN_OWNER d c) 16 16 + hit.getD 0 * 0x1_0000 + (if hit.isNone then 0x40_0000 else 0) + (if echo then 0x80_0000 else 0)
  let rec' := [w0 ||| 0x80000000, w1, setBits (w2 &&& 0xFFFF) 16 10 (7 + canDataWords len), frame.getD 3 0] ++ stamp.take 3 ++
    [wd w7] ++ (frame.drop 4).take (canDataWords len)
  if s.fld (R.CAN_OWNER d c) 0 8 = 0x20 then (if hit.isNone then s else s.count (R.CAN_CNT_NOMATCH d c)) else
  match dest with
  | 0 => s.canToQueue d c 0 rec' (bits w1 0 2 = 2) len
  | 1 => s.canToQueue d c 1 rec' (bits w1 0 2 = 2) len
  | 2 => s.canToFifo d c rec'
  | _ => s

/-! ## Errors (R346, R347) -/

/-- The transmit error counter and the receive error counter; 128 stands for a receive counter above 127. -/
def State.canTec (s : State) (d : Die) (c : Nat) : Nat := s.fld (R.CAN_ERR d c) 0 8
def State.canRec (s : State) (d : Die) (c : Nat) : Nat :=
  if s.flag (R.CAN_ERR d c) 15 then 128 else s.fld (R.CAN_ERR d c) 8 7

/-- Entry to bus-off: requests end with RESULT 4, BOFF, counted (R347). -/
def State.canBoff (s : State) (d : Die) (c : Nat) : State :=
  let s := ((s.setFld (R.CAN_STAT d c) 3 2 2).canEndAll d c 4 3).canLeaveBus d c
  (s.count (R.CAN_CNT_BOFF d c)).canEvent d c 7

/-- Both counters written, the states and events that follow from them (R346). -/
def State.canCounters (s : State) (d : Die) (c tec rcv : Nat) : State :=
  let wasWarn := s.flag (R.CAN_STAT d c) 5
  let was := s.fld (R.CAN_STAT d c) 3 2
  let s := (s.setFld (R.CAN_ERR d c) 0 8 (min tec 255)).setFld (R.CAN_ERR d c) 8 7 (min rcv 127)
  let s := s.setFlag (R.CAN_ERR d c) 15 (decide (rcv > 127))
  let warn := decide (tec ≥ 96) || decide (rcv ≥ 96)
  let s := s.setFlag (R.CAN_STAT d c) 5 warn
  let s := if warn && !wasWarn then s.canEvent d c 5 else s
  if tec > 255 then s.canBoff d c
  else
    let passive := decide (tec > 127) || decide (rcv > 127)
    let s := s.setFld (R.CAN_STAT d c) 3 2 (if passive then 1 else 0)
    if passive && decide (was = 0) then s.canEvent d c 6 else s

/-- A frame sent lowers the transmit error counter (R346, ISO 11898-1). -/
def State.canGoodTx (s : State) (d : Die) (c : Nat) : State := s.canCounters d c (s.canTec d c - 1) (s.canRec d c)

/-- A frame received lowers the receive error counter; from above 127 it takes a value of 119 to 127 that the standard leaves to
the controller: a free value (R346, ISO 11898-1, log entry 3). -/
def State.canGoodRx (s : State) (d : Die) (c : Nat) : State :=
  let r := s.canRec d c
  if r > 127 then (s.drawn).canCounters d c (s.canTec d c) (119 + s.freeNow.toNat % 9)
  else s.canCounters d c (s.canTec d c) (r - 1)

/-! ## Bit-rate detection (R332) -/

/-- The first candidate from `lo` on whose bit time lies within 2 % of the measured interval is tried. -/
def State.abrNext (s : State) (d : Die) (c lo : Nat) : State :=
  let m := s.fld (R.CAN_ABR d c) 0 16
  let pick := firstIdx 8 fun k =>
    let w := s.getReg (R.CAN_ABR_CAND d c k)
    let b := canNomBit w
    decide (lo ≤ k) && decide (w ≠ 0) && decide ((if m ≤ b then b - m else m - b) * 50 ≤ b)
  let s := s.setCan d c { s.canOf d c with abrTry := pick, abrGood := 0 }
  match pick with
  | some k => s.setReg (R.CAN_NBT d c) (s.getReg (R.CAN_ABR_CAND d c k))
  | none => s

/-- A frame ended while detection runs, which it does in LISTEN only: `good` error-free or not, `edge` the shortest interval seen (0 for none).
After an error under candidate k the measured state is back and the search goes on with candidate k + 1 (R332; DEDUCED, log entry 98). -/
def State.abrFrame (s : State) (d : Die) (c : Nat) (good : Bool) (edge : Nat) : State :=
  if !s.flag (R.CAN_ABR d c) 30 ∨ s.canMode d c ≠ 2 then s else
  let m := s.fld (R.CAN_ABR d c) 0 16
  let s := if edge ≠ 0 ∧ (m = 0 ∨ edge < m) then s.setFld (R.CAN_ABR d c) 0 16 (min edge 65535) else s
  let x := s.canOf d c
  match x.abrTry with
  | some k =>
    if good then
      if x.abrGood + 1 ≥ 2 then
        let s := s.setCan d c { x with abrTry := none, abrGood := 0 }
        ((s.setFld (R.CAN_ABR d c) 16 3 k).setFld (R.CAN_ABR d c) 28 3 2).canEvent d c 12
      else s.setCan d c { x with abrGood := x.abrGood + 1 }
    else (s.setReg (R.CAN_NBT d c) x.abrNbt).abrNext d c (k + 1)
  | none => s.abrNext d c 0

/-! ## Meanings: modes -/

/-- A write of MODE with the rest of CAN_CTRL 0. -/
def State.canModeCmd (s : State) (who : Requester) (d : Die) (c m : Nat) : State :=
  s.guardWrite who (R.CAN_CTRL d c) .w32 (effCanCtrl who d c (wd m))

/-- CAN_MODE_INIT (R328). -/
def execCanModeInit (who : Requester) (d : Die) (c : Fin 4) (s : State) : Host.Outcome State Fault Refusal :=
  .next (s.canModeCmd who d c.val 0)

/-- CAN_MODE_NORMAL (R328). -/
def execCanModeNormal (who : Requester) (d : Die) (c : Fin 4) (s : State) : Host.Outcome State Fault Refusal :=
  .next (s.canModeCmd who d c.val 1)

/-- CAN_MODE_LISTEN (R328). -/
def execCanModeListen (who : Requester) (d : Die) (c : Fin 4) (s : State) : Host.Outcome State Fault Refusal :=
  .next (s.canModeCmd who d c.val 2)

/-- CAN_MODE_LOOPBACK (R328). -/
def execCanModeLoopback (who : Requester) (d : Die) (c : Fin 4) (s : State) : Host.Outcome State Fault Refusal :=
  .next (s.canModeCmd who d c.val 3)

/-- CAN_MODE_SLEEP (R348). -/
def execCanModeSleep (who : Requester) (d : Die) (c : Fin 4) (s : State) : Host.Outcome State Fault Refusal :=
  .next (s.canModeCmd who d c.val 4)

/-- CAN_SRST: SRST written beside the mode as it stands (R350). -/
def execCanSrst (who : Requester) (d : Die) (c : Fin 4) (s : State) : Host.Outcome State Fault Refusal :=
  .next (s.guardWrite who (R.CAN_CTRL d c.val) .w32 (effCanCtrl who d c.val (wd (0x20 + s.fld (R.CAN_CTRL d c.val) 0 3))))

/-- CAN_RECOVER: RECOVER written beside the mode as it stands (R347). -/
def execCanRecover (who : Requester) (d : Die) (c : Fin 4) (s : State) : Host.Outcome State Fault Refusal :=
  .next (s.guardWrite who (R.CAN_CTRL d c.val) .w32 (effCanCtrl who d c.val (wd (0x10 + s.fld (R.CAN_CTRL d c.val) 0 3))))

/-- CAN_SLEEP_ENTER: no frame is in progress any more; the transceiver goes to standby (R348). -/
def execCanSleepEnter (d : Die) (c : Fin 4) (s : State) : Host.Outcome State Fault Refusal :=
  .next (if s.unitsRun d ∧ s.fld (R.CAN_CTRL d c.val) 0 3 = 4 ∧ s.canMode d c.val ≠ 4 then
    ((s.canLeaveBus d c.val).setFld (R.CAN_STAT d c.val) 0 3 4).canStandby d c.val true else s)

/-- CAN_BUS_INTEGRATED: 11 recessive bits; in NORMAL or LISTEN the controller takes part (R328). -/
def execCanBusIntegrated (d : Die) (c : Fin 4) (s : State) : Host.Outcome State Fault Refusal :=
  let m := s.canMode d c.val
  .next (if s.unitsRun d ∧ (m = 1 ∨ m = 2) ∧ !s.canBusOff d c.val then
    (s.setCan d c.val { s.canOf d c.val with integ := true }).setFlag (R.CAN_STAT d c.val) 6 true else s)

/-- CAN_BOFF_DELAY: with AUTO_REC, BO_DELAY has passed and recovery starts (R347). -/
def execCanBoffDelay (d : Die) (c : Fin 4) (s : State) : Host.Outcome State Fault Refusal :=
  .next (if s.unitsRun d ∧ s.flag (R.CAN_CFG d c.val) 1 then s.canRecoverStart d c.val else s)

/-- CAN_RECOVERED: 128 sequences seen by a controller that takes part on the bus; error-active with both counters 0 (R347). -/
def execCanRecovered (d : Die) (c : Fin 4) (s : State) : Host.Outcome State Fault Refusal :=
  let c := c.val
  .next (if s.unitsRun d ∧ s.canBusOff d c ∧ s.flag (R.CAN_STAT d c) 9 ∧ (s.canMode d c = 1 ∨ s.canMode d c = 2) then
    let s := ((s.setFld (R.CAN_ERR d c) 0 16 0).setFld (R.CAN_STAT d c) 3 3 0).setFlag (R.CAN_STAT d c) 9 false
    let s := s.setCan d c { s.canOf d c with integ := true }
    (s.canIdle d c).canEvent d c 8
  else s)

/-! ## Meanings: transmitting -/

/-- CAN_TX_REQ: REQ written with ONESHOT (R335). -/
def execCanTxReq (who : Requester) (d : Die) (c : Fin 4) (n : Fin 3) (oneshot : Bool) (s : State) :
    Host.Outcome State Fault Refusal :=
  .next (s.guardWrite who (R.CAN_TX_CTRL d c.val n.val) .w32 (effCanTx who d c.val n.val (if oneshot then 5 else 1)))

/-- CAN_TX_ABORT: ABORT written, ONESHOT as it stands (R338). -/
def execCanTxAbort (who : Requester) (d : Die) (c : Fin 4) (n : Fin 3) (s : State) : Host.Outcome State Fault Refusal :=
  .next (s.guardWrite who (R.CAN_TX_CTRL d c.val n.val) .w32
    (effCanTx who d c.val n.val (wd (2 + s.fld (R.CAN_TX_CTRL d c.val n.val) 2 1 * 4))))

/-- Arbitration of a buffer's frame as a number, lower winning on the bus (R336, ISO 11898-1): base identifier, RTR or SRR, IDE, extended
identifier, RTR, then the format, whose bits go dominant for Classical CAN before CAN FD before CAN XL. -/
def State.canArb (s : State) (d : Die) (c n : Nat) : Nat :=
  let w0 := s.getReg (R.CAN_TXB d c n 0)
  let rtr := bits w0 30 1
  let fmt := s.fld (R.CAN_TXB d c n 1) 0 2
  (bits w0 18 11 * 0x20_0000 +
    (if bit w0 29 ∧ fmt ≠ 2 then 0x18_0000 + bits w0 0 18 * 2 + rtr else rtr * 0x10_0000)) * 4 + fmt

/-- The buffer to offer next (R336). -/
def State.canChoose (s : State) (d : Die) (c : Nat) : Option Nat :=
  let ps := (List.range 3).filter fun n => s.canPend d c n
  if s.flag (R.CAN_CFG d c) 0 then ps.head?
  else ps.foldl (fun b n => match b with
    | none => some n
    | some m => if s.canArb d c n < s.canArb d c m then some n else some m) none

/-- Data bytes of a DLC code (R323, R335): above 8, classical frames carry 8. -/
def canDlcBytes (fd : Bool) (dlc : Nat) : Nat :=
  if dlc ≤ 8 then dlc else if !fd then 8 else [12, 16, 20, 24, 32, 48, 64].getD (dlc - 9) 64

/-- The frame a buffer sends: header words and data words, LEN as its format takes it, ESI the controller's state (R333, R335). -/
def State.canTxFrame (s : State) (d : Die) (c n : Nat) : List Word :=
  let w0 := s.getReg (R.CAN_TXB d c n 0)
  let w1 := s.getReg (R.CAN_TXB d c n 1)
  let w2 := s.getReg (R.CAN_TXB d c n 2)
  let len := match bits w1 0 2 with
    | 0 => if bit w0 30 then 0 else canDlcBytes false (bits w2 12 4)
    | 1 => canDlcBytes true (bits w2 12 4)
    | _ => bits w2 0 12
  [w0 &&& 0x7FFFFFFF, setBits w1 3 1 (if s.fld (R.CAN_STAT d c) 3 2 = 1 then 1 else 0), setBits w2 0 12 len,
    s.getReg (R.CAN_TXB d c n 3)] ++ (List.range (canDataWords len)).map fun i => s.getReg (R.CAN_TXB d c n (8 + i))

/-- CAN_TX_FRAME_START: the chosen buffer's frame goes on the bus, or into the loop (R328, R336). -/
def execCanTxFrameStart (d : Die) (c : Fin 4) (s : State) : Host.Outcome State Fault Refusal :=
  let c := c.val
  let x := s.canOf d c
  let ready := s.unitsRun d ∧ ((s.canMode d c = 1 ∧ x.integ) ∨ s.canMode d c = 3)
  .next (if ¬ready ∨ s.canBusOff d c ∨ x.onBus.isSome then s else
    match s.canChoose d c with
    | none => s
    | some n =>
      let s := ((s.setCan d c { x with onBus := some n, sof := s.now d }).setFlag (R.CAN_STAT d c) 7 true).setFlag (R.CAN_STAT d c) 6 false
      if s.canMode d c = 3 then s else s.emit (.can d c (s.canTxFrame d c n)))

/-- An error on the bus: counted, its code kept and reported; the error counters follow ISO 11898-1 outside LISTEN (R346). -/
def State.canBusErr (s : State) (d : Die) (c code : Nat) (dataPhase heavy : Bool) (edge : Nat) : State :=
  let m := s.canMode d c
  if ¬(s.unitsRun d ∧ (m = 1 ∨ m = 2) ∧ (s.canOf d c).integ ∧ !s.canBusOff d c) then s else
  let s := (s.abrFrame d c false edge).count (R.CAN_CNT_ERRF d c)
  let s := (s.setFld (R.CAN_ERR d c) (if dataPhase then 20 else 16) 3 code).canEvent d c 15
  let tx := (s.canOf d c).onBus.isSome
  if m = 2 then s
  else if tx then
    if code = 3 ∧ s.fld (R.CAN_STAT d c) 3 2 = 1 then s else s.canCounters d c (s.canTec d c + 8) (s.canRec d c)
  else s.canCounters d c (s.canTec d c) (min 128 (s.canRec d c + (if heavy then 8 else 1)))

/-- Whether a frame has a data phase at another rate: CAN FD with BRS, or CAN XL (R329, R330). -/
def canDataPhase (frame : List Word) : Bool := (bits (frame.getD 1 0) 0 2 = 1 && bit (frame.getD 1 0) 2) || decide (2 ≤ bits (frame.getD 1 0) 0 2)

/-- The frame on the bus ends without success: aborted, given up where it is one-shot, or tried again (R337, R338). -/
def State.canTxFail (s : State) (d : Die) (c n : Nat) (stamp : List Word) (lost : Bool) : State :=
  let x := s.canOf d c
  if x.abort.testBit n then s.canTxEnd d c n 1 (some stamp)
  else if s.flag (R.CAN_TX_CTRL d c n) 2 then s.canTxEnd d c n (if lost then 2 else 3) (some stamp)
  else (s.setCan d c { x with onBus := none, retries := x.retries.set n (min 255 (x.retries.getD n 0 + 1)) }).canIdle d c

/-- CAN_TX_COMPLETE: the frame on the bus ends: sent, lost arbitration or met an error (R337, R338, R343).  `e.loop` is the loop delay in clocks
where it came to its data phase: TDC_EN measures it, and a delay over 127 clocks is a bit error of that phase, whose polarity is a free
value (R330; log entry 98). -/
def execCanTxComplete (d : Die) (c : Fin 4) (e : CanSent) (s : State) : Host.Outcome State Fault Refusal :=
  let c := c.val
  let x := s.canOf d c
  .next (if !s.unitsRun d then s else match x.onBus with
    | none => s
    | some n =>
      let frame := s.canTxFrame d c n
      let stamp := x.sof.triple
      let meas := if s.flag (R.CAN_TDC d c) 0 ∧ canDataPhase frame ∧ s.canMode d c = 1 then e.loop else none
      let s := match meas with | some v => s.setFld (R.CAN_TDC d c) 24 7 (min v 127) | none => s
      let late : Bool := match meas with | some v => decide (127 < v) | none => false
      if late then
        let s := s.drawn.canBusErr d c (if bit s.freeNow 0 then 4 else 5) true false 0
        if (s.canOf d c).onBus = some n then s.canTxFail d c n stamp false else s
      else match e.how with
      | .sent =>
        let s := (s.canTxEnd d c n 0 (some stamp)).count (R.CAN_CNT_TX d c)
        let s := s.canGoodTx d c
        if s.flag (R.CAN_CFG d c) 2 ∨ s.canMode d c = 3 then s.canDeliver d c frame stamp true else s
      | .lost => s.canTxFail d c n stamp true
      | .failed => s.canTxFail d c n stamp false)

/-! ## Meanings: receiving, errors -/

/-- CAN_FRAME_RX: an error-free frame of the bus in an enabled format, whose SOF fell `age` ns ago: counted, filtered, delivered; detection sees it
(R332, R339, R341). -/
def execCanFrameRx (d : Die) (c : Fin 4) (frame : List Word) (age : Nat) (edge : Nat) (s : State) : Host.Outcome State Fault Refusal :=
  let c := c.val
  let m := s.canMode d c
  .next (if ¬(s.unitsRun d ∧ (m = 1 ∨ m = 2) ∧ (s.canOf d c).integ ∧ !s.canBusOff d c ∧ s.canFmtOn d c (bits (frame.getD 1 0) 0 2)) then s else
    let s := (s.abrFrame d c true edge).count (R.CAN_CNT_RX d c)
    (s.canGoodRx d c).canDeliver d c frame ((s.now d).ago age).triple false)

/-- CAN_BUS_ERROR: an error is detected, in a frame being sent or received; `heavy` when ISO 11898-1 raises the receive counter
by 8 (R346). -/
def execCanBusError (d : Die) (c : Fin 4) (code : Fin 7) (dataPhase : Bool) (heavy : Bool) (edge : Nat) (s : State) :
    Host.Outcome State Fault Refusal := .next (s.canBusErr d c.val code.val dataPhase heavy edge)

/-- CAN_ABR_START: a write of CAN_ABR with START set (R332). -/
def execCanAbrStart (who : Requester) (d : Die) (c : Fin 4) (v : Word) (s : State) : Host.Outcome State Fault Refusal :=
  .next (s.guardWrite who (R.CAN_ABR d c.val) .w32 (effCanAbr who d c.val (v ||| 0x80000000)))

/-- CAN_ABR_TIMEOUT: TMO seconds have passed; detection fails (R332). -/
def execCanAbrTimeout (d : Die) (c : Fin 4) (s : State) : Host.Outcome State Fault Refusal :=
  .next (if s.unitsRun d ∧ s.flag (R.CAN_ABR d c.val) 30 then s.abrFail d c.val else s)

/-- Whether a frame is the wake frame (R348): format, identifier under its mask, first eight data bytes under theirs. -/
def State.canWakeFrame (s : State) (d : Die) (c : Nat) (frame : List Word) : Bool :=
  let w1 := frame.getD 1 0
  let eq (a b m : Word) : Bool := decide ((a ^^^ b) &&& m = 0)
  (bits w1 0 2 = 0 || (bits w1 0 2 = 1 && !bit w1 2 && s.canFmtOn d c 1)) &&
  eq (frame.getD 0 0) (s.getReg (R.CAN_WAKE_ID d c)) (s.getReg (R.CAN_WAKE_MASK d c) &&& 0x3FFFFFFF) &&
  eq (frame.getD 4 0) (s.getReg (R.CAN_WAKE_DATA_LO d c)) (s.getReg (R.CAN_WAKE_DMASK_LO d c)) &&
  eq (frame.getD 5 0) (s.getReg (R.CAN_WAKE_DATA_HI d c)) (s.getReg (R.CAN_WAKE_DMASK_HI d c))

/-- CAN_WAKE: in sleep, the dominant edge, or in wake mode 1 a frame, which passes through the filters when it wakes (R348, R349). -/
def execCanWake (d : Die) (c : Fin 4) (frame : List Word) (age : Nat) (s : State) : Host.Outcome State Fault Refusal :=
  let c := c.val
  .next (if !s.unitsRun d ∨ !s.flag (R.CAN_STAT d c) 10 then s
    else if !s.flag (R.CAN_CFG d c) 10 then s.canWakeUp d c
    else if s.canWakeFrame d c frame then (s.canWakeUp d c).canDeliver d c frame ((s.now d).ago age).triple false
    else s)

/-- CAN_WINDOW_READ: a checked read of a window word (R344, R345). -/
def execCanWindowRead (who : Requester) (d : Die) (c : Fin 4) (q : Fin 2) (i : Fin 520) (s : State) :
    Host.Outcome State Fault Refusal :=
  .next (s.guardRead who (R.CAN_RX d c.val q.val i.val) .w32 fun s =>
    match readCanWindow who d c.val q.val i.val s with
    | .error e => .error e
    | .ok (w, t) => .ok ([w], t))

/-- CAN_QUEUE_SKIP: SKIP written (R344). -/
def execCanQueueSkip (who : Requester) (d : Die) (c : Fin 4) (q : Fin 2) (s : State) : Host.Outcome State Fault Refusal :=
  .next (s.guardWrite who (R.CAN_Q_CTRL d c.val q.val) .w32 (effCanQ who d c.val q.val 1))

/-- CAN_QUEUE_FLUSH: FLUSH written (R344). -/
def execCanQueueFlush (who : Requester) (d : Die) (c : Fin 4) (q : Fin 2) (s : State) : Host.Outcome State Fault Refusal :=
  .next (s.guardWrite who (R.CAN_Q_CTRL d c.val q.val) .w32 (effCanQ who d c.val q.val 2))

/-- CAN_PARITY_ERROR: a rank-1 fault of the controller (R351, R116). -/
def execCanParityError (d : Die) (c : Fin 4) (s : State) : Host.Outcome State Fault Refusal := .next (s.unitFault d 6 c.val)

end Sys2Proof.Machine
end

