-- ==== Sys2Proof/Machine/Fio.lean ====
section
/-! DEFINITION. The isolated field I/O section of Die 0 (R461 to R477): the isolation link with both its sides, the outputs with
their owners and holds, the trip, the common fault and the steps of the in-service test. -/

namespace Sys2Proof.Machine

/-! ## Registers and sums -/

/-- A field of the section's registers. -/
def fioStat : Nat := R.FIO_STAT .d0

/-- The state with the section's hidden side replaced. -/
def State.setFio (s : State) (f : Fio) : State := { s with fio := f }

/-- Commanded, applied and held outputs (R477 FIO_OUT). -/
def State.fioCmd (s : State) : Nat := s.fld (R.FIO_OUT .d0) 0 8
def State.fioHeld (s : State) : Nat := s.fld (R.FIO_OUT .d0) 16 8

/-- Filtered inputs as FIO_IN shows them. -/
def State.fioIn (s : State) : Nat := s.fld (R.FIO_IN .d0) 0 16

/-- FIO_STAT.FAULT brought up to its causes: the field side's bit, a trip that holds, a failed test.  A rise sets FAULT, counts,
stamps, logs 0x902 and raises doorbell FIO (R473, R477). -/
def State.fioFault (s : State) : State :=
  let f := s.fio
  let now := f.fieldFault || f.trip || f.testFail
  let was := s.flag fioStat 4
  let s := s.setFlag fioStat 4 now
  if now && !was then
    let s := (s.count (R.FIO_CNT_FAULT .d0)).event .d0 (R.FIO_EVENT .d0) 0 dblFIO
    let s := (s.setReg (R.FIO_FAULT_S .d0) (wd (s.now .d0).sec)).setReg (R.FIO_FAULT_NS .d0) (wd (s.now .d0).ns)
    s.logEv .d0 0x902 3 8 0 s.fioIn
  else s

/-- Every output held off, as FIO_OUT with HOLD = 1 and level 0 would (R466, R475). -/
def State.fioHoldAll (s : State) : State := (s.setFld (R.FIO_OUT .d0) 0 8 0).setFld (R.FIO_OUT .d0) 16 8 0xFF

/-- A trip on the logic side, unless one holds already (R466). -/
def State.fioTrip (s : State) : State :=
  if s.fio.trip then s else
  let s := (s.setFio { s.fio with trip := true }).fioHoldAll
  let s := ((s.setFlag fioStat 5 false).setFlag fioStat 0 false).setFlag fioStat 1 true
  let s := (s.setFlag (R.FIO_EVENT .d0) 1 true).count (R.FIO_CNT_TRIP .d0)
  (s.logEv .d0 0x901 3 8 0 s.fioIn).fioFault

/-! ## Frames (R464) -/

/-- A frame with its CRC-16, most significant byte first. -/
def fioSeal (bs : List Byte) : List Byte := bs ++ beBytes 2 (crc16 bs)

/-- A frame whose length, SYNC and CRC are good (R465). -/
def fioGood (sync : Nat) (f : List Byte) : Bool :=
  decide (f.length = 8) && decide (byteAt f 0 / 16 = sync) && decide (beAt f 6 2 = crc16 (f.take 6))

/-- SEQ of a frame. -/
def fioSeq (f : List Byte) : Nat := byteAt f 0 % 16

/-- The downlink frame of a period (R464): the outputs as they stand, mode, test bit, types, filter and wire-break enables. -/
def State.fioDownFrame (s : State) : List Byte :=
  let cfg := s.getReg (R.FIO_CFG .d0)
  let wb := s.fld (R.FIO_WB_EN .d0) 0 16
  fioSeal ([0xA0 + s.fio.dnSeq % 16, s.fioCmd,
    (if s.flag fioStat 1 then 1 else 0) + (if s.flag fioStat 2 then 2 else 0) + bits cfg 0 1 * 4 + bits cfg 1 1 * 8,
    bits cfg 8 8, wb % 256, wb / 256].map (BitVec.ofNat 8))

/-- Outputs as the field side applies them: none while tripped, none that is shut down (R462, R466). -/
def Fio.applied (f : Fio) : Nat := if f.tripped then 0 else f.outs &&& ((0xFF ^^^ f.shut) % 256)

/-- The field side's common fault bit (R473). -/
def Fio.fault (f : Fio) : Bool := f.supply || f.hot || decide (f.shut ≠ 0) || decide (f.broken ≠ 0)

/-- The uplink frame of the field side (R464). -/
def Fio.upFrame (f : Fio) (dnErr : Bool) : List Byte :=
  fioSeal ([0x50 + f.upSeq % 16, f.inputs % 256, f.inputs / 256 % 256, f.applied,
    (if f.fault then 1 else 0) + (if dnErr then 2 else 0) + (if f.tripped then 4 else 0) + (if f.cosMode then 8 else 0), 0].map
    (BitVec.ofNat 8))

/-- The uplink sent, and the field side's SEQ advanced (R465). -/
def State.fioUplink (s : State) (dnErr : Bool) : State :=
  (s.emit (.fio false (s.fio.upFrame dnErr))).setFio { s.fio with upSeq := (s.fio.upSeq + 1) % 16 }

/-- A bad downlink on the field side: the third in a row trips it and turns every output off (R466). -/
def Fio.bad (f : Fio) : Fio :=
  let f := { f with badDn := f.badDn + 1, goodDn := 0 }
  if f.badDn ≥ 3 then { f with tripped := true, outs := 0 } else f

/-- A good downlink on the field side: after a trip the third in a row ends it; outputs commanded to 0 clear a shutdown; the OUT
byte is ignored while tripped (R462, R465, R466, R470). -/
def Fio.good (f : Fio) (fr : List Byte) : Fio :=
  let n := f.goodDn + 1
  let trip := f.tripped && decide (n < 3)
  let out := byteAt fr 1
  let cos := decide (byteAt fr 2 % 2 = 1)
  { f with lastDn := some (fioSeq fr), badDn := 0, goodDn := n, tripped := trip,
           outs := if trip then 0 else out, shut := if trip then f.shut else f.shut &&& out, cosMode := cos,
           wbEn := byteAt fr 4 + byteAt fr 5 * 256, broken := if cos then 0 else f.broken &&& (byteAt fr 4 + byteAt fr 5 * 256) }

/-! ## The logic side's reception -/

/-- An uplink that is missing, corrupt or a repeat: counted; the third in a row is a trip (R465, R466).  In the third period
of a test its missing outputs fail the check. -/
def State.fioBadUp (s : State) : State :=
  let s := (s.count (R.FIO_CNT_UP_ERR .d0)).setFlag fioStat 0 false
  let s := s.setFio { s.fio with badUp := s.fio.badUp + 1 }
  if s.fio.badUp ≥ 3 then s.fioTrip else s

/-- Changes of the filtered inputs in change-of-state mode: FIO_COS, HEALTH on receiver 0 and one entry 0x903 for each input
that changed (R470, R471). -/
def State.fioChanges (s : State) (diff : Nat) : Nat → State
  | 0 => s
  | n + 1 =>
    let k := 16 - (n + 1)
    (if diff.testBit k then ((s.orReg (R.FIO_COS .d0) (maskOf k 1)).raiseSup .d0 28).logEv .d0 0x903 0 8 0 s.fioIn
     else s).fioChanges diff n

/-- A good uplink (R465, R466, R471, R473, R477). -/
def State.fioGoodUp (s : State) (fr : List Byte) : State :=
  let q := fioSeq fr
  let s := match s.fio.lastUp with
    | some p => if (p + 1) % 16 = q then s else s.count (R.FIO_CNT_SEQ_GAP .d0)
    | none => s
  let st := byteAt fr 4
  let s := s.setFio { s.fio with lastUp := some q, badUp := 0, fieldFault := decide (st % 2 = 1) }
  let s := if st / 2 % 2 = 1 then s.count (R.FIO_CNT_DN_ERR .d0) else s
  let s := s.setFld (R.FIO_OUT .d0) 8 8 (byteAt fr 3)
  if st / 4 % 2 = 1 then s.fioTrip.fioFault
  else
    let s := (s.setFio { s.fio with trip := false })
    let s := (s.setFlag fioStat 0 true).setFlag fioStat 5 true
    let new := byteAt fr 1 + byteAt fr 2 * 256
    let diff := s.fioIn ^^^ new
    let s := s.setFld (R.FIO_IN .d0) 0 16 new
    (if s.flag fioStat 1 then s.fioChanges diff 16 else s).fioFault

/-- The uplink of a period of the in-service test: its check, and the step after it (R474).  Step 2 expects DN_ERR, step 4
has an error injected and expects the frame counted as corrupt, step 6 compares the outputs; then the result stands. -/
def State.fioTestCheck (s : State) (ok : Bool) : State :=
  let f := s.fio
  if f.test = 2 ∨ f.test = 4 then s.setFio { f with test := f.test + 1, testOk := f.testOk && ok }
  else if f.test = 6 then
    s.setFio { f with test := 0, testOk := true, testRes := some (f.testOk && ok) }
  else s

/-! ## Meanings of the link's commands -/

/-- FIO_REFRESH: a downlink frame goes out, in the first period of a test with a wrong CRC; in P3 and P4 none is sent (R464,
R469, R474, R476). -/
def execFioRefresh (s : State) : Host.Outcome State Fault Refusal :=
  .next (if s.power .d0 ≥ 3 then s else
    let f := s.fio
    let fr := s.fioDownFrame
    let fr := if f.test = 1 then fr.take 7 ++ [byteBad (fr.getD 7 0)] else fr
    let s := s.emit (.fio true fr)
    let t := if f.test = 1 ∨ f.test = 3 ∨ f.test = 5 then f.test + 1 else f.test
    s.setFio { f with dnSeq := (f.dnSeq + 1) % 16, dnOut := s.fioCmd, test := t })
where
  /-- A byte that is not the given one. -/
  byteBad (b : Byte) : Byte := ~~~b

/-- FIO_DOWNLINK_RX: the field side accepts or rejects the frame, trips on the third bad one, and answers with an uplink
(R464 to R466). -/
def execFioDownlinkRx (frame : List Byte) (s : State) : Host.Outcome State Fault Refusal :=
  let f := s.fio
  let ok := fioGood 0xA frame && decide (f.lastDn ≠ some (fioSeq frame))
  .next ((s.setFio (if ok then f.good frame else f.bad)).fioUplink (!ok))

/-- FIO_UPLINK_TIMER: no downlink began in time; it counts as missing, and the uplink goes out on the field side's own timer
(R464, R466). -/
def execFioUplinkTimer (s : State) : Host.Outcome State Fault Refusal :=
  .next ((s.setFio s.fio.bad).fioUplink true)

/-- FIO_UPLINK_RX: the logic side takes an uplink (R465, R466), in a test with the period's check (R474). -/
def execFioUplinkRx (frame : List Byte) (s : State) : Host.Outcome State Fault Refusal :=
  let good := fioGood 0x5 frame && decide (s.fio.lastUp ≠ some (fioSeq frame))
  .next (if s.fio.test = 4 then s.fioBadUp.fioTestCheck true
    else if !good then s.fioBadUp.fioTestCheck false
    else
      let ok := if s.fio.test = 2 then decide (byteAt frame 4 / 2 % 2 = 1) else decide (byteAt frame 3 = s.fio.dnOut)
      (s.fioGoodUp frame).fioTestCheck ok)

/-- FIO_UPLINK_MISSING: no uplink within 22 µs (R465, R466). -/
def execFioUplinkMissing (s : State) : Host.Outcome State Fault Refusal :=
  .next (s.fioBadUp.fioTestCheck false)

/-! ## Events of the field side -/

/-- FIO_OVERCURRENT: an output that is on is switched off until a refresh commands it to 0 (R462). -/
def execFioOvercurrent (k : Fin 8) (s : State) : Host.Outcome State Fault Refusal :=
  .next (if s.fio.applied.testBit k.val then s.setFio { s.fio with shut := s.fio.shut ||| 2 ^ k.val } else s)

/-- FIO_INPUT_CHANGE: a filtered input takes a new level (R469). -/
def execFioInputChange (k : Fin 16) (level : Bool) (s : State) : Host.Outcome State Fault Refusal :=
  let f := s.fio
  .next (s.setFio { f with inputs := (f.inputs &&& (0xFFFF ^^^ 2 ^ k.val)) ||| (if level then 2 ^ k.val else 0) })

/-- FIO_WIRE_BREAK: in normal service an enabled input becomes broken (R470, R472). -/
def execFioWireBreak (k : Fin 16) (s : State) : Host.Outcome State Fault Refusal :=
  let f := s.fio
  .next (if !f.cosMode && f.wbEn.testBit k.val then s.setFio { f with broken := f.broken ||| 2 ^ k.val } else s)

/-- FIO_WIRE_RESTORED: a broken input is no longer broken (R472). -/
def execFioWireRestored (k : Fin 16) (s : State) : Host.Outcome State Fault Refusal :=
  .next (s.setFio { s.fio with broken := s.fio.broken &&& (0xFFFF ^^^ 2 ^ k.val) })

/-- FIO_SUPPLY_FAULT: the field supply is out of range (R473). -/
def execFioSupplyFault (s : State) : Host.Outcome State Fault Refusal := .next (s.setFio { s.fio with supply := true })

/-- FIO_SUPPLY_RESTORED: the field supply is back (R473). -/
def execFioSupplyRestored (s : State) : Host.Outcome State Fault Refusal := .next (s.setFio { s.fio with supply := false })

/-- FIO_OVERTEMP: the field side is above 150 °C (R473). -/
def execFioOvertemp (s : State) : Host.Outcome State Fault Refusal := .next (s.setFio { s.fio with hot := true })

/-- FIO_TEMP_RESTORED: the field side is at 150 °C or below again (R473). -/
def execFioTempRestored (s : State) : Host.Outcome State Fault Refusal := .next (s.setFio { s.fio with hot := false })

/-! ## Writes of the outputs and of their owners -/

/-- Outputs named in a mask take their bits of a value; those held are left alone (R152, R468). -/
def State.fioDrive (s : State) (mask value : Nat) : State :=
  let m := mask &&& ((0xFF ^^^ s.fioHeld) % 256)
  s.setFld (R.FIO_OUT .d0) 0 8 ((s.fioCmd &&& (0xFF ^^^ m)) ||| (value &&& m))

/-- Whether a slot owns output `k`: FIO_OWNk names an intent held whose LIVE or PINNED placement, or whose target, is in that
slot (R467, R468). -/
def State.fioOwns (s : State) (d : Die) (ce slot k : Nat) : Bool :=
  let h := (s.getReg (R.FIO_OWN .d0 k)).toNat
  s.handleHeld h && (s.intent h).placements.any fun p => p.occupies d ce slot

/-- Effect of a write of FIO_OUT_WR (R407, R468, R475): by an owning slot, or by a supervisor; a shadow slot's write only goes to
the compare, and one with a stale epoch is fenced (R112, R467). -/
def effFioOutWr (who : Requester) (v : Word) (s : State) : Eff :=
  let mask := bits v 0 8
  let value := bits v 8 8
  match who with
  | .sup _ _ => .ok (s.fioDrive mask value)
  | .ce d k =>
    match s.runSlot d k with
    | none => .error causeRULE
    | some slot =>
      if (List.range 8).any fun i => mask.testBit i && !s.fioOwns d k slot i then .error causeRULE
      else
        let t := s.recordOutput d k slot 33 (leBytes 2 (bits v 0 16))
        if s.slotShadow d k slot then .ok t
        else if s.slotStale d k slot then .ok (s.fenceDiscard d 2 k 1)
        else .ok (t.fioDrive mask value)
  | _ => .error causeRULE

/-- Effect of a write of FIO_OWNk: by the host or a supervisor, while OUTk is held, with no handle or one that is held (R467). -/
def effFioOwn (who : Requester) (k : Nat) (v : Word) (s : State) : Eff :=
  match who with
  | .ce _ _ => .error causeRULE
  | _ =>
    if !s.fioHeld.testBit k then .error causeRULE
    else if v ≠ 0 ∧ !s.handleHeld v.toNat then .error causeRULE
    else .ok (s.setReg (R.FIO_OWN .d0 k) v)

/-- FIO_OUT_WR: a checked write of the register on the block of die `d`; Die 1's is carried to Die 0's (R468, R469). -/
def execFioOutWr (who : Requester) (d : Die) (v : Word) (s : State) : Host.Outcome State Fault Refusal :=
  .next (s.guardWrite who (R.FIO_OUT_WR d) .w32 (effFioOutWr who v))

/-- FIO_OWN_WRITE: a checked write of FIO_OWNk (R467). -/
def execFioOwnWrite (who : Requester) (d : Die) (k : Fin 8) (v : Word) (s : State) : Host.Outcome State Fault Refusal :=
  .next (s.guardWrite who (R.FIO_OWN d k.val) .w32 (effFioOwn who k.val v))

end Sys2Proof.Machine
end

