-- ==== Sys2Proof/Machine/Stencil.lean ====
section
/-! DEFINITION. The stencils (R443 to R455) and the general pins (R456 to R458): programs, ticks, waits, the guard, shared flags,
pin functions and their handover. -/

namespace Sys2Proof.Machine

/-! ## State of a stencil -/

/-- The hidden side of a stencil. -/
def State.stnOf (s : State) (d : Die) (n : Nat) : Stn := Tab.get (fun _ => {}) s.stn (d.idx * 16 + n)

/-- The state with a stencil's hidden side replaced. -/
def State.setStn (s : State) (d : Die) (n : Nat) (x : Stn) : State :=
  { s with stn := Tab.put (fun _ => {}) s.stn (d.idx * 16 + n) x }

/-- STN_STAT.STATE: 0 stopped, 1 running, 2 halted by HALT, 3 error stop. -/
def State.stnState (s : State) (d : Die) (n : Nat) : Nat := s.fld (R.STN_STAT d n) 0 2

/-- Whether a stencil runs. -/
def State.stnRuns (s : State) (d : Die) (n : Nat) : Bool := decide (s.stnState d n = 1)

/-- Current step. -/
def State.stnPc (s : State) (d : Die) (n : Nat) : Nat := s.fld (R.STN_STAT d n) 8 5

/-- Word of the current step. -/
def State.stnWord (s : State) (d : Die) (n : Nat) : Word := s.getReg (R.STN_PROG d n (s.stnPc d n))

/-- Fields of a step (R450). -/
def stnOp (w : Word) : Nat := bits w 28 4
def stnTgt (w : Word) : Nat := bits w 23 5
def stnX (w : Word) : Nat := bits w 20 3
def stnY (w : Word) : Nat := bits w 16 4
def stnImm (w : Word) : Nat := bits w 0 16

/-- D of the divider (R446). -/
def State.stnD (s : State) (d : Die) (n : Nat) : Nat := s.fld (R.STN_DIV d n) 8 16 * 256 + s.fld (R.STN_DIV d n) 0 8

/-! ## The pads (R456, R458) -/

/-- Level a pad was last driven to. -/
def State.padLevel (s : State) (d : Die) (k : Nat) : Bool := Tab.get (fun _ => false) s.padLvl (d.idx * 48 + k)

/-- Whether a warm reset holds a pad (R484). -/
def State.padIsHeld (s : State) (d : Die) (k : Nat) : Bool := Tab.get (fun _ => false) s.padHeld (d.idx * 48 + k)

/-- The hold of a pad ends: it passes to its driver by the handover of R458 (R484). -/
def State.padRelease (s : State) (d : Die) (k : Nat) : State :=
  if !s.padIsHeld d k then s
  else ({ s with padHeld := Tab.put (fun _ => false) s.padHeld (d.idx * 48 + k) false } : State).setFlag (R.PIN_CFG d k) 25 true

/-- A synchronised level seen on a pad (R460 IN). -/
def State.padSeen (s : State) (d : Die) (k : Nat) (lvl : Bool) : State :=
  if k < 48 then s.setFlag (R.PIN_CFG d k) 24 lvl else s

/-- What the pin's driver asks for: level, OE, whether it is the SAFE state (R456, R460). -/
def State.padAsks (s : State) (d : Die) (k : Nat) : Bool × Bool × Bool :=
  let c := s.getReg (R.PIN_CFG d k)
  let safe : Bool × Bool × Bool := match bits c 8 2 with
    | 0 => (s.padLevel d k, bit c 26, true)
    | 1 => (false, true, true)
    | 2 => (true, true, true)
    | _ => (s.padLevel d k, false, true)
  match bits c 0 3 with
  | 1 => (bit c 16, bit c 17, false)
  | 2 => if s.stnRuns d (bits c 4 4) then
      match (s.stnOf d (bits c 4 4)).drv with
      | some (l, e) => (l, e, false)
      | none => safe
    else safe
  | _ => (s.padLevel d k, false, false)

/-- A pad follows its driver, unless a handover is in progress or a warm reset holds it (R458, R484). -/
def State.padUpdate (s : State) (d : Die) (k : Nat) : State :=
  if k ≥ 48 ∨ s.flag (R.PIN_CFG d k) 25 ∨ s.padIsHeld d k then s else
  let (l, e, safe) := s.padAsks d k
  let s := (s.setFlag (R.PIN_CFG d k) 26 e).setFlag (R.PIN_CFG d k) 27 safe
  let s := { s with padLvl := Tab.put (fun _ => false) s.padLvl (d.idx * 48 + k) (if e then l else s.padLevel d k) }
  if e then s.padSeen d k l else s

/-- The OUT pin of a stencil, when the pin is the stencil's (R448, R456). -/
def State.stnOutPin (s : State) (d : Die) (n : Nat) : Option Nat :=
  let k := s.fld (R.STN_PINS d n) 8 6
  if k < 48 ∧ s.fld (R.PIN_CFG d k) 0 3 = 2 ∧ s.fld (R.PIN_CFG d k) 4 4 = n then some k else none

/-- The stencil's pad brought up to what it drives. -/
def State.stnPad (s : State) (d : Die) (n : Nat) : State :=
  match s.stnOutPin d n with
  | some k => s.padUpdate d k
  | none => s

/-- The stencil drives its OUT pin (R450 OUT, SET). -/
def State.stnDrive (s : State) (d : Die) (n : Nat) (lvl oe : Bool) : State :=
  (s.setStn d n { s.stnOf d n with drv := some (lvl, oe) }).stnPad d n

/-! ## Shared flags and events (R454) -/

/-- CE_EVT.STN of every engine that watches a flag that changed; `n` engines are left to look at. -/
def State.stnWatch (s : State) (d : Die) (diff : Nat) : Nat → State
  | 0 => s
  | n + 1 =>
    let k := 24 - (n + 1)
    (if s.fld (R.STN_WATCH d k) 0 16 &&& diff ≠ 0 then s.setFlag (R.CE_EVT d k) 4 true else s).stnWatch d diff n

/-- Shared flags of a die take a new value; both registers show them. -/
def State.stnFlags (s : State) (d : Die) (new : Nat) : State :=
  let old := s.fld (R.STN_FLAG_SET d) 0 16
  let s := (s.setFld (R.STN_FLAG_SET d) 0 16 new).setFld (R.STN_FLAG_CLR d) 0 16 new
  s.stnWatch d (old ^^^ (new % 65536)) 24

/-- One shared flag set or cleared. -/
def State.stnFlag1 (s : State) (d : Die) (i : Nat) (b : Bool) : State :=
  let old := s.fld (R.STN_FLAG_SET d) 0 16
  s.stnFlags d (if b then old ||| 2 ^ i else old &&& (0xFFFF ^^^ 2 ^ i))

/-- A bit of STN_EVENT sets, and flag EFLAG with it where EFLAG_EN is 1 (R454). -/
def State.stnEvent (s : State) (d : Die) (n i : Nat) : State :=
  let s := s.setFlag (R.STN_EVENT d n) i true
  if s.flag (R.STN_CFG d n) 28 then s.stnFlag1 d (s.fld (R.STN_CFG d n) 24 4) true else s

/-! ## Running and stopping (R448, R449) -/

/-- WAITING of STN_STAT. -/
def State.stnWaiting (s : State) (d : Die) (n : Nat) (b : Bool) : State := s.setFlag (R.STN_STAT d n) 5 b

/-- The stencil leaves running with a given STATE: what is in progress ends, its OUT pin takes its SAFE state (R448). -/
def State.stnLeave (s : State) (d : Die) (n st : Nat) : State :=
  if !s.stnRuns d n then s else
  let s := ((s.setFld (R.STN_STAT d n) 0 2 st).stnWaiting d n false).setFlag (R.STN_RUNNING d) n false
  let s := s.setFlag (R.STN_CTRL d n) 0 false
  let s := s.setStn d n { s.stnOf d n with busy := false, left := 0, sub := 0, drv := none }
  s.stnPad d n

/-- A per-function reset of a stencil (R449). -/
def State.stnReset (s : State) (d : Die) (n : Nat) : State :=
  let s := s.stnLeave d n 0
  let s := ((s.setReg (R.STN_SR d n) 0).setReg (R.STN_CNT d n) 0).setReg (R.STN_EVENT d n) 0
  (((s.setFld (R.STN_STAT d n) 0 2 0).setFld (R.STN_STAT d n) 8 5 0).andNotReg (R.STN_STAT d n) 0x000F0010).fnReset d 7 n

/-- The program starts at step 0 (R448); a pad that is still held from a warm reset is handed over to it (R484). -/
def State.stnStart (s : State) (d : Die) (n : Nat) : State :=
  let s := match s.stnOutPin d n with | some k => s.padRelease d k | none => s
  let s := ((s.setFld (R.STN_STAT d n) 0 2 1).setFld (R.STN_STAT d n) 8 5 0).stnWaiting d n false
  let s := (s.setFlag (R.STN_RUNNING d) n true).setFlag (R.STN_CTRL d n) 0 true
  (s.setStn d n { s.stnOf d n with busy := false, left := 0, sub := 0, drv := none, div := s.stnD d n }).stnPad d n

/-- The next step of a program: where a jump leads, else the following one; the instruction has ended (R451). -/
def State.stnGo (s : State) (d : Die) (n pc : Nat) : State :=
  ((s.setFld (R.STN_STAT d n) 8 5 pc).stnWaiting d n false).setStn d n { s.stnOf d n with busy := false, left := 0, sub := 0 }

/-- The instruction ends and the next step follows; step 31 is followed by step 0. -/
def State.stnNext (s : State) (d : Die) (n : Nat) : State := s.stnGo d n (s.stnPc d n + 1)

/-- A jump to TGT when a condition holds. -/
def State.stnJump (s : State) (d : Die) (n : Nat) (c : Bool) : State :=
  if c then s.stnGo d n (stnTgt (s.stnWord d n)) else s.stnNext d n

/-- The instruction `op` begins: `f` of the state when the stencil runs and is clocked (R496), no instruction is in progress and the current step is
one, else nothing happens (log entry 5). -/
def State.stnBegin (s : State) (d : Die) (n op : Nat) (f : State → State) : Host.Outcome State Fault Refusal :=
  .next (if s.unitsRun d && s.stnRuns d n && !(s.stnOf d n).busy && decide (stnOp (s.stnWord d n) = op) then f s else s)

/-- A tick or wait instruction is in progress: what it has left and the ticks to its next sample. -/
def State.stnBusy (s : State) (d : Die) (n left sub : Nat) : State :=
  s.setStn d n { s.stnOf d n with busy := true, left := left, sub := sub }

/-- A wait instruction has begun (R451). -/
def State.stnWait (s : State) (d : Die) (n left : Nat) : State := (s.stnBusy d n left 0).stnWaiting d n true

/-! ## Register writes -/

/-- Whether a requester may write a stencil's registers: its owner only, and a shadow slot whose writes are diverted (R443, R444). -/
def State.stnOwned (s : State) (who : Requester) (d : Die) (n : Nat) : Bool :=
  decide (s.fld (R.STN_OWNER d n) 0 8 = who.unitOwner d) || s.shadowHolds who d 39 (0x1000 + 0x200 * n)

/-- An owner's write of a per-stencil register. -/
def State.stnWrite (s : State) (who : Requester) (d : Die) (n a : Nat) (v : Word) (e : Eff) : Eff :=
  if s.stnOwned who d n then s.divert who a v e else .error causeRULE

/-- Effect of a write of STN_CTRL: SRST, else RUN = 1 or RUN = 0 (R448, R449). -/
def effStnCtrl (who : Requester) (d : Die) (n : Nat) (v : Word) (s : State) : Eff :=
  let out := s.fld (R.STN_PINS d n) 8 6
  s.stnWrite who d n (R.STN_CTRL d n) v
    (if bit v 1 then .ok (s.stnReset d n)
     else if !bit v 0 then .ok (s.stnLeave d n 0)
     else if s.stnState d n = 3 ∨ (out ≠ 0x3F ∧ s.stnOutPin d n = none) then .error causeRULE
     else .ok (s.stnStart d n))

/-- Whether a program word is one the table of R450 defines: unused fields 0, the others in range. -/
def stnWordOk (w : Word) : Bool :=
  let t := stnTgt w
  let x := stnX w
  let y := stnY w
  let i := stnImm w
  let n32 := decide (1 ≤ i) && decide (i ≤ 32)
  match stnOp w with
  | 0 => t = 0 && x = 0 && y = 0
  | 1 => t = 0 && decide (x < 2) && n32
  | 2 => t = 0 && decide (x < 2) && n32
  | 3 => t = 0 && decide (x < 4) && y = 0 && i = 0
  | 4 => y = 0
  | 5 => x = 0 && decide (y < 2) && n32
  | 6 => x = 0 && decide (y ≤ 10) && (if y = 8 ∨ y = 9 then decide (i < 16) else i = 0)
  | 7 => t = 0 && x = 0 && y = 0
  | 8 => x = 0 && y = 0 && i = 0
  | 9 => t = 0 && y = 0 && i = 0
  | 10 => t = 0 && x = 0 && y = 0 && i = 0
  | 11 => t = 0 && x = 0 && y = 0 && i = 0
  | 12 => t = 0 && decide (x < 4) && y = 0 && decide (i < 16)
  | 13 => t = 0 && decide (x < 2) && y = 0
  | 14 => t = 0 && x = 0 && y = 0 && i = 0
  | _ => t = 0 && x = 0 && y = 0 && i = 0

/-- Effect of a write of a program word: while the stencil is not running, and only a defined word (R450). -/
def effStnProg (who : Requester) (d : Die) (n i : Nat) (v : Word) (s : State) : Eff :=
  s.stnWrite who d n (R.STN_PROG d n i) v
    (if s.stnRuns d n ∨ !stnWordOk v then .error causeRULE else .ok (s.setReg (R.STN_PROG d n i) v))

/-- Effect of a write of STN_SR: only while the stencil is stopped (R455). -/
def effStnSr (who : Requester) (d : Die) (n : Nat) (v : Word) (s : State) : Eff :=
  s.stnWrite who d n (R.STN_SR d n) v (if s.stnRuns d n then .error causeRULE else .ok (s.setReg (R.STN_SR d n) v))

/-- Effect of a write of STN_TXDATA: only while TXFULL = 0; it sets TXFULL (R455). -/
def effStnTx (who : Requester) (d : Die) (n : Nat) (v : Word) (s : State) : Eff :=
  s.stnWrite who d n (R.STN_TXDATA d n) v
    (if s.flag (R.STN_STAT d n) 4 then .error causeRULE
     else .ok ((s.setReg (R.STN_TXDATA d n) v).setFlag (R.STN_STAT d n) 4 true))

/-- A pin field of STN_PINS: 0 to 47, or 0x3F for none (R459). -/
def stnPinOk (k : Nat) : Bool := decide (k < 48) || decide (k = 0x3F)

/-- Effect of a write of STN_CFG, STN_PINS, STN_CMP or STN_DIV: the owner's, with an INT of 0 or a pin that is not there refused (R443, R446,
R459, R569). -/
def effStnPlain (who : Requester) (d : Die) (n a : Nat) (mask v : Word) (s : State) : Eff :=
  s.stnWrite who d n a v
    (if a = R.STN_DIV d n ∧ bits v 8 16 = 0 then .error causeRULE
     else if a = R.STN_PINS d n ∧ !(stnPinOk (bits v 0 6) && stnPinOk (bits v 8 6) && stnPinOk (bits v 16 6)) then .error causeRULE
     else .ok (s.setReg a ((s.getReg a &&& ~~~mask) ||| (v &&& mask))))

/-- Effect of a write of STN_EVENT: ones clear (R459). -/
def effStnEvent (who : Requester) (d : Die) (n : Nat) (v : Word) (s : State) : Eff :=
  s.stnWrite who d n (R.STN_EVENT d n) v (.ok (s.andNotReg (R.STN_EVENT d n) (v &&& 0xF)))

/-- Whether a requester may write the shared flags: the supervisors, an engine slot that owns a stencil of the die, or the shadow slot that is
to own one, whose writes are diverted (R444, R454). -/
def State.stnFlagWriter (s : State) (who : Requester) (d : Die) : Bool :=
  match who with
  | .sup e _ => decide (e = d)
  | .ce e k => decide (e = d) &&
    (List.range 16).any fun n => (decide (s.fld (R.STN_OWNER d n) 0 8 = k.val) && !s.otherSlot d k.val 39 (0x1000 + 0x200 * n)) ||
      s.shadowHolds who d 39 (0x1000 + 0x200 * n)
  | _ => false

/-- Effect of a write of STN_FLAG_SET or STN_FLAG_CLR (R454). -/
def effStnFlags (who : Requester) (d : Die) (set : Bool) (v : Word) (s : State) : Eff :=
  let old := s.fld (R.STN_FLAG_SET d) 0 16
  let m := bits v 0 16
  if !s.stnFlagWriter who d then .error causeRULE
  else s.divert who (if set then R.STN_FLAG_SET d else R.STN_FLAG_CLR d) v
    (.ok (s.stnFlags d (if set then old ||| m else old &&& (0xFFFF ^^^ m))))

/-- Effect of a write of STN_WATCHk: by that engine or the supervisors (R459). -/
def effStnWatch (who : Requester) (d : Die) (k : Nat) (v : Word) (s : State) : Eff :=
  if who.isSup d ∨ who.unitOwner d = k then
    s.divert who (R.STN_WATCH d k) v (.ok (s.setReg (R.STN_WATCH d k) (wd (bits v 0 16))))
  else .error causeRULE

/-- Effect of a write of PIN_CFG (R456 to R458, R460): by the host or the supervisors; a change of FUNC or STN, or of a GPIO_OE
or SAFE in force, starts a handover, and so does any write of a pin still held from a warm reset (R484). -/
def effPinCfg (who : Requester) (d : Die) (k : Nat) (v : Word) (s : State) : Eff :=
  let a := R.PIN_CFG d k
  let old := s.getReg a
  let new := (old &&& ~~~(0x00033FF7 : Word)) ||| (v &&& 0x00033FF7)
  let change := bits old 0 3 ≠ bits new 0 3 ∨ bits old 4 4 ≠ bits new 4 4
  let names (w : Word) (p : Nat → Bool) : Bool := bits w 0 3 = 2 && p (bits w 4 4)
  let placed (n : Nat) : Bool := s.fld (R.STN_OWNER d n) 0 8 ≠ 0x20 && s.stnState d n ≠ 0
  match who with
  | .ce _ _ => .error causeRULE
  | _ =>
    if bits v 0 3 > 2 ∨ (bit v 10 ∧ bit v 11) then .error causeRULE
    else if change ∧ (bit old 25 ∨ names old (s.stnRuns d) ∨ names new (s.stnRuns d) ∨ names new placed) then .error causeRULE
    else
      let held := s.padIsHeld d k && decide ((s.bootOf d).stage = 6)
      let s' := (if held then (s.setReg a new).padRelease d k else s.setReg a new).cfgTouch
      let inForce := (bits new 0 3 = 1 ∧ bit old 17 ≠ bit new 17) ∨ (bits new 0 3 = 2 ∧ bit old 27 ∧ bits old 8 2 ≠ bits new 8 2)
      .ok (if change ∨ inForce ∨ held then s'.setFlag a 25 true else s'.padUpdate d k)

/-- STN_RUN: a write of RUN = 1 (R448). -/
def execStnRun (who : Requester) (d : Die) (n : Fin 16) (s : State) : Host.Outcome State Fault Refusal :=
  .next (s.guardWrite who (R.STN_CTRL d n.val) .w32 (effStnCtrl who d n.val 1))

/-- STN_STOP: a write of RUN = 0 (R448). -/
def execStnStop (who : Requester) (d : Die) (n : Fin 16) (s : State) : Host.Outcome State Fault Refusal :=
  .next (s.guardWrite who (R.STN_CTRL d n.val) .w32 (effStnCtrl who d n.val 0))

/-- STN_SRST: a write of SRST = 1 (R449). -/
def execStnSrst (who : Requester) (d : Die) (n : Fin 16) (s : State) : Host.Outcome State Fault Refusal :=
  .next (s.guardWrite who (R.STN_CTRL d n.val) .w32 (effStnCtrl who d n.val 2))

/-- STN_TXDATA_WRITE (R455). -/
def execStnTxdataWrite (who : Requester) (d : Die) (n : Fin 16) (v : Word) (s : State) : Host.Outcome State Fault Refusal :=
  .next (s.guardWrite who (R.STN_TXDATA d n.val) .w32 (effStnTx who d n.val v))

/-- STN_FLAG_SET_WRITE (R454). -/
def execStnFlagSetWrite (who : Requester) (d : Die) (v : Word) (s : State) : Host.Outcome State Fault Refusal :=
  .next (s.guardWrite who (R.STN_FLAG_SET d) .w32 (effStnFlags who d true v))

/-- STN_FLAG_CLR_WRITE (R454). -/
def execStnFlagClrWrite (who : Requester) (d : Die) (v : Word) (s : State) : Host.Outcome State Fault Refusal :=
  .next (s.guardWrite who (R.STN_FLAG_CLR d) .w32 (effStnFlags who d false v))

/-- PIN_CFG_WRITE (R457, R458). -/
def execPinCfgWrite (who : Requester) (d : Die) (k : Fin 48) (v : Word) (s : State) : Host.Outcome State Fault Refusal :=
  .next (s.guardWrite who (R.PIN_CFG d k.val) .w32 (effPinCfg who d k.val v))

/-- PIN_HANDOVER_DONE: the new driver takes the pad (R458 step 3), unless a warm reset holds it (R484). -/
def execPinHandoverDone (d : Die) (k : Fin 48) (s : State) : Host.Outcome State Fault Refusal :=
  .next (if s.flag (R.PIN_CFG d k.val) 25 && !s.padIsHeld d k.val then (s.setFlag (R.PIN_CFG d k.val) 25 false).padUpdate d k.val else s)

/-! ## Instructions of a program (R450, R451) -/

/-- STN_DELAY: begins; it completes at the IMM-th tick, IMM 0 taken as 1. -/
def execStnDelay (d : Die) (n : Fin 16) (s : State) : Host.Outcome State Fault Refusal :=
  s.stnBegin d n 0 fun s => s.stnBusy d n (max 1 (stnImm (s.stnWord d n))) 0

/-- STN_IN: begins; the first bit is taken at the (Y + 1)-th tick. -/
def execStnIn (d : Die) (n : Fin 16) (s : State) : Host.Outcome State Fault Refusal :=
  s.stnBegin d n 1 fun s => s.stnBusy d n (stnImm (s.stnWord d n) % 64) (stnY (s.stnWord d n) + 1)

/-- STN_OUT: begins; the first bit is driven at the next tick. -/
def execStnOut (d : Die) (n : Fin 16) (s : State) : Host.Outcome State Fault Refusal :=
  s.stnBegin d n 2 fun s => s.stnBusy d n (stnImm (s.stnWord d n) % 64 + 1) 1

/-- STN_SET: begins; the pin is driven at the next tick. -/
def execStnSet (d : Die) (n : Fin 16) (s : State) : Host.Outcome State Fault Refusal :=
  s.stnBegin d n 3 fun s => s.stnBusy d n 1 0

/-- STN_WAITP: begins to wait, with its timeout in ticks. -/
def execStnWaitp (d : Die) (n : Fin 16) (s : State) : Host.Outcome State Fault Refusal :=
  s.stnBegin d n 4 fun s => s.stnWait d n (stnImm (s.stnWord d n))

/-- STN_JCMP: jumps when the low n bits of SR and CMP are equal, or with Y [0] = 1 when they differ. -/
def execStnJcmp (d : Die) (n : Fin 16) (s : State) : Host.Outcome State Fault Refusal :=
  s.stnBegin d n 5 fun s =>
    let w := s.stnWord d n
    let m := stnImm w % 64
    let eq := decide (s.fld (R.STN_SR d n) 0 m = s.fld (R.STN_CMP d n) 0 m)
    s.stnJump d n (eq != decide (stnY w % 2 = 1))

/-- The lowest-numbered stream FIFO enabled for a stencil (R453). -/
def State.stnFifo (s : State) (d : Die) (n : Nat) : Option Nat :=
  firstIdx 32 fun q => s.flag (R.SFQ_CTRL d q) 0 && decide (s.fld (R.SFQ_CTRL d q) 4 5 = n)

/-- Condition Y of JCOND; `lvl` is the level of the pin it looks at, a pin that is not there reads 1 (R450, R459). -/
def State.stnCond (s : State) (d : Die) (n : Nat) (lvl : Bool) : Bool :=
  let w := s.stnWord d n
  let inp := lvl || decide (s.fld (R.STN_PINS d n) 0 6 = 0x3F)
  let cnt := s.fld (R.STN_CNT d n) 0 16
  let full : Bool := match s.stnFifo d n with
    | some q => s.flag (R.SFQ_STAT d q) 9
    | none => true
  let flag := (s.fld (R.STN_FLAG_SET d) 0 16).testBit (stnImm w % 16)
  match stnY w with
  | 0 => true
  | 1 => inp
  | 2 => !inp
  | 3 => full
  | 4 => !full
  | 5 => !s.flag (R.STN_STAT d n) 4
  | 6 => decide (cnt = 0)
  | 7 => decide (cnt ≠ 0)
  | 8 => flag
  | 9 => !flag
  | _ => lvl == s.flag (R.STN_CFG d n) 1

/-- The pin a JCOND looks at. -/
def State.stnCondPin (s : State) (d : Die) (n : Nat) : Nat :=
  if stnY (s.stnWord d n) = 10 then s.fld (R.STN_PINS d n) 16 6 else s.fld (R.STN_PINS d n) 0 6

/-- STN_JCOND: jumps when condition Y holds; `lvl` is the synchronised level of the pin it looks at. -/
def execStnJcond (d : Die) (n : Fin 16) (lvl : Bool) (s : State) : Host.Outcome State Fault Refusal :=
  s.stnBegin d n 6 fun s =>
    let y := stnY (s.stnWord d n)
    let s' := if y = 1 ∨ y = 2 ∨ y = 10 then s.padSeen d (s.stnCondPin d n) lvl else s
    s'.stnJump d n (s.stnCond d n lvl)

/-- STN_LDCNT: CNT := IMM. -/
def execStnLdcnt (d : Die) (n : Fin 16) (s : State) : Host.Outcome State Fault Refusal :=
  s.stnBegin d n 7 fun s => (s.setReg (R.STN_CNT d n) (wd (stnImm (s.stnWord d n)))).stnNext d n

/-- STN_DJNZ: CNT := CNT − 1 modulo 65,536, and jumps while CNT is not 0. -/
def execStnDjnz (d : Die) (n : Fin 16) (s : State) : Host.Outcome State Fault Refusal :=
  s.stnBegin d n 8 fun s =>
    let c := (s.fld (R.STN_CNT d n) 0 16 + 65535) % 65536
    (s.setReg (R.STN_CNT d n) (wd c)).stnJump d n (decide (c ≠ 0))

/-- A unit or an end mark passed to the stencil's stream FIFO, or dropped and counted where there is none (R453). -/
def State.stnPass (s : State) (d : Die) (n : Nat) (f : State → Nat → State) : State :=
  match s.stnFifo d n with
  | some q => f s q
  | none => (s.count (R.STN_CNT_NOFIFO d n)).stnEvent d n 3

/-- STN_PUSH: one unit of SR, low or high, 8 or 16 bits wide as the FIFO, with BYTE1 a single byte (R453, R69). -/
def execStnPush (d : Die) (n : Fin 16) (s : State) : Host.Outcome State Fault Refusal :=
  s.stnBegin d n 9 fun s =>
    let x := stnX (s.stnWord d n)
    let sr := (s.getReg (R.STN_SR d n)).toNat
    let s := s.stnPass d n fun s q =>
      let wide := s.flag (R.SFQ_CTRL d q) 3
      let u := if !wide then (if x % 2 = 1 then sr / 0x100_0000 else sr) else (if x % 2 = 1 then sr / 0x1_0000 else sr)
      let bs := leBytes (if wide && decide (x / 4 = 0) then 2 else 1) u
      s.sfqTake d q bs (s.fld (R.STN_OWNER d n) 16 16) (decide (x / 2 % 2 = 1))
    s.stnNext d n

/-- STN_CLOSE: an end mark without a unit (R453, R81). -/
def execStnClose (d : Die) (n : Fin 16) (s : State) : Host.Outcome State Fault Refusal :=
  s.stnBegin d n 10 fun s => (s.stnPass d n fun s q => s.sfqEnd d q true).stnNext d n

/-- STN_PULL: begins to wait for TXFULL. -/
def execStnPull (d : Die) (n : Fin 16) (s : State) : Host.Outcome State Fault Refusal :=
  s.stnBegin d n 11 fun s => s.stnWait d n 0

/-- STN_FLAG: clears or sets a shared flag, or begins to wait on it. -/
def execStnFlag (d : Die) (n : Fin 16) (s : State) : Host.Outcome State Fault Refusal :=
  s.stnBegin d n 12 fun s =>
    let w := s.stnWord d n
    if stnX w < 2 then (s.stnFlag1 d (stnImm w % 16) (decide (stnX w = 1))).stnNext d n else s.stnWait d n 0

/-- STN_LDSR: one half of SR := IMM. -/
def execStnLdsr (d : Die) (n : Fin 16) (s : State) : Host.Outcome State Fault Refusal :=
  s.stnBegin d n 13 fun s =>
    let w := s.stnWord d n
    (s.setFld (R.STN_SR d n) (if stnX w % 2 = 1 then 16 else 0) 16 (stnImm w)).stnNext d n

/-- STN_NOP: nothing. -/
def execStnNop (d : Die) (n : Fin 16) (s : State) : Host.Outcome State Fault Refusal :=
  s.stnBegin d n 14 fun s => s.stnNext d n

/-- STN_HALT: stops with STATE 2 and sets HALT in STN_EVENT (R448, R450). -/
def execStnHalt (d : Die) (n : Fin 16) (s : State) : Host.Outcome State Fault Refusal :=
  s.stnBegin d n 15 fun s => (s.stnLeave d n 2).stnEvent d n 1

/-! ## Ticks, waits, the guard -/

/-- A sample of the IN pin into SR (R450 IN). -/
def State.stnSample (s : State) (d : Die) (n : Nat) (b : Bool) : State :=
  let sr := (s.getReg (R.STN_SR d n)).toNat
  let one := if b then 1 else 0
  s.setReg (R.STN_SR d n) (if stnX (s.stnWord d n) % 2 = 0 then wd (sr / 2 + one * 0x8000_0000) else wd (sr * 2 + one))

/-- One bit of SR driven on the OUT pin, and SR shifted (R450 OUT). -/
def State.stnSend (s : State) (d : Die) (n : Nat) : State :=
  let sr := (s.getReg (R.STN_SR d n)).toNat
  let left := decide (stnX (s.stnWord d n) % 2 = 1)
  let b := if left then sr.testBit 31 else sr.testBit 0
  (s.setReg (R.STN_SR d n) (if left then wd (sr * 2) else wd (sr / 2))).stnDrive d n b true

/-- What a tick does to the instruction in progress: a delay counts, an IN samples, an OUT drives, a SET drives, a WAITP counts
its timeout (R450). -/
def State.stnTick (s : State) (d : Die) (n : Nat) (lvl : Bool) : State :=
  let x := s.stnOf d n
  let w := s.stnWord d n
  if !s.stnRuns d n || !x.busy then s else
  match stnOp w with
  | 0 => if x.left ≤ 1 then s.stnNext d n else s.stnBusy d n (x.left - 1) 0
  | 1 =>
    if x.sub > 1 then s.stnBusy d n x.left (x.sub - 1)
    else
      let pin := s.fld (R.STN_PINS d n) 0 6
      let s := (s.padSeen d pin lvl).stnSample d n (lvl || decide (pin = 0x3F))
      if x.left ≤ 1 then s.stnNext d n else s.stnBusy d n (x.left - 1) (stnY w + 1)
  | 2 =>
    if x.sub > 1 then s.stnBusy d n x.left (x.sub - 1)
    else if x.left ≤ 1 then s.stnNext d n
    else (s.stnSend d n).stnBusy d n (x.left - 1) (stnY w + 1)
  | 3 => (s.stnDrive d n (decide (stnX w % 2 = 1)) (decide (stnX w / 2 % 2 = 1))).stnNext d n
  | 4 => s.setStn d n { x with left := x.left - 1 }
  | _ => s

/-- STENCIL_TICK: the accumulator reaches D and loses it, and the instruction in progress takes its tick (R446, R450). `lvl` is
the synchronised level of the IN pin.  A STN_DIV written while the stencil runs counts from this tick on. -/
def execStencilTick (d : Die) (n : Fin 16) (lvl : Bool) (s : State) : Host.Outcome State Fault Refusal :=
  let x := s.stnOf d n
  let dd := if s.stnRuns d n then x.div else s.stnD d n
  let clocks := (dd - x.acc + 255) / 256
  .next (if !s.unitsRun d then s else (s.setStn d n { x with acc := x.acc + clocks * 256 - dd, div := s.stnD d n }).stnTick d n lvl)

/-- STN_WAIT_END: the condition of a wait instruction holds and it ends (R447, R450, R451); an IN pin that is not there reads 1 (R459). -/
def execStnWaitEnd (d : Die) (n : Fin 16) (s : State) : Host.Outcome State Fault Refusal :=
  let x := s.stnOf d n
  let w := s.stnWord d n
  let flag := (s.fld (R.STN_FLAG_SET d) 0 16).testBit (stnImm w % 16)
  .next (if !s.unitsRun d || !s.stnRuns d n || !x.busy then s else
    match stnOp w with
    | 4 =>
      let pin := if stnX w / 2 % 2 = 1 then s.fld (R.STN_PINS d n) 16 6 else s.fld (R.STN_PINS d n) 0 6
      let acc := if stnX w / 4 % 2 = 1 then (x.div + 1) / 2 else 0
      if pin = 0x3F ∧ stnX w / 2 % 2 = 0 ∧ stnX w % 2 = 0 then s else
      ((s.setStn d n { x with acc := acc }).padSeen d pin (decide (stnX w % 2 = 1))).stnNext d n
    | 11 => if s.flag (R.STN_STAT d n) 4 then
        ((s.setReg (R.STN_SR d n) (s.getReg (R.STN_TXDATA d n))).setFlag (R.STN_STAT d n) 4 false).stnNext d n else s
    | 12 => if flag == decide (stnX w = 2) then s.stnNext d n else s
    | _ => s)

/-- STN_WAITP_TIMEOUT: the ticks of a WAITP's timeout have passed and the program jumps to TGT (R450). -/
def execStnWaitpTimeout (d : Die) (n : Fin 16) (s : State) : Host.Outcome State Fault Refusal :=
  let x := s.stnOf d n
  let w := s.stnWord d n
  .next (if s.unitsRun d && s.stnRuns d n && x.busy && decide (stnOp w = 4) && decide (stnImm w ≠ 0) && decide (x.left = 0) then
    s.stnGo d n (stnTgt w) else s)

/-- STN_GUARD_FIRE: with GEN = 1 and a GUARD pin, SR is cleared and the program jumps to GVEC; the guard does not fire again until it is
cleared (R452). -/
def execStnGuardFire (d : Die) (n : Fin 16) (s : State) : Host.Outcome State Fault Refusal :=
  .next (if s.unitsRun d && s.stnRuns d n && s.flag (R.STN_CFG d n) 0 && !s.flag (R.STN_STAT d n) 6 && decide (s.fld (R.STN_PINS d n) 16 6 < 48) then
    let s := (s.padSeen d (s.fld (R.STN_PINS d n) 16 6) (s.flag (R.STN_CFG d n) 1)).setReg (R.STN_SR d n) 0
    let s := (s.stnGo d n (s.fld (R.STN_CFG d n) 16 5)).setFlag (R.STN_STAT d n) 6 true
    (s.count (R.STN_CNT_GUARD d n)).stnEvent d n 0
  else s)

/-- STN_GUARD_CLEAR: the pin has left GLVL; GUARD_ACT clears (R452). -/
def execStnGuardClear (d : Die) (n : Fin 16) (s : State) : Host.Outcome State Fault Refusal :=
  .next ((s.padSeen d (s.fld (R.STN_PINS d n) 16 6) (!s.flag (R.STN_CFG d n) 1)).setFlag (R.STN_STAT d n) 6 false)

/-- STN_PARITY_ERROR: the stencil stops in error; a rank-1 unit fault (R445, R448, R116). -/
def execStnParityError (d : Die) (n : Fin 16) (s : State) : Host.Outcome State Fault Refusal :=
  let s := s.stnLeave d n 0
  let s := ((s.setFld (R.STN_STAT d n) 0 2 3).setFld (R.STN_STAT d n) 16 4 1).stnEvent d n 2
  .next (s.unitFault d 7 n.val)

end Sys2Proof.Machine
end

