-- ==== Sys2Proof/Machine/Blocks.lean ====
section
/-! DEFINITION. Reads of every register block, and writes of the five blocks an engine may write: stream FIFOs, time base, CAN,
stencils and field I/O (R10 to R12, R407, R538 to R544, R569). -/

namespace Sys2Proof.Machine

/-! ## The access codes (R10) -/

/-- The row of the register at an offset of a block; none where the offset is reserved (R12, R539). -/
def blockRow (b off : Nat) : Option RegRow := (blockRows b).find? fun r => r.hits off

/-- A write by the access codes of the register's row: RW bits replaced, W1C bits cleared and W1S bits set where the value has
ones, everything else left; a reserved offset ignores it (R10, R12). -/
def State.rowWrite (s : State) (d : Die) (b off : Nat) (v : Word) : State :=
  match blockRow b off with
  | none => s
  | some r =>
    let a := R.blk d b + off
    let w := (s.getReg a &&& ~~~(wd r.rw)) ||| (v &&& wd r.rw)
    s.setReg a ((w &&& ~~~(v &&& wd r.w1c)) ||| (v &&& wd r.w1s))

/-- A read by the access codes of the register's row: WO bits read 0, RC bits are cleared by it; a reserved offset reads 0
(R10, R12). -/
def State.rowRead (s : State) (d : Die) (b off : Nat) : Word × State :=
  match blockRow b off with
  | none => (0, s)
  | some r =>
    let a := R.blk d b + off
    let w := s.getReg a &&& ~~~(wd r.wo)
    (w, if r.rc = 0 then s else s.setReg a (s.getReg a &&& ~~~(wd r.rc)))

/-! ## Writes -/

/-- Registers of a stream FIFO that only its owner reaches: SFQ_CTRL, SFQ_RDATA_LO, SFQ_RDATA_HI, SFQ_TAG and SFQ_RPTR (R77). -/
def sfqOwnOnly (o : Nat) : Bool := o = 0x00 || o = 0x08 || o = 0x0C || o = 0x10 || o = 0x28

/-- A write to the stream FIFO block: the registers of R77 and the configuration of R85 by the FIFO's owner, the rest by anyone under its
access codes. -/
def writeSfq (who : Requester) (d : Die) (off : Nat) (v : Word) (s : State) : Eff :=
  if off < 0x100 ∨ 0x900 ≤ off then .ok (s.rowWrite d 9 off v)
  else
    let n := (off - 0x100) / 0x40
    match (off - 0x100) % 0x40 with
    | 0x00 => effSfqCtrl who d n v s
    | 0x14 => effSfqUs who d n (R.SFQ_TIMEOUT d n) v s
    | 0x18 => effSfqUs who d n (R.SFQ_IDLE d n) v s
    | 0x1C => effSfqBuf who d n false v s
    | 0x20 => effSfqBuf who d n true v s
    | 0x28 => effSfqRptr who d n v s
    | o => if sfqOwnOnly o ∧ s.fld (R.SFQ_OWNER d n) 0 8 ≠ who.unitOwner d then .error causeRULE else .ok (s.rowWrite d 9 off v)

/-- Whether a requester runs the clock instance of a port's domain: an instance with TIME whose maps name the port (R305, R322). -/
def State.clockHolds (s : State) (who : Requester) (d : Die) (m : Nat) : Bool :=
  match who with
  | .ce e k => match s.runSlot e k with
    | some slot => match s.slotIntent e k slot with
      | some (i, _) => i.time && bit (i.recWord 4) (if m < 12 then d.idx * 12 + m else 24 + d.idx * 2 + (m - 12))
      | none => false
    | none => false
  | _ => false

/-- A write to the time base block: only the registers that a rule reserves to an owner are refused to others (R294 to R322, R569). -/
def writeTb (who : Requester) (d : Die) (off : Nat) (v : Word) (s : State) : Eff :=
  if off = 0x20 then effRate who d v s
  else if off = 0x24 then effSlew who d v s
  else if off = 0x2C then
    if bits v 0 14 = 0 ∨ bits v 0 14 > 10_000 then .error causeRULE else .ok (s.rowWrite d 37 off v)
  else if off = 0x3C then effStep who d v s
  else if off = 0x44 then if s.steers who d then .ok (s.rowWrite d 37 off v) else .error causeRULE
  else if off = 0x60 then effSnap who d v s
  else if 0x100 ≤ off ∧ off < 0x1E0 then
    if (off - 0x100) % 0x10 = 8 ∧ !s.clockHolds who d ((off - 0x100) / 0x10) then .error causeRULE
    else .ok (s.rowWrite d 37 off v)
  else if 0x1000 ≤ off ∧ off < 0x1800 then
    let u := (off - 0x1000) / 0x20
    match (off - 0x1000) % 0x20 with
    | 0x00 => effCmpLo who d u v s
    | 0x04 => effCmpHi who d u none v s
    | 0x08 => effCmpPeriod who d u v s
    | 0x0C => effCmpCtrl who d u v s
    | _ => .ok (s.rowWrite d 37 off v)
  else if 0x1800 ≤ off ∧ off < 0x1880 then
    if (off - 0x1800) % 8 = 0 then effTrigCfg who d ((off - 0x1800) / 8) v s else effTrigWidth who d ((off - 0x1800) / 8) v s
  else if 0x1900 ≤ off ∧ off < 0x1D00 then
    let c := (off - 0x1900) / 0x20
    if (off - 0x1900) % 0x20 = 8 then effCapCfg who d c v s else .ok (s.rowWrite d 37 off v)
  else .ok (s.rowWrite d 37 off v)

/-- A write to the CAN block: the owner's, by the register's own rule (R326 to R352). -/
def writeCan (who : Requester) (d : Die) (off : Nat) (v : Word) (s : State) : Eff :=
  let c := off / 0x4000
  let o := off % 0x4000
  let mask : Word := match blockRow 38 off with | some r => wd r.rw | none => 0
  if (blockRow 38 off).isNone then .ok s
  else if o = 0 then effCanCtrl who d c v s
  else if o = 0x0C then effCanEvent who d c v s
  else if o = 4 ∨ (0x14 ≤ o ∧ o ≤ 0x24) ∨ o = 0x70 ∨ o = 0x80 then effCanInit who d c (R.blk d 38 + off) mask v s
  else if o = 0x68 then effCanAbr who d c v s
  else if o = 0x78 ∨ o = 0x88 then effCanQ who d c ((o - 0x78) / 0x10) v s
  else if 0xE0 ≤ o ∧ o < 0xEC then effCanTx who d c ((o - 0xE0) / 4) v s
  else if 0x800 ≤ o ∧ o < 0x2300 ∧ (o - 0x800) % 0x900 < 0x820 then
    effCanTxb who d c ((o - 0x800) / 0x900) ((o - 0x800) % 0x900 / 4) v s
  else effCanPlain who d c (R.blk d 38 + off) mask v s

/-- A write to the stencil block (R443, R448 to R459). -/
def writeStn (who : Requester) (d : Die) (off : Nat) (v : Word) (s : State) : Eff :=
  if off = 0 then effStnFlags who d true v s
  else if off = 4 then effStnFlags who d false v s
  else if 0x40 ≤ off ∧ off < 0xA0 then effStnWatch who d ((off - 0x40) / 4) v s
  else if 0x1000 ≤ off ∧ off < 0x3000 then
    let n := (off - 0x1000) / 0x200
    let o := (off - 0x1000) % 0x200
    if o = 0 then effStnCtrl who d n v s
    else if o = 0x10 then effStnSr who d n v s
    else if o = 0x18 then effStnTx who d n v s
    else if o = 0x24 then effStnEvent who d n v s
    else if 0x80 ≤ o ∧ o < 0x100 then effStnProg who d n ((o - 0x80) / 4) v s
    else match blockRow 39 off with
      | some r => effStnPlain who d n (R.blk d 39 + off) (wd r.rw) v s
      | none => .ok s
  else .ok (s.rowWrite d 39 off v)

/-- A write to the field I/O block: configuration by the host or the supervisors, outputs by owning slots (R467, R468, R477). -/
def writeFio (who : Requester) (off : Nat) (v : Word) (s : State) : Eff :=
  let ce : Bool := match who with | .ce _ _ => true | _ => false
  if off = 0x10 then effFioOutWr who v s
  else if 0x20 ≤ off ∧ off < 0x40 then effFioOwn who ((off - 0x20) / 4) v s
  else if off = 0x18 then
    if ce ∨ bits v 8 8 = 0 then .error causeRULE else .ok (s.rowWrite .d0 40 off v)
  else if off = 0x1C then if ce then .error causeRULE else .ok (s.rowWrite .d0 40 off v)
  else .ok (s.rowWrite .d0 40 off v)

/-- A write to one of the five blocks an engine may write. -/
def writeUnit (who : Requester) (d : Die) (b off : Nat) (v : Word) (s : State) : Eff :=
  match b with
  | 9 => writeSfq who d off v s
  | 37 => writeTb who d off v s
  | 38 => writeCan who d off v s
  | 39 => writeStn who d off v s
  | 40 => writeFio who off v s
  | _ => .error causeRULE

/-! ## Reads -/

/-- The bits of the channels of a die for which `p` holds of MBX_CH_STAT. -/
def State.chanMask (s : State) (d : Die) (p : Word → Bool) : Word :=
  (List.range 32).foldl (fun m c => if p (s.getReg (R.MBX_CH_STAT d c)) then m ||| maskOf c 1 else m) 0

/-- The owner of a mailbox channel. -/
def State.chanOwner (s : State) (d : Die) (c : Nat) : Nat := s.fld (R.MBX_CH_STAT d c) 29 3

/-- Whether the key registers of the serial port answer a requester: PF1, on Die 0 (R181). -/
def keyAnswers (who : Requester) (d : Die) : Bool := match who with | .pf1 _ => decide (d = .d0) | _ => false

/-- A read of the mailbox block (R172, R173, R181). -/
def readMbx (who : Requester) (d : Die) (off : Nat) (s : State) : Except Nat (Word × State) :=
  if off = 0 then .ok (s.chanMask d (fun w => decide (bits w 29 3 ≠ 0)), s)
  else if off = 4 then .ok (s.chanMask d (fun w => bit w 8), s)
  else if 0x40 ≤ off ∧ off < 0x64 then if keyAnswers who d then .ok (s.rowRead d 5 off) else .error causeRULE
  else if 0x1000 ≤ off ∧ off < 0x3000 then
    let c := (off - 0x1000) / 0x100
    let o := off % 0x100
    if c < 8 ∧ !who.secure ∧ o ≠ 0x84 then .error causeRULE
    else if 0x40 ≤ o ∧ o < 0x80 ∧ (who.owner = 0 ∨ s.chanOwner d c ≠ who.owner) then .error causeRULE
    else .ok (s.rowRead d 5 off)
  else .ok (s.rowRead d 5 off)

/-- A pair of the supervisors may be handled from outside: out of service, or halted from there (R442). -/
def State.pairDebug (s : State) (who : Requester) (d : Die) (p : Nat) : Bool :=
  (match who with | .pf1 _ => true | _ => false) &&
  (decide (s.fld (R.SPR_STAT d p) 0 3 = 4) || (decide (s.fld (R.SPR_STAT d p) 0 3 = 1) && decide ((s.hunit d 3 p).st ≠ 0)))

/-- PLC_COUNTS as it reads: instances whose engine is on the die, and flows charged to it, a migrating or moving one once (R124). -/
def State.countsShown (s : State) (d : Die) : Word :=
  let on (i : Intent) (p : Placement) : Bool := decide (2 ≤ p.st) && decide (p.st ≤ 6) && (p.die = d || (i.isFlow && p.hops.any fun h => h.1 = d.idx))
  let l := (s.intents.map Prod.snd).filter fun i => i.placements.any (on i)
  wd ((l.filter fun i => !i.isFlow).length % 2048 + (l.filter fun i => i.isFlow).length % 0x1_0000 * 0x1_0000)

/-- PLC_BANK of a bank as it reads: DEVICE for a stream FIFO's buffer too (R96, R124). -/
def State.bankShown (s : State) (d : Die) (b : Nat) : Word :=
  s.getReg (R.PLC_BANK d b) ||| (if (List.range 32).any fun n => s.sfqBufOn d n b then 0x8000_0000 else 0)

/-- A read of a register: the word and what the read leaves (R10, R73, R320, R344, R442).  The 64-bit pairs' _HI halves and the
views of the time base are the requester's own; a read of a stream FIFO's data is not made here. -/
def readReg (who : Requester) (d : Die) (b off : Nat) (s : State) : Except Nat (Word × State) :=
  match b with
  | 0 => .ok (if off = 0x24 then (wd (s.dlyUtil d), s) else s.rowRead d 0 off)
  | 5 => readMbx who d off s
  | 6 =>
    if off < 0x100 ∧ off % 0x40 = 8 then
      .ok (s.getReg (R.DBL_STAT d (off / 0x40)) &&& s.getReg (R.DBL_MASK d (off / 0x40)), s)
    else .ok (s.rowRead d 6 off)
  | 7 => .ok (if 0x80 ≤ off ∧ off < 0xE0 then (s.ceShown d ((off - 0x80) / 4), s)
      else if off = 0x18 then (s.countsShown d, s)
      else if 0x1000 ≤ off ∧ off < 0x1440 then (s.bankShown d ((off - 0x1000) / 4), s)
      else s.rowRead d 7 off)
  | 8 => .ok (if 0x80 ≤ off ∧ off < 0xC0 ∧ off % 4 = 0 then (s.slotUse d ((off - 0x80) / 4) 0).rowRead d 8 off else s.rowRead d 8 off)
  | 9 =>
    if 0x100 ≤ off ∧ off < 0x900 ∧ sfqOwnOnly ((off - 0x100) % 0x40) ∧ s.fld (R.SFQ_OWNER d ((off - 0x100) / 0x40)) 0 8 ≠ who.unitOwner d then
      .error causeRULE
    else .ok (s.rowRead d 9 off)
  | 35 =>
    let o := off % 0x100
    if 0x1000 ≤ off ∧ off < 0x1E00 ∧ (o = 0x60 ∨ o = 0x68) then
      .ok (s.getReg (R.blk d 35 + off), s.latch who d 35 (s.getReg (R.blk d 35 + off + 4)))
    else if 0x1000 ≤ off ∧ off < 0x1E00 ∧ (o = 0x64 ∨ o = 0x6C) then .ok (s.shadowOf who d 35, s)
    else .ok (s.rowRead d 35 off)
  | 37 =>
    if isPairLo 37 off then
      let r := readTbPair who d off s
      .ok (wd r.1, r.2)
    else match s.tbView who d off with
      | some w => .ok (w, s)
      | none => .ok (s.rowRead d 37 off)
  | 38 =>
    let o := off % 0x4000
    if 0x2400 ≤ o ∧ o < 0x3600 ∧ (o - 0x2400) % 0x900 < 0x820 then
      readCanWindow who d (off / 0x4000) ((o - 0x2400) / 0x900) ((o - 0x2400) % 0x900 / 4) s
    else .ok (s.rowRead d 38 off)
  | 40 => .ok (s.rowRead .d0 40 off)
  | 41 =>
    let p := (off - 0x8000) / 0x100
    if 0x8000 ≤ off ∧ off < 0x8200 ∧ off % 0x100 = 0x2C ∧ !s.pairDebug who d p then .error causeRULE
    else if 0x8000 ≤ off ∧ off < 0x8200 ∧ 0x30 ≤ off % 0x100 ∧ off % 0x100 ≤ 0x44 ∧ s.fld (R.SPR_STAT d p) 0 3 ≠ 1 then .ok (0, s)
    else .ok (s.rowRead d 41 off)
  | _ => .ok (s.rowRead d b off)

/-- The high half that goes with a 64-bit read of a pair just made (R544). -/
def readHigh (who : Requester) (d : Die) (b : Nat) (s : State) : Word := s.shadowOf who d b

end Sys2Proof.Machine
end

