-- ==== Sys2Proof/Machine/Flags.lean ====
section
/-! DEFINITION. The results and flags of an engine's arithmetic, logic, shifts and bit operations at an operand width of `w` bits
(R353, R370, R371).  FLAGS is [0] C, [1] V, [2] Z, [3] N, [4] T. -/

namespace Sys2Proof.Machine

/-- C of a FLAGS value. -/
def flagC (fl : Nat) : Bool := fl.testBit 0
/-- V of a FLAGS value. -/
def flagV (fl : Nat) : Bool := fl.testBit 1
/-- Z of a FLAGS value. -/
def flagZ (fl : Nat) : Bool := fl.testBit 2
/-- N of a FLAGS value. -/
def flagN (fl : Nat) : Bool := fl.testBit 3
/-- T of a FLAGS value. -/
def flagT (fl : Nat) : Bool := fl.testBit 4

/-- A FLAGS value from its five flags. -/
def mkFlags (t n z v c : Bool) : Nat :=
  (if c then 1 else 0) + (if v then 2 else 0) + (if z then 4 else 0) + (if n then 8 else 0) + (if t then 16 else 0)

/-- The top bit of a `w`-bit result. -/
def topBit (w r : Nat) : Bool := r.testBit (w - 1)

/-- FLAGS with Z and N of a result, C and V as given, T kept. -/
def flagsZNCV (w r : Nat) (c v : Bool) (fl : Nat) : Nat := mkFlags (flagT fl) (topBit w r) (decide (r = 0)) v c

/-- FLAGS with Z and N of a result, the others kept (BSWAP). -/
def flagsZN (w r : Nat) (fl : Nat) : Nat := mkFlags (flagT fl) (topBit w r) (decide (r = 0)) (flagV fl) (flagC fl)

/-- FLAGS with Z replaced (FFS). -/
def flagsZ (z : Bool) (fl : Nat) : Nat := mkFlags (flagT fl) (flagN fl) z (flagV fl) (flagC fl)

/-- FLAGS with T replaced. -/
def flagsT (t : Bool) (fl : Nat) : Nat := mkFlags t (flagN fl) (flagZ fl) (flagV fl) (flagC fl)

/-- Whether a signed result lies outside the range of `w` bits. -/
def outside (w : Nat) (x : Int) : Bool := decide (x < -(2 ^ (w - 1) : Nat)) || decide (x ≥ (2 ^ (w - 1) : Nat))

/-- A signed number as `w` bits. -/
def wrapInt (w : Nat) (x : Int) : Nat := (x % (2 ^ w : Nat)).toNat

/-- A result with FLAGS after it. -/
abbrev AluOut := Nat × Nat

/-- ADD, ADDC: a + b + cin (R371). -/
def aluAdd (w a b : Nat) (cin : Bool) (fl : Nat) : AluOut :=
  let k := if cin then 1 else 0
  let r := (a + b + k) % 2 ^ w
  (r, flagsZNCV w r (decide (a + b + k ≥ 2 ^ w)) (outside w (signed w a + signed w b + (k : Nat))) fl)

/-- SUB, SUBC, NEG, CMP: a − b − cin, C = borrow (R371). -/
def aluSub (w a b : Nat) (cin : Bool) (fl : Nat) : AluOut :=
  let k := if cin then 1 else 0
  let r := wrapInt w ((a : Int) - (b : Nat) - (k : Nat))
  (r, flagsZNCV w r (decide (a < b + k)) (outside w (signed w a - signed w b - (k : Nat))) fl)

/-- A result that clears C and V (R371). -/
def aluLogic (w r : Nat) (fl : Nat) : AluOut := (r, flagsZNCV w r false false fl)

/-- MUL: low half of the product. -/
def aluMul (w a b : Nat) (fl : Nat) : AluOut := aluLogic w (a * b % 2 ^ w) fl
/-- MULHU: high half, unsigned. -/
def aluMulhu (w a b : Nat) (fl : Nat) : AluOut := aluLogic w (a * b / 2 ^ w % 2 ^ w) fl
/-- MULHS: high half, signed. -/
def aluMulhs (w a b : Nat) (fl : Nat) : AluOut := aluLogic w (wrapInt w (signed w a * signed w b / (2 ^ w : Nat))) fl

/-- DIVU, with a divisor that is not 0. -/
def aluDivu (w a b : Nat) (fl : Nat) : AluOut := aluLogic w (a / b) fl
/-- DIVS: toward 0; the most negative value by −1 gives that value with V = 1 (R371). -/
def aluDivs (w a b : Nat) (fl : Nat) : AluOut :=
  let q := (signed w a).tdiv (signed w b)
  let r := wrapInt w q
  (r, flagsZNCV w r false (outside w q) fl)
/-- REMU. -/
def aluRemu (w a b : Nat) (fl : Nat) : AluOut := aluLogic w (a % b) fl
/-- REMS: the sign of the dividend. -/
def aluRems (w a b : Nat) (fl : Nat) : AluOut := aluLogic w (wrapInt w ((signed w a).tmod (signed w b))) fl

/-- SHL: a count at or above the width gives 0; C is the last bit shifted out (R371). -/
def aluShl (w a n : Nat) (fl : Nat) : AluOut :=
  let r := a * 2 ^ n % 2 ^ w
  (r, flagsZNCV w r (decide (n ≠ 0) && decide (n ≤ w) && a.testBit (w - n)) false fl)

/-- SHR (R371). -/
def aluShr (w a n : Nat) (fl : Nat) : AluOut :=
  let r := a / 2 ^ n
  (r, flagsZNCV w r (decide (n ≠ 0) && a.testBit (n - 1)) false fl)

/-- SAR: a count at or above the width gives the sign fill (R371). -/
def aluSar (w a n : Nat) (fl : Nat) : AluOut :=
  let r := wrapInt w (signed w a / (2 ^ n : Nat))
  (r, flagsZNCV w r (decide (n ≠ 0) && a.testBit (min (n - 1) (w - 1))) false fl)

/-- ROL by the count modulo the width (R371). -/
def aluRol (w a n : Nat) (fl : Nat) : AluOut :=
  let k := n % w
  let r := (a * 2 ^ k + a / 2 ^ (w - k)) % 2 ^ w
  let r := if k = 0 then a else r
  (r, flagsZNCV w r (decide (k ≠ 0) && r.testBit 0) false fl)

/-- ROR by the count modulo the width (R371). -/
def aluRor (w a n : Nat) (fl : Nat) : AluOut :=
  let k := n % w
  let r := if k = 0 then a else (a / 2 ^ k + a * 2 ^ (w - k)) % 2 ^ w
  (r, flagsZNCV w r (decide (k ≠ 0) && topBit w r) false fl)

/-- The index of the lowest set bit among `n` bits from bit `i`, or `i + n`. -/
def lowBit (a i : Nat) : Nat → Nat
  | 0 => i
  | n + 1 => if a.testBit i then i else lowBit a (i + 1) n

/-- FFS (R371). -/
def aluFfs (w a : Nat) (fl : Nat) : AluOut := (lowBit a 0 w, flagsZ (decide (a = 0)) fl)

/-- BSWAP: the bytes in reverse order (R371). -/
def aluBswap (w a : Nat) (fl : Nat) : AluOut :=
  let r := ofLe (leBytes (w / 8) a).reverse
  (r, flagsZN w r fl)

/-- Sign extension of a `w`-bit value to 32 bits (R370). -/
def signExt (w v : Nat) : Nat := wrapInt 32 (signed w v)

/-- Whether a branch condition holds (R373). -/
def condHolds (cond fl : Nat) : Bool :=
  match cond with
  | 0 => true
  | 1 => flagZ fl
  | 2 => !flagZ fl
  | 3 => flagC fl
  | 4 => !flagC fl
  | 5 => flagN fl
  | 6 => !flagN fl
  | 7 => flagV fl
  | 8 => !flagC fl && !flagZ fl
  | 9 => flagC fl || flagZ fl
  | 10 => flagN fl == flagV fl
  | 11 => flagN fl != flagV fl
  | 12 => !flagZ fl && (flagN fl == flagV fl)
  | 13 => flagZ fl || (flagN fl != flagV fl)
  | 14 => flagT fl
  | _ => !flagT fl

end Sys2Proof.Machine
end

