-- ==== Sys2Proof/Machine/CeState.lean ====
section
/-! DEFINITION. The communication engine's state as its instructions see it, its code and working memory, and its windows into
the pool (R353 to R361). -/

namespace Sys2Proof.Machine

/-! ## Registers and slots -/

/-- Key of an engine. -/
def ceKey (d : Die) (k : Fin 24) : Nat := d.idx * 24 + k.val

/-- An engine's state besides its registers. -/
def State.ceOf (s : State) (d : Die) (k : Fin 24) : Ce := Tab.get (fun _ => {}) s.ce (ceKey d k)

/-- The state with an engine's replaced, and CE_STAT.WAITING with it (R386). -/
def State.setCe (s : State) (d : Die) (k : Fin 24) (c : Ce) : State :=
  ({ s with ce := Tab.put (fun _ => {}) s.ce (ceKey d k) c }).setFlag (R.CE_STAT d k) 3 (decide (c.stall = 5))

/-- CE_STAT.STATE: 0 idle, 1 running, 2 halted, 3 out of service. -/
def State.ceState (s : State) (d : Die) (k : Fin 24) : Nat := s.fld (R.CE_STAT d k) 0 2

/-- The slot in CE_STAT. -/
def State.ceSlot (s : State) (d : Die) (k : Fin 24) : Nat := s.fld (R.CE_STAT d k) 8 6

/-- Whether a cycle runs. -/
def State.ceLive (s : State) (d : Die) (k : Fin 24) : Bool := s.flag (R.CE_STAT d k) 14

/-- FAULT_NESTED (R353). -/
def State.ceNested (s : State) (d : Die) (k : Fin 24) : Bool := s.flag (R.CE_STAT d k) 2

/-- Code base and code length in bytes of the running slot (R387). -/
def State.ceCb (s : State) (d : Die) (k : Fin 24) : Nat := s.fld (R.CE_SLOT_W1 d k (s.ceSlot d k)) 4 12 * 16
def State.ceClen (s : State) (d : Die) (k : Fin 24) : Nat := s.fld (R.CE_SLOT_W1 d k (s.ceSlot d k)) 16 13 * 16

/-- The cycle limit of the running slot; 0 for none (R365). -/
def State.ceLimit (s : State) (d : Die) (k : Fin 24) : Nat := (s.getReg (R.CE_SLOT_W4 d k (s.ceSlot d k))).toNat

/-- CE cycles since dispatch (R365). -/
def State.ceUsed (s : State) (d : Die) (k : Fin 24) : Nat := (s.getReg (R.CE_CYC_USED d k)).toNat

/-- Whether the running slot's outputs are diverted (R361). -/
def State.ceShadow (s : State) (d : Die) (k : Fin 24) : Bool := s.slotShadow d k (s.ceSlot d k)

/-- CE cycles counted (R365). -/
def State.ceSpend (s : State) (d : Die) (k : Fin 24) (n : Nat) : State := s.countBy (R.CE_CYC_USED d k) n

/-- The requester an engine is. -/
abbrev ceWho (d : Die) (k : Fin 24) : Requester := .ce d k

/-! ## Local memory (R354, R356) -/

/-- Internal address of local offset `a` of an engine's memory: code at 0x0_0000, working memory at 0x1_0000 (R23, R26). -/
def ceMemAddr (d : Die) (k : Fin 24) (a : Nat) : Nat := d.org + 0x1000_0000 + k.val * 0x4_0000 + a

/-- Internal address of an image address of the running slot: code memory at CB + address, modulo its 64 KiB (log entry 40). -/
def State.ceCodeAddr (s : State) (d : Die) (k : Fin 24) (a : Nat) : Nat := ceMemAddr d k ((s.ceCb d k + a) % 0x1_0000)

/-- Error mark of the local word at an internal address. -/
def State.localEcc (s : State) (a : Nat) : Nat := Tab.get (fun _ => 0) s.ceEcc (a / 4)

/-- The state with the error mark of a local word set. -/
def State.setLocalEcc (s : State) (a m : Nat) : State := { s with ceEcc := Tab.put (fun _ => 0) s.ceEcc (a / 4) m }

/-- The check of one local word that is read: a single-bit error is counted and written back, an uncorrectable one reported (R356). -/
def State.localScan (s : State) (d : Die) (k : Fin 24) (a : Nat) : Bool × State :=
  if s.localEcc a = 0 then (false, s)
  else if s.localEcc a = 1 then (false, (s.setLocalEcc a 0).count (R.CE_ECC_CORR d k))
  else (true, s)

/-- A read of 1, 2 or 4 bytes at an internal address of local memory; none where the word is uncorrectable. -/
def State.localRead (s : State) (d : Die) (k : Fin 24) (a size : Nat) : Option Nat × State :=
  let (bad, t) := s.localScan d k a
  (if bad then none else some (ofLe (t.load a size)), t)

/-- A write of 1, 2 or 4 bytes: a part of a word reads the rest of it first. -/
def State.localWrite (s : State) (d : Die) (k : Fin 24) (a size v : Nat) : Bool × State :=
  if size = 4 then (true, (s.setLocalEcc a 0).store a (leBytes 4 v))
  else
    let (bad, t) := s.localScan d k a
    if bad then (false, t) else (true, t.store a (leBytes size v))

/-! ## Windows (R358 to R360) -/

/-- Whether a window is mapped, holds frame-buffer lines, may be written; the die and first line of its base. -/
def State.winOk (s : State) (d : Die) (k : Fin 24) (w : Nat) : Bool := s.flag (R.CE_WIN_MAP d k w) 31
def State.winFrame (s : State) (d : Die) (k : Fin 24) (w : Nat) : Bool := s.flag (R.CE_WIN_MAP d k w) 22
def State.winWr (s : State) (d : Die) (k : Fin 24) (w : Nat) : Bool := s.flag (R.CE_WIN_MAP d k w) 21
def State.winDie (s : State) (d : Die) (k : Fin 24) (w : Nat) : Die := dieOf (s.fld (R.CE_WIN_MAP d k w) 20 1)
def State.winLine (s : State) (d : Die) (k : Fin 24) (w : Nat) : Nat := s.fld (R.CE_WIN_MAP d k w) 0 20

/-- Length of a window in bytes. -/
def State.winLen (s : State) (d : Die) (k : Fin 24) (w : Nat) : Nat := (s.ceOf d k).lens.getD w 0

/-- Internal address of the line that holds a window offset. -/
def State.winAddr (s : State) (d : Die) (k : Fin 24) (w o : Nat) : Nat :=
  let e := s.winDie d k w
  if s.winFrame d k w then lineAddr e (s.fbBanks e) ((s.winLine d k w + o / 64) % fbLines)
  else e.org + (s.winLine d k w * 64 + o / 64 * 64) % 0x0400_0000

/-- A window mapped: CE_WIN_MAP, its length, and its line buffer empty.  A length that CE_WIN_LEN has no room for shows a free value
there. -/
def State.winMap (s : State) (d : Die) (k : Fin 24) (w : Nat) (map : Word) (len : Nat) : State :=
  let c := s.ceOf d k
  let s := (s.setReg (R.CE_WIN_MAP d k w) map).setCe d k { c with bufs := c.bufs.set w (0, []), lens := c.lens.set w len }
  if len < 0x20_0000 then s.setReg (R.CE_WIN_LEN d k w) (wd len)
  else s.drawn.setReg (R.CE_WIN_LEN d k w) (wd (s.freeNow.toNat % 0x20_0000))

/-- A window unmapped. -/
def State.winUnmap (s : State) (d : Die) (k : Fin 24) (w : Nat) : State := s.winMap d k w 0 0

/-- The requester port an engine's pool accesses use on a die: its cluster's, or the link's on the other die (R28). -/
def cePort (d : Die) (k : Fin 24) (e : Die) : Nat := if e = d then k.val / 6 else 10

/-- The posted bytes of a line, absent where nothing is posted. -/
def Ce.postedOf (c : Ce) (la : Nat) : List (Option Byte) :=
  match c.posted.find? fun p => p.1 = la with
  | some p => p.2
  | none => List.replicate 64 none

/-- Posted bytes laid over a line. -/
def overlay : List (Option Byte) → List Byte → List Byte
  | o :: os, b :: bs => o.getD b :: overlay os bs
  | _, bs => bs

/-- Later bytes laid over earlier posted ones. -/
def mergeEn : List (Option Byte) → List (Option Byte) → List (Option Byte)
  | n :: ns, o :: os => (if n.isSome then n else o) :: mergeEn ns os
  | _, os => os

/-- `size` bytes at an offset of a line, as posted bytes. -/
def lineEn (o : Nat) (bs : List Byte) : List (Option Byte) :=
  List.replicate o none ++ bs.map some ++ List.replicate (64 - o - bs.length) none

/-- The oldest posted line performed as one pool write; a refusal is remembered in CE_STAT.WERR (R359, R360). -/
def State.cePostOne (s : State) (d : Die) (k : Fin 24) : State :=
  let c := s.ceOf d k
  match c.posted with
  | [] => s
  | p :: rest =>
    let s := s.setCe d k { c with posted := rest }
    let e := dieOfAddr p.1
    if e ≠ d ∧ !s.linkUp then s.setFlag (R.CE_STAT d k) 5 true
    else match s.poolWrite e (cePort d k e) (p.1 % 0x0400_0000) p.2 with
      | (.ok _, t) => t
      | (.error _, t) => t.setFlag (R.CE_STAT d k) 5 true

/-- `n` posted lines performed, oldest first. -/
def State.cePostAll (s : State) (d : Die) (k : Fin 24) : Nat → State
  | 0 => s
  | n + 1 => (s.cePostOne d k).cePostAll d k n

/-- Every posted line performed. -/
def State.ceDrain (s : State) (d : Die) (k : Fin 24) : State := s.cePostAll d k (s.ceOf d k).posted.length

/-- Bytes written through a window at a line: every buffer that holds the line takes them, and they enter the posted write buffer,
merging into a line that waits there; a full buffer performs its oldest line first (R359). -/
def State.cePost (s : State) (d : Die) (k : Fin 24) (la o : Nat) (bs : List Byte) : State :=
  let en := lineEn o bs
  let c := s.ceOf d k
  let bufs := c.bufs.map fun b => if b.1 = la + 1 then (b.1, overlay en b.2) else b
  if c.posted.any fun p => p.1 = la then
    s.setCe d k { c with bufs := bufs, posted := c.posted.map fun p => if p.1 = la then (la, mergeEn en p.2) else p }
  else
    let s := if 4 ≤ c.posted.length then s.cePostOne d k else s
    s.setCe d k { s.ceOf d k with bufs := bufs, posted := (s.ceOf d k).posted ++ [(la, en)] }

/-- Bytes of a window that are at hand: from its buffer, or from a posted line that holds them all (R359). -/
def State.winHit (s : State) (d : Die) (k : Fin 24) (w o size : Nat) : Option Nat :=
  let c := s.ceOf d k
  let la := s.winAddr d k w o
  let buf := c.bufs.getD w (0, [])
  if buf.1 = la + 1 then some (ofLe ((buf.2.drop (o % 64)).take size))
  else
    let en := ((c.postedOf la).drop (o % 64)).take size
    if en.all fun x => x.isSome then some (ofLe (en.map fun x => x.getD 0)) else none

/-- The line an engine waits for fetched into a window's buffer, under the posted bytes of that line; or the cause of its refusal (R359, R360). -/
def State.ceFetch (s : State) (d : Die) (k : Fin 24) (w la : Nat) : Option Nat × State :=
  let e := dieOfAddr la
  if e ≠ d ∧ !s.linkUp then (some causeDOMAIN_OFF, s)
  else match s.poolRead e (cePort d k e) (la % 0x0400_0000) 64 with
    | (.error c, t) => (some c, t)
    | (.ok bs, t) =>
      let c := t.ceOf d k
      (none, t.setCe d k { c with bufs := c.bufs.set w (la + 1, overlay (c.postedOf la) bs) })

end Sys2Proof.Machine
end

