-- ==== Sys2Proof/Machine/Operands.lean ====
section
/-! DEFINITION. The operands of an engine's instructions: word 0 and its extension words, the addressing modes, and the reads and
writes of one operand (R354 to R361, R367 to R370). -/

namespace Sys2Proof.Machine

/-! ## What an access gives -/

/-- An instruction at work: the state, the state as its reads have left it, base registers, SP and FLAGS as they stand for the
instruction, the reads that a stalled attempt has completed, the reads of this attempt, and its cycles so far (R369, R371). -/
structure Cx where
  s : State
  pre : State
  d : Die
  k : Fin 24
  b : List Nat
  sp : Nat
  fl : Nat
  log : List Nat
  done : List Nat
  cost : Nat
deriving DecidableEq, Repr

/-- What a part of an instruction gives: a value; an exception by cause, detail and address (R376); or a stall by kind, line and
window offset (R359, R371). -/
inductive CeRes (α : Type) where
  | ok (a : α) (x : Cx)
  | exc (cause detail addr : Nat) (s : State)
  | stall (kind line off mask : Nat) (x : Cx)
deriving DecidableEq, Repr

/-- One part of an instruction after another. -/
def CeRes.bind {α β : Type} (r : CeRes α) (f : α → Cx → CeRes β) : CeRes β :=
  match r with
  | .ok a x => f a x
  | .exc c n a s => .exc c n a s
  | .stall kd l o m x => .stall kd l o m x

/-- Exception causes (R376). -/
def excILLEGAL : Nat := 1
def excALIGN : Nat := 2
def excFETCH : Nat := 3
def excWINDOW : Nat := 4
def excLOCAL : Nat := 5
def excMEMERR : Nat := 6
def excBUS : Nat := 7
def excDIVZ : Nat := 8
def excSTACK : Nat := 9
def excQUEUE : Nat := 10

/-- An exception: nothing of the instruction stands but its completed reads (R369). -/
def Cx.raise {α : Type} (x : Cx) (cause detail addr : Nat) : CeRes α := .exc cause detail addr x.pre

/-- The WINDOW exception of a kind for a window (R376). -/
def Cx.raiseWin {α : Type} (x : Cx) (kind w off : Nat) : CeRes α := x.raise excWINDOW (kind + w * 32) off

/-- `n` cycles more. -/
def Cx.spend (x : Cx) (n : Nat) : Cx := { x with cost := x.cost + n }

/-- A read completed: its value joins the reads that a later stall of the same instruction need not repeat. -/
def Cx.got (x : Cx) (v : Nat) (s : State) : CeRes Nat := .ok v { x with s := s, pre := s, done := x.done ++ [v] }

/-- A read made once: repeated attempts of a stalled instruction take the value it gave. -/
def Cx.once (x : Cx) (f : Cx → CeRes Nat) : CeRes Nat :=
  match x.log with
  | v :: t => .ok v { x with log := t, done := x.done ++ [v] }
  | [] => f x

/-! ## Places -/

/-- Where a memory operand lies: a local address, or an offset of a window (R354, R358). -/
inductive Place where
  | loc (a : Nat)
  | win (w o : Nat)
deriving DecidableEq, Repr

/-- An operand: base register, SP, immediate, memory, or a bit-field of a memory word (R368). -/
inductive Opnd where
  | base (n : Nat)
  | sp
  | imm (v : Nat)
  | mem (p : Place)
  | field (p : Place) (off width : Nat) (sext : Bool)
deriving DecidableEq, Repr

/-- What a local address names for an access of a size: image, working memory or a register with its internal address and
whether through the self view; or the exception it ends in (R354, R357; alignment first: log entry 41). -/
inductive LocTgt where
  | code (a : Nat)
  | work (a : Nat)
  | reg (a : Nat) (self : Bool)
  | bad (cause : Nat)
deriving DecidableEq, Repr

/-- The target of a local address. -/
def State.locTgt (s : State) (d : Die) (k : Fin 24) (a size : Nat) (wr : Bool) : LocTgt :=
  if a % size ≠ 0 then .bad excALIGN
  else if a < 0x1_0000 then
    if wr ∨ a + size > s.ceClen d k then .bad excLOCAL else .code (s.ceCodeAddr d k a)
  else if a < 0x3_0000 then .work (ceMemAddr d k a)
  else if 0x8_0000 ≤ a ∧ a < 0x9_0000 then .reg (R.CE_ID d k + (a - 0x8_0000)) true
  else if 0x4000_0000 ≤ a ∧ a < 0x4040_0000 then .reg (R.blk d 0 + (a - 0x4000_0000)) false
  else .bad excLOCAL

/-- The check of a window access: the exception detail kind it ends in, if any (R358). -/
def State.winFault (s : State) (d : Die) (k : Fin 24) (w o size : Nat) (wr : Bool) : Option Nat :=
  if !s.winOk d k w then some 1
  else if o + size > s.winLen d k w then some 0
  else if wr ∧ !s.winWr d k w then some 2
  else none

/-! ## Register accesses of an engine (R366, R407, R546) -/

/-- The width of an engine's register access. -/
def regWidth (a size : Nat) : Width :=
  if size = 4 then .w32 else if size = 2 then .w16 (decide (a / 2 % 2 = 1)) else .w8 ⟨a % 4, by omega⟩

/-- Bytes of a register word that a narrow read asks for. -/
def laneOf (a size : Nat) (w : Word) : Nat := w.toNat / 2 ^ (8 * (a % 4)) % 2 ^ (8 * size)

/-- Whether a register is the SFQ_RDATA_LO of a stream FIFO, whose read may stall (R73, R74). -/
def isSfqData (b off : Nat) : Bool := decide (b = 9) && decide (0x100 ≤ off) && decide (off < 0x900) && decide ((off - 0x100) % 0x40 = 8)

/-- A read of SFQ_RDATA_LO by an engine: a value, a stall, or the result of the read that stalled (R74). -/
def Cx.sfqRead (x : Cx) (a n : Nat) : CeRes Nat :=
  let who := ceWho x.d x.k
  let w := Tab.get (fun _ => ({} : AccWait)) x.s.accWait (waitKey who)
  let put (s : State) (w : AccWait) : State := { s with accWait := Tab.put (fun _ => {}) s.accWait (waitKey who) w }
  if w.addr = a + 1 then
    if !w.done then .stall 4 0 0 0 x
    else
      let s := put x.s {}
      if w.cause ≠ 0 then .exc excBUS w.cause 0 s else ({ x with s := s, pre := s }).got (w.val % 0x1_0000_0000) s
  else match x.s.sfqRead who x.d n false with
    | (.error c, t) => .exc excBUS c 0 t
    | (.ok (some v), t) => x.got (v % 0x1_0000_0000) t
    | (.ok none, t) =>
      let t := put t { addr := a + 1 }
      .stall 4 0 0 0 { x with s := t, pre := t }

/-- A read of a register by an engine; a refusal is BUS with its cause (R376).  Data windows of a unit of another slot are refused
(R407). -/
def Cx.regRead (x : Cx) (a size la : Nat) : CeRes Nat :=
  let wa := a / 4 * 4
  let who := ceWho x.d x.k
  match x.s.regCheck who wa (regWidth a size) false with
  | some c => x.raise excBUS c la
  | none =>
    match targetOf (canonAddr wa) with
    | .reg e b off =>
      if (b = 9 ∨ b = 38) ∧ sideEffectRead b off ∧ x.s.otherSlot x.d x.k.val b off then x.raise excBUS causeRULE la
      else if isSfqData b off then
        match x.sfqRead wa ((off - 0x100) / 0x40) with
        | .exc c n _ s => .exc c n la s
        | r => r
      else match readReg who e b off x.s with
        | .error c => x.raise excBUS c la
        | .ok (w, t) => x.got (laneOf a size w) t
    | _ => x.raise excBUS causeNO_TARGET la

/-- A write of a register by an engine: through the self view CE_EVT and, while nested, FS0, FS1 and FS3; through the register
window the five blocks of R407; a refusal is BUS (R376, R386, R407). -/
def Cx.regWrite (x : Cx) (a size v la : Nat) (self : Bool) : CeRes Unit :=
  let who := ceWho x.d x.k
  let wa := a / 4 * 4
  match x.s.regCheck who wa (regWidth a size) true with
  | some c => x.raise excBUS c la
  | none =>
    match targetOf (canonAddr wa) with
    | .reg e b off =>
      if self then
        if off = 0x48 ∨ (x.s.ceNested x.d x.k ∧ (off = 0x80 ∨ off = 0x84 ∨ off = 0x8C)) then
          .ok () { x with s := x.s.rowWrite e b off (wd v) }
        else x.raise excBUS causeRULE la
      else if x.s.engineRefuses who wa ∨ b = 10 + x.k.val then x.raise excBUS causeRULE la
      else match writeUnit who e b off (wd v) x.s with
        | .error c => x.raise excBUS c la
        | .ok t => .ok () { x with s := t }
    | _ => x.raise excBUS causeNO_TARGET la

/-! ## Reads and writes of memory operands -/

/-- A read of 1, 2 or 4 bytes at a local address (R354, R356, R357). -/
def Cx.readLoc (x : Cx) (a size : Nat) : CeRes Nat :=
  match x.s.locTgt x.d x.k a size false with
  | .bad c => x.raise c 0 a
  | .code i => match x.s.localRead x.d x.k i size with
    | (some v, t) => x.got v t
    | (none, t) => .exc excMEMERR 3 a t
  | .work i => match x.s.localRead x.d x.k i size with
    | (some v, t) => x.got v t
    | (none, t) => .exc excMEMERR 2 a t
  | .reg i _ => x.regRead i size a

/-- A read of 1, 2 or 4 bytes at a window offset: at hand, or a stall for its line (R357 to R359). -/
def Cx.readWin (x : Cx) (w o size : Nat) : CeRes Nat :=
  if o % size ≠ 0 then x.raise excALIGN 0 o
  else match x.s.winFault x.d x.k w o size false with
    | some kind => x.raiseWin kind w o
    | none => match x.s.winHit x.d x.k w o size with
      | some v => x.got v x.s
      | none => .stall (1 + w) (x.s.winAddr x.d x.k w o) o 0 x

/-- A read of a place, which counts one cycle (R371). -/
def Cx.read (x : Cx) (p : Place) (size : Nat) : CeRes Nat :=
  (x.spend 1).once fun x =>
    match p with
    | .loc a => x.readLoc a size
    | .win w o => x.readWin w o size

/-- What the compare of R110 keeps of a window write: the pool address written as its destination, its length and its bytes (R414). -/
def State.keepWrite (s : State) (d : Die) (k : Fin 24) (a : Nat) (bs : List Byte) : State :=
  s.recordOutput d k (s.ceSlot d k) 32 (leBytes 5 a ++ leBytes 4 bs.length ++ bs)

/-- A write of 1, 2 or 4 bytes at a place (R354, R357 to R361). -/
def Cx.writeRaw (x : Cx) (p : Place) (size v : Nat) : CeRes Unit :=
  match p with
  | .loc a =>
    match x.s.locTgt x.d x.k a size true with
    | .bad c => x.raise c 0 a
    | .code _ => x.raise excLOCAL 0 a
    | .work i => match x.s.localWrite x.d x.k i size v with
      | (true, t) => .ok () { x with s := t }
      | (false, _) => x.raise excMEMERR 2 a
    | .reg i self => x.regWrite i size v a self
  | .win w o =>
    if o % size ≠ 0 then x.raise excALIGN 0 o
    else match x.s.winFault x.d x.k w o size true with
      | some kind => x.raiseWin kind w o
      | none =>
        let la := x.s.winAddr x.d x.k w o
        let bs := leBytes size v
        let t := if w = 0 then x.s else x.s.keepWrite x.d x.k (la + o % 64) bs
        .ok () { x with s := if w ≠ 0 ∧ x.s.ceShadow x.d x.k then t else t.cePost x.d x.k la (o % 64) bs }

/-- A write of a place, which counts one cycle (R371). -/
def Cx.write (x : Cx) (p : Place) (size v : Nat) : CeRes Unit := (x.spend 1).writeRaw p size v

/-! ## Operands -/

/-- The value of base register n. -/
def Cx.bn (x : Cx) (n : Nat) : Nat := x.b.getD n 0

/-- The context with a base register replaced. -/
def Cx.setB (x : Cx) (n v : Nat) : Cx := { x with b := x.b.set n (v % 0x1_0000_0000) }

/-- A read of an operand at a size in bytes: registers give their low bits, a bit-field its field (R368, R370). -/
def Cx.get (x : Cx) (o : Opnd) (size : Nat) : CeRes Nat :=
  match o with
  | .base n => .ok (x.bn n % 2 ^ (8 * size)) x
  | .sp => .ok (x.sp % 2 ^ (8 * size)) x
  | .imm v => .ok (v % 2 ^ (8 * size)) x
  | .mem p => x.read p size
  | .field p off width sext => (x.read p 4).bind fun w x =>
      let f := w / 2 ^ off % 2 ^ width
      .ok (if sext then signExt width f else f) x

/-- A read of the word that a bit-field destination is a part of, before anything is written; nothing for another operand (R368). -/
def Cx.getOld (x : Cx) (o : Opnd) : CeRes Nat :=
  match o with
  | .field p _ _ _ => x.read p 4
  | _ => .ok 0 x

/-- A read of a destination that the operation reads: its value, and the word a bit-field lies in. -/
def Cx.getBoth (x : Cx) (o : Opnd) (size : Nat) : CeRes (Nat × Nat) :=
  match o with
  | .field p off width sext => (x.read p 4).bind fun w x =>
      let f := w / 2 ^ off % 2 ^ width
      .ok (if sext then signExt width f else f, w) x
  | _ => (x.get o size).bind fun v x => .ok (v, 0) x

/-- A write of an operand: a register takes the sign-extended result, a bit-field its low bits within the old word (R368, R370). -/
def Cx.put (x : Cx) (o : Opnd) (size v old : Nat) : CeRes Unit :=
  match o with
  | .base n => .ok () (x.setB n (signExt (8 * size) v))
  | .sp => .ok () { x with sp := signExt (8 * size) v }
  | .imm _ => .ok () x
  | .mem p => x.write p size (v % 2 ^ (8 * size))
  | .field p off width _ =>
    x.write p 4 (old - old / 2 ^ off % 2 ^ width * 2 ^ off + v % 2 ^ width * 2 ^ off)

/-! ## Decoding (R355, R367, R368) -/

/-- What an opcode does with a specifier: none, an operand at SZ, a word, an address, a MOVM address (R368, R370 to R372). -/
inductive Role where
  | none
  | sized
  | word
  | addr
  | movm
deriving DecidableEq, Repr

/-- The formats of R367; `win` is the operand format whose D field is the window bit. -/
inductive Form where
  | op
  | br
  | loop
  | win
deriving DecidableEq, Repr

/-- Format and roles of S1, S2 and D of an opcode; none for an opcode that R371 does not list. -/
def opRoles (op : Nat) : Option (Form × Role × Role × Role) :=
  if 0x10 ≤ op ∧ op ≤ 0x1A then some (.op, .sized, .sized, .sized)
  else if 0x20 ≤ op ∧ op ≤ 0x23 then some (.op, .sized, .sized, .sized)
  else if 0x26 ≤ op ∧ op ≤ 0x2A then some (.op, .sized, .sized, .sized)
  else match op with
    | 0x01 => some (.op, .sized, .none, .sized)
    | 0x02 => some (.op, .sized, .none, .word)
    | 0x03 => some (.op, .sized, .none, .word)
    | 0x04 => some (.op, .addr, .none, .word)
    | 0x05 => some (.op, .none, .none, .sized)
    | 0x06 => some (.op, .sized, .none, .sized)
    | 0x07 => some (.op, .movm, .word, .movm)
    | 0x08 => some (.op, .word, .none, .none)
    | 0x09 => some (.op, .none, .none, .word)
    | 0x1B => some (.op, .sized, .none, .sized)
    | 0x1C => some (.op, .sized, .sized, .none)
    | 0x24 => some (.op, .sized, .none, .sized)
    | 0x25 => some (.op, .sized, .none, .none)
    | 0x30 => some (.op, .sized, .sized, .none)
    | 0x31 => some (.op, .sized, .none, .sized)
    | 0x32 => some (.op, .sized, .none, .sized)
    | 0x33 => some (.op, .sized, .none, .sized)
    | 0x35 => some (.op, .sized, .none, .sized)
    | 0x36 => some (.op, .sized, .none, .sized)
    | 0x37 => some (.op, .word, .sized, .word)
    | 0x38 => some (.op, .word, .sized, .word)
    | 0x40 => some (.br, .none, .none, .none)
    | 0x41 => some (.br, .none, .none, .none)
    | 0x42 => some (.op, .word, .none, .none)
    | 0x43 => some (.op, .word, .none, .none)
    | 0x44 => some (.op, .none, .none, .none)
    | 0x45 => some (.op, .none, .none, .none)
    | 0x46 => some (.loop, .none, .none, .sized)
    | 0x47 => some (.br, .none, .none, .none)
    | 0x48 => some (.op, .none, .none, .none)
    | 0x50 => some (.op, .word, .none, .none)
    | 0x51 => some (.op, .sized, .none, .none)
    | 0x52 => some (.op, .sized, .none, .addr)
    | 0x53 => some (.op, .sized, .addr, .none)
    | 0x54 => some (.win, .addr, .none, .none)
    | 0x55 => some (.win, .sized, .sized, .none)
    | 0x56 => some (.win, .none, .none, .none)
    | 0x57 => some (.op, .none, .none, .none)
    | _ => none

/-- A decoded specifier: mode, register, extension word, size in bytes. -/
structure Spec where
  mode : Nat
  reg : Nat
  ext : Nat
  size : Nat
deriving DecidableEq, Repr

/-- A decoded instruction: opcode, SZ in bytes, the specifiers, COND, displacement in words, window, length in bytes. -/
structure Ins where
  op : Nat
  size : Nat := 4
  s1 : Option Spec := none
  s2 : Option Spec := none
  dd : Option Spec := none
  cond : Nat := 0
  disp : Int := 0
  w : Nat := 1
  len : Nat := 4
deriving DecidableEq, Repr

/-- Whether a mode has an extension word (R368). -/
def hasExt (mode : Nat) : Bool := mode = 2 || mode = 3 || (decide (6 ≤ mode) && decide (mode ≤ 12))

/-- The reserved bits of a mode's extension word (R368). -/
def extReserved : Nat → Nat
  | 0x2 => 0xFFFF_0000
  | 0x3 => 0xFFE0_0000
  | 0x8 => 0xFFD0_0000
  | 0x9 => 0xFFC0_0000
  | 0xA => 0xE000_0000
  | 0xB => 0xFFF8_0000
  | 0xC => 0xFFFF_0000
  | _ => 0

/-- Size in bytes of an operand by its role (R370). -/
def roleSize (r : Role) (sz : Nat) : Nat := if r = .word ∨ r = .movm then 4 else 2 ^ sz

/-- Whether a specifier in a role is one the decoder accepts; `dst` when the instruction writes it (R368, R372). -/
def specOk (r : Role) (dst : Bool) (sz : Nat) (p : Spec) : Bool :=
  let m := p.mode
  !((m = 6 || m = 7 || m = 12 || m = 13) && decide (p.reg ≠ 0)) &&
  decide (p.ext &&& extReserved m = 0) &&
  !(m = 6 && dst) &&
  !(decide (r = .addr) && (m = 0 || m = 6 || m = 10 || m = 13)) &&
  !(decide (r = .movm) && !(m = 1 || m = 2 || m = 3 || m = 7 || m = 8 || m = 9 || m = 12)) &&
  !(m = 10 && (decide (p.ext / 0x1_0000 % 32 + p.ext / 0x20_0000 % 32 + 1 > 32) || decide (sz ≠ 2))) &&
  !(m = 11 && (decide (p.ext % 0x1_0000 = 0) || decide (p.ext % 0x1_0000 % p.size ≠ 0)))

/-- One specifier decoded: `n` is how many extension words stand before its own; `ext` gives extension word i, or none beyond CLEN or
uncorrectable with the exception it ends in.  The result is the specifier with the extension words used. -/
def specAt (ext : Nat → Nat) (r : Role) (sz field n : Nat) : Option Spec × Nat :=
  if r = .none then (none, n)
  else
    let m := field / 8 % 16
    (some { mode := m, reg := field % 8, ext := if hasExt m then ext n else 0, size := roleSize r sz },
      if hasExt m then n + 1 else n)

/-- The number of extension words of an instruction by its word 0 (R367). -/
def extCount (f : Role × Role × Role) (w : Nat) : Nat :=
  let one (r : Role) (field : Nat) : Nat := if r ≠ .none ∧ hasExt (field / 8 % 16) then 1 else 0
  one f.1 (w / 0x400 % 128) + one f.2.1 (w / 0x2_0000 % 128) + one f.2.2 (w / 0x100_0000 % 128)

/-- An instruction decoded from word 0 and its extension words; none where the decoder raises ILLEGAL (R367, R368, R371, R372). -/
def decodeIns (w : Nat) (ext : Nat → Nat) : Option Ins :=
  let op := w % 256
  match opRoles op with
  | none => none
  | some (.br, _, _, _) =>
    let c := w / 256 % 16
    let disp := signed 20 (w / 0x1000)
    if (op = 0x41 ∧ c ≠ 0) ∨ (op = 0x47 ∧ disp ≠ 0) then none else some { op := op, cond := c, disp := disp }
  | some (form, r1, r2, r3) =>
    let sz := w / 256 % 4
    let f1 := if form = .loop then 0 else w / 0x400 % 128
    let f2 := if form = .loop then 0 else w / 0x2_0000 % 128
    let f3 := if form = .loop then w / 0x400 % 128 else w / 0x100_0000 % 128
    let unused : Bool := (decide (r1 = .none) && decide (f1 ≠ 0)) || (decide (r2 = .none) && decide (f2 ≠ 0)) ||
      (decide (form = .op) && decide (r3 = .none) && decide (f3 ≠ 0)) || (decide (form = .win) && decide (f3 / 2 ≠ 0)) ||
      (decide (form ≠ .loop) && decide (w / 0x8000_0000 % 2 = 1))
    let badMode (r : Role) (f : Nat) : Bool := decide (r ≠ .none) && decide (14 ≤ f / 8 % 16)
    if sz = 3 ∨ unused ∨ badMode r1 f1 ∨ badMode r2 f2 ∨ badMode r3 f3 then none
    else
      let (a, n1) := specAt ext r1 sz f1 0
      let (b, n2) := specAt ext r2 sz f2 n1
      let (c, n3) := specAt ext r3 sz f3 n2
      let ok (r : Role) (dst : Bool) (p : Option Spec) : Bool := match p with | some q => specOk r dst sz q | none => true
      if ok r1 (decide (op = 6)) a ∧ ok r2 false b ∧ ok r3 true c then
        some { op := op, size := 2 ^ sz, s1 := a, s2 := b, dd := c,
               disp := if form = .loop then signed 15 (w / 0x2_0000) else 0,
               w := 1 + (if form = .win then f3 % 2 else 0), len := 4 + 4 * n3 }
      else none

/-! ## Effective addresses (R368, R369) -/

/-- A local or window place with its address modulo 2^32. -/
def locAt (a : Int) : Place := .loc (wrapInt 32 a)
def winAt (w a : Nat) : Place := .win w (a % 0x1_0000_0000)

/-- The operand a specifier names, with the register updates of its mode (R368). -/
def Cx.resolve (x : Cx) (p : Spec) : Opnd × Cx :=
  let a := x.bn p.reg
  let disp := signed 16 p.ext
  match p.mode with
  | 0x0 => (.base p.reg, x)
  | 0x1 => (.mem (locAt a), x)
  | 0x2 => (.mem (locAt (a + disp)), x)
  | 0x3 => (.mem (locAt (a + (x.bn (p.ext / 0x1_0000 % 8) * 2 ^ (p.ext / 0x8_0000 % 4) : Nat) + disp)), x)
  | 0x4 => (.mem (locAt a), x.setB p.reg (a + p.size))
  | 0x5 => (.mem (locAt ((a : Int) - (p.size : Nat))), x.setB p.reg (wrapInt 32 ((a : Int) - (p.size : Nat))))
  | 0x6 => (.imm (p.ext % 2 ^ (8 * p.size)), x)
  | 0x7 => (.mem (.loc p.ext), x)
  | 0x8 => (.mem (winAt 0 (p.ext % 0x10_0000 + (if p.ext.testBit 21 then a else 0))), x)
  | 0x9 => (.mem (winAt (1 + p.ext / 0x10_0000 % 2) (p.ext % 0x10_0000 + (if p.ext.testBit 21 then a else 0))), x)
  | 0xA =>
    let sp := p.ext / 0x800_0000 % 4
    let pl := if sp = 0 then locAt (a + disp) else winAt (sp - 1) (a + p.ext % 0x1_0000)
    (.field pl (p.ext / 0x1_0000 % 32) (p.ext / 0x20_0000 % 32 + 1) (p.ext.testBit 26), x)
  | 0xB =>
    let base := x.bn (p.ext / 0x1_0000 % 8)
    (.mem (locAt a), x.setB p.reg (base + wrapInt 32 ((a : Int) - (base : Nat) + (p.size : Nat)) % (p.ext % 0x1_0000)))
  | 0xC => (.mem (locAt (x.sp + p.ext % 0x1_0000 : Nat)), x)
  | _ => (.sp, x)

/-- The operand of a specifier that may be absent. -/
def Cx.resolveOpt (x : Cx) (p : Option Spec) : Opnd × Cx :=
  match p with
  | some q => x.resolve q
  | none => (.imm 0, x)

/-- The three operands in the order S1, S2, D (R369). -/
def Cx.operands (x : Cx) (i : Ins) : Opnd × Opnd × Opnd × Cx :=
  let (a, x) := x.resolveOpt i.s1
  let (b, x) := x.resolveOpt i.s2
  let (c, x) := x.resolveOpt i.dd
  (a, b, c, x)

end Sys2Proof.Machine
end

