-- ==== Sys2Proof/Machine/Ce.lean ====
section
/-! DEFINITION. The cycles of a communication engine: dispatch, limit, exceptions, halts, and what surrounds every instruction
(R355, R362 to R366, R376 to R384). -/

namespace Sys2Proof.Machine

/-! ## The end of a cycle -/

/-- The frames a cycle holds freed (R410). -/
def State.ceFreeFrames (s : State) (d : Die) (k : Fin 24) : State :=
  let c := s.ceOf d k
  (c.taken.foldl (fun s t => s.dropRef (dieOf t.1) (some t.2.1)) s).setCe d k { c with taken := [] }

/-- A frame given back by the window that mapped it (R410). -/
def State.ceFreeFrame (s : State) (d : Die) (k : Fin 24) (line : Nat) (drop : Bool) : State :=
  let c := s.ceOf d k
  match c.taken.find? fun t => t.2.1 = line with
  | none => s
  | some t =>
    let s := s.setCe d k { c with taken := c.taken.filter fun u => u.2.1 ≠ line }
    if drop then s.dropRef (dieOf t.1) (some line) else s

/-- The placement in a slot replaced by a function of it. -/
def State.updPlacement (s : State) (d : Die) (k slot : Nat) (f : Placement → Placement) : State :=
  match s.slotIntent d k slot with
  | none => s
  | some (i, p) =>
    let g (q : Placement) : Placement := if q = p then f q else q
    s.setIntent i.handle { i with cur := i.cur.map g, tgt := i.tgt.map g }

/-- A cycle that will not report: LOST advances (R401). -/
def State.ceLostCycle (s : State) (d : Die) (k : Fin 24) : State :=
  s.updPlacement d k.val (s.ceSlot d k) fun p => { p with lost := min (p.lost + 1) 0xFFFF }

/-- The cycle is over: frames freed, nothing stalls, no cycle runs; a halt that was asked for takes place now (R384), with the engine's
bit of doorbell receiver 0 (R441). -/
def State.ceOver (s : State) (d : Die) (k : Fin 24) : State :=
  let s := s.ceFreeFrames d k
  let c := s.ceOf d k
  let s := s.setCe d k { c with posted := [], stall := 0, line := 0, off := 0, mask := 0, log := [], lost := false, halt := false }
  let s := ((s.setFlag (R.CE_STAT d k) 14 false).setFlag (R.CE_STAT d k) 2 false).setFlag (R.CE_STAT d k) 5 false
  if c.halt then ((s.setFld (R.CE_STAT d k) 0 2 2).setReg (R.CE_HALT_CAUSE d k) (wd 0x200)).raiseSup d k.val
  else s.setFld (R.CE_STAT d k) 0 2 0

/-- The cycle aborted: posted writes are performed, no report is issued, ABORTS and CE_CNT_ABORT count it (R365). -/
def State.ceAbort (s : State) (d : Die) (k : Fin 24) : State :=
  let s := s.ceDrain d k
  let s := (s.countFld (R.CE_SLOT_W26 d k (s.ceSlot d k)) 0 16 1).count (R.CE_CNT_ABORT d k)
  (if (s.ceOf d k).lost then s else s.ceLostCycle d k).ceOver d k

/-- Whether `n` cycles more would go beyond the limit (R365): an instruction that ends as the count reaches it takes effect (log
entry 42). -/
def State.ceBeyond (s : State) (d : Die) (k : Fin 24) (n : Nat) : Bool :=
  decide (s.ceLimit d k ≠ 0) && decide (s.ceLimit d k < s.ceUsed d k + n)

/-- Whether the count has reached the limit. -/
def State.ceAtLimit (s : State) (d : Die) (k : Fin 24) : Bool :=
  decide (s.ceLimit d k ≠ 0) && decide (s.ceLimit d k ≤ s.ceUsed d k)

/-! ## Fetch (R355) -/

/-- The instruction at PC, with its word 0, and the state its reads of code memory leave; or the exception it ends in, with its
detail and address. -/
def State.ceFetchIns (s : State) (d : Die) (k : Fin 24) : Except (Nat × Nat × Nat) (Ins × Nat) × State :=
  let pc := s.fld (R.CE_PC d k) 0 16
  let n := s.ceClen d k
  if pc % 4 ≠ 0 ∨ pc + 4 > n then (.error (excFETCH, 0, pc), s)
  else match s.localRead d k (s.ceCodeAddr d k pc) 4 with
    | (none, s) => (.error (excMEMERR, 3, pc), s)
    | (some w, s) =>
      match opRoles (w % 256) with
      | none => (.error (excILLEGAL, 0, 0), s)
      | some (form, r1, r2, r3) =>
        let m := if form = .loop then extCount (.none, .none, r3) (w / 0x400 % 128 * 0x100_0000) else extCount (r1, r2, r3) w
        if pc + 4 + 4 * m > n then (.error (excFETCH, 0, pc), s)
        else
          let (bad, s) := (List.range m).foldl (fun (acc : Bool × State) i =>
            let (b, t) := acc.2.localScan d k (s.ceCodeAddr d k (pc + 4 + 4 * i))
            (acc.1 || b, t)) (false, s)
          if bad then (.error (excMEMERR, 3, pc), s)
          else
            let ext (i : Nat) : Nat := ofLe (s.load (s.ceCodeAddr d k (pc + 4 + 4 * i)) 4)
            match decodeIns w ext with
            | none => (.error (excILLEGAL, 0, 0), s)
            | some ins => (.ok (ins, w), s)

/-! ## Exceptions (R376 to R382) -/

/-- A word of the running image; none where it is not below CLEN or cannot be read. -/
def State.ceImageWord (s : State) (d : Die) (k : Fin 24) (a : Nat) : Option Nat × State :=
  if a + 4 > s.ceClen d k then (none, s) else s.localRead d k (s.ceCodeAddr d k a) 4

/-- An exception while FAULT_NESTED = 1 halts the engine: the second cause is kept, the supervisors are told, and the halt is a
rank-1 unit fault (R380). -/
def State.ceNestedHalt (s : State) (d : Die) (k : Fin 24) (cause : Nat) : State :=
  let s := (s.setFld (R.CE_STAT d k) 0 2 2).setReg (R.CE_HALT_CAUSE d k) (wd (cause + 0x100))
  let s := if (s.ceOf d k).lost then s else s.ceLostCycle d k
  ((s.setCe d k { s.ceOf d k with lost := true }).raiseSup d k.val).unitFault d 2 k.val

/-- Entry to the fault stack (R379): it uses no memory and costs 4 cycles. -/
def State.ceFaultStack (s : State) (d : Die) (k : Fin 24) (pc cw w0 : Nat) : State :=
  if s.ceBeyond d k 4 then s.ceAbort d k
  else
    let sp := s.getReg (R.CE_SP d k)
    let fs (i : Nat) (v : Word) (s : State) : State := s.setReg (R.CE_FS d k i) v
    let s := fs 7 (s.getReg (R.CE_CYC_USED d k)) (fs 6 (wd (s.ceSlot d k)) (fs 5 (wd w0) (fs 4 (s.getReg (R.CE_FADDR d k))
      (fs 3 sp (fs 2 (wd cw) (fs 1 (s.getReg (R.CE_FLAGS d k)) (fs 0 (wd pc) s)))))))
    let s := ((s.setFlag (R.CE_STAT d k) 2 true).setReg (R.CE_SP d k) (s.getReg (R.CE_SP_HI d k))).ceSpend d k 4
    match s.ceImageWord d k 48 with
    | (none, s) => s.ceNestedHalt d k excFETCH
    | (some 0, s) => s.ceAbort d k
    | (some v, s) => s.setReg (R.CE_PC d k) (wd (v % 0x1_0000))

/-- An exception taken: abort where it has no handler, a frame of PC, FLAGS and cause word where the stack has room, else the fault
stack; a halt where one is already in it (R376 to R380).  `pc` is the PC saved and `w0` the instruction's word 0. -/
def State.ceExcept (s : State) (d : Die) (k : Fin 24) (cause detail addr pc w0 : Nat) : State :=
  let cw := cause + detail % 256 * 256
  let c := s.ceOf d k
  let s := s.setCe d k { c with stall := 0, line := 0, off := 0, mask := 0, log := [] }
  if s.ceNested d k then s.ceNestedHalt d k cause
  else
    let s := (s.setReg (R.CE_FADDR d k) (wd addr)).setReg (R.CE_FCAUSE d k) (wd cw)
    match s.ceImageWord d k (4 * cause) with
    | (none, s) => s.ceFaultStack d k pc cw w0
    | (some 0, s) => s.ceAbort d k
    | (some v, s) =>
      let sp := (s.getReg (R.CE_SP d k)).toNat
      if sp % 4 = 0 ∧ sp ≤ (s.getReg (R.CE_SP_HI d k)).toNat ∧ (s.getReg (R.CE_SP_LO d k)).toNat + 12 ≤ sp then
        if s.ceBeyond d k 6 then s.ceAbort d k
        else
          let fl := s.fld (R.CE_FLAGS d k) 0 5
          let put (a v : Nat) (s : State) : State := (s.localWrite d k (ceMemAddr d k a) 4 v).2
          let s := put (sp - 12) cw (put (sp - 8) fl (put (sp - 4) pc s))
          let s := (s.setReg (R.CE_SP d k) (wd (sp - 12))).setReg (R.CE_FLAGS d k) (wd (flagsT false fl))
          ((s.count (R.CE_CNT_EXC d k)).ceSpend d k 6).setReg (R.CE_PC d k) (wd (v % 0x1_0000))
      else s.ceFaultStack d k pc cw w0

/-- The engine arrives at an instruction: the limit and a halt that was asked for come first, then what its fetch raises; an
instruction that can be fetched waits for its own command.  `n` bounds the exceptions in a row: each takes stack. -/
def State.ceArrive (s : State) (d : Die) (k : Fin 24) : Nat → State
  | 0 => s
  | n + 1 =>
    if s.ceState d k ≠ 1 ∨ !s.ceLive d k then s
    else if s.ceAtLimit d k then s.ceAbort d k
    else if (s.ceOf d k).halt then
      let c := s.ceOf d k
      let s := if c.lost then s else s.ceLostCycle d k
      ((s.setCe d k { c with halt := false, lost := true }).setFld (R.CE_STAT d k) 0 2 2).setReg (R.CE_HALT_CAUSE d k) (wd 0x200)
        |>.raiseSup d k.val
    else match s.ceFetchIns d k with
      | (.ok _, s) => s
      | (.error (c, m, a), s) =>
        let pc := s.fld (R.CE_PC d k) 0 16
        let (w0, s) := if c = excFETCH then (s.freeNow.toNat, s.drawn) else (ofLe (s.load (s.ceCodeAddr d k pc) 4), s)
        (s.ceExcept d k c m a pc w0).ceArrive d k n

/-- Exceptions that can follow one another before the stack window is full. -/
def State.ceFuel (s : State) (d : Die) (k : Fin 24) : Nat :=
  ((s.getReg (R.CE_SP_HI d k)).toNat - (s.getReg (R.CE_SP_LO d k)).toNat) / 12 + 4

/-- Arrival with all it may need. -/
def State.ceGo (s : State) (d : Die) (k : Fin 24) : State := s.ceArrive d k (s.ceFuel d k)

/-! ## Instructions (R369, R371) -/

/-- The context an instruction starts with. -/
def State.cx (s : State) (d : Die) (k : Fin 24) : Cx :=
  { s := s, pre := s, d := d, k := k, b := (List.range 8).map fun i => (s.getReg (R.CE_B d k i)).toNat,
    sp := (s.getReg (R.CE_SP d k)).toNat, fl := s.fld (R.CE_FLAGS d k) 0 5, log := (s.ceOf d k).log, done := [], cost := 0 }

/-- The instruction's results stand: base registers, SP, FLAGS, the cycles it took, and the next PC. -/
def Cx.commit (x : Cx) (pc : Nat) : State :=
  let s := x.s
  let s := (List.range 8).foldl (fun s i => s.setReg (R.CE_B x.d x.k i) (wd (x.bn i))) s
  let s := (s.setReg (R.CE_SP x.d x.k) (wd x.sp)).setReg (R.CE_FLAGS x.d x.k) (wd (x.fl % 32))
  let c := s.ceOf x.d x.k
  let s := s.setCe x.d x.k { c with stall := 0, line := 0, off := 0, mask := 0, log := [] }
  (s.ceSpend x.d x.k x.cost).setReg (R.CE_PC x.d x.k) (wd (pc % 0x1_0000))

/-- How an instruction's attempt ends: its results stand and the engine arrives at the next PC, it stalls, or it raises an
exception; one that would pass the limit has no effect and the cycle is aborted (R365, R369, R377). -/
def State.ceFinish (s : State) (d : Die) (k : Fin 24) (w0 : Nat) (r : CeRes Nat) : State :=
  let pc := s.fld (R.CE_PC d k) 0 16
  match r with
  | .ok next x =>
    if x.pre.ceBeyond d k x.cost then x.pre.ceAbort d k
    else if next < 0x1_0000 then (x.commit next).ceGo d k
    else ((x.commit next).ceExcept d k excFETCH 0 next (next % 0x1_0000) w0).ceGo d k
  | .exc c n a t =>
    (t.ceExcept d k c n a (if 16 ≤ c then pc + 4 else pc) w0).ceGo d k
  | .stall kind line off mask x =>
    if x.pre.ceBeyond d k x.cost then x.pre.ceAbort d k
    else
      let c := x.s.ceOf d k
      let t := x.s.setCe d k { c with stall := kind, line := line, off := off, mask := mask, log := x.done }
      if kind = 7 then t.ceSpend d k x.cost else t

end Sys2Proof.Machine
end

