-- ==== Sys2Proof/Machine/CeOps.lean ====
section
/-! DEFINITION. What each instruction of an engine computes and where its result goes, but for the queues (R371 to R374, R382).
`pc` is the instruction's own PC; the value of a finished instruction is the next PC. -/

namespace Sys2Proof.Machine

/-- The shape of an operation on an instruction. -/
abbrev CeOp := Ins → Nat → Cx → CeRes Nat

/-- The PC behind an instruction. -/
def Ins.next (i : Ins) (pc : Nat) : Nat := pc + i.len

/-- D := f of S1 and S2 at SZ with its flags; no result raises DIVZ (R371). -/
def ceAlu (base : Ins → Nat) (f : Nat → Nat → Nat → Nat → Option AluOut) : CeOp := fun i pc x =>
  let (o1, o2, od, x) := x.operands i
  (x.get o1 i.size).bind fun a x => (x.get o2 i.size).bind fun b x => (x.getOld od).bind fun old x =>
  match f (8 * i.size) a b x.fl with
  | none => x.raise excDIVZ 0 0
  | some (r, fl) => (x.put od i.size r old).bind fun _ x => .ok (i.next pc) ({ x with fl := fl }.spend (base i))

/-- Flags of f of S1 and S2, the result discarded. -/
def ceTest (f : Nat → Nat → Nat → Nat → Nat) : CeOp := fun i pc x =>
  let (o1, o2, _, x) := x.operands i
  (x.get o1 i.size).bind fun a x => (x.get o2 i.size).bind fun b x =>
  .ok (i.next pc) ({ x with fl := f (8 * i.size) a b x.fl }.spend 1)

/-- D (word) := f of S1 at SZ. -/
def ceWiden (f : Nat → Nat → Nat) : CeOp := fun i pc x =>
  let (o1, _, od, x) := x.operands i
  (x.get o1 i.size).bind fun a x => (x.getOld od).bind fun old x =>
  (x.put od 4 (f (8 * i.size) a) old).bind fun _ x => .ok (i.next pc) (x.spend 1)

/-- MOV. -/
def ceMov : CeOp := ceAlu (fun _ => 1) fun _ a _ fl => some (a, fl)
/-- MOVZ. -/
def ceMovz : CeOp := ceWiden fun _ a => a
/-- MOVS. -/
def ceMovs : CeOp := ceWiden signExt
/-- ADR: the address of S1, which is not read. -/
def ceAdr : CeOp := fun i pc x =>
  let (o1, _, od, x) := x.operands i
  (x.getOld od).bind fun old x =>
  (x.put od 4 (match o1 with | .mem (.loc a) => a | .mem (.win _ o) => o | _ => 0) old).bind fun _ x => .ok (i.next pc) (x.spend 1)
/-- CLR. -/
def ceClr : CeOp := fun i pc x =>
  let (_, _, od, x) := x.operands i
  (x.getOld od).bind fun old x => (x.put od i.size 0 old).bind fun _ x => .ok (i.next pc) (x.spend 1)
/-- XCH: both are read, then D and S1 written. -/
def ceXch : CeOp := fun i pc x =>
  let (o1, _, od, x) := x.operands i
  (x.getBoth o1 i.size).bind fun a x => (x.getBoth od i.size).bind fun b x =>
  (x.put od i.size a.1 b.2).bind fun _ x => (x.put o1 i.size b.1 a.2).bind fun _ x => .ok (i.next pc) (x.spend 1)

/-- ADD, ADDC, SUB, SUBC. -/
def ceAdd : CeOp := ceAlu (fun _ => 1) fun w a b fl => some (aluAdd w a b false fl)
def ceAddc : CeOp := ceAlu (fun _ => 1) fun w a b fl => some (aluAdd w a b (flagC fl) fl)
def ceSub : CeOp := ceAlu (fun _ => 1) fun w a b fl => some (aluSub w a b false fl)
def ceSubc : CeOp := ceAlu (fun _ => 1) fun w a b fl => some (aluSub w a b (flagC fl) fl)
/-- MUL, MULHU, MULHS: 3 cycles. -/
def ceMul : CeOp := ceAlu (fun _ => 3) fun w a b fl => some (aluMul w a b fl)
def ceMulhu : CeOp := ceAlu (fun _ => 3) fun w a b fl => some (aluMulhu w a b fl)
def ceMulhs : CeOp := ceAlu (fun _ => 3) fun w a b fl => some (aluMulhs w a b fl)
/-- DIVU, DIVS, REMU, REMS: 2 + bits cycles; a zero divisor raises DIVZ. -/
def ceDivu : CeOp := ceAlu (fun i => 2 + 8 * i.size) fun w a b fl => if b = 0 then none else some (aluDivu w a b fl)
def ceDivs : CeOp := ceAlu (fun i => 2 + 8 * i.size) fun w a b fl => if b = 0 then none else some (aluDivs w a b fl)
def ceRemu : CeOp := ceAlu (fun i => 2 + 8 * i.size) fun w a b fl => if b = 0 then none else some (aluRemu w a b fl)
def ceRems : CeOp := ceAlu (fun i => 2 + 8 * i.size) fun w a b fl => if b = 0 then none else some (aluRems w a b fl)
/-- NEG: 0 − S1. -/
def ceNeg : CeOp := ceAlu (fun _ => 1) fun w a _ fl => some (aluSub w 0 a false fl)
/-- CMP. -/
def ceCmp : CeOp := ceTest fun w a b fl => (aluSub w a b false fl).2
/-- AND, OR, XOR, ANDN, NOT. -/
def ceAnd : CeOp := ceAlu (fun _ => 1) fun w a b fl => some (aluLogic w (a &&& b) fl)
def ceOr : CeOp := ceAlu (fun _ => 1) fun w a b fl => some (aluLogic w (a ||| b) fl)
def ceXor : CeOp := ceAlu (fun _ => 1) fun w a b fl => some (aluLogic w (a ^^^ b) fl)
def ceAndn : CeOp := ceAlu (fun _ => 1) fun w a b fl => some (aluLogic w (a &&& (b ^^^ (2 ^ w - 1))) fl)
def ceNot : CeOp := ceAlu (fun _ => 1) fun w a _ fl => some (aluLogic w (a ^^^ (2 ^ w - 1)) fl)
/-- TST. -/
def ceTst : CeOp := ceTest fun w a _ fl => (aluLogic w a fl).2
/-- SHL, SHR, SAR by S2 [4:0]; ROL, ROR by S2 modulo the bits. -/
def ceShl : CeOp := ceAlu (fun _ => 1) fun w a b fl => some (aluShl w a (b % 32) fl)
def ceShr : CeOp := ceAlu (fun _ => 1) fun w a b fl => some (aluShr w a (b % 32) fl)
def ceSar : CeOp := ceAlu (fun _ => 1) fun w a b fl => some (aluSar w a (b % 32) fl)
def ceRol : CeOp := ceAlu (fun _ => 1) fun w a b fl => some (aluRol w a b fl)
def ceRor : CeOp := ceAlu (fun _ => 1) fun w a b fl => some (aluRor w a b fl)
/-- BTST. -/
def ceBtst : CeOp := ceTest fun w a b fl => flagsT (a.testBit (b % w)) fl

/-- BSET, BCLR, BCHG: T := the bit of D that S1 names, and the bit set, cleared or inverted. -/
def ceBit (f : Bool → Bool) : CeOp := fun i pc x =>
  let (o1, _, od, x) := x.operands i
  (x.get o1 i.size).bind fun a x => (x.getBoth od i.size).bind fun v x =>
  let n := a % (8 * i.size)
  let t := v.1.testBit n
  let r := if f t = t then v.1 else if t then v.1 - 2 ^ n else v.1 + 2 ^ n
  (x.put od i.size r v.2).bind fun _ x => .ok (i.next pc) ({ x with fl := flagsT t x.fl }.spend 1)
/-- BSET. -/
def ceBset : CeOp := ceBit fun _ => true
/-- BCLR. -/
def ceBclr : CeOp := ceBit fun _ => false
/-- BCHG. -/
def ceBchg : CeOp := ceBit fun b => !b
/-- FFS. -/
def ceFfs : CeOp := ceAlu (fun _ => 1) fun w a _ fl => some (aluFfs w a fl)
/-- BSWAP. -/
def ceBswap : CeOp := ceAlu (fun _ => 1) fun w a _ fl => some (aluBswap w a fl)

/-- CRCC, CRCE: the CRC register S1 (word) advanced over the SZ bytes of S2 into D (word). -/
def ceCrc (poly : Nat) : CeOp := fun i pc x =>
  let (o1, o2, od, x) := x.operands i
  (x.get o1 4).bind fun a x => (x.get o2 i.size).bind fun b x => (x.getOld od).bind fun old x =>
  (x.put od 4 (crcRun poly a (leBytes i.size b)) old).bind fun _ x => .ok (i.next pc) (x.spend 1)
/-- CRCC. -/
def ceCrcc : CeOp := ceCrc 0x82F63B78
/-- CRCE. -/
def ceCrce : CeOp := ceCrc 0xEDB88320

/-! ## Stack (R374) -/

/-- A push of one word. -/
def Cx.push (x : Cx) (v : Nat) : CeRes Unit :=
  if x.sp % 4 = 0 ∧ x.sp ≤ (x.s.getReg (R.CE_SP_HI x.d x.k)).toNat ∧ (x.s.getReg (R.CE_SP_LO x.d x.k)).toNat + 4 ≤ x.sp then
    (x.writeRaw (.loc (x.sp - 4)) 4 (v % 0x1_0000_0000)).bind fun _ x => .ok () { x with sp := x.sp - 4 }
  else x.raise excSTACK 0 0

/-- Whether `n` words may be popped. -/
def Cx.canPop (x : Cx) (n : Nat) : Bool :=
  decide (x.sp % 4 = 0) && decide ((x.s.getReg (R.CE_SP_LO x.d x.k)).toNat ≤ x.sp) &&
    decide (x.sp + 4 * n ≤ (x.s.getReg (R.CE_SP_HI x.d x.k)).toNat)

/-- A pop of one word. -/
def Cx.pop (x : Cx) : CeRes Nat :=
  if x.canPop 1 then (x.once fun x => x.readLoc x.sp 4).bind fun v x => .ok v { x with sp := x.sp + 4 }
  else x.raise excSTACK 1 0

/-- PUSH. -/
def cePush : CeOp := fun i pc x =>
  let (o1, _, _, x) := x.operands i
  (x.get o1 4).bind fun v x => (x.push v).bind fun _ x => .ok (i.next pc) (x.spend 1)
/-- POP. -/
def cePop : CeOp := fun i pc x =>
  let (_, _, od, x) := x.operands i
  x.pop.bind fun v x => (x.getOld od).bind fun old x => (x.put od 4 v old).bind fun _ x => .ok (i.next pc) (x.spend 1)

/-! ## Control flow (R373) -/

/-- The target of a displacement in words, as a 32-bit address. -/
def brTarget (pc : Nat) (disp : Int) : Nat := wrapInt 32 ((pc : Int) + 4 * disp)

/-- Bcc. -/
def ceBcc : CeOp := fun i pc x =>
  if condHolds i.cond x.fl then .ok (brTarget pc i.disp) (x.spend 2) else .ok (i.next pc) (x.spend 1)
/-- BSR. -/
def ceBsr : CeOp := fun i pc x => (x.push (pc + 4)).bind fun _ x => .ok (brTarget pc i.disp) (x.spend 3)
/-- JMP. -/
def ceJmp : CeOp := fun i _ x =>
  let (o1, _, _, x) := x.operands i
  (x.get o1 4).bind fun v x => .ok v (x.spend 2)
/-- CALL. -/
def ceCall : CeOp := fun i pc x =>
  let (o1, _, _, x) := x.operands i
  (x.get o1 4).bind fun v x => (x.push (i.next pc)).bind fun _ x => .ok v (x.spend 3)
/-- RET. -/
def ceRet : CeOp := fun _ _ x => x.pop.bind fun v x => .ok v (x.spend 3)
/-- RETE: from the fault stack, or from a frame on the stack (R382). -/
def ceRete : CeOp := fun _ _ x =>
  if x.s.ceNested x.d x.k then
    .ok (x.s.fld (R.CE_FS x.d x.k 0) 0 16)
      ({ x with s := x.s.setFlag (R.CE_STAT x.d x.k) 2 false, fl := x.s.fld (R.CE_FS x.d x.k 1) 0 5,
                sp := (x.s.getReg (R.CE_FS x.d x.k 3)).toNat }.spend 5)
  else if !x.canPop 3 then x.raise excSTACK 1 0
  else x.pop.bind fun _ x => x.pop.bind fun f x => x.pop.bind fun v x => .ok v ({ x with fl := f % 32 }.spend 5)
/-- LOOP. -/
def ceLoop : CeOp := fun i pc x =>
  let (_, _, od, x) := x.operands i
  (x.getBoth od i.size).bind fun v x =>
  let r := wrapInt (8 * i.size) ((v.1 : Int) - 1)
  (x.put od i.size r v.2).bind fun _ x =>
  if r ≠ 0 then .ok (brTarget pc i.disp) (x.spend 2) else .ok (i.next pc) (x.spend 1)
/-- TRAP n. -/
def ceTrap : CeOp := fun i _ x => x.raise (16 + i.cond) 0 0
/-- NOP. -/
def ceNop : CeOp := fun i pc x => .ok (i.next pc) (x.spend 1)

/-! ## MOVM (R372) -/

/-- A place further on. -/
def Place.at_ (p : Place) (n : Nat) : Place :=
  match p with
  | .loc a => .loc (a + n)
  | .win w o => .win w (o + n)

/-- The words of `n` bytes, then the bytes left: (offset, size). -/
def movmParts (n : Nat) : List (Nat × Nat) :=
  ((List.range (n / 4)).map fun i => (4 * i, 4)) ++ ((List.range (n % 4)).map fun i => (n / 4 * 4 + i, 1))

/-- The exception that a range of `n` bytes at a place ends in, if any: cause, detail, address. -/
def Cx.rangeFault (x : Cx) (p : Place) (n : Nat) (wr : Bool) : Option (Nat × Nat × Nat) :=
  match p with
  | .loc a =>
    if a % 4 ≠ 0 then some (excALIGN, 0, a)
    else (movmParts n).findSome? fun c =>
      match x.s.locTgt x.d x.k (a + c.1) c.2 wr with
      | .bad e => some (e, 0, a + c.1)
      | _ => none
  | .win w o =>
    if o % 4 ≠ 0 then some (excALIGN, 0, o)
    else if n = 0 then none
    else (x.s.winFault x.d x.k w o n wr).map fun kind => (excWINDOW, kind + w * 32, o)

/-- The bytes of a source range, part by part; each part read once. -/
def readParts (p : Place) : List (Nat × Nat) → List Byte → Cx → CeRes (List Byte)
  | [], acc, x => .ok acc x
  | c :: t, acc, x =>
    (x.once fun x => match p.at_ c.1 with
      | .loc a => x.readLoc a c.2
      | .win w o => x.readWin w o c.2).bind fun v x => readParts p t (acc ++ leBytes c.2 v) x

/-- Bytes written to a destination range, part by part in ascending order. -/
def writeParts (p : Place) (bs : List Byte) : List (Nat × Nat) → Cx → CeRes Unit
  | [], x => .ok () x
  | c :: t, x => (x.writeRaw (p.at_ c.1) c.2 (ofLe ((bs.drop c.1).take c.2))).bind fun _ x => writeParts p bs t x

/-- Where a place lies for the overlap of source and destination: a local address, or a pool address. -/
def Cx.keyOf (x : Cx) (p : Place) : Bool × Nat :=
  match p with
  | .loc a => (false, a)
  | .win w o => (true, x.s.winAddr x.d x.k w o + o % 64)

/-- The bytes that land when a destination begins `k` bytes above its source within the range: the source pattern repeats. -/
def repeatPattern (k : Nat) (bs : List Byte) : List Byte := (List.range bs.length).map fun i => bs.getD (i % k) 0

/-- MOVM: both ranges are checked, then S2 bytes copied; a count above 65,535, for which the spec states nothing, is a free one. -/
def ceMovm : CeOp := fun i pc x =>
  let (o1, o2, od, x) := x.operands i
  (x.get o2 4).bind fun n x =>
  ((if n < 0x1_0000 then .ok n x else x.once fun x => x.got (x.s.freeNow.toNat % 0x1_0000) x.s.drawn) : CeRes Nat).bind fun n x =>
  match o1, od with
  | .mem src, .mem dst =>
    match x.rangeFault src n false with
    | some (c, m, a) => x.raise c m a
    | none =>
    match x.rangeFault dst n true with
    | some (c, m, a) => x.raise c m a
    | none =>
      (readParts src (movmParts n) [] x).bind fun bs x =>
      let ks := x.keyOf src
      let kd := x.keyOf dst
      let bs := if ks.1 = kd.1 ∧ ks.2 < kd.2 ∧ kd.2 < ks.2 + n then repeatPattern (kd.2 - ks.2) bs else bs
      (writeParts dst bs (movmParts n) x).bind fun _ x => .ok (i.next pc) (x.spend (2 + 2 * ((n + 3) / 4)))
  | _, _ => x.raise excILLEGAL 0 0

/-! ## Windows and waiting (R358, R360, R364, R371) -/

/-- The exception a refused posted write raises at FLUSH, END, MAPF, MAPG and UNMAP; WERR is reported by it (R360). -/
def Cx.werr {α : Type} (x : Cx) (f : Cx → CeRes α) : CeRes α :=
  if x.s.flag (R.CE_STAT x.d x.k) 5 then .exc excMEMERR 1 0 (x.pre.setFlag (R.CE_STAT x.d x.k) 5 false) else f x

/-- A window given up: the frame it maps is freed, but for `keep` (R410). -/
def State.winDrop (s : State) (d : Die) (k : Fin 24) (w : Nat) (keep : Option Nat) : State :=
  let s := if s.winOk d k w ∧ s.winFrame d k w ∧ keep ≠ some (s.winLine d k w) then s.ceFreeFrame d k (s.winLine d k w) true else s
  s.winUnmap d k w

/-- The internal address of `n` bytes of working memory at an operand's address; else the exception (R371). -/
def Cx.workAt (x : Cx) (o : Opnd) (n : Nat) : Except (Nat × Nat) Nat :=
  match o with
  | .mem (.loc a) =>
    if a % 4 ≠ 0 then .error (excALIGN, a)
    else if 0x1_0000 ≤ a ∧ a + n ≤ 0x3_0000 then .ok (ceMemAddr x.d x.k a)
    else .error (excLOCAL, a)
  | .mem (.win _ a) => .error (excLOCAL, a)
  | _ => .error (excLOCAL, 0)

/-- `n` words of working memory; or the local address of one that is uncorrectable. -/
def State.workWords (s : State) (d : Die) (k : Fin 24) (a : Nat) : Nat → Except Nat (List Word) × State
  | 0 => (.ok [], s)
  | n + 1 =>
    match s.localRead d k a 4 with
    | (none, s) => (.error (a % 0x4_0000), s)
    | (some v, s) => match s.workWords d k (a + 4) n with
      | (.error e, s) => (.error e, s)
      | (.ok l, s) => (.ok (wd v :: l), s)

/-- Words written into working memory. -/
def State.setWorkWords (s : State) (d : Die) (k : Fin 24) (a : Nat) : List Word → State
  | [] => s
  | w :: t => ((s.localWrite d k a 4 w.toNat).2).setWorkWords d k (a + 4) t

/-- MAPF: the received frame whose descriptor lies at S1 mapped read only, if the cycle holds it; else WINDOW (R358, R410). -/
def ceMapf : CeOp := fun i pc x => x.werr fun x =>
  let (o1, _, _, x) := x.operands i
  match x.workAt o1 32 with
  | .error (c, a) => x.raise c 0 a
  | .ok a => match x.s.workWords x.d x.k a 8 with
    | (.error e, t) => .exc excMEMERR 2 e t
    | (.ok ws, t) =>
      let x := { x with s := t, pre := t }
      let line := bits (ws.getD 1 0) 0 18
      match (t.ceOf x.d x.k).taken.find? fun u => u.2.1 = line with
      | none => x.raiseWin 1 i.w 0
      | some u =>
        let t := t.winDrop x.d x.k i.w (some line)
        let t := t.winMap x.d x.k i.w (wd (0x8040_0000 + u.1 % 2 * 0x10_0000 + line)) u.2.2
        .ok (i.next pc) ({ x with s := t }.spend 6)

/-- MAPG: grant S1 [2:0] of the running slot mapped from line S2 [19:0] to its end, with its permission (R358, R387). -/
def ceMapg : CeOp := fun i pc x => x.werr fun x =>
  let (o1, o2, _, x) := x.operands i
  (x.get o1 i.size).bind fun g x => (x.get o2 i.size).bind fun n x =>
  let g := g % 8
  let n := n % 0x10_0000
  let slot := x.s.ceSlot x.d x.k
  let w0 := x.s.getReg (R.CE_GRANT_W0 x.d x.k slot g)
  let lines := x.s.fld (R.CE_GRANT_W1 x.d x.k slot g) 0 20
  if !bit w0 31 ∨ lines ≤ n then x.raiseWin 1 i.w 0
  else
    let t := x.s.winDrop x.d x.k i.w none
    let t := t.winMap x.d x.k i.w (wd (0x8000_0000 + bits w0 20 2 * 0x10_0000 + (bits w0 0 20 + n) % 0x10_0000)) ((lines - n) * 64)
    .ok (i.next pc) ({ x with s := t }.spend 3)

/-- UNMAP. -/
def ceUnmap : CeOp := fun i pc x => x.werr fun x => .ok (i.next pc) ({ x with s := x.s.winDrop x.d x.k i.w none }.spend 2)

/-- FLUSH: waits until every posted write has been performed. -/
def ceFlush : CeOp := fun i pc x =>
  if (x.s.ceOf x.d x.k).posted ≠ [] then .stall 6 0 0 0 x else x.werr fun x => .ok (i.next pc) (x.spend 1)

/-- WAIT: stalls until CE_EVT and S1 [7:0] is not 0. -/
def ceWait : CeOp := fun i pc x =>
  let (o1, _, _, x) := x.operands i
  (x.get o1 i.size).bind fun m x =>
  if (x.s.fld (R.CE_EVT x.d x.k) 0 8) &&& (m % 256) ≠ 0 then .ok (i.next pc) (x.spend 1) else .stall 5 0 0 (m % 256) x

/-- END: the report status is read; the cycle then waits for its posted writes and its commit (R364). -/
def ceEnd : CeOp := fun i _ x =>
  let (o1, _, _, x) := x.operands i
  (x.get o1 4).bind fun v x => .stall 7 0 0 v (x.spend 4)

end Sys2Proof.Machine
end

