-- ==== Sys2Proof/Machine/Switch.lean ====
section
/-! DEFINITION. The switch (R183 to R226): classes, VLANs, the forwarding decision, learning, stream filters, early drop,
resequencing, cut-through, egress scheduling with gates and shapers, and the windows onto its tables. -/

namespace Sys2Proof.Machine

/-! ## Reading a frame -/

/-- A 6-byte address as the registers hold it: byte 0 lowest. -/
def macAt (bs : List Byte) (i : Nat) : Nat := ofLe ((bs.drop i).take 6)

/-- A 6-byte address in a register pair. -/
def State.macReg (s : State) (lo hi : Nat) : Nat := (s.getReg lo).toNat + s.fld hi 0 16 * 0x1_0000_0000

/-- Whether a frame holds a C-tag (R189). -/
def hasTag (bs : List Byte) : Bool := decide (beAt bs 12 2 = 0x8100)

/-- Offset of the EtherType behind at most one VLAN tag. -/
def etOff (bs : List Byte) : Nat := if hasTag bs then 16 else 12

/-- EtherType behind at most one VLAN tag. -/
def etype (bs : List Byte) : Nat := beAt bs (etOff bs) 2

/-- A list with bytes `[i, i + n)` removed. -/
def cutOut (bs : List Byte) (i n : Nat) : List Byte := bs.take i ++ bs.drop (i + n)

/-- A list with bytes inserted at `i`. -/
def putIn (bs : List Byte) (i : Nat) (x : List Byte) : List Byte := bs.take i ++ x ++ bs.drop i

/-- A list with byte `i` replaced. -/
def setByteAt (bs : List Byte) (i : Nat) (b : Nat) : List Byte := bs.set i (BitVec.ofNat 8 b)

/-- A group address. -/
def isGroup (bs : List Byte) : Bool := decide (byteAt bs 0 % 2 = 1)

/-! ## Classes and VLANs (R186 to R189) -/

/-- The die whose in-band command a frame is (R186): its address, EtherType and an allowed source. -/
def State.mgmtDie (s : State) (bs : List Byte) : Option Die :=
  let hit (d : Die) : Bool :=
    s.flag (R.CMD_IB_MAC_HI d) 31 && decide (macAt bs 0 = s.macReg (R.CMD_IB_MAC_LO d) (R.CMD_IB_MAC_HI d)) &&
    decide (etype bs = 0x88B5) &&
    (List.range 8).any fun k => s.flag (R.CMD_IB_ALLOW_HI d k) 31 &&
      decide (macAt bs 6 = s.macReg (R.CMD_IB_ALLOW_LO d k) (R.CMD_IB_ALLOW_HI d k))
  if hit .d0 then some .d0 else if hit .d1 then some .d1 else none

/-- Class of a PCP at a port (R187). -/
def State.pcpTc (s : State) (d : Die) (i pcp : Nat) : Nat := s.fld (R.SW_PCP_MAP d i) (3 * pcp) 3

/-- Member and untagged set of a VID (R189). -/
def State.vlanOf (s : State) (d : Die) (vid : Nat) : Nat × Nat := Tab.get (fun _ => (0, 0)) s.vlan (d.idx * 4096 + vid)

/-! ## The flow table (R190 to R193) -/

/-- CRC-32C with a given initial value (R190, R202). -/
def crcSeed (seed : Nat) (l : List Byte) : Nat := crcRun 0x82F63B78 seed l ^^^ 0xFFFFFFFF

/-- Bucket of an address and VID. -/
def State.ftBucket (s : State) (d : Die) (mac vid : Nat) : Nat :=
  crcSeed (s.getReg (R.SW_HASH_SEED d)).toNat (leBytes 6 mac ++ beBytes 2 vid) % 8192

/-- A flow-table entry. -/
def State.ftAt (s : State) (d : Die) (n : Nat) : FtEntry := Tab.get (fun _ => {}) s.ft (d.idx * 32768 + n)

/-- The state with a flow-table entry replaced. -/
def State.setFt (s : State) (d : Die) (n : Nat) (e : FtEntry) : State :=
  { s with ft := Tab.put (fun _ => {}) s.ft (d.idx * 32768 + n) e }

/-- The entry of an address and VID. -/
def State.ftFind (s : State) (d : Die) (mac vid : Nat) : Option Nat :=
  let b := s.ftBucket d mac vid
  ((List.range 4).find? fun w =>
    let e := s.ftAt d (4 * b + w)
    decide (e.type ≠ 0) && decide (e.mac = mac) && decide (e.vid = vid)).map fun w => 4 * b + w

/-- The valid path group a port is a member of (R192, R202). -/
def State.groupOf (s : State) (d : Die) (i : Nat) : Option Nat :=
  firstIdx 8 fun g => s.flag (R.SW_PG d g) 31 && (s.fld (R.SW_PG d g) 0 5 = i || s.fld (R.SW_PG d g) 16 5 = i)

/-- Learning of the source of a frame that ended with a good FCS on ports 0 to 13 and 15 (R192). -/
def State.learn (s : State) (d : Die) (i vid : Nat) (bs : List Byte) : State :=
  let sa := macAt bs 6
  let e : FtEntry := match s.groupOf d i with
    | some g => { type := 1, mac := sa, vid := vid, group := true, target := g, seen := (s.now d).sec }
    | none => { type := 1, mac := sa, vid := vid, target := 2 ^ i, seen := (s.now d).sec }
  if ¬(i < 14 ∨ i = 15) ∨ sa % 2 = 1 then s else
  match s.ftFind d sa vid with
  | some n =>
    let o := s.ftAt d n
    if o.type = 2 then
      if (!o.group && o.target.testBit i) || (o.group && e.group && decide (o.target = e.target)) then s
      else s.count (R.SW_CNT_SA_CONFLICT d)
    else s.setFt d n e
  | none =>
    let b := s.ftBucket d sa vid
    match (List.range 4).find? fun w => (s.ftAt d (4 * b + w)).type = 0 with
    | some w => s.setFt d (4 * b + w) e
    | none => s.count (R.SW_CNT_LEARN_FAIL d)

/-! ## Path groups (R202, R203) -/

/-- The key of a frame's flow: addresses, VID, EtherType, and for IP the addresses, protocol and ports. -/
def flowKey (vid : Nat) (bs : List Byte) : List Byte :=
  let o := etOff bs + 2
  let sub (i n : Nat) : List Byte := (bs.drop i).take n
  let l4 (p q : Nat) : List Byte := if p = 6 ∨ p = 17 then sub q 4 else []
  let base := sub 6 6 ++ sub 0 6 ++ beBytes 2 vid ++ sub (o - 2) 2
  if etype bs = 0x0800 then
    base ++ sub (o + 12) 8 ++ sub (o + 9) 1 ++ l4 (byteAt bs (o + 9)) (o + byteAt bs o % 16 * 4)
  else if etype bs = 0x86DD then base ++ sub (o + 8) 32 ++ sub (o + 6) 1 ++ l4 (byteAt bs (o + 6)) (o + 40)
  else base

/-- Key of a path group. -/
def pgKey (d : Die) (g : Nat) : Nat := d.idx * 8 + g

/-- Buckets of a group that are away from home. -/
def State.pgAwayOf (s : State) (d : Die) (g : Nat) : Nat := Tab.get (fun _ => 0) s.pgAway (pgKey d g)

/-- The member that takes a frame of a group, and the state with its bucket's place: a bucket goes away when its home member is
down and stays away until it returns (R202, R203). -/
def State.pgPick (s : State) (d : Die) (g vid : Nat) (bs : List Byte) : Option Nat × State :=
  let a := s.fld (R.SW_PG d g) 0 5
  let b := s.fld (R.SW_PG d g) 16 5
  let k := crcSeed (s.getReg (R.SW_HASH_SEED d)).toNat (flowKey vid bs) % 64
  let home := if k % 2 = 0 then a else b
  let other := if k % 2 = 0 then b else a
  let away := s.pgAwayOf d g
  if !s.portUp d a && !s.portUp d b then (none, s)
  else if away.testBit k then
    if s.portUp d other then (some other, s)
    else (some home, { s with pgAway := Tab.put (fun _ => 0) s.pgAway (pgKey d g) (away ^^^ 2 ^ k) })
  else if s.portUp d home then (some home, s)
  else (some other, { s with pgAway := Tab.put (fun _ => 0) s.pgAway (pgKey d g) (away ||| 2 ^ k) })

/-- A port of a die goes down: of every group it is a member of, all its buckets move to the other member at once, and those that were away
with it go home (R203). -/
def State.pgLeave (s : State) (d : Die) (e : Nat) : State :=
  (List.range 8).foldl (fun s g =>
    let a := decide (s.fld (R.SW_PG d g) 0 5 = e)
    let b := decide (s.fld (R.SW_PG d g) 16 5 = e)
    if !s.flag (R.SW_PG d g) 31 || !(a || b) then s
    else
      let homes := (List.range 64).foldl (fun m k => if (if k % 2 = 0 then a else b) then m + 2 ^ k else m) 0
      { s with pgAway := Tab.put (fun _ => 0) s.pgAway (pgKey d g) homes }) s

/-- A_UP and B_UP of every group brought up to date (R226). -/
def State.pgShow (s : State) (d : Die) : State :=
  (List.range 8).foldl (fun s g =>
    (s.setFlag (R.SW_PG d g) 5 (s.portUp d (s.fld (R.SW_PG d g) 0 5))).setFlag (R.SW_PG d g) 21 (s.portUp d (s.fld (R.SW_PG d g) 16 5))) s

/-! ## Stream entries (R214 to R216) -/

/-- Key of a stream entry. -/
def sidKey (d : Die) (n : Nat) : Nat := d.idx * 4096 + n

/-- Word `w` of a stream entry. -/
def State.sidWord (s : State) (d : Die) (n w : Nat) : Word := (Tab.get (fun _ => []) s.sid (sidKey d n)).getD w 0

/-- Address and VID of a stream entry. -/
def State.sidMac (s : State) (d : Die) (n : Nat) : Nat := (s.sidWord d n 1).toNat + bits (s.sidWord d n 2) 0 16 * 0x1_0000_0000
def State.sidVid (s : State) (d : Die) (n : Nat) : Nat := bits (s.sidWord d n 2) 16 12

/-- What an entry holds besides its words. -/
def State.sidStOf (s : State) (d : Die) (n : Nat) : SidSt := Tab.get (fun _ => {}) s.sidSt (sidKey d n)

/-- The state with it replaced. -/
def State.setSidSt (s : State) (d : Die) (n : Nat) (x : SidSt) : State :=
  { s with sidSt := Tab.put (fun _ => {}) s.sidSt (sidKey d n) x }

/-- The valid stream entries a frame matches, lowest first: null identification by destination address, or source identification (R214). -/
def State.sidHits (s : State) (d : Die) (vid : Nat) (bs : List Byte) : List Nat :=
  (s.sid.filter fun e =>
    let w0 := e.2.getD 0 0
    let w2 := e.2.getD 2 0
    decide (e.1 / 4096 = d.idx) && bit w0 2 && decide (bits w2 16 12 = vid) &&
    decide ((e.2.getD 1 0).toNat + bits w2 0 16 * 0x1_0000_0000 = macAt bs (if bits w0 0 2 = 0 then 0 else 6))).map fun e => e.1 % 4096

/-- One bit in the units of the meter. -/
def meterBit : Nat := 1_000_000

/-- The two-rate three-colour meter of an entry on a frame of `len` bytes, yellow on arrival or not: its colour (R215). -/
def State.meter (s : State) (d : Die) (n len : Nat) (yellow : Bool) : Nat × State :=
  let w (i : Nat) : Nat := (s.sidWord d n i).toNat
  let cbs := w 4 % 0x100_0000 * 8 * meterBit
  let ebs := w 6 % 0x100_0000 * 8 * meterBit
  let x := s.sidStOf d n
  let x := if x.started then x else { x with started := true, bc := cbs, be := ebs, at_ := s.lin d }
  let dt := s.lin d - x.at_
  let c := x.bc + w 3 * dt
  let spill := if bit (s.sidWord d n 0) 4 then c - min c cbs else 0
  let x := { x with bc := min c cbs, be := min (x.be + w 5 * dt + spill) ebs, at_ := s.lin d }
  let need := len * 8 * meterBit
  if !yellow && decide (need ≤ x.bc) then (0, s.setSidSt d n { x with bc := x.bc - need })
  else if need ≤ x.be then (1, s.setSidSt d n { x with be := x.be - need })
  else (2, s.setSidSt d n x)

/-- Sequence recovery of an entry on a number: whether the frame is kept (R216, the vector recovery of IEEE 802.1CB). -/
def State.recover (s : State) (d : Die) (n q : Nat) : Bool × State :=
  let x := s.sidStOf d n
  let h := max 1 (bits (s.sidWord d n 7) 0 6 + (if bits (s.sidWord d n 7) 0 7 = 64 then 64 else 0))
  let delta := signed 16 ((q + 65536 - x.recov) % 65536)
  if x.takeAny then (true, s.setSidSt d n { x with takeAny := false, recov := q, hist := 1 })
  else if delta ≥ h ∨ delta ≤ -(h : Int) then (false, s.count (R.SW_CNT_CB_DISCARD d))
  else if delta ≤ 0 then
    let k := (-delta).toNat
    if x.hist.testBit k then (false, s.count (R.SW_CNT_CB_DISCARD d))
    else (true, s.setSidSt d n { x with hist := x.hist ||| 2 ^ k })
  else (true, s.setSidSt d n { x with recov := q, hist := (x.hist * 2 ^ delta.toNat + 1) % 2 ^ h })

/-! ## Early drop (R217) -/

/-- Next value of a port's LFSR. -/
def lfsrNext (l : Nat) : Nat :=
  let b := (l ^^^ (l / 4) ^^^ (l / 8) ^^^ (l / 32)) % 2
  l / 2 + b * 0x8000

/-- Average depth of a queue. -/
def State.avg (s : State) (d : Die) (e t : Nat) : Nat := Tab.get (fun _ => 0) s.swAvg (queueKey d e t)

/-- The state with an average depth replaced. -/
def State.setAvg (s : State) (d : Die) (e t a : Nat) : State := { s with swAvg := Tab.put (fun _ => 0) s.swAvg (queueKey d e t) a }

/-- Queue limit of a class (R218). -/
def State.qlimit (s : State) (d : Die) (t : Nat) : Nat :=
  if t < 4 then s.fld (R.SW_QLIMIT d t) 0 18 else s.fld (R.SW_QLIMITR d (t - 4)) 0 18

/-! ## The credit-based shaper (R211) -/

/-- idleSlope of a class of a port, 0 where it has no shaper (R211). -/
def State.slope (s : State) (d : Die) (e t : Nat) : Nat :=
  if e < 14 ∧ 1 ≤ t ∧ t ≤ 3 then s.fld (R.SW_CBS_SLOPE d e (t - 1)) 0 17 else 0

/-- Credit of a class in Mb/s times ns, and the linear count from which it rises with idleSlope: the end of its last transmission. -/
def State.cbsOf (s : State) (d : Die) (e t : Nat) : Int × Nat := Tab.get (fun _ => ((0 : Int), 0)) s.swCbs (queueKey d e t)

/-- Credit of a class brought up to now: rising from the end of its last transmission, never held above 0 by an empty queue (R211). -/
def State.credit (s : State) (d : Die) (e t : Nat) : Int :=
  let (c, at_) := s.cbsOf d e t
  let c' := c + (s.slope d e t * (s.lin d - at_) : Nat)
  if s.queue d e t = [] then min c' 0 else c'

/-- The state with a class's credit noted, rising from `at_` on. -/
def State.setCredit (s : State) (d : Die) (e t : Nat) (c : Int) (at_ : Nat) : State :=
  { s with swCbs := Tab.put (fun _ => ((0 : Int), 0)) s.swCbs (queueKey d e t) (c, at_) }

/-- A frame of `len` bytes sent from a class: its credit falls with sendSlope, idleSlope less the port rate, for the time the frame takes with
its FCS, preamble and gap (R211). -/
def State.shaperSpend (s : State) (d : Die) (e t len : Nat) : State :=
  let r := speedMbps (s.portSpeed d e)
  let sl := s.slope d e t
  if sl = 0 ∨ r = 0 then s
  else
    let ns := (len + 24) * 8 * 1000 / r
    s.setCredit d e t (s.credit d e t + ((sl : Int) - (r : Int)) * (ns : Int)) (s.lin d + ns)

/-- A frame put on an egress queue; a queue that was empty lets no credit above 0 stand (R211). -/
def State.append (s : State) (d : Die) (e t : Nat) (f : Frm) : State :=
  let s := if s.queue d e t = [] ∧ s.slope d e t ≠ 0 ∧ (s.cbsOf d e t).2 ≤ s.lin d then s.setCredit d e t (s.credit d e t) (s.lin d) else s
  (s.setQueue d e t (s.queue d e t ++ [f])).portReq d e false

/-- A copy of a frame for an egress queue: queued, dropped by the queue's limit or by early drop, or flushed where the port has gone down
(R217, R222). -/
def State.enqueue (s : State) (d : Die) (e : Nat) (f : Frm) : State :=
  let t := f.tc
  let drop (s : State) (r cause : Nat) : State := ((s.count r).dropRef d f.line).txBack d f false false cause e none
  if !s.portUp d e then drop s (R.SW_FLUSH d e) 1
  else if t = 7 then s.enqMgmt d e f else
  let n := linesOf f.bytes
  let dep := s.depth d e t
  let l := Tab.get (fun _ => 0xACE1) s.swLfsr (swKey d e)
  let s := { s with swLfsr := Tab.put (fun _ => 0xACE1) s.swLfsr (swKey d e) (lfsrNext l) }
  let a : Int := (s.avg d e t : Int) + ((dep * 256 : Nat) - (s.avg d e t : Int)) / (2 ^ s.fld (R.SW_RED_W d) 0 4 : Nat)
  let a := a.toNat
  let s := s.setAvg d e t a
  let p := 3 * t + f.colour
  let lo := s.fld (R.SW_RED_TH d p) 0 16
  let hi := s.fld (R.SW_RED_TH d p) 16 16
  if dep + n > s.qlimit d t then drop s (R.SW_DROP_TAIL d e) 2
  else if (t ≥ 4 ∧ f.colour = 0) ∨ a < lo * 256 then s.append d e t f
  else if a ≥ hi * 256 then drop s (R.SW_DROP_RED d e) 2
  else if l / 256 < s.fld (R.SW_RED_P d p) 0 8 * (a - lo * 256) / ((hi - lo) * 256) then drop s (R.SW_DROP_RED d e) 2
  else s.append d e t f

/-! ## Gates and shapers (R210 to R212) -/

/-- A port's gate list at work. -/
def State.gclOf (s : State) (d : Die) (j : Nat) : Gcl := Tab.get (fun _ => {}) s.gcl (d.idx * 14 + j)

/-- The state with a gate list replaced. -/
def State.setGcl (s : State) (d : Die) (j : Nat) (g : Gcl) : State :=
  { s with gcl := Tab.put (fun _ => {}) s.gcl (d.idx * 14 + j) g }

/-- Active bank of a port's gate list. -/
def State.gclBank (s : State) (d : Die) (j : Nat) : Nat := s.fld (R.SW_GCL_CTRL d j) 8 1

/-- Whether entry `i` of the active list opens a class. -/
def State.gateBit (s : State) (d : Die) (j i t : Nat) : Bool := s.flag (R.SW_GCL_W0 d j (s.gclBank d j) i) t

/-- Interval of entry `i` of the active list. -/
def State.gateNs (s : State) (d : Die) (j i : Nat) : Nat := s.fld (R.SW_GCL_W1 d j (s.gclBank d j) i) 0 30

/-- End of an entry that begins at a time: cut at the cycle's end, which the last entry reaches (R212). -/
def State.gateEnd (s : State) (d : Die) (j : Nat) (g : Gcl) (i start : Nat) : Nat :=
  if i + 1 ≥ g.len then g.cycEnd else min (start + s.gateNs d j i) g.cycEnd

/-- Nanoseconds from `now` until a class's gate closes, looking at `fuel` entries more; none when it does not close among them. -/
def State.gateLeft (s : State) (d : Die) (j t now : Nat) : Nat → Gcl → Option Nat
  | 0, _ => none
  | fuel + 1, g =>
    if !s.gateBit d j g.cur t then some (g.endAt - now)
    else
      let g' := if g.cur + 1 ≥ g.len ∨ g.endAt ≥ g.cycEnd then { g with cur := 0, cycEnd := g.cycEnd + g.cycle } else { g with cur := g.cur + 1 }
      let g' := { g' with endAt := s.gateEnd d j g' g'.cur g.endAt }
      if s.gateBit d j g'.cur t then s.gateLeft d j t now fuel g' else some (g.endAt - now)

/-- Time a frame of `len` bytes takes at a rate in Mb/s, in ns, preamble and gap counted. -/
def wireNs (len mbps : Nat) : Nat := if mbps = 0 then 0 else ((len + 20) * 8 * 1000 + mbps - 1) / mbps

/-- Whether a class may start a frame of `len` bytes at a port by its gate (R212). -/
def State.gateOk (s : State) (d : Die) (e t len : Nat) : Bool :=
  if e ≥ 14 ∨ t = 7 then true else
  let g := s.gclOf d e
  if g.len = 0 then true
  else s.gateBit d e g.cur t &&
    match s.gateLeft d e t (s.lin d) (2 * g.len) g with
    | none => true
    | some left => decide (wireNs len (speedMbps (s.portSpeed d e)) ≤ left)

/-- Whether a port may start a frame of a class now, queues aside (R210, R236, R263). -/
def State.mayStart (s : State) (d : Die) (e t len : Nat) : Bool :=
  if e < 14 ∧ (12 ≤ e ∧ Tab.get (fun _ => false) s.ringHold (d.idx * 2 + (e - 12))) then false
  else if t = 7 then true
  else !(decide (e < 14) && s.flag (R.MAC_PAUSE_CFG d e) 3) && s.gateOk d e t len &&
    (decide (s.slope d e t = 0) || decide (0 ≤ s.credit d e t))

/-! ## What leaves a port -/

/-- One's complement sum of an IPv4 header, as its checksum (R219). -/
def ipChecksum (h : List Byte) : Nat :=
  let sum := (List.range (h.length / 2)).foldl (fun a i => a + beAt h (2 * i) 2) 0
  let f := sum % 65536 + sum / 65536
  65535 - (f % 65536 + f / 65536)

/-- A frame with its congestion mark where it can carry one (R219): ECN of IPv4 and IPv6. -/
def ecnMark (bs : List Byte) : Option (List Byte) :=
  let o := etOff bs + 2
  if etype bs = 0x0800 then
    let e := byteAt bs (o + 1) % 4
    if e = 1 ∨ e = 2 then
      let bs := setByteAt bs (o + 1) (byteAt bs (o + 1) / 4 * 4 + 3)
      let n := byteAt bs o % 16 * 4
      let z := setByteAt (setByteAt bs (o + 10) 0) (o + 11) 0
      let c := ipChecksum ((z.drop o).take n)
      some (setByteAt (setByteAt bs (o + 10) (c / 256)) (o + 11) (c % 256))
    else none
  else if etype bs = 0x86DD then
    let e := byteAt bs (o + 1) / 16 % 4
    if e = 1 ∨ e = 2 then some (setByteAt bs (o + 1) (byteAt bs (o + 1) ||| 0x30)) else none
  else none

/-- Offset of a PTP message in a frame: directly, or over UDP port 319 on IPv4 (R307), and the offset of the UDP checksum. -/
def ptpAt (bs : List Byte) : Option (Nat × Option Nat) :=
  let o := etOff bs + 2
  if etype bs = 0x88F7 then some (o, none)
  else if etype bs = 0x0800 ∧ byteAt bs (o + 9) = 17 then
    let u := o + byteAt bs o % 16 * 4
    if beAt bs (u + 2) 2 = 319 then some (u + 8, some (u + 6)) else none
  else none

/-- The transparent clock's correction of a PTP event message that leaves a port with role 3: its residence between the two stamps, and for
Sync the ingress port's TB_PLINK, which stays 0 but on the peer-to-peer variant (R303, R307; log entry 94). -/
def State.ptpCorrect (s : State) (d : Die) (e : Nat) (f : Frm) (bs : List Byte) : List Byte × State :=
  if ¬(e < 14 ∧ s.fld (R.TB_PTC d e) 0 3 = 3) ∨ f.raw then (bs, s) else
  match ptpAt bs with
  | none => (bs, s)
  | some (o, ck) =>
    let kind := byteAt bs o % 16
    if kind > 3 then (bs, s)
    else if f.crossed && !s.flag (R.TB_STAT d) 4 then (bs, (s.count (R.TB_CNT_TC_SKIP d)).tbEvent d 8)
    else
      let link := if kind = 0 then f.plink * 4096 else 0
      let res := ((s.txStamp d e).total - f.stamp.total) / 0x1_0000
      let c := ((beAt bs (o + 8) 8 + link : Nat) + res) % (2 ^ 64 : Nat)
      let bs := (bs.take (o + 8)) ++ beBytes 8 c.toNat ++ bs.drop (o + 16)
      ((match ck with | some k => setByteAt (setByteAt bs k 0) (k + 1) 0 | none => bs), s)

/-- The Solyopex tag as bytes (R204). -/
def stagBytes (ety : Nat) (t : Stag) : List Byte :=
  beBytes 2 ety ++ [BitVec.ofNat 8 (16 + (if t.seqv then 8 else 0) + (if t.cm then 4 else 0)), 0] ++ beBytes 2 t.seq ++ beBytes 2 t.flow

/-- An IP frame. -/
def isIp (bs : List Byte) : Bool := etype bs = 0x0800 || etype bs = 0x86DD

/-- A frame as it starts on a port, marked and counted while the port's queues are deeper than SW_CM_DEPTH: ECN of an IP frame that can carry
it, CM in the Solyopex tag of another on a tagged port (R219). -/
def State.markFrm (s : State) (d : Die) (e : Nat) (f : Frm) : Frm × State :=
  let cm := s.fld (R.SW_CM_DEPTH d e) 0 18
  if cm = 0 ∨ s.portDepth d e ≤ cm then (f, s)
  else if isIp f.bytes then match ecnMark f.bytes with
    | some x => ({ f with bytes := x }, s.count (R.SW_CM_MARK d e))
    | none => (f, s)
  else if s.flag (R.SW_PORT_CFG d e) 12 then ({ f with stag := some { f.stag.getD {} with cm := true } }, s.count (R.SW_CM_MARK d e))
  else (f, s)

/-- A tagged frame's TCI as it leaves: the VID of its class, DEI of a yellow one (R189, R217). -/
def tciOut (f : Frm) : List Byte :=
  setByteAt (setByteAt f.bytes 14 (byteAt f.bytes 14 / 32 * 32 + (if f.colour = 1 ∨ f.dei then 16 else 0) + f.vid % 4096 / 256)) 15 (f.vid % 256)

/-- The bytes a frame leaves a MAC port with, FCS aside: VLAN tag by the untagged set, Solyopex tag, correction, padding; a frame that its
sender put on this port keeps the VLAN tag it has, and one sent with its own FCS is left unchanged (R189, R204, R217, R242, R307). -/
def State.egressBytes (s : State) (d : Die) (e : Nat) (f : Frm) : List Byte × State :=
  let untag := (s.vlanOf d f.vid).2.testBit e
  let bs := if f.raw then f.bytes
    else if f.vtag then (if untag then cutOut f.bytes 12 4 else tciOut f)
    else if untag then f.bytes
    else putIn f.bytes 12 ([0x81, 0x00] ++ beBytes 2 (f.pcp * 0x2000 + (if f.colour = 1 ∨ f.dei then 0x1000 else 0) + f.vid))
  let spray := match f.stag with | some t => t.seqv | none => false
  let tagged := s.flag (R.SW_PORT_CFG d e) 12 && (!isIp bs || spray) && !(f.raw && f.fcs.isSome)
  let (bs, s) := s.ptpCorrect d e f bs
  let bs := if tagged then putIn bs (etOff bs) (stagBytes (s.fld (R.SW_STAG_ETYPE d) 0 16) (f.stag.getD {})) else bs
  (bs ++ List.replicate (60 - bs.length) 0, s)

/-- The FCS a frame leaves with: stomped when it is bad, the one given when it is to be sent unchanged, else the right one
(R198, R201, R242). -/
def egressFcs (f : Frm) (bs : List Byte) (bad : Bool) : Nat :=
  let good := fcs32 bs
  if bad then good ^^^ 0xFFFFFFFF
  else match f.fcs with
    | none => good
    | some x => if x = fcs32 f.bytes then good else if bs = f.bytes then x else good ^^^ 0xFFFFFFFF

/-- A frame leaves through a MAC port: marked, counted, stamped where asked, its write-back made; a bad one that answers a descriptor met an
error in its buffer (R199, R210, R219, R239, R242, R247). -/
def State.sendMac (s : State) (d : Die) (e : Nat) (f : Frm) (bad : Bool) : State :=
  let (g, s) := s.markFrm d e f
  let (bs, s) := s.egressBytes d e g
  let fcs := egressFcs f bs bad
  let wire := bs ++ leBytes 4 fcs
  let s := (s.emit (.frame d e wire)).count (R.SW_TX_FRAMES d e)
  let s := if fcs = fcs32 bs ^^^ 0xFFFFFFFF then s.count (R.SW_STOMP_TX d e) else s
  let s := s.setPair (R.MAC_TX_OCTETS_LO d e) (R.MAC_TX_OCTETS_HI d e)
    ((s.getPair (R.MAC_TX_OCTETS_LO d e) (R.MAC_TX_OCTETS_HI d e) + wire.length) % 2 ^ 64)
  let s := if fcs ≠ fcs32 bs then s
    else if macAt bs 0 = 0xFFFFFFFFFFFF then s.count (R.MAC_TX_BCAST d e)
    else if isGroup bs then s.count (R.MAC_TX_MCAST d e)
    else s.count (R.MAC_TX_UCAST d e)
  let cause := if bad then 5 else 0
  match f.tx with
  | none => s
  | some (_, ws) =>
    if bit (ws.getD 0 0) 15 ∧ !bit (ws.getD 0 0) 24 then
      ((s.emit (.stamp d e (s.txStamp d e).lin)).count (R.MAC_TX_TS d e)).txBack d f true bad cause e (some (s.txStamp d e))
    else s.txBack d f true bad cause e none

/-- The receive descriptor of a stored frame (R243). -/
def rxDescriptor (f : Frm) : List Word :=
  [wd (f.bytes.length + f.ingress * 0x4000 + f.tc * 0x8_0000 + (if f.vtag then 0x40_0000 else 0) +
      (if f.stag.isSome then 0x80_0000 else 0) + (if f.colour = 1 then 0x100_0000 else 0) + 0x200_0000),
    wd (f.line.getD 0), wd (f.vid + (match f.sid with | some n => n * 0x1_0000 + 0x1000_0000 | none => 0)), wd f.handle, 1] ++ f.stamp.triple

/-- The instance a frame at the engine port is for: the clock instance it is diverted to, the destination of the placed flow it matched, or the
instance itself (R305, R409). -/
def State.rxInstance (s : State) (f : Frm) : Option Nat :=
  if f.dst ≠ 0 then (if s.handleHeld f.dst then some f.dst else none)
  else if !s.handleHeld f.handle then none
  else if (s.intent f.handle).isFlow then
    let dst := ((s.intent f.handle).recWord 1).toNat
    if s.handleHeld dst ∧ !(s.intent dst).isFlow then some dst else none
  else some f.handle

/-- A frame delivered at the engine port: on the instance's RX queue, which keeps its lines and tag, or dropped when that is full
(R409, R410); a ninth word beside the descriptor keeps the die whose buffer holds the frame. -/
def State.sendEngine (s : State) (d : Die) (f : Frm) : State :=
  match s.rxInstance f with
  | none => s.dropRef d f.line
  | some h =>
    let q := s.iqOf h
    if q.rx.length ≥ 256 then (s.count (R.SW_DROP_TAIL d 14)).dropRef d f.line
    else
      ((s.setIq h { q with rx := q.rx ++ [rxDescriptor f ++ [wd d.idx]] }).count (R.SW_TX_FRAMES d 14)).queueEvt h

/-- A frame marked as it is delivered to an engine: its stored lines hold the mark (R219). -/
def State.remark (s : State) (d : Die) (f g : Frm) : State :=
  match f.line with
  | some l => if g.bytes = f.bytes then s else s.storeLines d (s.fbAddr d) l (cutLines g.bytes (linesOf g.bytes))
  | none => s

/-- A sample record that leaves through the management port is written into the die's sample ring, or lost where the ring is full (R221). -/
def State.sampleStore (s : State) (d : Die) (rec_ : List Byte) : State :=
  let w := s.fld (R.SW_SMP_WPTR d) 0 10
  if (w + 1) % 1024 = s.fld (R.SW_SMP_RPTR d) 0 10 then s.count (R.SW_CNT_SMP_DROP d)
  else
    let base := s.fld (R.SW_SMP_BASE d) 6 20 * 64
    (s.storeLines d (fun k => base + k * 64) (w * 4) (cutLines rec_ 4)).setFld (R.SW_SMP_WPTR d) 0 10 (w + 1)

/-- A frame leaves a switch port (R194, R200, R210): through its MAC, to the engine port, across the link with its tail status, or
into supervisor memory with INBAND raised for TC 7 (R441); the engine and the management port take whole and good frames only. -/
def State.send (s : State) (d : Die) (e : Nat) (f : Frm) (bad : Bool) : State :=
  if e < 14 then (s.sendMac d e f bad).dropRef d f.line
  else if bad ∧ e ≠ 15 then s.dropRef d f.line
  else if f.sample then (s.count (R.SW_TX_FRAMES d e)).sampleStore d f.bytes
  else
    let (g, s) := s.markFrm d e f
    if e = 14 then (s.remark d f g).sendEngine d g
    else if e = 15 then
      let s := (s.dlySend d (if f.tc = 7 then 1 else 2) (encodeFrm g bad)).count (R.SW_TX_FRAMES d 15)
      (if bad then s.count (R.SW_STOMP_TX d 15) else s).dropRef d f.line
    else
      let s := ((s.emit (.frame d 16 g.bytes)).count (R.SW_TX_FRAMES d 16)).dropRef d f.line
      if f.tc = 7 then s.raiseSup d 25 else s

/-! ## The decision (R191, R194, R206) -/

/-- The placed flow whose stream entry, on the die where the flow enters, is entry `n` (R191). -/
def State.flowOfSid (s : State) (d : Die) (n : Nat) : Option (Intent × Placement) :=
  s.heldIntents.findSome? fun i =>
    if !i.isFlow ∨ bits (i.recWord 2) 16 16 ≠ n then none else
    match i.cur with
    | some p => if (p.st = 4 ∨ p.st = 5) ∧ p.die = d then some (i, p) else none
    | none => none

/-- Egress ports of a flow's path on a die. -/
def flowPorts (d : Die) (p : Placement) : List Nat := (p.hops.filter fun h => h.1 = d.idx).map Prod.snd

/-- The clock instance that takes a port's PTP frames (R305): held, LIVE or PINNED, with the port in its map. -/
def State.clockInst (s : State) (d : Die) (i : Nat) : Option Nat :=
  (s.heldIntents.find? fun x => !x.isFlow && x.time &&
    (match x.cur with | some p => p.st = 4 || p.st = 5 | none => false) &&
    bit (x.recWord 4) (if i < 12 then d.idx * 12 + i else 24 + d.idx * 2 + (i - 12))).map fun x => x.handle

/-- The engine of the steering domain's clock instance on each die's ports, found anew; while none is LIVE the last one stays, in holdover
(R293, R297, R298, R306). -/
def State.clockRefresh (s : State) : State :=
  let steers (d : Die) (m : Nat) : Bool :=
    let r := s.fld (R.TB_PTC d m) 0 3
    (r = 1 || r = 2 || r = 4) && s.steerSet && decide (s.fld (R.TB_PTC d m) 8 8 = s.fld (R.TB_STAT d) 8 8)
  let one (s : State) (d : Die) : State :=
    match (List.range 14).findSome? fun m => if steers d m then s.clockInst d m else none with
    | some h => match (s.intent h).cur with
      | some p => { s with clockCe := Tab.put (fun _ => 0) s.clockCe d.idx (1 + p.die.idx * 24 + p.ce) }
      | none => s
    | none => s
  (((one (one s .d0) .d1).chooseSource .d0).chooseSource .d1)

/-- Whether a port takes part in the time domain of a PTP frame by role 1, 2 or 4 (R305). -/
def State.ptpFor (s : State) (d : Die) (i : Nat) (bs : List Byte) : Option Nat :=
  let r := s.fld (R.TB_PTC d i) 0 3
  if ¬(i < 14 ∧ (r = 1 ∨ r = 2 ∨ r = 4)) then none else
  let o := etOff bs + 2
  let at_ := if etype bs = 0x88F7 then some o
    else if etype bs = 0x0800 ∧ byteAt bs (o + 9) = 17 then
      let u := o + byteAt bs o % 16 * 4
      if beAt bs (u + 2) 2 = 319 ∨ beAt bs (u + 2) 2 = 320 then some (u + 8) else none
    else none
  match at_ with
  | some p => if byteAt bs (p + 4) = s.fld (R.TB_PTC d i) 8 8 then s.clockInst d i else none
  | none => none

/-- Ports of a set. -/
def portsOf (m : Nat) : List Nat := (List.range 17).filter fun i => m.testBit i

/-- Targets of a frame that is not TC 7 and matched no placed flow: a flow-table hit, or flooding (R191 steps 3 and 4, R206); none
of a path group both of whose members are down. -/
def State.lookup (s : State) (d : Die) (i : Nat) (f : Frm) : Option (List Nat) × Frm × State :=
  let mem := (s.vlanOf d f.vid).1
  let keep (l : List Nat) : List Nat := l.filter fun e => e ≠ i && mem.testBit e
  match s.ftFind d (macAt f.bytes 0) f.vid with
  | some n =>
    let e := s.ftAt d n
    let f := if e.type = 2 then { f with tc := e.tc, handle := e.handle } else f
    if e.group then
      match s.pgPick d e.target f.vid f.bytes with
      | (some p, s) => (some (keep [p]), f, s)
      | (none, s) => (none, f, s)
    else (some (if e.type = 2 then (portsOf e.target).filter fun p => p ≠ i else keep (portsOf e.target)), f, s)
  | none => (some (keep (portsOf mem)), f, s)

/-- Whether a copy may start at an egress before the frame has arrived (R194, R195, R206): a frame of 64 bytes has arrived by then; `k` is the
fan-out. -/
def State.cutOk (s : State) (d : Die) (e k : Nat) (f : Frm) : Bool :=
  !f.short && decide (k ≤ s.fld (R.SW_MC_THRESH d) 0 4) && decide (e < 14 ∨ e = 15) &&
  (decide (e = 15) || decide (speedMbps (s.portSpeed d e) ≤ speedMbps f.rate)) &&
  ((List.range 8).all fun t => decide (t < f.tc) || decide (s.queue d e t = [])) &&
  s.mayStart d e f.tc (s.fld (R.SW_PORT_MAXF d e) 0 14) &&
  !(match f.stag with | some t => t.seqv | none => false)

/-- Copies that start in cut-through are sent, stomped if the frame proves bad; the ports that are left wait for the stored frame
(R194, R197, R207). -/
def State.cutSend (s : State) (d : Die) (k : Nat) (f : Frm) (bad : Bool) : List Nat → List Nat × State
  | [] => ([], s)
  | e :: t =>
    if s.cutOk d e k f then ((s.send d e f bad).shaperSpend d e f.tc f.bytes.length).cutSend d k f bad t
    else
      let (l, s) := s.cutSend d k f bad t
      (e :: l, s)

/-- A frame held for targets: stored once with a copy on each target's queue, or dropped for want of a tag or room (R184, R207, R208). -/
def State.holdFor (s : State) (d : Die) (f : Frm) (es : List Nat) : State :=
  if es = [] then s
  else if f.tc = 7 then es.foldl (fun s e => s.enqMgmt d e f) s
  else match s.storeFrame d f.bytes es.length with
    | (none, s) => s.txBack d f false false 2 (es.headD 0) none
    | (some l, s) => es.foldl (fun s e => s.enqueue d e { f with line := some l }) s

/-- A frame written whole to the frame buffer though no copy waits for it, its copies having started in cut-through: its lines and tag are free
again when they have ended (R184, R207). -/
def State.passThrough (s : State) (d : Die) (f : Frm) : State :=
  match s.storeFrame d f.bytes 1 with
  | (l, s) => s.dropRef d l

/-! ## The resequencer (R205) -/

/-- A resequencer context. -/
def State.rsqOf (s : State) (d : Die) (x : Nat) : Rsq := Tab.get (fun _ => {}) s.rsq (d.idx * 256 + x)

/-- The state with a context replaced. -/
def State.setRsq (s : State) (d : Die) (x : Nat) (r : Rsq) : State :=
  { s with rsq := Tab.put (fun _ => {}) s.rsq (d.idx * 256 + x) r }

/-- The copies of a frame dropped together. -/
def State.dropAll (s : State) (d : Die) (f : Frm) : List Nat → State
  | [] => s
  | _ :: t => (s.dropRef d f.line).dropAll d f t

/-- Held frames released while slot 0 is full; a held entry is (slot, egress ports, frame), its lines already stored. -/
def State.rsqRelease (s : State) (d : Die) (x : Nat) : Nat → State
  | 0 => s
  | n + 1 =>
    let r := s.rsqOf d x
    match r.held.find? fun h => h.1 = 0 with
    | none => s
    | some (_, es, f) =>
      let r' : Rsq := { e := r.e.map fun q => (q + 1) % 65536, held := (r.held.filter fun h => h.1 ≠ 0).map fun h => (h.1 - 1, h.2) }
      (es.foldl (fun s e => s.enqueue d e f) (s.setRsq d x r')).rsqRelease d x n

/-- Empty slots before the first held frame skipped and counted. -/
def State.rsqSkip (s : State) (d : Die) (x : Nat) : State :=
  let r := s.rsqOf d x
  match (r.held.map Prod.fst).min? with
  | none => s
  | some k => (s.setRsq d x { e := r.e.map fun q => (q + k) % 65536, held := r.held.map fun h => (h.1 - k, h.2) }).countBy
      (R.SW_CNT_RSQ_SKIP d) k

/-- Every held frame released in order, gaps skipped; `n` bounds the rounds. -/
def State.rsqFlush (s : State) (d : Die) (x : Nat) : Nat → State
  | 0 => s
  | n + 1 => if (s.rsqOf d x).held = [] then s else ((s.rsqSkip d x).rsqRelease d x 64).rsqFlush d x n

/-- A spray frame for egress ports `es` in its context (R205). -/
def State.rsqFrame (s : State) (d : Die) (es : List Nat) (f : Frm) : State :=
  let t := f.stag.getD {}
  let x := t.flow % 256
  let r := s.rsqOf d x
  let s := if r.e.isNone then s.setRsq d x { r with e := some t.seq } else s
  let ex := (s.rsqOf d x).e.getD 0
  let dd := (t.seq + 65536 - ex) % 65536
  let late (s : State) : State := (s.count (R.SW_CNT_RSQ_LATE d)).dropAll d f es
  if dd ≥ 32768 then late s
  else
    let s := if dd ≥ 64 then
        let s := s.rsqFlush d x 64
        s.setRsq d x { s.rsqOf d x with e := some ((t.seq + 65536 - 63) % 65536) }
      else s
    let dd := min dd 63
    if (s.rsqOf d x).held.any fun h => h.1 = dd then late s
    else (s.setRsq d x { s.rsqOf d x with held := (s.rsqOf d x).held ++ [(dd, es, f)] }).rsqRelease d x 64

/-! ## The way of a frame through the switch -/

/-- The count of a frame found bad: none for one that came stomped, which STOMP_RX has counted, the filter's for one over MAX_SDU of
which no copy had started, else BAD_RX (R197, R199, R215). -/
def State.badEnd (s : State) (d : Die) (i : Nat) (f : Frm) (cut : Bool) : State :=
  if f.stomped then s else if f.large && !cut then s.count (R.SW_DROP_FILTER d i) else s.count (R.SW_BAD_RX d i)

/-- Whether a flow is changing its path, its frames held (R113). -/
def State.flowHolding (s : State) (h : Nat) : Bool :=
  s.handleHeld h && (s.intent h).isFlow && decide ((s.intent h).stage = 1)

/-- A frame of such a flow held back. -/
def State.holdFlow (s : State) (d : Die) (i : Nat) (f : Frm) (es : List Nat) : State :=
  let l := Tab.get (fun _ => []) s.flowHold (intentKey f.handle)
  { s with flowHold := Tab.put (fun _ => []) s.flowHold (intentKey f.handle) (l ++ [⟨d.idx, i, f, es⟩]) }

/-- A descriptor that named one port, its frame now for another number of them, is told that its frame has been handed on (R240, R242; log
entry 92). -/
def State.txHanded (s : State) (d : Die) (f : Frm) (es : List Nat) : Frm × State :=
  if f.tx.isSome ∧ es.length ≠ 1 then ({ f with tx := none }, s.txBack d f false false 0 0 none) else (f, s)

/-- A good or bad frame for its targets: cut-through copies, then the stored copy of a good one; a bad one is counted, and answered where it
answers a descriptor (R194, R197, R207, R242); targets that are down are dropped and counted in FLUSH (R222). -/
def State.deliver (s : State) (d : Die) (i : Nat) (f : Frm) (bad : Bool) (es : List Nat) : State :=
  if !bad && s.flowHolding f.handle then s.holdFlow d i f es else
  let k := es.length
  let (f, s) := s.txHanded d f es
  let s := (es.filter fun e => !s.portUp d e).foldl (fun s e => (s.count (R.SW_FLUSH d e)).txBack d f false false 1 e none) s
  let es := es.filter fun e => s.portUp d e
  let spray := (match f.stag with | some t => t.seqv | none => false) && f.rsq
  let spoilt (s : State) (cut : Bool) : State := let s := s.badEnd d i f cut; if cut then s.passThrough d f else s.txBack d f false false 5 0 none
  if f.tc = 7 then (if bad then s.badEnd d i f false else s.holdFor d f es)
  else if spray then
    if bad then spoilt s false
    else if es = [] then s
    else match s.storeFrame d f.bytes es.length with
      | (none, s) => s.txBack d f false false 2 (es.headD 0) none
      | (some l, s) =>
        let f := { f with line := some l }
        let s := if es.contains 15 then s.enqueue d 15 f else s
        let here := es.filter fun e => e ≠ 15
        if here = [] then s else s.rsqFrame d here f
  else
    let up := es.length
    let (rest, s) := s.cutSend d k f bad es
    let cut := decide (rest.length < up)
    if bad then spoilt s cut
    else if cut ∧ rest = [] then s.passThrough d f
    else s.holdFor d f rest

/-- How a frame fares in its stream entry: it goes on, perhaps over MAX_SDU; it is dropped and counted in DROP_FILTER; or it is a duplicate,
which is counted elsewhere (R215, R216). -/
inductive StreamEnd where
  | goes (f : Frm) (big : Bool)
  | dropped
  | duplicate
deriving DecidableEq, Repr

/-- A frame that matches a stream entry: gate, size, meter, recovery, in this order; one over MAX_SDU goes no further than the size (R215,
R216). -/
def State.stream (s : State) (d : Die) (n len : Nat) (f : Frm) (bad : Bool) : StreamEnd × State :=
  let w0 := s.sidWord d n 0
  if bit w0 6 then (.dropped, s)
  else if bits w0 16 16 ≠ 0 ∧ len > bits w0 16 16 then (.goes { f with sid := some n } true, s)
  else
    let (c, s) := s.meter d n len (bit w0 3 && f.dei)
    if c = 2 ∧ bit w0 5 then (.dropped, s)
    else
      let f := { f with colour := c, sid := some n }
      let x := s.sidStOf d n
      let (f, s) := if bit w0 7 then
          ({ f with bytes := putIn f.bytes (etOff f.bytes) ([0xF1, 0xC1, 0, 0] ++ beBytes 2 x.genSeq) },
            s.setSidSt d n { x with genSeq := (x.genSeq + 1) % 65536 })
        else (f, s)
      if bit w0 8 ∧ etype f.bytes = 0xF1C1 ∧ !bad then
        let (keep, s) := s.recover d n (beAt f.bytes (etOff f.bytes + 4) 2)
        (if keep then .goes f false else .duplicate, s)
      else (.goes f false, s)

/-- The class of a frame that matched no flow: by PCP, a protected one queued in TC 3 instead and counted (R187, R188). -/
def State.classOf (s : State) (d : Die) (i : Nat) (f : Frm) : Frm × State :=
  let t := s.pcpTc d i f.pcp
  if t ≥ 4 then ({ f with tc := 3 }, s.count (R.SW_CNT_DEMOTE d)) else ({ f with tc := t }, s)

/-- VLAN tag, VID, PCP and DEI of a frame that arrives at a port of a die (R187, R189). -/
def State.vlanFrm (s : State) (d : Die) (i : Nat) (f : Frm) : Frm :=
  let tci := beAt f.bytes 14 2
  let tag := hasTag f.bytes
  { f with vtag := tag, dei := tag && decide (tci / 0x1000 % 2 = 1),
           vid := if tag ∧ tci % 4096 ≠ 0 then tci % 4096 else s.fld (R.SW_PORT_CFG d i) 16 12,
           pcp := if tag then tci / 0x2000 else s.fld (R.SW_PORT_CFG d i) 13 3 }

/-- A TC 7 frame that enters at a port and is addressed to die `t`: within the meter of R223 it goes to that die's management port. -/
def State.mgmtIn (s : State) (d : Die) (i : Nat) (f : Frm) (bad : Bool) (len : Nat) (t : Die) : State :=
  let (used, at_) := Tab.get (fun _ => (0, 0)) s.mgmtMeter (d.idx * 2 + t.idx)
  let used := used - 5 * (s.lin d - at_) + (len + 20) * 8
  if used > 131_072 * 8 then (if bad then s.badEnd d i f false else s).count (R.SW_CNT_MGMT_DROP d)
  else
    let s := { s with mgmtMeter := Tab.put (fun _ => (0, 0)) s.mgmtMeter (d.idx * 2 + t.idx) (used, s.lin d) }
    s.deliver d i { f with tc := 7 } bad [if t = d then 16 else 15]

/-- The placed flow a frame belongs to, and the stream entry that filters it: by its handle where it has crossed the link with one, which is
no second lookup; else by the entries it matches, one of a placed flow before any other (R191, R196, R215). -/
def State.flowOf (s : State) (d : Die) (f : Frm) : Option (Intent × Placement) × Option Nat :=
  if f.crossed ∧ s.handleHeld f.handle then
    ((match (s.intent f.handle).cur with | some p => some (s.intent f.handle, p) | none => none), none)
  else
    let hits := s.sidHits d f.vid f.bytes
    match hits.findSome? fun n => (s.flowOfSid d n).map fun x => (n, x) with
    | some (n, x) => (some x, some n)
    | none => (none, hits.head?)

/-- A frame offered to the switch at a port (R185 to R192, R206): `f` has its bytes without FCS and Solyopex tag, `len` is its length on
the wire and `bad` says it was found bad.  It is classed, filtered, learned from, matched and delivered. -/
def State.switchFrame (s : State) (d : Die) (i : Nat) (f : Frm) (bad : Bool) (len : Nat) : State :=
  let s := s.count (R.SW_RX_FRAMES d i)
  let f := if f.crossed then { f with short := decide (len ≤ 64) }
    else s.vlanFrm d i { f with ingress := i, short := decide (len ≤ 64), rsq := s.flag (R.SW_PORT_CFG d i) 11 }
  let filt (s : State) : State := ((if bad then s.badEnd d i f true else s).count (R.SW_DROP_FILTER d i)).txBack d f false false 3 0 none
  let outside := decide (f.vid = 4095) || (s.flag (R.SW_PORT_CFG d i) 10 && !(s.vlanOf d f.vid).1.testBit i)
  let s := if f.ends && !outside then s.learn d i f.vid f.bytes else s
  match (if i < 14 then s.mgmtDie f.bytes else none) with
  | some t => s.mgmtIn d i f bad len t
  | none =>
  if f.tc = 7 ∧ f.crossed then s.deliver d i f bad [f.outPort.getD 16]
  else if outside then filt s
  else
    match s.ptpFor d i f.bytes with
    | some h => s.deliver d i { f with dst := h, handle := 0, tc := 3 } bad [14]
    | none =>
    let (flow, hit) := s.flowOf d f
    let (res, s) := match hit with
      | some n => s.stream d n len f bad
      | none => (.goes f false, s)
    match res with
    | .dropped => filt s
    | .duplicate => (if bad then s.badEnd d i f true else s).txBack d f false false 3 0 none
    | .goes f big =>
      let f := { f with large := big && !bad }
      let bad := bad || big
      match flow with
      | some (x, p) =>
        let f := { f with tc := bits (x.recWord 2) 0 3, handle := x.handle }
        let es := (flowPorts d p).filter fun e => e ≠ i
        if es.all fun e => !s.portUp d e then filt s else s.deliver d i f bad es
      | none =>
        match s.lookup d i f with
        | (none, _, s) => filt s
        | (some [], _, s) => filt s
        | (some es, f, s) =>
          if f.handle ≠ 0 then (if es.all fun e => !s.portUp d e then filt s else s.deliver d i f bad es)
          else
            let (f, s) := s.classOf d i f
            s.deliver d i f bad es

/-! ## Egress (R210, R222) -/

/-- The class a port sends from: the highest that holds a frame and may start it (R210). -/
def State.pickClass (s : State) (d : Die) (e : Nat) : Option Nat :=
  ((List.range 8).reverse).find? fun t =>
    match s.queue d e t with
    | [] => false
    | f :: _ => s.mayStart d e t (f.bytes.length + 4)

/-- The stored copy of a frame read for transmission: whether it is found bad (R28, R58, R59, R197).  The buffer of a descriptor was read when
the descriptor was accepted. -/
def State.sendRead (s : State) (d : Die) (f : Frm) : Bool × State :=
  match f.line with
  | none => (false, s)
  | some l => if f.tx.isSome && !f.crossed then (false, s)
    else s.readLines d (if l < fbLines then s.fbAddr d else s.mgmtAddr d) l (linesOf f.bytes)

/-- Every copy of a stored frame that has not started is dropped: on the egress queues and in the resequencer (R197). -/
def State.dropCopies (s : State) (d : Die) (line : Option Nat) : State :=
  let mine (f : Frm) : Bool := f.line = line && line.isSome
  let s := (List.range 17).foldl (fun s e => (List.range 7).foldl (fun s t =>
    ((s.queue d e t).filter mine).foldl (fun s f => s.dropRef d f.line) (s.setQueue d e t ((s.queue d e t).filter fun f => !mine f))) s) s
  (List.range 256).foldl (fun s x =>
    let r := s.rsqOf d x
    if r.held.any fun h => mine h.2.2 then
      (r.held.filter fun h => mine h.2.2).foldl (fun s h => s.dropAll d h.2.2 h.2.1) (s.setRsq d x { r with held := r.held.filter fun h => !mine h.2.2 })
    else s) s

/-- Whether a frame answers a transmit descriptor of an epoch that its instance's output queues no longer accept (R112, R413). -/
def State.frmStale (s : State) (f : Frm) : Bool :=
  match f.tx with
  | some (h, _) => decide (f.epoch ≠ (s.intent h).epoch)
  | none => false

/-- A fenced frame: its copy and its tag freed, counted as fenced (R413, R520). -/
def State.fenceFrm (s : State) (d : Die) (f : Frm) : State :=
  match f.tx with
  | some (h, _) =>
    let q := s.iqOf h
    ((s.dropRef d f.line).setIq h { q with used := q.used - 1 }).fenceDiscard d 2
      (match (s.intent h).cur with | some p => p.ce | none => 0) 1
  | none => s

/-- The copy at the head of a queue of a port leaves it: it is fenced, dropped where its descriptor cannot be read, or read and sent; one found
bad in the buffer is sent stomped, and no other copy of it starts (R59, R197, R211, R413). -/
def State.transmit (s : State) (d : Die) (e t : Nat) (f : Frm) (rest : List Frm) : State :=
  let s := s.setQueue d e t rest
  if s.frmStale f then s.fenceFrm d f
  else
    let (lost, s) := s.descBad d f.line
    if lost then (s.dropRef d f.line).txBack d f false false 5 e none
    else
      let (bad, s) := s.sendRead d f
      let s := if bad then (s.count (R.SW_BAD_RX d f.ingress)).dropCopies d f.line else s
      (s.shaperSpend d e t f.bytes.length).send d e f bad

/-- EGRESS_TRANSMIT: at a transmission opportunity a port sends the frame at the head of the class it picks (R210, R211); a
port under test sends none (R518, R520). -/
def execEgressTransmit (d : Die) (e : Fin 17) (s : State) : Host.Outcome State Fault Refusal :=
  let e := e.val
  .next (if !s.portUp d e || s.portHeld d e then s else
    match s.pickClass d e with
    | none => s
    | some t =>
      match s.queue d e t with
      | [] => s
      | f :: rest => s.transmit d e t f rest)

/-- A port goes down: every queued copy is removed and counted, its transmit descriptors written back, the entries learned on it
are removed (R222, R245). -/
def State.portFlush (s : State) (d : Die) (e : Nat) : State :=
  let s := (List.range 8).foldl (fun s t =>
    ((s.queue d e t).foldl (fun s f => ((s.count (R.SW_FLUSH d e)).dropRef d f.line).txBack d f false false 1 e none) s).setQueue d e t []) s
  let s := { s with ft := s.ft.filter fun x => !(decide (x.1 / 32768 = d.idx) && decide (x.2.type = 1) && !x.2.group && x.2.target.testBit e) }
  (s.pgLeave d e).pgShow d

/-! ## Commands of the tables and timers -/

/-- RSQ_TIMEOUT: the oldest held frame has waited SW_RSQ_TMO; empty slots are skipped and what follows is released (R205). -/
def execRsqTimeout (d : Die) (x : Fin 256) (s : State) : Host.Outcome State Fault Refusal :=
  .next (if (s.rsqOf d x.val).held = [] then s else
    ((s.rsqSkip d x.val).rsqRelease d x.val 64).count (R.SW_CNT_RSQ_TMO d))

/-- ADDRESS_AGE_OUT: a learned entry not refreshed for SW_AGE seconds is removed (R192). -/
def execAddressAgeOut (d : Die) (n : Fin 32768) (s : State) : Host.Outcome State Fault Refusal :=
  let age := s.fld (R.SW_AGE d) 0 16
  let e := s.ftAt d n.val
  .next (if e.type = 1 ∧ age ≠ 0 ∧ e.seen + age < (s.now d).sec then s.setFt d n.val {} else s)

/-- PG_BUCKET_RETURN: an idle bucket goes home to its returned member (R203). -/
def execPgBucketReturn (d : Die) (g : Fin 8) (b : Fin 64) (s : State) : Host.Outcome State Fault Refusal :=
  let a := s.pgAwayOf d g.val
  let home := if b.val % 2 = 0 then s.fld (R.SW_PG d g.val) 0 5 else s.fld (R.SW_PG d g.val) 16 5
  .next (if a.testBit b.val && s.portUp d home then
    { s with pgAway := Tab.put (fun _ => 0) s.pgAway (pgKey d g.val) (a ^^^ 2 ^ b.val) } else s)

/-- RED_DECAY: the average of an empty queue decays (R217). -/
def execRedDecay (d : Die) (e : Fin 17) (t : Fin 7) (s : State) : Host.Outcome State Fault Refusal :=
  let a := s.avg d e.val t.val
  .next (if s.queue d e.val t.val = [] then s.setAvg d e.val t.val (a - a / 2 ^ s.fld (R.SW_RED_W d) 0 4) else s)

/-- CB_RECOVERY_RESET: the reset timeout of an entry's recovery (R216). -/
def execCbRecoveryReset (d : Die) (n : Fin 4096) (s : State) : Host.Outcome State Fault Refusal :=
  .next (if bit (s.sidWord d n.val 0) 8 then s.setSidSt d n.val { s.sidStOf d n.val with takeAny := true, hist := 0 } else s)

/-- GATE_ENTRY_ADVANCE: the entry in force ends and the next one applies (R212). -/
def execGateEntryAdvance (d : Die) (j : Fin 14) (s : State) : Host.Outcome State Fault Refusal :=
  let g := s.gclOf d j.val
  .next (if g.len = 0 then s else
    let g' := if g.cur + 1 ≥ g.len ∨ g.endAt ≥ g.cycEnd then { g with cur := 0, cycEnd := g.cycEnd + g.cycle } else { g with cur := g.cur + 1 }
    s.setGcl d j.val { g' with endAt := s.gateEnd d j.val g' g'.cur g.endAt })

/-- Effect of a write of SW_GCL_CTRL: REFUSED cleared by a one, LEN, and CHANGE, which gives the planner the new list to check
(R213). -/
def effGclCtrl (d : Die) (j : Nat) (v : Word) (s : State) : Eff :=
  let a := R.SW_GCL_CTRL d j
  if bits v 0 8 > 128 then .error causeRULE
  else
    let s := if bit v 30 then s.setFlag a 30 false else s
    let s := s.setFld a 0 8 (bits v 0 8)
    .ok (if bit v 31 ∧ !s.flag a 31 then (s.setFlag a 31 true).plan d (.gclChange j) else s)

/-- GCL_CHANGE: CHANGE written (R213). -/
def execGclChange (who : Requester) (d : Die) (j : Fin 14) (v : Word) (s : State) : Host.Outcome State Fault Refusal :=
  .next (s.guardWrite who (R.SW_GCL_CTRL d j.val) .w32 (effGclCtrl d j.val (v ||| 0x80000000)))

/-- The planner found that every placed flow keeps its deadline: the new list waits for its first cycle start (R213). -/
def State.gclSchedule (s : State) (d : Die) (j : Nat) : State :=
  let cyc := max 1 (s.fld (R.SW_GCL_CYCLE_NS d j) 0 30)
  let base := (s.getReg (R.SW_GCL_BASE_S d j)).toNat * 1_000_000_000 + s.fld (R.SW_GCL_BASE_NS d j) 0 30
  let now := s.lin d
  let at_ := if base ≥ now then base else base + ((now + 10_000 - base + cyc - 1) / cyc) * cyc
  s.setGcl d j { s.gclOf d j with pendAt := some at_ }

/-- GCL_ACTIVATE: the waiting bank becomes active at its first cycle start (R213). -/
def execGclActivate (d : Die) (j : Fin 14) (s : State) : Host.Outcome State Fault Refusal :=
  let j := j.val
  let a := R.SW_GCL_CTRL d j
  let g := s.gclOf d j
  .next (match g.pendAt with
    | none => s
    | some t =>
      let cyc := s.fld (R.SW_GCL_CYCLE_NS d j) 0 30
      let new : Gcl := { len := s.fld a 0 8, cur := 0, endAt := 0, cycEnd := t + cyc, cycle := cyc, pendAt := none }
      let s := ((s.setFld a 8 1 (s.fld a 8 1 + 1)).setFlag a 31 false).setFld a 0 8 g.len
      s.setGcl d j { new with endAt := s.gateEnd d j new 0 t })

/-- Whether a placed flow uses a stream entry, from its admission until its placement is released (R105, R216). -/
def State.sidPlaced (s : State) (d : Die) (n : Nat) : Bool :=
  s.heldIntents.any fun i => i.isFlow && decide (bits (i.recWord 2) 16 16 = n) &&
    i.placements.any fun p => decide (2 ≤ p.st) && decide (p.st ≤ 6) && decide (p.die = d)

/-- Whether the window holds an entry that may be stored (R214, R216, R226). -/
def State.sidWindowOk (s : State) (d : Die) (n : Nat) : Bool :=
  let w (i : Nat) : Word := s.getReg (R.SW_SID_W d i)
  let key (a b c : Word) : Nat := bits a 0 2 * 2 ^ 64 + b.toNat * 2 ^ 28 + bits c 0 28
  let rec_ := bit (w 0) 8
  decide (bits (w 0) 0 2 < 2) && !s.sidPlaced d n &&
  (!rec_ || (decide (1 ≤ bits (w 7) 0 7) && decide (bits (w 7) 0 7 ≤ 64) && decide (1 ≤ bits (w 7) 16 16))) &&
  (!bit (w 0) 2 || !(s.sid.any fun e => decide (e.1 ≠ sidKey d n) && decide (e.1 / 4096 = d.idx) && bit (e.2.getD 0 0) 2 &&
    decide (key (e.2.getD 0 0) (e.2.getD 1 0) (e.2.getD 2 0) = key (w 0) (w 1) (w 2)))) &&
  (!rec_ || decide ((s.sid.filter fun e => decide (e.1 / 4096 = d.idx) && decide (e.1 ≠ sidKey d n) && bit (e.2.getD 0 0) 8).length < 1024))

/-- A word of the window as an entry holds it: its reserved bits are ignored (R12, R226; HIST is read as seven bits, log entry 92). -/
def sidKeep (i : Nat) (w : Word) : Word :=
  w &&& wd (match i with | 0 => 0xFFFF_01FF | 2 => 0x0FFF_FFFF | 4 => 0x00FF_FFFF | 6 => 0x00FF_FFFF | 7 => 0xFFFF_007F | _ => 0xFFFF_FFFF)

/-- Effect of a write of SW_SID_CMD: READ loads the window, WRITE stores it, GATE kept (R214 to R216). -/
def effSidCmd (d : Die) (v : Word) (s : State) : Eff :=
  let n := s.fld (R.SW_SID_IDX d) 0 12
  let win := (List.range 8).map fun i => sidKeep i (s.getReg (R.SW_SID_W d i))
  if bit v 0 then
    if !s.sidWindowOk d n then .error causeRULE
    else
      let w0 := setBits (win.getD 0 0) 6 1 (bits (s.sidWord d n 0) 6 1)
      .ok (({ s with sid := Tab.put (fun _ => []) s.sid (sidKey d n) (w0 :: win.drop 1) }).setSidSt d n {})
  else if bit v 1 then .ok ((List.range 8).foldl (fun s i => s.setReg (R.SW_SID_W d i) (s.sidWord d n i)) s)
  else .ok s

/-- SID_READ (R214). -/
def execSidRead (who : Requester) (d : Die) (s : State) : Host.Outcome State Fault Refusal :=
  .next (s.guardWrite who (R.SW_SID_CMD d) .w32 (effSidCmd d 2))

/-- SID_WRITE (R214, R216). -/
def execSidWrite (who : Requester) (d : Die) (s : State) : Host.Outcome State Fault Refusal :=
  .next (s.guardWrite who (R.SW_SID_CMD d) .w32 (effSidCmd d 1))

/-- Effect of a write of SW_VLAN_CMD: READ loads the window, WRITE stores it (R189). -/
def effVlanCmd (d : Die) (v : Word) (s : State) : Eff :=
  let n := s.fld (R.SW_VLAN_IDX d) 0 12
  if bit v 0 then
    .ok { s with vlan := Tab.put (fun _ => (0, 0)) s.vlan (d.idx * 4096 + n) (s.fld (R.SW_VLAN_MEMBER d) 0 17, s.fld (R.SW_VLAN_UNTAG d) 0 17) }
  else if bit v 1 then
    .ok ((s.setReg (R.SW_VLAN_MEMBER d) (wd (s.vlanOf d n).1)).setReg (R.SW_VLAN_UNTAG d) (wd (s.vlanOf d n).2))
  else .ok s

/-- VLAN_READ (R189). -/
def execVlanRead (who : Requester) (d : Die) (s : State) : Host.Outcome State Fault Refusal :=
  .next (s.guardWrite who (R.SW_VLAN_CMD d) .w32 (effVlanCmd d 2))

/-- VLAN_WRITE (R189). -/
def execVlanWrite (who : Requester) (d : Die) (s : State) : Host.Outcome State Fault Refusal :=
  .next (s.guardWrite who (R.SW_VLAN_CMD d) .w32 (effVlanCmd d 1))

/-- Effect of a write of SW_FT_IDX: the entry loads into the window (R226). -/
def effFtIdx (d : Die) (v : Word) (s : State) : Eff :=
  let e := s.ftAt d (bits v 0 15)
  let s := s.setReg (R.SW_FT_IDX d) (wd (bits v 0 15))
  let s := s.setReg (R.SW_FT_W0 d) (wd e.mac)
  let s := s.setReg (R.SW_FT_W1 d) (wd (e.mac / 0x1_0000_0000 % 0x1_0000 + e.vid % 4096 * 0x1_0000))
  .ok (s.setReg (R.SW_FT_W2 d) (wd (e.target % 0x2_0000 + (if e.group then 0x2_0000 else 0) + e.tc % 8 * 0x800_0000 + e.type % 4 * 0x4000_0000)))

/-- FLOW_TABLE_SELECT (R226). -/
def execFlowTableSelect (who : Requester) (d : Die) (v : Word) (s : State) : Host.Outcome State Fault Refusal :=
  .next (s.guardWrite who (R.SW_FT_IDX d) .w32 (effFtIdx d v))

end Sys2Proof.Machine
end

