-- ==== Sys2Proof/Machine/CeQueue.lean ====
section
/-! DEFINITION. The queues of the running instance: QGET and QPUT with the transmit descriptor and the signal (R242, R371, R408 to
R414). -/

namespace Sys2Proof.Machine

/-- Whether a queue number is bound to an intent: RX by Q_RX, TX and DONE by Q_TX, SIG and SIGIN by Q_SIG (R408). -/
def queueBound (i : Intent) (q : Nat) : Bool :=
  match q with
  | 0 => i.qmask.testBit 0
  | 1 => i.qmask.testBit 1
  | 2 => i.qmask.testBit 1
  | 3 => i.qmask.testBit 2
  | 4 => i.qmask.testBit 2
  | _ => false

/-- Whether a target of the intent runs in SHADOW, so that RX and SIGIN have two read positions (R414). -/
def Intent.shadowing (i : Intent) : Bool := match i.tgt with | some p => decide (p.st = 3) | none => false

/-- Read positions after one more has been passed by the live (or the shadow) slot: how many entries both have passed now leave. -/
def passOne (live sh : Nat) (isSh two : Bool) : Nat × Nat × Nat :=
  if !two then (0, 0, 1)
  else
    let a := if isSh then live else live + 1
    let b := if isSh then sh + 1 else sh
    (a - min a b, b - min a b, min a b)

/-- The next RX descriptor of the running slot, with its die, and whether the other slot has still to take it (R410, R414). -/
def State.takeRx (s : State) (h : Nat) (isSh two : Bool) : Option (List Word × Bool) × State :=
  let q := s.iqOf h
  let pos := if !two then 0 else if isSh then q.shRx else q.liveRx
  match q.rx[pos]? with
  | none => (none, s)
  | some ws =>
    let (a, b, n) := passOne q.liveRx q.shRx isSh two
    (some (ws, decide (n = 0)), s.setIq h { q with rx := q.rx.drop n, liveRx := a, shRx := b })

/-- The next SIGIN descriptor of the running slot; once it leaves, the sender's tag is free again (R412, R414). -/
def State.takeSig (s : State) (h : Nat) (isSh two : Bool) : Option (List Word) × State :=
  let q := s.iqOf h
  let pos := if !two then 0 else if isSh then q.shSig else q.liveSig
  match q.sigin[pos]? with
  | none => (none, s)
  | some ws =>
    let (a, b, n) := passOne q.liveSig q.shSig isSh two
    let s := s.setIq h { q with sigin := q.sigin.drop n, liveSig := a, shSig := b }
    let free (s : State) (w : List Word) : State :=
      let g := (w.getD 0 0).toNat
      s.setIq g { s.iqOf g with used := (s.iqOf g).used - 1 }
    (some ws, (q.sigin.take n).foldl free s)

/-- One more copy of a stored frame to come: the other slot's. -/
def State.addRef (s : State) (d : Die) (l : Nat) : State :=
  let r := Tab.get (fun _ => ({} : Stored)) s.stored (storedKey d l)
  { s with stored := Tab.put (fun _ => {}) s.stored (storedKey d l) { r with refs := r.refs + 1 } }

/-- A descriptor taken from a queue for the running slot: RX joins the frames the cycle holds; DONE and SIGIN; the queues the instance
sends on give nothing (R408 to R414). -/
def State.queueTake (s : State) (d : Die) (k : Fin 24) (i : Intent) (q : Nat) : Option (List Word) × State :=
  let isSh := s.ceShadow d k
  match q with
  | 0 =>
    match s.takeRx i.handle isSh i.shadowing with
    | (none, s) => (none, s)
    | (some (ws, more), s) =>
      let e := dieOf (ws.getD 8 0).toNat
      let line := bits (ws.getD 1 0) 0 18
      let s := if more then s.addRef e line else s
      let c := s.ceOf d k
      (some (ws.take 8), s.setCe d k { c with taken := c.taken ++ [(e.idx, line, bits (ws.getD 0 0) 0 14)] })
  | 2 =>
    let iq := s.iqOf i.handle
    if isSh then (none, s) else
    match iq.done with
    | [] => (none, s)
    | ws :: t => (some ws, s.setIq i.handle { iq with done := t })
  | 4 => s.takeSig i.handle isSh i.shadowing
  | _ => (none, s)

/-- QGET: T = 1 and the descriptor at D's address in working memory, or T = 0 (R371). -/
def ceQget : CeOp := fun i pc x =>
  let (o1, _, od, x) := x.operands i
  (x.get o1 i.size).bind fun q x =>
  let q := q % 32
  match x.s.slotIntent x.d x.k.val (x.s.ceSlot x.d x.k) with
  | none => x.raise excQUEUE q 0
  | some (n, _) =>
    if !queueBound n q then x.raise excQUEUE q 0 else
    match x.workAt od 32 with
    | .error (c, a) => x.raise c 0 a
    | .ok a => match x.s.queueTake x.d x.k n q with
      | (none, s) => .ok (i.next pc) ({ x with s := s, fl := flagsT false x.fl }.spend 12)
      | (some ws, s) =>
        .ok (i.next pc) ({ x with s := s.setWorkWords x.d x.k a ws, fl := flagsT true x.fl }.spend 12)

/-! ## Transmit descriptors (R242, R411) -/

/-- Whether a byte range of the pool lies within a region of lines: die, first line, lines. -/
def inRegion (a len : Nat) (e : Nat) (line lines : Nat) : Bool :=
  let base := e % 2 * 0x80_0000_0000 + line * 64
  decide (base ≤ a) && decide (a + len ≤ base + lines * 64)

/-- Whether a contiguous buffer lies wholly within the running slot's context or one of its grants (R411). -/
def State.bufOk (s : State) (d : Die) (k : Fin 24) (a len : Nat) : Bool :=
  let slot := s.ceSlot d k
  inRegion a len (s.fld (R.CE_SLOT_W2 d k slot) 20 1) (s.fld (R.CE_SLOT_W2 d k slot) 0 20)
    (s.fld (R.CE_SLOT_W3 d k slot) 6 15) ||
  (List.range 8).any fun g =>
    s.flag (R.CE_GRANT_W0 d k slot g) 31 &&
    inRegion a len (s.fld (R.CE_GRANT_W0 d k slot g) 20 1) (s.fld (R.CE_GRANT_W0 d k slot g) 0 20)
      (s.fld (R.CE_GRANT_W1 d k slot g) 0 20)

/-- The frame a window maps from a line on, if it is the first line of one: window and record (R411). -/
def State.mappedFrame (s : State) (d : Die) (k : Fin 24) (line : Nat) : Option (Nat × Nat × Nat × Nat) :=
  ([1, 2].find? fun w => s.winOk d k w && s.winFrame d k w && decide (s.winLine d k w = line)).bind fun w =>
    ((s.ceOf d k).taken.find? fun t => t.2.1 = line).map fun t => (w, t)

/-- Fields of the four words of a transmit descriptor (R242). -/
def txLen (ws : List Word) : Nat := bits (ws.getD 0 0) 0 14
def txFcsIns (ws : List Word) : Bool := bit (ws.getD 0 0) 14
def txTc (ws : List Word) : Nat := bits (ws.getD 0 0) 16 3
def txEgress (ws : List Word) : Nat := bits (ws.getD 0 0) 19 5
def txLookup (ws : List Word) : Bool := bit (ws.getD 0 0) 24
def txBuf (ws : List Word) : Bool := bit (ws.getD 0 0) 25
def txAddr (ws : List Word) : Nat := (ws.getD 1 0).toNat + bits (ws.getD 2 0) 0 8 * 0x1_0000_0000

/-- Whether a descriptor is one the descriptor manager accepts: every field in range, its egress the intent's, its buffer the slot's
(R242, R411). -/
def State.txOk (s : State) (d : Die) (k : Fin 24) (i : Intent) (ws : List Word) : Bool :=
  let len := txLen ws
  let e := txEgress ws
  decide (bits (ws.getD 0 0) 26 6 = 0) && decide (bits (ws.getD 2 0) 8 24 = 0) && decide (txTc ws ≠ 7) &&
  (if txFcsIns ws then decide (14 ≤ len) && decide (len ≤ 9212) else decide (64 ≤ len) && decide (len ≤ 9216)) &&
  (if txLookup ws then true
   else (decide (e = 15) || (decide (e < 14) && bit (i.recWord 4) (if e < 12 then d.idx * 12 + e else 24 + d.idx * 2 + (e - 12)))) &&
     decide (len ≤ s.fld (R.SW_PORT_MAXF d e) 0 14)) &&
  (if txBuf ws then decide (bits (ws.getD 1 0) 18 14 = 0) && decide (bits (ws.getD 2 0) 0 8 = 0) &&
     (s.mappedFrame d k (bits (ws.getD 1 0) 0 18)).isSome
   else s.bufOk d k (txAddr ws) len)

/-- The bytes of a contiguous buffer, read as the switch reads frames (port 6), or through the link on the other die; none where a
read is refused (R28, R59). -/
def State.txRead (s : State) (d : Die) (a len : Nat) : Option (List Byte) × State :=
  let e := dieOfAddr a
  if e ≠ d ∧ !s.linkUp then (none, s)
  else match s.poolReadSpan e (if e = d then 6 else 10) (a % 0x0400_0000) len (lineCount a len) with
    | (.ok bs, t) => (some bs, t)
    | (.error _, t) => (none, t)

/-- The bytes of stored lines; none where a word is uncorrectable. -/
def State.frameRead (s : State) (e : Die) (line len : Nat) : Option (List Byte) × State :=
  let banks := s.fbBanks e
  let one (acc : Option (List Byte) × State) (i : Nat) : Option (List Byte) × State :=
    match acc.2.poolRead e 6 (lineAddr e banks ((line + i) % fbLines) % 0x0400_0000) 64 with
    | (.ok bs, t) => (acc.1.map fun l => l ++ bs, t)
    | (.error _, t) => (none, t)
  let r := (List.range ((len + 63) / 64)).foldl one (some [], s)
  (r.1.map fun l => l.take len, r.2)

/-- The frame a descriptor sends: padded to 60 bytes where the MAC appends the FCS, else with its own FCS unchanged. -/
def txFrame (s : State) (d : Die) (h epoch : Nat) (ws : List Word) (bs : List Byte) (line : Option Nat) : Frm :=
  let body := if txFcsIns ws then bs else bs.take (bs.length - 4)
  { bytes := if txFcsIns ws then body ++ List.replicate (60 - body.length) 0 else body,
    tc := txTc ws, ingress := 14, stamp := s.now d, line := line, epoch := epoch, tx := some (h, ws),
    fcs := if txFcsIns ws then none else some (ofLe (bs.drop (bs.length - 4))) }

/-- The bytes that a descriptor's buffer holds, the line of a frame forwarded without a copy, and the frame's window given up; none
where the buffer cannot be read. -/
def State.txBytes (s : State) (d : Die) (k : Fin 24) (ws : List Word) : Option (List Byte) × Option Nat × State :=
  let len := txLen ws
  if !txBuf ws then
    let (r, s) := s.txRead d (txAddr ws) len
    (r, none, s)
  else
    match s.mappedFrame d k (bits (ws.getD 1 0) 0 18) with
    | none => (none, none, s)
    | some (w, t) =>
      let e := dieOf t.1
      let (r, s) := s.frameRead e t.2.1 len
      let s := s.winUnmap d k w
      if e = d ∧ !txLookup ws then (r, some t.2.1, s.ceFreeFrame d k t.2.1 false)
      else (r, none, s.ceFreeFrame d k t.2.1 true)

/-- Whether frames of an instance in a class at a port of its die are those of a placed flow that starts at it (R188; log entry 92). -/
def State.flowFrom (s : State) (d : Die) (h e tc : Nat) : Bool :=
  s.heldIntents.any fun i => i.isFlow && decide ((i.recWord 0).toNat = h) && decide (bits (i.recWord 2) 0 3 = tc) &&
    (match i.cur with | some p => (p.st = 4 || p.st = 5) && p.hops.contains (d.idx, e) | none => false)

/-- The frame of a descriptor that names its egress port: in a protected class only as a placed flow's, else in TC 3 and counted; over the link
it goes with the tag data of the engine port, on a port of the die it leaves as it stands (R188, R189, R242). -/
def State.txDirect (s : State) (d : Die) (h e : Nat) (f : Frm) : Frm × State :=
  let (f, s) := if 4 ≤ f.tc ∧ !s.flowFrom d h e f.tc then ({ f with tc := 3 }, s.count (R.SW_CNT_DEMOTE d)) else (f, s)
  (if e = 15 then s.vlanFrm d 14 f else { f with raw := true }, s)

/-- A transmit descriptor accepted: it holds a tag, and is fenced, completed with its cause, handed to the switch, or queued at its
egress port (R411, R413). -/
def State.txAccept (s : State) (d : Die) (k : Fin 24) (i : Intent) (epoch : Nat) (ws : List Word) : State :=
  let h := i.handle
  let s := s.setIq h { s.iqOf h with used := (s.iqOf h).used + 1 }
  let back (s : State) (cause : Nat) : State := s.txBack d { tx := some (h, ws) } false false cause 0 none
  if epoch ≠ i.epoch then (s.setIq h { s.iqOf h with used := (s.iqOf h).used - 1 }).fenceDiscard d 2 k.val 1
  else if !s.txOk d k i ws then back s 4
  else
    let (r, line, s) := s.txBytes d k ws
    match r with
    | none => back (match line with | some l => s.dropRef d (some l) | none => s) 5
    | some bs =>
      let f := txFrame s d h epoch ws bs line
      if txLookup ws then
        (back s 0).switchFrame d 14 { f with tx := none } false (f.bytes.length + 4)
      else
        let (f, s) := s.txDirect d h (txEgress ws) f
        s.enqueue d (txEgress ws) f

/-! ## Signals (R412) -/

/-- Whether a placed flow intent runs from one instance to another. -/
def State.flowBetween (s : State) (src dst : Nat) : Bool :=
  s.heldIntents.any fun f => f.isFlow && f.cur.isSome && decide ((f.recWord 0).toNat = src) && decide ((f.recWord 1).toNat = dst)

/-- A signal delivered to its target's SIGIN with the sender's handle in word 0, CE_EVT.DBL of the target's engine set with it; it holds
a tag of the sender.  None where no tag is free, SIGIN is full, or the link to the target's die is down. -/
def State.signal (s : State) (d : Die) (h tags dst : Nat) (ws : List Word) : Option State :=
  let q := s.iqOf h
  match (s.intent dst).cur with
  | none => none
  | some p =>
    if q.used ≥ tags ∨ (s.iqOf dst).sigin.length ≥ 64 ∨ (p.die ≠ d ∧ !s.linkUp) then none
    else
      let s := s.setIq h { q with used := q.used + 1 }
      let t := s.iqOf dst
      let s := s.setIq dst { t with sigin := t.sigin ++ [wd h :: ws.drop 1] }
      some ((s.setFlag (R.CE_EVT p.die p.ce) 7 true).queueEvt dst)

/-- What the compare of R110 keeps of a QPUT: of a transmit descriptor its length, flags and cookie with the frame's bytes; of a signal
its words. -/
def State.putRecord (s : State) (d : Die) (k : Fin 24) (q : Nat) (ws : List Word) : List Byte :=
  if q = 3 then wordBytes ws
  else
    let bs := if txBuf ws then
        (match s.mappedFrame d k (bits (ws.getD 1 0) 0 18) with
         | some (_, t) => ((s.frameRead (dieOf t.1) t.2.1 (txLen ws)).1).getD []
         | none => [])
      else ((s.txRead d (txAddr ws) (txLen ws)).1).getD []
    wordBytes [ws.getD 0 0, ws.getD 3 0] ++ bs

/-- QPUT: T = 1 when the queue accepts the descriptor, T = 0 when it is full or takes none; diverted from a shadow slot (R361, R371,
R411 to R413). -/
def ceQput : CeOp := fun i pc x =>
  let (o1, o2, _, x) := x.operands i
  (x.get o1 i.size).bind fun q x =>
  let q := q % 32
  let slot := x.s.ceSlot x.d x.k
  match x.s.slotIntent x.d x.k.val slot with
  | none => x.raise excQUEUE q 0
  | some (n, p) =>
    if !queueBound n q then x.raise excQUEUE q 0 else
    match x.workAt o2 32 with
    | .error (c, a) => x.raise c 0 a
    | .ok a => match x.s.workWords x.d x.k a 8 with
      | (.error e, t) => .exc excMEMERR 2 e t
      | (.ok ws, t) =>
        let x := { x with s := t, pre := t }
        let done (s : State) (b : Bool) : CeRes Nat := .ok (i.next pc) ({ x with s := s, fl := flagsT b x.fl }.spend 12)
        let keep : State := t.recordOutput x.d x.k.val slot q (t.putRecord x.d x.k q ws)
        let dst := (ws.getD 0 0).toNat
        if q ≠ 1 ∧ q ≠ 3 then done t false
        else if q = 3 ∧ !t.flowBetween n.handle dst then x.raise excQUEUE 3 0
        else if t.ceShadow x.d x.k then done keep true
        else
          let epoch := t.fld (R.CE_SLOT_W6 x.d x.k slot) 0 16
          if q = 1 then
            if (t.iqOf n.handle).used ≥ p.tags then done t false
            else done (keep.txAccept x.d x.k n epoch ws) true
          else if epoch ≠ n.epoch then done (t.fenceDiscard x.d 2 x.k.val 1) true
          else match keep.signal x.d n.handle p.tags dst ws with
            | none => done t false
            | some s => done s true

end Sys2Proof.Machine
end

