-- ==== Sys2Proof/Machine/CeRun.lean ====
section
/-! DEFINITION. The cycle around the instructions: dispatch, stalls and their ends, END's commit, and the supervisors' CE_CTRL
(R359, R362 to R365, R383 to R387, R399 to R406). -/

namespace Sys2Proof.Machine

/-- What an opcode does (R371). -/
def opRun (op : Nat) : CeOp :=
  match op with
  | 0x01 => ceMov
  | 0x02 => ceMovz
  | 0x03 => ceMovs
  | 0x04 => ceAdr
  | 0x05 => ceClr
  | 0x06 => ceXch
  | 0x07 => ceMovm
  | 0x08 => cePush
  | 0x09 => cePop
  | 0x10 => ceAdd
  | 0x11 => ceAddc
  | 0x12 => ceSub
  | 0x13 => ceSubc
  | 0x14 => ceMul
  | 0x15 => ceMulhu
  | 0x16 => ceMulhs
  | 0x17 => ceDivu
  | 0x18 => ceDivs
  | 0x19 => ceRemu
  | 0x1A => ceRems
  | 0x1B => ceNeg
  | 0x1C => ceCmp
  | 0x20 => ceAnd
  | 0x21 => ceOr
  | 0x22 => ceXor
  | 0x23 => ceAndn
  | 0x24 => ceNot
  | 0x25 => ceTst
  | 0x26 => ceShl
  | 0x27 => ceShr
  | 0x28 => ceSar
  | 0x29 => ceRol
  | 0x2A => ceRor
  | 0x30 => ceBtst
  | 0x31 => ceBset
  | 0x32 => ceBclr
  | 0x33 => ceBchg
  | 0x35 => ceFfs
  | 0x36 => ceBswap
  | 0x37 => ceCrcc
  | 0x38 => ceCrce
  | 0x40 => ceBcc
  | 0x41 => ceBsr
  | 0x42 => ceJmp
  | 0x43 => ceCall
  | 0x44 => ceRet
  | 0x45 => ceRete
  | 0x46 => ceLoop
  | 0x47 => ceTrap
  | 0x48 => ceNop
  | 0x50 => ceEnd
  | 0x51 => ceWait
  | 0x52 => ceQget
  | 0x53 => ceQput
  | 0x54 => ceMapf
  | 0x55 => ceMapg
  | 0x56 => ceUnmap
  | 0x57 => ceFlush
  | _ => fun _ _ x => x.raise excILLEGAL 0 0

/-- The instruction at PC performed, or taken up again after a stall. -/
def State.ceResume (s : State) (d : Die) (k : Fin 24) : State :=
  let pc := s.fld (R.CE_PC d k) 0 16
  match s.ceFetchIns d k with
  | (.error (c, m, a), s) =>
    let (w0, s) := if c = excFETCH then (s.freeNow.toNat, s.drawn) else (ofLe (s.load (s.ceCodeAddr d k pc) 4), s)
    (s.ceExcept d k c m a pc w0).ceGo d k
  | (.ok (i, w0), s) => s.ceFinish d k w0 (opRun i.op i pc (s.cx d k))

/-- Whether an engine can issue an instruction now: it runs a cycle and waits for nothing, or its stream FIFO read has ended. -/
def State.ceReady (s : State) (d : Die) (k : Fin 24) : Bool :=
  decide (s.ceState d k = 1) && s.ceLive d k &&
  (decide ((s.ceOf d k).stall = 0) ||
   (decide ((s.ceOf d k).stall = 4) && (Tab.get (fun _ => ({} : AccWait)) s.accWait (waitKey (ceWho d k))).done))

/-- The instruction at PC issued, when it has the opcode of the command; an engine that does not stand at such an instruction does
nothing (log entry 5). -/
def State.ceIssue (s : State) (d : Die) (k : Fin 24) (op : Nat) : State :=
  if !s.ceReady d k then s
  else match (s.ceFetchIns d k).1 with
    | .ok (i, _) => if i.op = op then s.ceResume d k else s
    | .error _ => s

/-! ## Dispatch (R362, R363) -/

/-- The pending slot with the earliest deadline; of equal ones the lowest. -/
def State.cePick (s : State) (d : Die) (k : Fin 24) : Option Nat :=
  (List.range 63).foldl (fun best n =>
    if !s.flag (pendReg d k n) (n % 32) then best
    else match best with
      | none => some n
      | some b =>
        if Tab.get (fun _ => 0) s.ceDeadline (slotKey d k n) < Tab.get (fun _ => 0) s.ceDeadline (slotKey d k b) then some n else best) none

/-- A slot dispatched (R363). -/
def State.ceStart (s : State) (d : Die) (k : Fin 24) (n : Nat) : State :=
  let s := s.setFlag (pendReg d k n) (n % 32) false
  let s := s.setCe d k {}
  let s := s.setReg (R.CE_STAT d k) (wd (0x4001 + n * 0x100))
  let s := (s.setReg (R.CE_PC d k) (wd (s.fld (R.CE_SLOT_W0 d k n) 0 16))).setReg (R.CE_FLAGS d k) 0
  let s := (List.range 8).foldl (fun s i => s.setReg (R.CE_B d k i) (if i = 0 then wd n else 0)) s
  let s := (s.setReg (R.CE_SP d k) (s.getReg (R.CE_SP_HI d k))).setReg (R.CE_CYC_USED d k) 0
  let cx := s.getReg (R.CE_SLOT_W2 d k n)
  let s := s.winMap d k 0 (wd (0x8020_0000 + bits cx 0 21)) (s.fld (R.CE_SLOT_W3 d k n) 0 21)
  (((s.winUnmap d k 1).winUnmap d k 2).count (R.CE_CNT_CYCLES d k)).ceGo d k

/-- Bit errors that have struck an engine's local memory since: byte offset of the word, and whether two bits flipped (R356). -/
def State.ceStrike (s : State) (d : Die) (k : Fin 24) : List (Nat × Bool) → State
  | [] => s
  | (o, dbl) :: t =>
    let a := ceMemAddr d k (o % 0x3_0000)
    (s.setLocalEcc a (if dbl ∨ s.localEcc a ≠ 0 then 2 else 1)).ceStrike d k t

/-- CE_DISPATCH: an idle engine dispatches the pending slot with the earliest deadline (R363). -/
def execCeDispatch (d : Die) (k : Fin 24) (flips : List (Nat × Bool)) (s : State) : Host.Outcome State Fault Refusal :=
  let s := s.ceStrike d k flips
  .next (if s.ceState d k ≠ 0 then s else
    match s.cePick d k with
    | none => s
    | some n => s.ceStart d k n)

/-! ## Stalls (R359, R365, R371) -/

/-- CE cycles spent stalled. -/
def State.ceStalled (s : State) (d : Die) (k : Fin 24) (n : Nat) : State := (s.ceSpend d k n).countBy (R.CE_CNT_STALL d k) n

/-- CE_CYCLE_ABORT: `n` cycles on, the count reaches LIMIT (R365; log entry 42). -/
def execCeCycleAbort (d : Die) (k : Fin 24) (n : Nat) (s : State) : Host.Outcome State Fault Refusal :=
  .next (if s.ceState d k ≠ 1 ∨ !s.ceLive d k ∨ s.ceLimit d k = 0 ∨ s.ceUsed d k + n < s.ceLimit d k then s
    else ((if (s.ceOf d k).stall = 0 then s.ceSpend d k n else s.ceStalled d k n).ceAbort d k))

/-- CE_LINE_FILL: after `n` stall cycles the line of a read miss has arrived, or its read is refused, and the instruction goes on
(R359, R360). -/
def execCeLineFill (d : Die) (k : Fin 24) (n : Nat) (s : State) : Host.Outcome State Fault Refusal :=
  let c := s.ceOf d k
  .next (if s.ceState d k ≠ 1 ∨ c.stall = 0 ∨ 3 < c.stall then s
    else
      let s := s.ceStalled d k n
      if s.ceAtLimit d k then s.ceAbort d k
      else
        let pc := s.fld (R.CE_PC d k) 0 16
        match s.ceFetch d k (c.stall - 1) c.line with
        | (none, t) => t.ceResume d k
        | (some cause, t) =>
          (t.ceExcept d k (if cause = causeMEMORY then excMEMERR else excBUS) (if cause = causeMEMORY then 0 else cause) c.off pc
            (ofLe (t.load (t.ceCodeAddr d k pc) 4))).ceGo d k)

/-- CE_POSTED_WRITE: the oldest posted line leaves as one pool write; a FLUSH that waits goes on behind the last, `n` stall cycles
later (R359, R360). -/
def execCePostedWrite (d : Die) (k : Fin 24) (n : Nat) (s : State) : Host.Outcome State Fault Refusal :=
  .next (if (s.ceOf d k).posted = [] then s
    else
      let s := s.cePostOne d k
      if (s.ceOf d k).stall = 6 ∧ (s.ceOf d k).posted = [] then
        let s := s.ceStalled d k n
        if s.ceAtLimit d k then s.ceAbort d k else s.ceResume d k
      else s)

/-- CE_WAIT_END: a selected CE_EVT bit is set `n` cycles into a WAIT (R371). -/
def execCeWaitEnd (d : Die) (k : Fin 24) (n : Nat) (s : State) : Host.Outcome State Fault Refusal :=
  let c := s.ceOf d k
  .next (if s.ceState d k ≠ 1 ∨ c.stall ≠ 5 ∨ (s.fld (R.CE_EVT d k) 0 8) &&& c.mask = 0 then s
    else
      let s := s.ceStalled d k n
      if s.ceAtLimit d k then s.ceAbort d k else s.ceResume d k)

/-! ## The commit (R364, R399 to R406) -/

/-- A linear count as a device time. -/
def timeOfLin (n : Nat) : DevTime := { sec := n / 1_000_000_000, ns := n % 1_000_000_000 }

/-- The context header of R399 as 16 words. -/
def headerWords (i : Intent) (p : Placement) (commit flags : Nat) (start : List Word) (status : Word) (lost : Nat) : List Word :=
  [wd commit, wd (p.epoch + flags)] ++ start ++ [status, wd i.handle, wd lost, i.recWord 1, i.recWord 4, i.recWord 5, i.recWord 6,
    wd (p.die.idx * 64 + p.cmps.headD 0), 0, 0, 0]

/-- Start of the cycle that the first compare unit of a placement started: its target less its period (R403). -/
def State.cycleStart (s : State) (p : Placement) : List Word :=
  let u := p.cmps.headD 0
  (timeOfLin (s.cmpTgt p.die u - (s.getReg (R.TB_CMP_PERIOD p.die u)).toNat)).triple

/-- The header line of a committed cycle written in one whole-line pool write (R400); whether it was accepted. -/
def State.ceHeader (s : State) (d : Die) (k : Fin 24) (i : Intent) (p : Placement) (status : Word) : Bool × State :=
  let ws := headerWords i p ((p.commit + 1) % 0x1_0000_0000) 0 (s.cycleStart p) status 0
  let la := s.winAddr d k 0 0
  let e := dieOfAddr la
  if e ≠ d ∧ !s.linkUp then (false, s)
  else match s.poolWrite e (cePort d k e) (la % 0x0400_0000) ((wordBytes ws).map some) with
    | (.ok _, t) => (true, t)
    | (.error _, t) => (false, t)

/-- Doorbells of a report: bits [31:16] of the status, those that parameter word 1 of a shipped personality allows, on receivers 1 to 3
of both dies (R405, R574). -/
def reportBells (i : Intent) (status : Word) : Word :=
  let m := bits status 16 16
  let m := if 1 ≤ i.pers ∧ i.pers ≤ 12 then m &&& bits (i.params.getD 1 0) 0 16 else m
  wd (m * 0x1_0000)

/-- The report of a committed cycle: the record for the supervisors, REPORT, the doorbells, and what the planner keeps of it (R364, R403
to R406, R416, R441). -/
def State.ceReport (s : State) (d : Die) (k : Fin 24) (status : Word) : State :=
  let n := s.ceSlot d k
  let sh := s.slotShadow d k n
  let s := (s.emit (.report d k.val n status)).raiseSup d 26
  let dl := Tab.get (fun _ => 0) s.ceDeadline (slotKey d k n)
  let late := decide (dl < s.lin d)
  let h := match s.slotIntent d k n with | some (i, _) => i.handle | none => 0
  let s := if late then
      ((s.logRaw d 0x207 2 (2 + min ((s.lin d - dl) / 1000) 4095 * 16) (wd h)).count (R.HLT_CNT_LATE d)).event d (R.HLT_EVENT d) 11 dblHLT
    else s
  match s.slotIntent d k n with
  | none => if sh then s else s.raise d (wd (bits status 16 16 * 0x1_0000))
  | some (i, _) =>
    let s := if sh then s else s.raise d (reportBells i status)
    let s := s.updPlacement d k n fun p => { p with commit := (p.commit + 1) % 0x1_0000_0000, lost := 0 }
    let i := s.intent i.handle
    if sh then s.setIntent i.handle { i with repTgt := true, tgtLate := late }
    else s.setIntent i.handle { i with repCur := true, cycles := i.cycles + 1, fresh := false, replaced := false }

/-- The slot's record of a cycle that ends: CYCLES, MAXC, STATUS (R387). -/
def State.ceSlotEnd (s : State) (d : Die) (k : Fin 24) (status : Word) : State :=
  let n := s.ceSlot d k
  let a := R.CE_SLOT_W25 d k n
  ((s.count (R.CE_SLOT_W24 d k n)).setReg a (wd (max (s.getReg a).toNat (s.ceUsed d k)))).setReg (R.CE_SLOT_W27 d k n) status

/-- CYCLE_COMMIT: the posted writes of an END are done, `n` stall cycles later: a refused one raises MEMERR, else the header is written and
the report sent (R364, R400); a cycle that a halt lost ends without either (R384, R401). -/
def execCycleCommit (d : Die) (k : Fin 24) (n : Nat) (s : State) : Host.Outcome State Fault Refusal :=
  let c := s.ceOf d k
  .next (if s.ceState d k ≠ 1 ∨ c.stall ≠ 7 ∨ c.posted ≠ [] then s
    else
      let s := s.ceStalled d k n
      let pc := s.fld (R.CE_PC d k) 0 16
      let fail (s : State) : State := (s.ceExcept d k excMEMERR 1 0 pc (ofLe (s.load (s.ceCodeAddr d k pc) 4))).ceGo d k
      let status := wd c.mask
      if s.ceLimit d k ≠ 0 ∧ s.ceLimit d k < s.ceUsed d k then s.ceAbort d k
      else if s.flag (R.CE_STAT d k) 5 then fail (s.setFlag (R.CE_STAT d k) 5 false)
      else if c.lost then s.ceOver d k
      else match s.slotIntent d k (s.ceSlot d k) with
        | none => ((s.ceSlotEnd d k status).ceReport d k status).ceOver d k
        | some (i, p) =>
          match s.ceHeader d k i p status with
          | (false, t) => fail t
          | (true, t) => ((t.ceSlotEnd d k status).ceReport d k status).ceOver d k)

/-! ## The instructions' commands (R371 to R374, R382) -/

/-- CE_MOV: Copies S1 to D (R371). -/
def execCeMov (d : Die) (k : Fin 24) (s : State) : Host.Outcome State Fault Refusal := .next (s.ceIssue d k 0x01)

/-- CE_MOVZ: Copies S1 zero-extended to a word D (R371). -/
def execCeMovz (d : Die) (k : Fin 24) (s : State) : Host.Outcome State Fault Refusal := .next (s.ceIssue d k 0x02)

/-- CE_MOVS: Copies S1 sign-extended to a word D (R371). -/
def execCeMovs (d : Die) (k : Fin 24) (s : State) : Host.Outcome State Fault Refusal := .next (s.ceIssue d k 0x03)

/-- CE_ADR: Stores the address or window offset of S1 in D (R371). -/
def execCeAdr (d : Die) (k : Fin 24) (s : State) : Host.Outcome State Fault Refusal := .next (s.ceIssue d k 0x04)

/-- CE_CLR: Clears D (R371). -/
def execCeClr (d : Die) (k : Fin 24) (s : State) : Host.Outcome State Fault Refusal := .next (s.ceIssue d k 0x05)

/-- CE_XCH: Swaps D and S1 (R371). -/
def execCeXch (d : Die) (k : Fin 24) (s : State) : Host.Outcome State Fault Refusal := .next (s.ceIssue d k 0x06)

/-- CE_MOVM: Copies a block of bytes after checking both ranges (R372). -/
def execCeMovm (d : Die) (k : Fin 24) (s : State) : Host.Outcome State Fault Refusal := .next (s.ceIssue d k 0x07)

/-- CE_PUSH: Pushes a word onto the stack (R374). -/
def execCePush (d : Die) (k : Fin 24) (s : State) : Host.Outcome State Fault Refusal := .next (s.ceIssue d k 0x08)

/-- CE_POP: Pops a word from the stack (R374). -/
def execCePop (d : Die) (k : Fin 24) (s : State) : Host.Outcome State Fault Refusal := .next (s.ceIssue d k 0x09)

/-- CE_ADD: Adds S1 and S2 (R371). -/
def execCeAdd (d : Die) (k : Fin 24) (s : State) : Host.Outcome State Fault Refusal := .next (s.ceIssue d k 0x10)

/-- CE_ADDC: Adds S1, S2 and C (R371). -/
def execCeAddc (d : Die) (k : Fin 24) (s : State) : Host.Outcome State Fault Refusal := .next (s.ceIssue d k 0x11)

/-- CE_SUB: Subtracts S2 from S1 (R371). -/
def execCeSub (d : Die) (k : Fin 24) (s : State) : Host.Outcome State Fault Refusal := .next (s.ceIssue d k 0x12)

/-- CE_SUBC: Subtracts S2 and C from S1 (R371). -/
def execCeSubc (d : Die) (k : Fin 24) (s : State) : Host.Outcome State Fault Refusal := .next (s.ceIssue d k 0x13)

/-- CE_MUL: Stores the low half of the product (R371). -/
def execCeMul (d : Die) (k : Fin 24) (s : State) : Host.Outcome State Fault Refusal := .next (s.ceIssue d k 0x14)

/-- CE_MULHU: Stores the unsigned high half of the product (R371). -/
def execCeMulhu (d : Die) (k : Fin 24) (s : State) : Host.Outcome State Fault Refusal := .next (s.ceIssue d k 0x15)

/-- CE_MULHS: Stores the signed high half of the product (R371). -/
def execCeMulhs (d : Die) (k : Fin 24) (s : State) : Host.Outcome State Fault Refusal := .next (s.ceIssue d k 0x16)

/-- CE_DIVU: Unsigned division, raising DIVZ on zero (R371). -/
def execCeDivu (d : Die) (k : Fin 24) (s : State) : Host.Outcome State Fault Refusal := .next (s.ceIssue d k 0x17)

/-- CE_DIVS: Signed division toward zero (R371). -/
def execCeDivs (d : Die) (k : Fin 24) (s : State) : Host.Outcome State Fault Refusal := .next (s.ceIssue d k 0x18)

/-- CE_REMU: Unsigned remainder (R371). -/
def execCeRemu (d : Die) (k : Fin 24) (s : State) : Host.Outcome State Fault Refusal := .next (s.ceIssue d k 0x19)

/-- CE_REMS: Signed remainder with the sign of S1 (R371). -/
def execCeRems (d : Die) (k : Fin 24) (s : State) : Host.Outcome State Fault Refusal := .next (s.ceIssue d k 0x1A)

/-- CE_NEG: Negates S1 (R371). -/
def execCeNeg (d : Die) (k : Fin 24) (s : State) : Host.Outcome State Fault Refusal := .next (s.ceIssue d k 0x1B)

/-- CE_CMP: Compares S1 with S2, setting flags (R371). -/
def execCeCmp (d : Die) (k : Fin 24) (s : State) : Host.Outcome State Fault Refusal := .next (s.ceIssue d k 0x1C)

/-- CE_AND: Bitwise and (R371). -/
def execCeAnd (d : Die) (k : Fin 24) (s : State) : Host.Outcome State Fault Refusal := .next (s.ceIssue d k 0x20)

/-- CE_OR: Bitwise or (R371). -/
def execCeOr (d : Die) (k : Fin 24) (s : State) : Host.Outcome State Fault Refusal := .next (s.ceIssue d k 0x21)

/-- CE_XOR: Bitwise exclusive or (R371). -/
def execCeXor (d : Die) (k : Fin 24) (s : State) : Host.Outcome State Fault Refusal := .next (s.ceIssue d k 0x22)

/-- CE_ANDN: S1 and not S2 (R371). -/
def execCeAndn (d : Die) (k : Fin 24) (s : State) : Host.Outcome State Fault Refusal := .next (s.ceIssue d k 0x23)

/-- CE_NOT: Bitwise complement (R371). -/
def execCeNot (d : Die) (k : Fin 24) (s : State) : Host.Outcome State Fault Refusal := .next (s.ceIssue d k 0x24)

/-- CE_TST: Sets Z and N from S1 (R371). -/
def execCeTst (d : Die) (k : Fin 24) (s : State) : Host.Outcome State Fault Refusal := .next (s.ceIssue d k 0x25)

/-- CE_SHL: Shifts left (R371). -/
def execCeShl (d : Die) (k : Fin 24) (s : State) : Host.Outcome State Fault Refusal := .next (s.ceIssue d k 0x26)

/-- CE_SHR: Logical shift right (R371). -/
def execCeShr (d : Die) (k : Fin 24) (s : State) : Host.Outcome State Fault Refusal := .next (s.ceIssue d k 0x27)

/-- CE_SAR: Arithmetic shift right (R371). -/
def execCeSar (d : Die) (k : Fin 24) (s : State) : Host.Outcome State Fault Refusal := .next (s.ceIssue d k 0x28)

/-- CE_ROL: Rotates left (R371). -/
def execCeRol (d : Die) (k : Fin 24) (s : State) : Host.Outcome State Fault Refusal := .next (s.ceIssue d k 0x29)

/-- CE_ROR: Rotates right (R371). -/
def execCeRor (d : Die) (k : Fin 24) (s : State) : Host.Outcome State Fault Refusal := .next (s.ceIssue d k 0x2A)

/-- CE_BTST: Tests a bit into T (R371). -/
def execCeBtst (d : Die) (k : Fin 24) (s : State) : Host.Outcome State Fault Refusal := .next (s.ceIssue d k 0x30)

/-- CE_BSET: Tests and sets a bit (R371). -/
def execCeBset (d : Die) (k : Fin 24) (s : State) : Host.Outcome State Fault Refusal := .next (s.ceIssue d k 0x31)

/-- CE_BCLR: Tests and clears a bit (R371). -/
def execCeBclr (d : Die) (k : Fin 24) (s : State) : Host.Outcome State Fault Refusal := .next (s.ceIssue d k 0x32)

/-- CE_BCHG: Tests and inverts a bit (R371). -/
def execCeBchg (d : Die) (k : Fin 24) (s : State) : Host.Outcome State Fault Refusal := .next (s.ceIssue d k 0x33)

/-- CE_FFS: Finds the lowest set bit (R371). -/
def execCeFfs (d : Die) (k : Fin 24) (s : State) : Host.Outcome State Fault Refusal := .next (s.ceIssue d k 0x35)

/-- CE_BSWAP: Reverses the bytes of S1 (R371). -/
def execCeBswap (d : Die) (k : Fin 24) (s : State) : Host.Outcome State Fault Refusal := .next (s.ceIssue d k 0x36)

/-- CE_CRCC: Advances a CRC-32C register over S2's bytes (R371). -/
def execCeCrcc (d : Die) (k : Fin 24) (s : State) : Host.Outcome State Fault Refusal := .next (s.ceIssue d k 0x37)

/-- CE_CRCE: Advances an IEEE 802.3 CRC register over S2's bytes (R371). -/
def execCeCrce (d : Die) (k : Fin 24) (s : State) : Host.Outcome State Fault Refusal := .next (s.ceIssue d k 0x38)

/-- CE_BCC: Branches when the condition holds (R373). -/
def execCeBcc (d : Die) (k : Fin 24) (s : State) : Host.Outcome State Fault Refusal := .next (s.ceIssue d k 0x40)

/-- CE_BSR: Pushes the return PC and branches (R371). -/
def execCeBsr (d : Die) (k : Fin 24) (s : State) : Host.Outcome State Fault Refusal := .next (s.ceIssue d k 0x41)

/-- CE_JMP: Jumps to S1 (R371). -/
def execCeJmp (d : Die) (k : Fin 24) (s : State) : Host.Outcome State Fault Refusal := .next (s.ceIssue d k 0x42)

/-- CE_CALL: Pushes the return PC and jumps to S1 (R371). -/
def execCeCall (d : Die) (k : Fin 24) (s : State) : Host.Outcome State Fault Refusal := .next (s.ceIssue d k 0x43)

/-- CE_RET: Pops PC (R371). -/
def execCeRet (d : Die) (k : Fin 24) (s : State) : Host.Outcome State Fault Refusal := .next (s.ceIssue d k 0x44)

/-- CE_RETE: Returns from an exception from the stack or the fault stack (R382). -/
def execCeRete (d : Die) (k : Fin 24) (s : State) : Host.Outcome State Fault Refusal := .next (s.ceIssue d k 0x45)

/-- CE_LOOP: Decrements the counter and branches while not zero (R371). -/
def execCeLoop (d : Die) (k : Fin 24) (s : State) : Host.Outcome State Fault Refusal := .next (s.ceIssue d k 0x46)

/-- CE_TRAP: Raises exception TRAP n (R376). -/
def execCeTrap (d : Die) (k : Fin 24) (s : State) : Host.Outcome State Fault Refusal := .next (s.ceIssue d k 0x47)

/-- CE_NOP: Does nothing (R371). -/
def execCeNop (d : Die) (k : Fin 24) (s : State) : Host.Outcome State Fault Refusal := .next (s.ceIssue d k 0x48)

/-- CE_END: Ends the cycle, waiting for posted writes and giving S1 as report status (R364). -/
def execCeEnd (d : Die) (k : Fin 24) (s : State) : Host.Outcome State Fault Refusal := .next (s.ceIssue d k 0x50)

/-- CE_WAIT: Stalls until a selected event bit or the limit (R371). -/
def execCeWait (d : Die) (k : Fin 24) (s : State) : Host.Outcome State Fault Refusal := .next (s.ceIssue d k 0x51)

/-- CE_QGET: Takes a descriptor from a bound queue into working memory (R371). -/
def execCeQget (d : Die) (k : Fin 24) (s : State) : Host.Outcome State Fault Refusal := .next (s.ceIssue d k 0x52)

/-- CE_QPUT: Offers a descriptor to a bound queue, stamping the slot's epoch (R411). -/
def execCeQput (d : Die) (k : Fin 24) (s : State) : Host.Outcome State Fault Refusal := .next (s.ceIssue d k 0x53)

/-- CE_MAPF: Maps a received frame read only into a window (R358). -/
def execCeMapf (d : Die) (k : Fin 24) (s : State) : Host.Outcome State Fault Refusal := .next (s.ceIssue d k 0x54)

/-- CE_MAPG: Maps a grant region into a window (R358). -/
def execCeMapg (d : Die) (k : Fin 24) (s : State) : Host.Outcome State Fault Refusal := .next (s.ceIssue d k 0x55)

/-- CE_UNMAP: Unmaps a window (R358). -/
def execCeUnmap (d : Die) (k : Fin 24) (s : State) : Host.Outcome State Fault Refusal := .next (s.ceIssue d k 0x56)

/-- CE_FLUSH: Waits until every posted write has been performed (R360). -/
def execCeFlush (d : Die) (k : Fin 24) (s : State) : Host.Outcome State Fault Refusal := .next (s.ceIssue d k 0x57)

/-! ## CE_CTRL and the writes of the CE block (R375, R383, R384, R386, R387) -/

/-- The per-function reset of an engine (R383). -/
def State.ceReset (s : State) (d : Die) (k : Fin 24) : State :=
  let s := if s.ceLive d k ∧ !(s.ceOf d k).lost then s.ceLostCycle d k else s
  let s := (s.ceFreeFrames d k).setCe d k {}
  let s := { s with accWait := Tab.put (fun _ => {}) s.accWait (waitKey (ceWho d k)) {} }
  let keep := if s.ceState d k = 3 then 3 else 0
  let s := s.setReg (R.CE_STAT d k) (wd keep)
  let s := ((s.setReg (R.CE_PEND_LO d k) 0).setReg (R.CE_PEND_HI d k) 0).setReg (R.CE_PC d k) 0
  let s := s.setReg (R.CE_FLAGS d k) 0
  let s := (List.range 8).foldl (fun s i => (s.setReg (R.CE_B d k i) 0).setReg (R.CE_FS d k i) 0) s
  let s := (List.range 3).foldl (fun s w => s.winUnmap d k w) s
  ((List.range 63).foldl (fun s n => if s.slotValid d k n then s.setFlag (R.CE_SLOT_W0 d k n) 31 false else s) s).fnReset d 2 k.val

/-- CE_CTRL.HALT: at once between instructions, else at the next boundary (R384). -/
def State.ceHalt (s : State) (d : Die) (k : Fin 24) : State :=
  if 2 ≤ s.ceState d k then s
  else
    let s := s.setCe d k { s.ceOf d k with halt := true }
    if !s.ceLive d k then s.ceOver d k
    else if (s.ceOf d k).stall = 0 then s.ceGo d k
    else s

/-- CE_CTRL.RUN: a halted engine resumes its cycle at PC, or is idle again (R384). -/
def State.ceRun (s : State) (d : Die) (k : Fin 24) : State :=
  if s.ceState d k ≠ 2 then s
  else
    let s := s.setReg (R.CE_HALT_CAUSE d k) 0
    if s.ceLive d k then (s.setFld (R.CE_STAT d k) 0 2 1).ceGo d k else s.setFld (R.CE_STAT d k) 0 2 0

/-- CE_CTRL.STEP: one instruction of the cycle a halted engine holds (R384). -/
def State.ceStep (s : State) (d : Die) (k : Fin 24) : State :=
  if s.ceState d k ≠ 2 ∨ !s.ceLive d k then s
  else ((s.setFld (R.CE_STAT d k) 0 2 1).setCe d k { s.ceOf d k with halt := true }).ceResume d k

/-- CE_CTRL (R383, R384): RUN and STEP are refused after a nested halt. -/
def effCeCtrl (d : Die) (k : Fin 24) (v : Word) (s : State) : Eff :=
  let nested := decide (s.ceState d k = 2) && s.flag (R.CE_HALT_CAUSE d k) 8
  if bit v 3 then .ok (s.ceReset d k)
  else if (bit v 1 ∨ bit v 2) ∧ nested then .error causeRULE
  else if bit v 0 then .ok (s.ceHalt d k)
  else if bit v 1 then .ok (s.ceRun d k)
  else if bit v 2 then .ok (s.ceStep d k)
  else .ok s

/-- Whether a stack window may stand (R375). -/
def stackOk (lo hi : Nat) : Bool :=
  decide (lo % 4 = 0) && decide (hi % 4 = 0) && decide (0x1_0000 ≤ lo) && decide (hi ≤ 0x3_0000) && decide (lo + 64 ≤ hi)

/-- Whether a slot's word keeps its fields in their ranges: CLEN 1 to 4,096, CXLEN a multiple of 64 from 64 to 1,048,576, LINES of a grant 1
to 1,048,575 (R387, R569). -/
def slotWordOk (n : Nat) (v : Word) : Bool :=
  if n = 1 then decide (1 ≤ bits v 16 13) && decide (bits v 16 13 ≤ 4096)
  else if n = 3 then decide (bits v 0 21 % 64 = 0) && decide (64 ≤ bits v 0 21) && decide (bits v 0 21 ≤ 1_048_576)
  else if 8 ≤ n ∧ n % 2 = 1 then decide (1 ≤ bits v 0 20)
  else true

/-- A write of an engine's block: by supervisors only; the core's registers only while it is halted, the stack window in its range, a
slot's words 0 to 23 only while it is neither pending nor running (R375, R384, R386, R387). -/
def effCe (who : Requester) (d : Die) (k : Fin 24) (off : Nat) (v : Word) (s : State) : Eff :=
  let sup : Bool := match who with | .sup _ _ => true | _ => false
  let b := 10 + k.val
  if !sup then .error causeRULE
  else if off = 0x08 then effCeCtrl d k v s
  else if off = 0x10 ∨ off = 0x14 ∨ (0x20 ≤ off ∧ off < 0x40) ∨ off = 0x4C ∨ (0x80 ≤ off ∧ off < 0xA0) then
    if s.ceState d k = 2 then .ok (s.rowWrite d b off v) else .error causeRULE
  else if off = 0x18 then
    if stackOk v.toNat (s.getReg (R.CE_SP_HI d k)).toNat then .ok (s.rowWrite d b off v) else .error causeRULE
  else if off = 0x1C then
    if stackOk (s.getReg (R.CE_SP_LO d k)).toNat v.toNat then .ok (s.rowWrite d b off v) else .error causeRULE
  else if off = 0x48 then .ok (s.rowWrite d b off v)
  else if 0x1000 ≤ off ∧ off < 0x1000 + 0x80 * 63 ∧ (off - 0x1000) % 0x80 < 0x60 then
    let n := (off - 0x1000) / 0x80
    if s.flag (pendReg d k n) (n % 32) ∨ s.runSlot d k = some n ∨ !slotWordOk ((off - 0x1000) % 0x80 / 4) v then .error causeRULE
    else .ok (s.rowWrite d b off v)
  else .error causeRULE

/-- CE_HALT: a write of CE_CTRL with HALT = 1 (R384). -/
def execCeHalt (who : Requester) (d : Die) (k : Fin 24) (s : State) : Host.Outcome State Fault Refusal :=
  .next (s.guardWrite who (R.CE_CTRL d k) .w32 (effCe who d k 0x08 1))

/-- CE_RUN: a write of CE_CTRL with RUN = 1 (R384). -/
def execCeRun (who : Requester) (d : Die) (k : Fin 24) (s : State) : Host.Outcome State Fault Refusal :=
  .next (s.guardWrite who (R.CE_CTRL d k) .w32 (effCe who d k 0x08 2))

/-- CE_STEP: a write of CE_CTRL with STEP = 1 (R384). -/
def execCeStep (who : Requester) (d : Die) (k : Fin 24) (s : State) : Host.Outcome State Fault Refusal :=
  .next (s.guardWrite who (R.CE_CTRL d k) .w32 (effCe who d k 0x08 4))

/-- CE_SRST: a write of CE_CTRL with SRST = 1 (R383). -/
def execCeSrst (who : Requester) (d : Die) (k : Fin 24) (s : State) : Host.Outcome State Fault Refusal :=
  .next (s.guardWrite who (R.CE_CTRL d k) .w32 (effCe who d k 0x08 8))

end Sys2Proof.Machine
end

