-- ==== Sys2Proof/Machine/Mailbox.lean ====
section
/-! DEFINITION. The mailbox channels, the doorbell registers and the MSI-X vectors of the PCIe functions (R159, R163, R166, R172 to R182). -/

namespace Sys2Proof.Machine

/-! ## Releasing a channel (R176) -/

/-- A channel released: a partly sent packet and undelivered reply words counted in MBX_CH_DROP, the channel closed for commands and
free; its claim generation goes on, so that replies of commands already accepted find no later owner. -/
def State.chanRelease (s : State) (d : Die) (c : Nat) : State :=
  let st := R.MBX_CH_STAT d c
  if s.fld st 29 3 = 0 then s else
  let k := s.chan d c
  let n := k.part.length + (if s.flag st 0 then k.msgCount else 0) + (k.replies.map List.length).sum +
    (if s.flag st 8 then s.fld st 16 5 else 0)
  let s := (s.countBy (R.MBX_CH_DROP d c) n).setReg st (s.getReg st &&& 0x10000000)
  let s := s.setFld (R.CMD_CH_STAT d c) 0 16 0
  s.setChan d c { gen := k.gen + 1 }

/-- Every channel of a die that an owner holds released; `n` channels are left. -/
def State.releaseOwned (s : State) (d : Die) (owner : Nat) : Nat → State
  | 0 => s
  | n + 1 => (if s.fld (R.MBX_CH_STAT d n) 29 3 = owner then s.chanRelease d n else s).releaseOwned d owner n

/-- Every channel of either die that the owner on die `d` holds released; one of the other die keeps its owner while the link is down, and
is released when the link is up again (R159, R166, R177; log entry 53). -/
def State.releaseOwner (s : State) (d : Die) (owner : Nat) : State :=
  let s := s.releaseOwned d owner 32
  if s.linkUp then s.releaseOwned d.other owner 32
  else if s.chanLate.contains owner then s
  else { s with chanLate := s.chanLate ++ [owner] }

/-- The releases that the link's failure held back (R177). -/
def State.releaseLate (s : State) : State :=
  s.chanLate.foldl (fun s owner =>
    match ownerReceiver owner with
    | some (d, _) => s.releaseOwned d.other owner 32
    | none => s) { s with chanLate := [] }

/-! ## The pairing key and the session of H2 (R163, R166) -/

/-- The session of H2 ends: its channels are released. -/
def State.h2End (s : State) : State :=
  if s.h2.sess.isNone then s
  else ({ s with h2 := { s.h2 with sess := none } }).releaseOwner .d0 6

/-- The key of MBX_H2KEY0 to 7 committed: it replaces any previous key and ends an open session. -/
def State.h2Commit (s : State) : State :=
  let key := (List.range 8).flatMap fun i => leBytes 4 (s.getReg (R.MBX_H2KEY .d0 i)).toNat
  let s := ({ s with h2 := { s.h2 with key := key, pend := none } }).setFlag (R.MBX_H2KEY_CTRL .d0) 8 true
  (s.cfgTouch).h2End

/-! ## Writes of the MBX block (R172 to R176, R181) -/

/-- MBX_GO: a message of COUNT words becomes busy until taken, and the supervisors are told (R174, R441). -/
def State.mbxGo (s : State) (d : Die) (c : Nat) (v : Word) : Eff :=
  if s.flag (R.MBX_CH_STAT d c) 0 then .error causeRULE
  else if !bit v 31 then .ok s
  else if bits v 0 5 < 8 ∨ bits v 0 5 > 16 then .error causeRULE
  else .ok (((s.setChan d c { s.chan d c with msgCount := bits v 0 5 }).setFlag (R.MBX_CH_STAT d c) 0 true).raiseSup d 24)

/-- MBX_CH_CLAIM: RELEASE by the owner, CLAIM by a host of a channel that is free (R172, R173). -/
def State.mbxClaim (s : State) (who : Requester) (d : Die) (c : Nat) (v : Word) : Eff :=
  if bit v 1 ∧ s.fld (R.MBX_CH_STAT d c) 29 3 ≠ who.owner then .error causeRULE
  else
    let s := if bit v 1 then s.chanRelease d c else s
    .ok (if bit v 0 ∧ s.fld (R.MBX_CH_STAT d c) 29 3 = 0 then s.setFld (R.MBX_CH_STAT d c) 29 3 who.owner else s)

/-- MBX_OUT_ACK: OUT_VALID cleared, and the next part or reply written (R175). -/
def State.mbxAck (s : State) (d : Die) (c : Nat) (v : Word) : State :=
  if bit v 0 ∧ s.flag (R.MBX_CH_STAT d c) 8 then (s.setFlag (R.MBX_CH_STAT d c) 8 false).pump d c else s

/-- A write of the MBX block; the key registers, which read 0, keep what is written for COMMIT (R163). -/
def effMbx (who : Requester) (d : Die) (off : Nat) (v : Word) (s : State) : Eff :=
  if 0x40 ≤ off ∧ off < 0x64 then
    if !keyAnswers who d then .error causeRULE
    else if off = 0x60 then .ok (if bit v 0 then s.h2Commit else s)
    else .ok (s.setReg (R.MBX_H2KEY d ((off - 0x40) / 4)) v)
  else if 0x1000 ≤ off ∧ off < 0x3000 then
    let c := (off - 0x1000) / 0x100
    let o := off % 0x100
    if c < 8 ∧ !who.secure then .error causeRULE
    else if o = 0x88 then if who.owner = 0 then .error causeRULE else s.mbxClaim who d c v
    else if o < 0x40 ∨ o = 0x80 ∨ o = 0x8C then
      if who.owner = 0 ∨ s.chanOwner d c ≠ who.owner then .error causeRULE
      else if o = 0x80 then s.mbxGo d c v
      else if o = 0x8C then .ok (s.mbxAck d c v)
      else if s.flag (R.MBX_CH_STAT d c) 0 then .error causeRULE
      else .ok (s.rowWrite d 5 off v)
    else .ok s
  else .ok (s.rowWrite d 5 off v)

/-! ## Writes of the DBL block (R178, R180, R182) -/

/-- DBL_MASK of a receiver replaced: bits that become pending by it are signalled (R180). -/
def State.dblMask (s : State) (d : Die) (r : Nat) (v : Word) : State :=
  let st := s.getReg (R.DBL_STAT d r)
  let fresh := st &&& v &&& ~~~(st &&& s.getReg (R.DBL_MASK d r))
  let s := s.setReg (R.DBL_MASK d r) v
  if r = 1 ∨ r = 2 then s.msixSendAll d (r - 1) fresh 32 else s

/-- A write of the DBL block: a host port its own receiver's set, the supervisors receiver 0's (R178, R182). -/
def effDbl (who : Requester) (d : Die) (off : Nat) (v : Word) (s : State) : Eff :=
  if off ≥ 0x100 then .ok s
  else
    let r := off / 0x40
    let own : Bool := if who.isSup d then decide (r = 0) else decide (who.die = d) && decide (who.receiver = some r)
    if !own then .error causeRULE
    else if off % 0x40 = 0 then .ok (s.andNotReg (R.DBL_STAT d r) v)
    else if off % 0x40 = 4 then .ok (s.dblMask d r v)
    else if off % 0x40 = 0xC then .ok (s.dblSet d r v)
    else .ok s

/-! ## MSI-X (R180) -/

/-- A held MSI-X message of a vector that no mask holds any longer: sent if the doorbell bit is still pending. -/
def State.msixRelease (s : State) (d : Die) (fn vec : Nat) : State :=
  let ctl := Tab.get (fun _ => 0) s.msixCtl (d.idx * 2 + fn)
  let m := Tab.get (fun _ => ({} : MsixVec)) s.msix (vecKey d fn vec)
  let pba := Tab.get (fun _ => (0 : Word)) s.msixPba (d.idx * 2 + fn)
  if !bit pba vec ∨ m.masked ∨ ctl ≠ 1 then s
  else
    let s := { s with msixPba := Tab.put (fun _ => 0) s.msixPba (d.idx * 2 + fn) (pba &&& ~~~maskOf vec 1) }
    if s.flag (R.DBL_STAT d (fn + 1)) vec && s.flag (R.DBL_MASK d (fn + 1)) vec then s.emit (.msix d fn vec) else s

/-- The same for every vector of a function; `n` are left. -/
def State.msixReleaseAll (s : State) (d : Die) (fn : Nat) : Nat → State
  | 0 => s
  | n + 1 => (s.msixRelease d fn (32 - (n + 1))).msixReleaseAll d fn n

/-- A write of the MSI-X table: address, data or the mask bit of a vector. -/
def State.msixWrite (s : State) (d : Die) (fn off : Nat) (v : Word) : State :=
  let vec := off / 16 % 32
  let m := Tab.get (fun _ => ({} : MsixVec)) s.msix (vecKey d fn vec)
  let m' : MsixVec := match off % 16 / 4 with
    | 0 => { m with addr := m.addr / 0x1_0000_0000 * 0x1_0000_0000 + v.toNat }
    | 1 => { m with addr := m.addr % 0x1_0000_0000 + v.toNat * 0x1_0000_0000 }
    | 2 => { m with data := v.toNat }
    | _ => { m with masked := bit v 0 }
  ({ s with msix := Tab.put (fun _ => {}) s.msix (vecKey d fn vec) m' }).msixRelease d fn vec

/-- A word of the MSI-X table. -/
def State.msixRead (s : State) (d : Die) (fn off : Nat) : Word :=
  let m := Tab.get (fun _ => ({} : MsixVec)) s.msix (vecKey d fn (off / 16 % 32))
  match off % 16 / 4 with
  | 0 => wd m.addr
  | 1 => wd (m.addr / 0x1_0000_0000)
  | 2 => wd m.data
  | _ => if m.masked then 1 else 0

/-! ## The configuration headers (R155) -/

/-- The identifiers in a function's configuration header. -/
structure PciHeader where
  vendor : Nat
  device : Nat
  classCode : Nat
  revision : Nat
deriving DecidableEq, Repr

/-- The header of function `fn` of a die's PCIe port: network controller or system peripheral, of the step SYS_VER gives (R155). -/
def State.pciHeader (s : State) (d : Die) (fn : Fin 2) : PciHeader :=
  ⟨0x1E9B, 0x4896 + fn.val, if fn = 0 then 0x02_8000 else 0x08_8000, s.fld (R.SYS_VER d) 0 8⟩

/-! ## Function Level Reset and link-down (R159, R560) -/

/-- What an FLR does to a function of a die's PCIe port, and nothing else. -/
def State.functionReset (s : State) (d : Die) (fn : Nat) : State :=
  let who : Requester := if fn = 0 then .pf0 d else .pf1 d
  let s := (s.releaseOwner d who.owner).setReg (R.DBL_MASK d (fn + 1)) 0
  let s := { s with msix := s.msix.filter fun e => e.1 / 32 ≠ d.idx * 2 + fn }
  { s with msixPba := Tab.put (fun _ => 0) s.msixPba (d.idx * 2 + fn) 0,
           msixCtl := Tab.put (fun _ => 0) s.msixCtl (d.idx * 2 + fn) 0 }

/-- FUNCTION_LEVEL_RESET: of one function, or of both by a link-down of the port (R159). -/
def execFunctionLevelReset (d : Die) (fn : Option (Fin 2)) (s : State) : Host.Outcome State Fault Refusal :=
  .next (match fn with
    | some f => s.functionReset d f.val
    | none => (s.functionReset d 0).functionReset d 1)

/-- PCIE_PERST: PERST_N acts as a link-down of the port (R560). -/
def execPciePerst (d : Die) (s : State) : Host.Outcome State Fault Refusal :=
  .next ((s.functionReset d 0).functionReset d 1)

/-- MSIX_UNMASK: the host clears a vector's mask, or writes MSI-X Enable and Function Mask (R180). -/
def execMsixUnmask (d : Die) (fn : Fin 2) (vec : Option (Fin 32)) (ctl : MsixCtl) (s : State) : Host.Outcome State Fault Refusal :=
  .next (match vec with
    | some v => s.msixWrite d fn.val (v.val * 16 + 12) 0
    | none =>
      let v := (if ctl.enable then 1 else 0) + if ctl.fmask then 2 else 0
      ({ s with msixCtl := Tab.put (fun _ => 0) s.msixCtl (d.idx * 2 + fn.val) v }).msixReleaseAll d fn.val 32)

/-- DOORBELL_REMOTE: bits held for a host receiver of a die are set there, while the link is up (R179). -/
def execDoorbellRemote (d : Die) (r : Fin 4) (s : State) : Host.Outcome State Fault Refusal :=
  .next (if !s.linkUp then s else
    let m := Tab.get (fun _ => (0 : Word)) s.dblRemote (rcvKey d r.val)
    ({ s with dblRemote := Tab.put (fun _ => 0) s.dblRemote (rcvKey d r.val) 0 }).dblSet d r.val m)

/-! ## The rows that are one write -/

/-- MAILBOX_GO: a write of MBX_GO (R174). -/
def execMailboxGo (who : Requester) (d : Die) (c : Fin 32) (v : Word) (s : State) : Host.Outcome State Fault Refusal :=
  .next (s.guardWrite who (R.MBX_GO d c.val) .w32 (effMbx who d (0x1080 + 0x100 * c.val) v))

/-- MBX_CLAIM: a write of CLAIM (R172). -/
def execMbxClaim (who : Requester) (d : Die) (c : Fin 32) (s : State) : Host.Outcome State Fault Refusal :=
  .next (s.guardWrite who (R.MBX_CH_CLAIM d c.val) .w32 (effMbx who d (0x1088 + 0x100 * c.val) 1))

/-- MBX_RELEASE: a write of RELEASE (R176). -/
def execMbxRelease (who : Requester) (d : Die) (c : Fin 32) (s : State) : Host.Outcome State Fault Refusal :=
  .next (s.guardWrite who (R.MBX_CH_CLAIM d c.val) .w32 (effMbx who d (0x1088 + 0x100 * c.val) 2))

/-- MBX_OUT_ACK: a write of ACK (R175). -/
def execMbxOutAck (who : Requester) (d : Die) (c : Fin 32) (s : State) : Host.Outcome State Fault Refusal :=
  .next (s.guardWrite who (R.MBX_OUT_ACK d c.val) .w32 (effMbx who d (0x108C + 0x100 * c.val) 1))

/-- H2_KEY_COMMIT: a write of COMMIT (R163). -/
def execH2KeyCommit (who : Requester) (d : Die) (s : State) : Host.Outcome State Fault Refusal :=
  .next (s.guardWrite who (R.MBX_H2KEY_CTRL d) .w32 (effMbx who d 0x60 1))

/-- DBL_SET_WRITE: a write of DBL_SET (R182). -/
def execDblSetWrite (who : Requester) (d : Die) (r : Fin 4) (v : Word) (s : State) : Host.Outcome State Fault Refusal :=
  .next (s.guardWrite who (R.DBL_SET d r.val) .w32 (effDbl who d (0x40 * r.val + 0xC) v))

end Sys2Proof.Machine
end

