-- ==== Sys2Proof/Machine/Mac.lean ====
section
/-! DEFINITION. The Ethernet ports and MACs (R227 to R247): reception with its filters, pause, link state, PHY management. -/

namespace Sys2Proof.Machine

/-! ## Reception -/

/-- Whether a MAC has link. -/
def State.macLink (s : State) (d : Die) (m : Nat) : Bool := s.flag (R.MAC_PORT_MODE d m) 8

/-- Hash index of a group address (R233). -/
def mcIndex (a : Nat) : Nat := (List.range 6).foldl (fun i k => i ^^^ ((a >>> (9 * k)) % 512)) 0

/-- Whether the destination of a frame that is no MAC control frame passes (R233, R234). -/
def State.daPass (s : State) (d : Die) (m : Nat) (bs : List Byte) : Bool :=
  let a := macAt bs 0
  let cfg := R.MAC_RX_CFG d m
  let i := mcIndex a
  if !isGroup bs then true
  else if a = 0xFFFFFFFFFFFF then !s.flag cfg 2
  else (beAt bs 0 6 / 16 = 0x0180C200000 && s.flag cfg 1) || s.flag cfg 0 || s.flag (R.MAC_MC_HASH d m (i / 32)) (i % 32)

/-- Octets received are counted in the wrapping pair (R247). -/
def State.rxOctets (s : State) (d : Die) (m n : Nat) : State :=
  s.setPair (R.MAC_RX_OCTETS_LO d m) (R.MAC_RX_OCTETS_HI d m)
    ((s.getPair (R.MAC_RX_OCTETS_LO d m) (R.MAC_RX_OCTETS_HI d m) + n) % 2 ^ 64)

/-- Sampling of a frame that passed the runt filter: every Nth leaves a record for the die's ring on TC 0 of the management port (R221). -/
def State.sample (s : State) (d : Die) (m : Nat) (bs : List Byte) (bad : Bool) (stamp : DevTime) : State :=
  let n := s.fld (R.SW_SMP d m) 0 16
  if n < 2 then s else
  let (c, k) := Tab.get (fun _ => (0, 0)) s.smp (swKey d m)
  if c + 1 < n then { s with smp := Tab.put (fun _ => (0, 0)) s.smp (swKey d m) (c + 1, k) }
  else
    let s := { s with smp := Tab.put (fun _ => (0, 0)) s.smp (swKey d m) (0, (k + 1) % 0x1_0000_0000) }
    let rec_ := leBytes 4 (m + (if bad then 0x100 else 0) + bs.length % 65536 * 0x1_0000) ++ wordBytes stamp.triple ++
      leBytes 4 (k + 1) ++ List.replicate 44 0 ++ (bs.take 128 ++ List.replicate (128 - bs.length) 0) ++ List.replicate 64 0
    s.enqueue d 16 { bytes := rec_, ingress := 16, sample := true }

/-- A pause frame received by a port: counted, and honoured where pause is enabled and the watchdog has not tripped; quanta 0 ends the pause
and the watchdog's hold, enabled or not (R235 to R237). -/
def State.pauseRx (s : State) (d : Die) (m quanta : Nat) : State :=
  let a := R.MAC_PAUSE_CFG d m
  let s := s.count (R.MAC_RX_PAUSE d m)
  if quanta = 0 then (s.setFlag a 3 false).setFlag a 2 false
  else if !s.flag a 0 ∨ s.flag a 2 then s
  else s.setFlag a 3 true

/-- The Solyopex tag of a frame at a tagged port, and the frame without it (R204). -/
def stagOf (ety : Nat) (bs : List Byte) : Option Stag × List Byte :=
  let o := etOff bs
  let b := byteAt bs (o + 2)
  if beAt bs o 2 = ety ∧ b / 16 = 1 then
    (some { seqv := b / 8 % 2 = 1, cm := b / 4 % 2 = 1, seq := beAt bs (o + 4) 2, flow := beAt bs (o + 6) 2 }, cutOut bs o 8)
  else (none, bs)

/-- Whether a frame of a length on the wire is longer than a port takes (R197). -/
def State.overMax (s : State) (d : Die) (m len : Nat) : Bool :=
  decide (len > s.fld (R.SW_PORT_MAXF d m) 0 14 + (if s.flag (R.SW_PORT_CFG d m) 12 then 8 else 0))

/-- A frame that passed the MAC is offered to the switch, which takes none on a port that is down; one cut off by the MAC has no FCS, all its
bytes are data (R197 to R199, R204, R222). -/
def State.offer (s : State) (d : Die) (m : Nat) (bs : List Byte) (jab bad stomped : Bool) (stamp : DevTime) : State :=
  if !s.portUp d m then s else
  let s := if stomped then s.count (R.SW_STOMP_RX d m) else s
  let body := if jab then bs else bs.take (bs.length - 4)
  let (tag, body) := if s.flag (R.SW_PORT_CFG d m) 12 then stagOf (s.fld (R.SW_STAG_ETYPE d) 0 16) body else (none, body)
  s.switchFrame d m { bytes := body, stag := tag, rate := s.portSpeed d m, stamp := stamp, stomped := stomped, ends := !bad && !stomped,
                      plink := (s.getReg (R.TB_PLINK d m)).toNat }
    (bad || stomped || s.overMax d m bs.length) bs.length

/-- A frame that the MAC does not pass on: counted as filtered, and by the port's check of its FCS (R199, R233, R235). -/
def State.filtered (s : State) (d : Die) (m : Nat) (bad stomped : Bool) : State :=
  let s := s.count (R.MAC_RX_FILTERED d m)
  if !s.portUp d m then s
  else if stomped then s.count (R.SW_STOMP_RX d m)
  else if bad then s.count (R.SW_BAD_RX d m)
  else s

/-- What a MAC counts of a frame of at least 64 bytes, and what it found: (bad, stomped) (R199, R232). -/
def State.macCheck (s : State) (d : Die) (m : Nat) (bs : List Byte) (jab pcsErr : Bool) : Bool × Bool × State :=
  let len := bs.length
  let s := if jab then s.count (R.MAC_RX_JABBER d m) else s
  let s := if pcsErr then s.count (R.MAC_RX_PCS_ERR d m) else s
  let good := fcs32 (bs.take (len - 4))
  let fcs := ofLe (bs.drop (len - 4))
  let ok := decide (fcs = good)
  let s := if !jab && !ok then s.count (R.MAC_RX_FCS_ERR d m) else s
  let stomped := !jab && !pcsErr && decide (fcs = good ^^^ 0xFFFFFFFF)
  (jab || pcsErr || (!ok && !stomped), stomped, s)

/-- A good frame that passed is counted by its address (R247). -/
def State.macPassed (s : State) (d : Die) (m : Nat) (bs : List Byte) : State :=
  if macAt bs 0 = 0xFFFFFFFFFFFF then s.count (R.MAC_RX_BCAST d m)
  else if isGroup bs then s.count (R.MAC_RX_MCAST d m)
  else s.count (R.MAC_RX_UCAST d m)

/-- A frame received by a MAC (R221, R231 to R235, R239). -/
def State.frameRx (s : State) (d : Die) (m : Nat) (bytes : List Byte) (pcsErr : Bool) (age : Nat) : State :=
  if !s.macLink d m || !s.portExists d m then s else
  let bs := bytes.take 9728
  let jab := decide (9728 ≤ bytes.length)
  let s := s.rxOctets d m bs.length
  if bs.length < 64 then s.count (R.MAC_RX_RUNT d m) else
  let (bad, stomped, s) := s.macCheck d m bs jab pcsErr
  let stamp := s.rxStamp d m age
  let s := if s.portUp d m then s.sample d m bs (bad || stomped || s.overMax d m bs.length) stamp else s
  if beAt bs 12 2 = 0x8808 then
    let mine := decide (beAt bs 0 6 = 0x0180C2000001) || decide (macAt bs 0 = s.macReg (R.MAC_ADDR_LO d m) (R.MAC_ADDR_HI d m))
    if !bad && !stomped && decide (beAt bs 14 2 = 1) && mine then s.pauseRx d m (beAt bs 16 2)
    else s.filtered d m bad stomped
  else if !s.daPass d m bs then s.filtered d m bad stomped
  else (if bad || stomped then s else s.macPassed d m bs).offer d m bs jab bad stomped stamp

/-- FRAME_RX: `bytes` runs from the destination address to the FCS, and `age` is how many nanoseconds ago its first bit passed the
stamping point (R231 to R235, R239). -/
def execFrameRx (d : Die) (m : Fin 14) (bytes : List Byte) (pcsErr : Bool) (age : Nat) (s : State) :
    Host.Outcome State Fault Refusal := .next (s.frameRx d m.val bytes pcsErr age)

/-! ## Pause (R235 to R238) -/

/-- PAUSE_FRAME_RX: a pause frame of 64 bytes arrives (R235, R236). -/
def execPauseFrameRx (d : Die) (m : Fin 14) (quanta : Nat) (s : State) : Host.Outcome State Fault Refusal :=
  .next (if !s.macLink d m.val || !s.portExists d m.val then s else (s.rxOctets d m.val 64).pauseRx d m.val (quanta % 65536))

/-- PAUSE_EXPIRE: the pause time has passed (R236). -/
def execPauseExpire (d : Die) (m : Fin 14) (s : State) : Host.Outcome State Fault Refusal :=
  .next (s.setFlag (R.MAC_PAUSE_CFG d m.val) 3 false)

/-- PAUSE_WATCHDOG_TRIP: the port has been paused for MAC_PAUSE_WD ms without interruption (R237). -/
def execPauseWatchdogTrip (d : Die) (m : Fin 14) (s : State) : Host.Outcome State Fault Refusal :=
  let a := R.MAC_PAUSE_CFG d m.val
  let cls := if m.val < 12 then 4 else 5
  .next (if !s.flag a 3 then s else
    (((s.setFlag a 3 false).setFlag a 2 true).count (R.MAC_PAUSE_WD_CNT d m.val)).logUnit d 0x403 2 cls (m.val % 12) m.val)

/-- PAUSE_WATCHDOG_CLEAR: MAC_PAUSE_WD ms have passed with no pause frame (R237). -/
def execPauseWatchdogClear (d : Die) (m : Fin 14) (s : State) : Host.Outcome State Fault Refusal :=
  .next (s.setFlag (R.MAC_PAUSE_CFG d m.val) 2 false)

/-- PAUSE_REFRESH: half the last quanta time has passed; another pause frame goes out while free lines stay below XON (R238). -/
def execPauseRefresh (d : Die) (m : Fin 14) (s : State) : Host.Outcome State Fault Refusal :=
  let s := s.pauseCheck d
  .next (if s.flag (R.MAC_PAUSE_CFG d m.val) 1 && s.portUp d m.val && Tab.get (fun _ => false) s.pausing d.idx then s.sendPause d m.val 0xFFFF else s)

/-- Whether a port is an egress of a placed flow (R236). -/
def State.flowEgress (s : State) (d : Die) (m : Nat) : Bool :=
  s.heldIntents.any fun i => i.isFlow && i.placements.any fun p => decide (2 ≤ p.st) && decide (p.st ≤ 6) && p.hops.contains (d.idx, m)

/-- Effect of a write of MAC_PAUSE_CFG (R236, R238). -/
def effPauseCfg (d : Die) (m : Nat) (v : Word) (s : State) : Eff :=
  let a := R.MAC_PAUSE_CFG d m
  if bit v 0 && s.flowEgress d m then .error causeRULE
  else if bit v 1 && decide (s.macReg (R.MAC_ADDR_LO d m) (R.MAC_ADDR_HI d m) = 0) then .error causeRULE
  else
    let first := bit v 1 && !s.flag a 1 && Tab.get (fun _ => false) s.pausing d.idx
    let s := s.setFld a 0 2 (bits v 0 2)
    let s := if bit v 0 then s else s.setFlag a 3 false
    .ok (if first && s.portUp d m then s.sendPause d m 0xFFFF else s)

/-- Effect of a write of MAC_PAUSE_XOFF or MAC_PAUSE_XON: XON stays above XOFF (R238). -/
def effPauseLines (d : Die) (xon : Bool) (v : Word) (s : State) : Eff :=
  let x := if xon then bits v 0 18 else s.fld (R.MAC_PAUSE_XON d) 0 18
  let y := if xon then s.fld (R.MAC_PAUSE_XOFF d) 0 18 else bits v 0 18
  if x ≤ y then .error causeRULE
  else .ok ((s.setFld (if xon then R.MAC_PAUSE_XON d else R.MAC_PAUSE_XOFF d) 0 18 (bits v 0 18)).pauseCheck d)

/-! ## Link state (R228, R244, R245) -/

/-- SYNC of a field lane: one of its ports has link, which no port of a lane that is not aligned has; no event of the table tells of an aligned
lane without one (R244, R247; log entry 70). -/
def State.showLane (s : State) (d : Die) (m : Nat) : State :=
  if 12 ≤ m then s else s.setFlag (R.MAC_LANE d (m / 4)) 8 ((List.range 4).any fun k => s.macLink d (m / 4 * 4 + k))

/-- What every change of a link does besides: its event with doorbell PORT, and the log (R245). -/
def State.linkChange (s : State) (d : Die) (m code : Nat) : State :=
  ((s.showLane d m).event d (R.MAC_LINK_EVENT d) m dblPORT).logUnit d code 1 (if m < 12 then 4 else 5) (m % 12) m

/-- Remote-fault sequences of an uplink, sent while its own receive side is down (R227, R244; log entry 70). -/
def State.remoteFault (s : State) (d : Die) (m : Nat) (on : Bool) : State := if 12 ≤ m then s.emit (.remoteFault d m on) else s

/-- A port with link loses it: the switch flushes it and the planner sees the port down (R222, R245). -/
def State.macDown (s : State) (d : Die) (m : Nat) : State :=
  let a := R.MAC_PORT_MODE d m
  if !s.macLink d m then s else
  let s := ((s.setFlag a 8 false).setFld a 4 3 7).setFlag (R.MAC_LINK_STAT d) m false
  let s := (s.setFlag (R.MAC_PAUSE_CFG d m) 3 false).setFlag (R.SW_PORT_CFG d m) 30 false
  let s := (((s.count (R.MAC_LINK_DOWN d m)).linkChange d m 0x402).remoteFault d m true).portFlush d m
  s.plan d (.portDown m)

/-- MAC_LINK_UP: the link-up condition has held for 1 ms; `speed` and `half` are what the PHY reports (R228, R229, R244, R245).  Ports take their modes
at start-up's step of R486 and are down in P3 and P4 (R491, R497). -/
def execMacLinkUp (d : Die) (m : Fin 14) (speed : Fin 7) (half : Bool) (s : State) : Host.Outcome State Fault Refusal :=
  let m := m.val
  let a := R.MAC_PORT_MODE d m
  let mode := s.fld a 0 3
  let asked : Bool := if m < 12 then true else decide (mode = 3)
  let rate := if asked then speed.val else s.portTop d m
  let fits : Bool := if m < 12 then decide (speed.val ≤ 2) && (decide (mode = 0) || decide (speed.val = mode - 1)) else decide (rate ≤ 5) || !asked
  .next (if s.macLink d m || !s.portExists d m || decide ((s.bootOf d).stage < 5) || decide (3 ≤ s.powerEff d) then s
    else if asked && (half || !fits) then s.setFlag a 10 true
    else
      let s := (((s.setFlag a 10 false).setFlag a 8 true).setFld a 4 3 rate).setFlag a 11 (decide (12 ≤ m ∧ mode = 2))
      let s := (((s.setFlag (R.MAC_LINK_STAT d) m true).setFlag (R.SW_PORT_CFG d m) 30 true).linkChange d m 0x401).remoteFault d m false
      let s := s.pgShow d
      if max (s.fld (R.PLC_SWTX d m) 0 17) (s.fld (R.PLC_SWRX d m) 0 17) > speedMbps rate then s.plan d (.portDown m) else s)

/-- MAC_LINK_LOSS (R244, R245). -/
def execMacLinkLoss (d : Die) (m : Fin 14) (s : State) : Host.Outcome State Fault Refusal := .next (s.macDown d m.val)

/-! ## PHY management (R246) -/

/-- Effect of a write of MAC_MDIO. -/
def effMdio (d : Die) (v : Word) (s : State) : Eff :=
  let a := R.MAC_MDIO d
  if s.flag a 31 then .error causeRULE
  else
    let s := s.setReg a (v &&& 0x3FFEFFFF)
    .ok (if bit v 30 then (s.setFlag a 31 true).emit (.mdio d (v &&& 0x3FFEFFFF)) else s)

/-- MDIO_GO: a write of MAC_MDIO with GO = 1. -/
def execMdioGo (who : Requester) (d : Die) (v : Word) (s : State) : Host.Outcome State Fault Refusal :=
  .next (s.guardWrite who (R.MAC_MDIO d) .w32 (effMdio d (v ||| 0x40000000)))

/-- MDIO_DONE: the transaction ends; a read's result stands in DATA. -/
def execMdioDone (d : Die) (data : Word) (s : State) : Host.Outcome State Fault Refusal :=
  let a := R.MAC_MDIO d
  let op := s.fld a 27 2
  let rd := if s.flag a 29 then decide (2 ≤ op) else decide (op = 2)
  .next (if !s.flag a 31 then s else (if rd then s.setFld a 0 16 (bits data 0 16) else s).setFlag a 31 false)

end Sys2Proof.Machine
end

