-- ==== Sys2Proof/Machine/Ring.lean ====
section
/-! DEFINITION. The through-frame ring (R248 to R288): schedule records, the cycle frame's way through a Skim unit and back to the
master, claims, membership, fencing, time and failover. -/

namespace Sys2Proof.Machine

/-! ## Fractions -/

/-- A fraction in lowest terms. -/
def Frac.mk' (n : Int) (d : Nat) : Frac :=
  let g := Nat.gcd n.natAbs d
  if d = 0 ∨ g = 0 then {} else { num := n / (g : Int), den := d / g }

def Frac.ofInt (n : Int) : Frac := { num := n, den := 1 }
def Frac.add (a b : Frac) : Frac := Frac.mk' (a.num * b.den + b.num * a.den) (a.den * b.den)
def Frac.neg (a : Frac) : Frac := { a with num := -a.num }
def Frac.sub (a b : Frac) : Frac := a.add b.neg
/-- A fraction times an integer over a natural number. -/
def Frac.scale (a : Frac) (n : Int) (d : Nat) : Frac := Frac.mk' (a.num * n) (a.den * d)
def Frac.mul (a b : Frac) : Frac := Frac.mk' (a.num * b.num) (a.den * b.den)
/-- Quotient; 0 for a divisor that is not positive. -/
def Frac.div (a b : Frac) : Frac := if b.num ≤ 0 then {} else Frac.mk' (a.num * b.den) (a.den * b.num.toNat)
def Frac.le (a b : Frac) : Bool := decide (a.num * b.den ≤ b.num * a.den)
/-- A fraction held between two integers. -/
def Frac.clamp (lo hi : Int) (a : Frac) : Frac :=
  if a.num < lo * a.den then .ofInt lo else if a.num > hi * a.den then .ofInt hi else a
/-- A whole number next to a fraction, the fraction itself where it is one (the rounding is open: log entry 12). -/
def Frac.round (a : Frac) : Int :=
  let q := a.num / (a.den : Int)
  if a.den = 1 then q else if Config.roundUp a.num a.den then q + 1 else q

/-! ## The record (R265) and the ring pair -/

/-- A die's ring pair. -/
def State.ringOf (s : State) (d : Die) : Ring := Tab.get (fun _ => {}) s.ring d.idx

/-- The state with a die's ring pair replaced. -/
def State.setRing (s : State) (d : Die) (x : Ring) : State := { s with ring := Tab.put (fun _ => {}) s.ring d.idx x }

/-- Fields of a record. -/
def rcW (r : List Word) (i : Nat) : Word := r.getD i 0
def rcRole (r : List Word) : Nat := bits (rcW r 0) 28 3
def rcLate (r : List Word) : Bool := bit (rcW r 0) 31
def rcTopo (r : List Word) : Nat := bits (rcW r 1) 0 2
def rcNseg (r : List Word) : Nat := bits (rcW r 1) 4 4 + 1
def rcVer (r : List Word) : Nat := bits (rcW r 1) 16 16
def rcCycle (r : List Word) : Nat := (rcW r 2).toNat
def rcGmac (r : List Word) : Nat := (rcW r 4).toNat + bits (rcW r 5) 0 16 * 0x1_0000_0000
def rcWins (r : List Word) : Nat := bits (rcW r 12) 0 7
def rcSpares (r : List Word) : Nat := bits (rcW r 12) 8 8
def rcPres (r : List Word) : Nat := bits (rcW r 13) 0 13
/-- DLEN and WKC_EXP of a segment. -/
def rcSeg (r : List Word) (i : Nat) : Word := rcW r (14 + i)
/-- Word `i` of window `w`. -/
def rcWin (r : List Word) (w i : Nat) : Word := rcW r (14 + rcNseg r + 4 * w + i)
/-- Address of spare entry `k`. -/
def rcSpare (r : List Word) (k : Nat) : Nat := bits (rcW r (14 + rcNseg r + 4 * rcWins r + k)) 0 12
/-- Presence entry `k`. -/
def rcPresence (r : List Word) (k : Nat) : Word := rcW r (14 + rcNseg r + 4 * rcWins r + rcSpares r + k)
/-- Whether the record uses the time block. -/
def rcTime (r : List Word) : Bool := bit (rcW r 1) 8

/-- Internal address of a window's buffer. -/
def winBuf (r : List Word) (w : Nat) : Nat := (rcWin r w 2).toNat + bits (rcWin r w 3) 0 8 * 0x1_0000_0000
/-- Whether a window is tagged; an output window; its segment, offset and length. -/
def winTag (r : List Word) (w : Nat) : Bool := bit (rcWin r w 0) 5
def winOut (r : List Word) (w : Nat) : Bool := bit (rcWin r w 0) 4
def winSeg (r : List Word) (w : Nat) : Nat := bits (rcWin r w 0) 0 4
def winOff (r : List Word) (w : Nat) : Nat := bits (rcWin r w 1) 0 14
def ringWinLen (r : List Word) (w : Nat) : Nat := bits (rcWin r w 1) 16 14

/-- MAC of a ring pair's up or down port. -/
def Ring.mac (x : Ring) (up : Bool) : Nat := 12 + (if up then 1 - x.dn else x.dn)

/-- The crossbar port of a Skim unit (R28). -/
def Ring.port (x : Ring) (up : Bool) : Nat := 8 + (if up then 1 - x.dn else x.dn)

/-- A ring event: its bit in TFR_EVENT with doorbell RING (R179, R288). -/
def State.ringEvent (s : State) (d : Die) (i : Nat) : State := s.event d (R.TFR_EVENT d) i dblRING

/-- Own ring address and epoch. -/
def State.ringAddr (s : State) (d : Die) : Nat := s.fld (R.TFR_STAT d) 20 12
def State.ringEpoch (s : State) (d : Die) : Nat := s.fld (R.TFR_EPOCH d) 0 16

/-- Whether the die's ring pair is fenced (R281). -/
def State.fenced (s : State) (d : Die) : Bool := decide (s.fld (R.TFR_STAT d) 11 2 ≠ 0)

/-- Acting master. -/
def State.acting (s : State) (d : Die) : Bool := s.flag (R.TFR_STAT d) 7

/-- The device is fenced with a cause; a new fence raises FENCE and is logged (R281, R522). -/
def State.ringFence (s : State) (d : Die) (cause : Nat) : State :=
  let was := s.fenced d
  let s := s.setFld (R.TFR_STAT d) 11 2 cause
  let s := s.setRing d { s.ringOf d with unfence := none }
  if was then s else (s.ringEvent d 3).logEv d 0xA01 2 0 (s.ringAddr d) (s.ringEpoch d)

/-- Membership of an address: state and epoch; unlisted addresses are members with epoch 1 (R278). -/
def Ring.member (x : Ring) (a : Nat) : Nat × Nat := Tab.get (fun _ => (1, 1)) x.mem a
def Ring.setMember (x : Ring) (a st ep : Nat) : Ring := { x with mem := Tab.put (fun _ => (1, 1)) x.mem a (st, ep) }

/-- TFR_DEAD of an address, kept by master and standby (R280, R288). -/
def State.showDead (s : State) (d : Die) (a : Nat) (dead : Bool) : State :=
  let role := s.fld (R.TFR_STAT d) 16 4
  if role = 1 ∨ role = 2 then s.setFlag (R.TFR_DEAD d (a / 32 % 128)) (a % 32) dead else s

/-! ## A record becoming current (R267, R278) -/

/-- The registers that show a record (R288). -/
def State.showRecord (s : State) (d : Die) (r : List Word) : State :=
  let s := (s.setFld (R.TFR_STAT d) 16 4 (rcRole r)).setFld (R.TFR_STAT d) 14 2 (rcTopo r)
  let s := if rcLate r then s else s.setFld (R.TFR_STAT d) 20 12 (bits (rcW r 0) 16 12)
  let s := s.setReg (R.TFR_RING d) (wd (rcVer r * 0x1_0000 + bits (rcW r 0) 0 16))
  let s := s.setReg (R.TFR_CYCLE_NS d) (rcW r 2)
  let w6 := rcW r 6
  let s := s.setReg (R.TFR_SYNC_CFG d) (setBits (setBits w6 23 1 (if rcTime r then 1 else 0)) 28 4 (bits w6 28 4))
  let s := s.setReg (R.TFR_STEP_NS d) (rcW r 7)
  let s := s.setReg (R.TFR_LIMITS d) (wd (bits (rcW r 8) 0 24))
  let s := s.setReg (R.TFR_GUARD d) (rcW r 9)
  (s.setFld (R.TFR_WKC d) 16 16 (bits (rcSeg r 0) 16 16)).setFlag (R.TFR_STAT d) 6 (rcTime r && !bit w6 22)

/-- Spare addresses of a record that the table does not list start free (R278). -/
def Ring.freeSpares (x : Ring) (r : List Word) : Nat → Ring
  | 0 => x
  | n + 1 =>
    let a := rcSpare r n
    (if x.mem.any fun e => e.1 = a then x else x.setMember a 3 0).freeSpares r n

/-- The pending record becomes current: the first one gives a design-time member epoch 1, and a late-comer waits for its admission
(R267, R269, R278); the steering source is chosen anew (R293). -/
def State.ringCurrent (s : State) (d : Die) : State :=
  let x := s.ringOf d
  let r := x.pend
  let s := s.setRing d { (x.freeSpares r (rcSpares r)) with cur := r, pend := [], pre := [], dn := x.pendDn }
  let s := ((s.showRecord d r).setFlag (R.TFR_STAT d) 13 true).setFlag (R.TFR_STAT d) 5 false
  let s := if s.ringEpoch d ≠ 0 then s
    else if rcLate r then s.setFld (R.TFR_STAT d) 11 2 3
    else s.setFld (R.TFR_EPOCH d) 0 16 1
  let s := if rcRole r = 1 then
      let s := s.setFlag (R.TFR_STAT d) 7 true
      if s.fld (R.TFR_EPOCH d) 16 16 = 0 then s.setFld (R.TFR_EPOCH d) 16 16 1 else s
    else if rcRole r = 2 then s
    else s.setFlag (R.TFR_STAT d) 7 false
  let s := (s.ringEvent d 0).cfgTouch
  (s.chooseSource .d0).chooseSource .d1

/-! ## Sending on an uplink -/

/-- Whether the two uplinks of a pair run in mode 5, or both in mode 6 (R248). -/
def State.pairMode (s : State) (d : Die) : Option Nat :=
  let a := s.fld (R.MAC_PORT_MODE d 12) 0 3
  if a = s.fld (R.MAC_PORT_MODE d 13) 0 3 ∧ (a = 1 ∨ a = 2) then some (4 + a) else none

/-- A cycle frame leaves by an uplink that has link, of a pair whose modes carry a ring: the MAC counts it, and a guard hold ends when it
has passed (R248, R261, R263). -/
def State.ringSend (s : State) (d : Die) (up : Bool) (bytes : List Byte) (bad : Bool) : State :=
  let x := s.ringOf d
  let m := x.mac up
  if !s.macLink d m ∨ s.pairMode d = none then s else
  let s := s.emit (.ring d up bytes)
  let s := s.setPair (R.MAC_TX_OCTETS_LO d m) (R.MAC_TX_OCTETS_HI d m)
    ((s.getPair (R.MAC_TX_OCTETS_LO d m) (R.MAC_TX_OCTETS_HI d m) + bytes.length) % 2 ^ 64)
  let s := if bad then s.count (R.TFR_CNT_STOMP_TX d) else s.count (R.MAC_TX_MCAST d m)
  { s with ringHold := Tab.put (fun _ => false) s.ringHold (d.idx * 2 + (m - 12)) false }

/-! ## Fields of a cycle frame (R252 to R254) -/

/-- Bytes of a frame replaced from an offset. -/
def putBytes (bs : List Byte) (i : Nat) (x : List Byte) : List Byte := bs.take i ++ x ++ bs.drop (i + x.length)

/-- A header field of a cycle frame. -/
def tfp (bs : List Byte) (off n : Nat) : Nat := beAt bs (18 + off) n
def tfpFlag (bs : List Byte) (i : Nat) : Bool := (tfp bs 3 1).testBit i
/-- Segment number; start of the data area. -/
def tfpSeg (bs : List Byte) : Nat := tfp bs 2 1 % 16
def tfpData (bs : List Byte) : Nat := if tfpSeg bs = 0 ∧ tfpFlag bs 5 then 314 else 58

/-- A header field replaced. -/
def putTfp (bs : List Byte) (off n v : Nat) : List Byte := putBytes bs (18 + off) (beBytes n v)

/-- Whether a frame is a cycle frame of a record (R251). -/
def isCycle (r : List Word) (bs : List Byte) : Bool :=
  decide (r ≠ []) && decide (64 ≤ bs.length) && decide (macAt bs 0 = rcGmac r) && decide (beAt bs 12 2 = 0x88B5) &&
  decide (beAt bs 14 2 = 0x0103) && decide (tfp bs 0 2 = bits (rcW r 0) 0 16)

/-! ## Windows (R257 to R260, R283) -/

/-- Half `h` of an input window's buffer begins at this internal address. -/
def winHalf (r : List Word) (w h : Nat) : Nat := winBuf r w + h * ((16 + ringWinLen r w + 63) / 64 * 64)

/-- A window failed: its bit in TFR_WIN_ERR (R257, R259). -/
def State.winErr (s : State) (d : Die) (w : Nat) : State :=
  if w < 32 then s.setFlag (R.TFR_WIN_ERR_LO d) w true else s.setFlag (R.TFR_WIN_ERR_HI d) (w - 32) true

/-- An output window inserted into a frame where R257 lets it: the frame and whether it was. -/
def State.insertWin (s : State) (d : Die) (r : List Word) (w : Nat) (bs : List Byte) : (List Byte × Bool) × State :=
  let o := tfpData bs + winOff r w
  let pre := (s.ringOf d).pre.find? fun p => p.1 = w
  let tagOk := !winTag r w || decide (beAt bs o 4 = 0)
  match pre with
  | some (_, data) =>
    if !s.fenced d && tagOk && decide (o + ringWinLen r w + 4 ≤ bs.length) then
      let tag := beBytes 2 (s.ringAddr d) ++ beBytes 2 (s.ringEpoch d)
      let x := data.take (ringWinLen r w)
      ((putBytes bs o (if winTag r w then putBytes x 0 tag else x), true), s)
    else ((bs, false), (s.count (R.TFR_CNT_NOINSERT d)).winErr d w)
  | none => ((bs, false), (s.count (R.TFR_CNT_NOINSERT d)).winErr d w)

/-- A pool write of a Skim unit on its own die; whether it was performed. -/
def State.skimWrite (s : State) (d : Die) (port a : Nat) (bs : List Byte) : Bool × State :=
  match s.poolWriteSpan d port (a % 0x80_0000_0000) (bs.map some) (lineCount (a % 0x80_0000_0000) bs.length) with
  | (.ok _, t) => (true, t)
  | (.error _, t) => (false, t)

/-- An input window captured from a frame as received: header with VALID = 0, data in whole words, and after a good FCS the header with
VALID = 1; the half published last changes then (R259, R283).  Whether a capture took place. -/
def State.captureWin (s : State) (d : Die) (r : List Word) (w port : Nat) (bs : List Byte) (good : Bool) : Bool × State :=
  let o := tfpData bs + winOff r w
  if o + ringWinLen r w + 4 > bs.length then (false, s.winErr d w) else
  let x := s.ringOf d
  let h := if x.pub.testBit w then 0 else 1
  let a := winHalf r w h
  let taddr := beAt bs o 2 % 4096
  let tep := beAt bs (o + 2) 2
  let stale := winTag r w && (decide (beAt bs o 4 = 0) || decide (x.member taddr ≠ (1, tep)))
  let hd (v : Bool) : List Byte := leBytes 4 (tfp bs 4 4) ++ leBytes 2 (if winTag r w then tep else 0) ++
    leBytes 2 (s.hunit d 5 (port - 8)).epoch ++ leBytes 4 ((if v then 1 else 0) + (if stale then 2 else 0)) ++ leBytes 4 0
  let (ok1, s) := s.skimWrite d port a (hd false)
  let data := s.wordPad ((bs.drop o).take (ringWinLen r w))
  let (ok2, s) := ({ s with fresh := s.fresh + 2 } : State).skimWrite d port (a + 16) data
  if !(ok1 && ok2) then (false, s.winErr d w)
  else if !good then (true, s)
  else
    let (_, s) := s.skimWrite d port a (hd true)
    let s := if stale then s.count (R.TFR_CNT_STALE d) else s
    let y := s.ringOf d
    (true, s.setRing d { y with pub := y.pub ^^^ 2 ^ w })

/-- Every window of a segment of a record, `n` left: what is inserted goes into `bs`, what is captured comes from `rx`.  The frame,
and whether any window was inserted or captured. -/
def State.windows (s : State) (d : Die) (r : List Word) (port : Nat) (rx : List Byte) (good ins cap : Bool) :
    Nat → List Byte → Bool → (List Byte × Bool) × State
  | 0, bs, any => ((bs, any), s)
  | n + 1, bs, any =>
    let w := rcWins r - (n + 1)
    if winSeg r w ≠ tfpSeg rx then s.windows d r port rx good ins cap n bs any
    else if winOut r w then
      if !ins then s.windows d r port rx good ins cap n bs any
      else
        let ((bs, k), s) := s.insertWin d r w bs
        s.windows d r port rx good ins cap n bs (any || k)
    else if !cap || s.fenced d then s.windows d r port rx good ins cap n bs any
    else
      let (k, s) := s.captureWin d r w port rx good
      s.windows d r port rx good ins cap n bs (any || k)

/-- Prefetched windows of a segment dropped once it has passed. -/
def State.dropPre (s : State) (d : Die) (r : List Word) (seg : Nat) : State :=
  let x := s.ringOf d
  s.setRing d { x with pre := x.pre.filter fun p => winSeg r p.1 ≠ seg }

/-! ## Time entries (R272) -/

/-- The time block after a pass: own entry written where `own`, the delay of this pass added to every other valid entry; `n`
entries are left. -/
def timeBlock (own : Option Nat) (entry : List Byte) (add : Nat) (mine : Option Nat) : Nat → List Byte → List Byte
  | 0, bs => bs
  | n + 1, bs =>
    let e := 16 - (n + 1)
    let o := 58 + 16 * e
    let bs := if own = some e then putBytes bs o entry
      else if mine = some e then bs
      else if beAt bs o 1 ≥ 128 then putBytes bs (o + 12) (beBytes 4 ((beAt bs (o + 12) 4 + add) % 2 ^ 32))
      else bs
    timeBlock own entry add mine n bs

/-- Own time entry with stamp `t` (R254). -/
def State.timeEntry (s : State) (d : Die) (t : DevTime) : List Byte :=
  beBytes 2 (0x8000 + s.ringAddr d) ++ beBytes 2 (s.ringEpoch d) ++ beBytes 4 (t.sec % 2 ^ 32) ++ beBytes 4 t.ns ++ beBytes 4 0

/-- The entry the device writes, if it is a reference node. -/
def refEntry (r : List Word) : Option Nat := if bit (rcW r 6) 20 then some (bits (rcW r 6) 16 4) else none

/-! ## Synchronisation (R273, R274) -/

/-- Deviations of the usable entries, in 1/256 ns, with their entry numbers; `n` entries are left. -/
def State.devs (s : State) (d : Die) (r : List Word) (bs : List Byte) (stamp : DevTime) (din : Nat) : Nat → List (Nat × Int)
  | 0 => []
  | n + 1 =>
    let e := 16 - (n + 1)
    let o := 58 + 16 * e
    let x := s.ringOf d
    let ok := bit (rcW r 6) e && decide (refEntry r ≠ some e) && decide (beAt bs o 1 ≥ 128) &&
      decide ((x.member (beAt bs o 2 % 4096)).2 = beAt bs (o + 2) 2)
    let sec := signed 32 ((stamp.sec + 2 ^ 32 - beAt bs (o + 4) 4 % 2 ^ 32) % 2 ^ 32)
    let ns : Int := (stamp.ns : Int) - (beAt bs (o + 8) 4 % 2 ^ 30 : Nat)
    let dev := (sec * 1_000_000_000 + ns) * 256 + (stamp.frac / 0x100_0000 : Nat) - (beAt bs (o + 12) 4 : Nat) - (din * 16 : Nat)
    if ok then (e, dev) :: s.devs d r bs stamp din n else s.devs d r bs stamp din n

/-- Insertion into an ascending list of deviations. -/
def insDev (x : Nat × Int) : List (Nat × Int) → List (Nat × Int)
  | [] => [x]
  | y :: t => if x.2 ≤ y.2 then x :: y :: t else y :: insDev x t

/-- Deviations in ascending order. -/
def sortDevs (l : List (Nat × Int)) : List (Nat × Int) := l.foldr insDev []

/-- The discard runs of the entries: the discarded ones count, the used ones start anew (R274). -/
def State.refRuns (s : State) (d : Die) (out kept : List Nat) : State :=
  let s := out.foldl (fun s e => s.countFld (R.TFR_REF_OUT d e) 0 16 1) s
  kept.foldl (fun s e => s.setFld (R.TFR_REF_OUT d e) 0 16 0) s

/-- The die whose time base the ring pair of a die steers: Die 0's while the link is up, unless the source is another or Die 0's own pair
synchronises too (R274, R275, R293; log entry 97). -/
def State.ringSteers (s : State) (d : Die) : Option Die :=
  let t := if s.linkUp then Die.d0 else d
  if !s.flag (R.TFR_STAT d) 6 ∨ s.fld (R.TB_STAT t) 0 3 ≠ 1 ∨ (t ≠ d ∧ s.flag (R.TFR_STAT t) 6) then none else some t

/-- Rate and slew handed to the time base that the ring steers: the rate, and as the remaining slew what the slew rate gains in a cycle, in
place of what remained (R274, R275, R295). -/
def State.ringSteer (s : State) (d : Die) : State :=
  let x := s.ringOf d
  match s.ringSteers d with
  | none => s
  | some t =>
    let rem := (x.slew.scale ((rcCycle x.cur * oneNs : Nat) : Int) 1_000_000_000).round
    ((s.setReg (R.TB_RATE t) (wdInt x.rate.round)).setSlew t rem).endHoldover t

/-- Device time stepped by minus a deviation, by the ring that steers it (R274, R275). -/
def State.ringStep (s : State) (d : Die) (off : Frac) : State :=
  match s.ringSteers d with
  | none => s
  | some t =>
    let k := (off.scale 0x1_0000_0000 1).round
    let s := s.stepTime t (timeOfFrac ((s.now t).total + (s.nextInc t).1 - k) 0)
    ((s.count (R.TFR_CNT_STEP d)).ringEvent d 2).logEv d 0xA04 1 0 (s.ringAddr d) (s.ringEpoch d)

/-- sync(devs, dt) of R274 but for the rate, which RATE_WINDOW_UPDATE corrects when its window is full; without a usable reference the device
free-runs (R277). -/
def State.ringSync (s : State) (d : Die) (r : List Word) (l : List (Nat × Int)) : State :=
  let n := l.length
  let k := if bit (rcW r 6) 21 then 2 else 1
  let x := s.ringOf d
  if n = 0 then
    let s := ((s.setRing d { x with slew := {} }).count (R.TFR_CNT_MISS d)).setFlag (R.TFR_STAT d) 8 true
    ((s.setFld (R.TFR_NREF d) 0 5 0).setFld (R.TFR_NREF d) 8 5 0).ringSteer d
  else
    let l := sortDevs l
    let used := if n ≥ 2 * k + 1 then (l.drop k).take (n - 2 * k) else (l.drop ((n - 1) / 2)).take 1
    let few := decide (n < 2 * k + 1)
    let s := (s.setFld (R.TFR_NREF d) 0 5 n).setFld (R.TFR_NREF d) 8 5 used.length
    let s := if few then (if s.flag (R.TFR_STAT d) 9 then s else s.ringEvent d 12).count (R.TFR_CNT_FEW d) else s
    let s := (s.setFlag (R.TFR_STAT d) 9 few).setFlag (R.TFR_STAT d) 8 false
    let s := if few then s else s.refRuns d ((l.take k ++ l.drop (n - k)).map Prod.fst) (used.map Prod.fst)
    let off := Frac.mk' ((used.map Prod.snd).sum) (256 * used.length)
    let s := s.setReg (R.TFR_OFFSET d) (wdInt (off.scale 16 1).round)
    let big := decide (off.num.natAbs > (rcW r 7).toNat * off.den)
    if big then
      let s := s.setRing d { x with off := off, slew := {}, winNs := {}, slewNs := {}, winNew := true }
      (s.ringStep d off).ringSteer d
    else
      let dt := rcCycle r
      let offWin := if x.winNew then off else x.offWin
      let slew := (off.neg.scale 1_000_000_000 (dt * 2 ^ bits (rcW r 6) 28 4)).clamp (-10000) 10000
      let s := s.setRing d { x with off := off, offWin := offWin, winNew := false, winNs := x.winNs.add (.ofInt dt),
                                    slewNs := x.slewNs.add (x.slew.scale dt 1_000_000_000), slew := slew }
      s.ringSteer d

/-! ## Announcements and claims (R269, R279 to R282) -/

/-- The device's own fencing ends with the cycle in which it was announced: it takes part from the next one on (R269, R282). -/
def State.resumeAt (s : State) (d : Die) (cycle : Nat) : State := s.setRing d { s.ringOf d with unfence := some cycle }

/-- An admission or resumption of this device noted (R288, R522). -/
def State.ringAdmitted (s : State) (d : Die) : State := (s.cfgTouch.ringEvent d 4).logEv d 0xA03 1 0 (s.ringAddr d) (s.ringEpoch d)

/-- The announcement of a good segment 0 taken into the table, and what it says of the device itself (R279, R281, R282). -/
def State.announced (s : State) (d : Die) (bs : List Byte) : State :=
  let op := tfp bs 24 1
  let a := tfp bs 26 2 % 4096
  let ep := tfp bs 28 2
  let uid := tfp bs 32 4
  let mine := (s.getReg (R.TFR_UID d)).toNat
  if op = 0 ∨ op > 3 then s else
  let s := (s.setRing d ((s.ringOf d).setMember a op ep)).showDead d a (decide (op = 2))
  let cl := R.TFR_CLAIM d
  if s.flag cl 31 ∧ a = s.fld cl 0 12 ∧ op = 1 ∧ uid = mine ∧ s.fld (R.TFR_STAT d) 11 2 = 3 then
    let s := (s.setFld (R.TFR_STAT d) 20 12 a).setFld (R.TFR_EPOCH d) 0 16 ep
    ((s.resumeAt d (tfp bs 4 4)).ringAdmitted d)
  else if a ≠ s.ringAddr d ∨ s.fld (R.TFR_STAT d) 11 2 = 3 then s
  else if op = 2 then (if s.fld (R.TFR_STAT d) 11 2 = 1 then s else s.ringFence d 1)
  else if op = 1 then
    if uid = mine then
      if s.fenced d then ((s.setFld (R.TFR_EPOCH d) 0 16 ep).resumeAt d (tfp bs 4 4)).ringAdmitted d
      else if ep ≠ s.ringEpoch d then s.ringFence d 1
      else s
    else if uid ≠ 0 ∨ ep ≠ s.ringEpoch d then s.ringFence d 1
    else if s.fenced d then (s.resumeAt d (tfp bs 4 4)).ringAdmitted d
    else s
  else s

/-- The claim fields as a member leaves them on its processing pass, and what it takes from them (R269, R270, R282). -/
def State.claimPass (s : State) (d : Die) (bs : List Byte) : List Byte × State :=
  let st := tfp bs 16 1
  let cl := R.TFR_CLAIM d
  let busy := s.flag cl 31
  let mine := (s.getReg (R.TFR_UID d)).toNat
  let own := decide (tfp bs 20 4 = mine)
  let f := s.fld (R.TFR_STAT d) 11 2
  let write (state spare a : Nat) : List Byte :=
    putTfp (putTfp (putTfp (putTfp bs 16 1 state) 17 1 spare) 18 2 a) 20 4 mine
  if st = 0 then
    if busy then (write 1 (s.fld cl 20 8) (s.fld cl 0 12), s.setFld cl 28 3 1)
    else if (f = 1 ∨ f = 2) ∧ (s.ringOf d).unfence.isNone then (write 1 0xFF (s.ringAddr d), s)
    else (bs, s)
  else if !own || !busy then (bs, s)
  else if st = 2 then (putTfp bs 16 1 3, s.setFld cl 28 3 3)
  else if st = 4 then (bs, ((s.setFld cl 28 3 4).setFlag cl 31 false).ringEvent d 6)
  else if st = 5 then (bs, (((s.setFld cl 28 3 5).setRing d { s.ringOf d with nak := true })).ringEvent d 6)
  else (bs, s)

/-! ## A pass through a member (R250, R257, R261, R272) -/

/-- Whether a frame goes on its processing pass when it enters at the up or the down port; in a tree every pass that enters at the up port is
one, whether or not a sub-chain turned the frame back before (R250, R285). -/
def procPass (r : List Word) (bs : List Byte) (up : Bool) : Bool := (decide (rcTopo r = 2) || !tfpFlag bs 7) && decide (up = !tfpFlag bs 6)

/-- Whether a device's own level is a chain, whose return pass measures: in a tree the record does not say it (R250; log entry 97). -/
def chainLevel (r : List Word) : Bool := decide (rcTopo r = 0) || (decide (rcTopo r = 2) && Config.treeChain r)

/-- Ingress link delay of a port in 1/16 ns (R271). -/
def State.linkDelay (s : State) (d : Die) (up : Bool) : Nat := (s.getReg (if up then R.TFR_LD_UP d else R.TFR_LD_DN d)).toNat

/-- Whether a device turns back a frame that it would send by its down or up port (R256). -/
def State.turnsBack (s : State) (d : Die) (r : List Word) (outUp : Bool) : Bool :=
  (!outUp && bit (rcW r 1) 2) || !s.macLink d ((s.ringOf d).mac outUp)

/-- Where a frame that entered the ring pair of a die at its up or down port leaves: the die, and whether by the up port.  A junction sends a
frame that entered at its up port through its child pair first (R250, R256). -/
def State.ringOut (s : State) (d : Die) (r : List Word) (up : Bool) : Die × Bool :=
  if rcRole r = 3 ∧ up ∧ s.linkUp ∧ s.macLink d.other (12 + (s.ringOf d).dn) then (d.other, false)
  else if s.turnsBack d r (!up) then (d, up)
  else (d, !up)

/-- MAC of a pair's uplink by which a frame leaves. -/
def State.ringMac (s : State) (d : Die) (o : Die × Bool) : Nat := if o.1 = d then (s.ringOf d).mac o.2 else 12 + (s.ringOf d).dn

/-- Residence of a pass between the stamps of the two ports, with their compensations, in 1/256 ns (R272, R303). -/
def State.residence (s : State) (d e : Die) (inM outM res : Nat) : Int :=
  (res : Int) + (s.pcomp e outM true - s.pcomp d inM false) / 0x100_0000

/-- The time block of a frame as it leaves: own entry where one is written, ingress link delay (in 1/16 ns) and residence added to every
valid entry of another node (R254, R272). -/
def State.passBlock (s : State) (d : Die) (r : List Word) (bs : List Byte) (own : Option Nat) (stamp : DevTime) (delay : Nat) (res : Int)
    (out : List Byte) : List Byte :=
  if tfpSeg bs = 0 ∧ tfpFlag bs 5 ∧ 318 ≤ bs.length then
    timeBlock own (s.timeEntry d (stamp.plus (res * 0x100_0000))) (((delay * 16 : Nat) + res) % 0x1_0000_0000).toNat (refEntry r) 16 out
  else out

/-- What a frame says of its master: none where it is of an older one and dropped, else the state that knows the newest (R287). -/
def State.masterEpoch (s : State) (d : Die) (bs : List Byte) (good : Bool) : Option State :=
  let me := tfp bs 12 2
  let hi := s.fld (R.TFR_EPOCH d) 16 16
  if hi = 0 ∨ me = hi then some (if good then s.setFld (R.TFR_EPOCH d) 16 16 me else s)
  else if (me + 65536 - hi) % 65536 ≥ 32768 then none
  else if !good then some s
  else
    let s := ((s.setFld (R.TFR_EPOCH d) 16 16 me).ringEvent d 10).logEv d 0xA05 2 0 (s.ringAddr d) me
    some (if s.acting d then ((s.setFlag (R.TFR_STAT d) 7 false).setFld (R.TFR_STAT d) 16 4 0).ringFence d 2 else s)

/-- The current record of a die for a frame's SCHED_VER: a pending record that it names becomes current (R267); none where neither
matches. -/
def State.schedule (s : State) (d : Die) (bs : List Byte) (good : Bool) : Option (List Word) × State :=
  let x := s.ringOf d
  let v := tfp bs 8 2
  if x.cur ≠ [] ∧ rcVer x.cur = v then (some x.cur, s)
  else if x.pend ≠ [] ∧ rcVer x.pend = v then
    if good then (some x.pend, s.ringCurrent d) else (none, s)
  else (none, s.count (R.TFR_CNT_FOREIGN d))

/-- The FCS of a frame that leaves: that of its bytes, complemented when it came bad (R261). -/
def ringFcs (body : List Byte) (good : Bool) : List Byte :=
  body ++ leBytes 4 (if good then fcs32 body else fcs32 body ^^^ 0xFFFFFFFF)

/-- What a member does with a cycle frame of its record: the frame without FCS as it leaves, and the state.  `bs` is the frame as
received, `turn` says that it is sent back by the port it came by. -/
def State.memberPass (s : State) (d : Die) (r : List Word) (bs : List Byte) (up good turn : Bool) (stamp : DevTime) (res : Int) :
    List Byte × State :=
  let seg := tfpSeg bs
  let cyc := tfp bs 4 4
  let x := s.ringOf d
  let s := if x.unfence.isSome ∧ x.unfence ≠ some cyc then
      (s.setRing d { x with unfence := none }).setFld (R.TFR_STAT d) 11 2 0 else s
  let x := s.ringOf d
  let first := decide (x.cyc ≠ cyc) || !x.segs.testBit seg
  let proc := procPass r bs up && first && decide (s.powerEff d ≤ 2)
  let full := proc && decide (s.powerEff d ≤ 1)
  let s := if proc then s.setRing d { x with cyc := cyc, segs := (if x.cyc = cyc then x.segs else 0) ||| 2 ^ seg } else s
  let body := bs.take (bs.length - 4)
  let ((out, any), s) := if full then s.windows d r (x.port up) bs good true true (rcWins r) bs false else ((bs, false), s)
  let out := (out.take body.length)
  let out := if any then putTfp out 10 2 ((tfp out 10 2 + 1) % 65536) else out
  let s := if full then s.dropPre d r seg else s
  let block := tfpFlag bs 5 && decide (318 ≤ bs.length)
  let out := s.passBlock d r bs (if proc then refEntry r else none) stamp (s.linkDelay d up) res out
  let s := if !proc ∨ seg ≠ 0 then s else
    let s := s.setReg (R.TFR_CYCLE d) (wd cyc)
    let s := s.setFld (R.TFR_WKC d) 0 16 (tfp bs 10 2)
    s.setReg (R.TFR_ARR d) (wd ((stamp.lin + rcCycle r - (rcW r 3).toNat % max 1 (rcCycle r)) % max 1 (rcCycle r)))
  let measure := decide (seg = 0) && good && block && bit (rcW r 1) 8 && !bit (rcW r 6) 22 &&
    (if chainLevel r then (!up && tfpFlag bs 7) || turn else proc)
  let s := if measure then s.ringSync d r (s.devs d r bs stamp (s.linkDelay d up) 16) else s
  let s := if seg = 0 ∧ good ∧ proc then s.announced d bs else s
  if seg = 0 ∧ proc ∧ good then s.claimPass d out else (out, s)

/-! ## Back at the master (R260, R268, R280, R285) -/

/-- The master's answer to the claim fields of a returned segment 0: what it sends in the next cycle (R269, R270, R282). -/
def State.claimReturn (s : State) (d : Die) (r : List Word) (bs : List Byte) : State :=
  let x := s.ringOf d
  let st := tfp bs 16 1
  let spare := tfp bs 17 1
  let a := tfp bs 18 2 % 4096
  let uid := tfp bs 20 4
  match x.claim with
  | some (2, sp, ca, cu) =>
    if st = 3 ∧ spare = sp ∧ a = ca ∧ uid = cu then
      let ep := if (x.member a).2 = 0 then 1 else nextEpoch (x.member a).2
      let x := (x.setMember a 1 ep)
      (s.setRing d { x with claim := some (4, sp, a, uid), ann := x.ann ++ [(a, uid, 4)] }).showDead d a false
    else s.setRing d { x with claim := none }
  | _ =>
    if st ≠ 1 then s.setRing d { x with claim := none }
    else if spare = 0xFF then
      if (x.member a).1 = 1 then s.setRing d { x with claim := none, ann := x.ann ++ [(a, 0, 4)] }
      else if (x.member a).1 = 2 ∧ !(x.cand.any fun c => c.1 = a) then
        s.setRing d { x with claim := none, cand := x.cand ++ [(a, uid)] }
      else s.setRing d { x with claim := some (5, spare, a, uid) }
    else if spare < rcSpares r ∧ rcSpare r spare = a ∧ (x.member a).1 = 3 then s.setRing d { x with claim := some (2, spare, a, uid) }
    else s.setRing d { x with claim := some (5, spare, a, uid) }

/-- Presence tags of a returned segment noted; `n` entries are left (R280). -/
def State.presence (s : State) (d : Die) (r : List Word) (bs : List Byte) : Nat → State
  | 0 => s
  | n + 1 =>
    let p := rcPresence r n
    let a := bits p 0 12
    let o := tfpData bs + bits p 16 14
    let x := s.ringOf d
    let s := if bits p 12 4 = tfpSeg bs ∧ beAt bs o 2 = a ∧ beAt bs (o + 2) 2 = (x.member a).2 ∧ !x.seen.contains a then
        s.setRing d { x with seen := a :: x.seen } else s
    s.presence d r bs n

/-- A returned segment, whole, taken by the master: working counter, input windows, presence, claims and its own time (R259, R260,
R268, R274). -/
def State.masterTake (s : State) (d : Die) (r : List Word) (bs : List Byte) (wkc : Nat) (up : Bool) (stamp : DevTime) : State :=
  let seg := tfpSeg bs
  let x := s.ringOf d
  let s := s.setRing d { x with ret := x.ret ||| 2 ^ seg }
  let s := if seg = 0 then (s.setFld (R.TFR_WKC d) 0 16 wkc).setReg (R.TFR_CYCLE d) (wd (tfp bs 4 4)) else s
  let s := if wkc < bits (rcSeg r seg) 16 16 then (s.ringEvent d 7).count (R.TFR_CNT_WKC d) else s
  let s := s.setReg (R.TFR_LOOP d) (wd (s.lin d - x.sentAt))
  let (_, s) := if s.powerEff d ≤ 1 then s.windows d r (x.port up) bs true false true (rcWins r) bs false else ((bs, false), s)
  let s := s.presence d r bs (rcPres r)
  if seg ≠ 0 then s else
  let s := s.claimReturn d r bs
  if tfpFlag bs 5 ∧ rcTime r ∧ !bit (rcW r 6) 22 then s.ringSync d r (s.devs d r bs stamp (s.linkDelay d up) 16) else s

/-- Two returned copies combined byte by byte with OR (R285). -/
def orBytes : List Byte → List Byte → List Byte
  | a :: s, b :: t => (a ||| b) :: orBytes s t
  | s, [] => s
  | [], t => t

/-- A cycle frame back at the acting master (R268, R285): one of an older cycle is late and discarded, a copy in dual mode waits for the
other. -/
def State.masterReturn (s : State) (d : Die) (r : List Word) (bs : List Byte) (up good : Bool) (stamp : DevTime) : State :=
  let x := s.ringOf d
  let seg := tfpSeg bs
  if !good then s
  else if tfp bs 4 4 ≠ x.cycle then (s.ringEvent d 8).count (R.TFR_CNT_LATE d)
  else if x.ret.testBit seg then s else
  let full := up && !tfpFlag bs 7 && !tfpFlag bs 6
  let s := if seg = 0 then s.setRing d { x with fullNow := x.fullNow || full, turned := x.turned || (!up && tfpFlag bs 7) } else s
  let x := s.ringOf d
  if !s.flag (R.TFR_STAT d) 10 then s.masterTake d r bs (tfp bs 10 2) up stamp
  else match x.wait.find? fun w => w.1 = seg with
    | none => s.setRing d { x with wait := x.wait ++ [(seg, bs)] }
    | some (_, other) =>
      let s := s.setRing d { x with wait := x.wait.filter fun w => w.1 ≠ seg }
      s.masterTake d r (orBytes other bs) ((tfp bs 10 2 + tfp other 10 2) % 65536) up stamp

/-! ## CYCLE_FRAME_RX -/

/-- The die whose ring pair handles a frame that arrives on a die's uplinks: its own, or the other die's junction whose child pair
they are (R249). -/
def State.ringDie (s : State) (d : Die) : Die :=
  if (s.ringOf d).cur = [] ∧ (s.ringOf d).pend = [] ∧ rcRole (s.ringOf d.other).cur = 3 ∧ s.linkUp then d.other else d

/-- A frame sent on from a member that it entered at `up` or down, or turned back (R250, R256). -/
def State.ringForward (s : State) (d : Die) (r : List Word) (out : List Byte) (up good : Bool) : State :=
  let o := s.ringOut d r up
  if o.1 ≠ d then
    (s.setRing d.other { s.ringOf d.other with dn := (s.ringOf d).dn }).ringSend d.other false (ringFcs out good) (!good)
  else
    let out := if o.2 = up then putTfp out 3 1 (tfp out 3 1 ||| 0x80) else out
    s.ringSend d o.2 (ringFcs out good) (!good)

/-- The uplink of the parent pair by which a frame from the child pair leaves: the down port, or the up port where it is turned back. -/
def State.childUp (s : State) (d : Die) (r : List Word) : Bool := s.turnsBack d r false

/-- A frame that comes back from a junction's child pair, without FCS, leaves through the parent's down port, or is turned back there (R250,
R256). -/
def State.childReturn (s : State) (d : Die) (r : List Word) (out : List Byte) (good : Bool) : State :=
  let up := s.childUp d r
  let out := if up then putTfp out 3 1 (tfp out 3 1 ||| 0x80) else out
  s.ringSend d up (ringFcs out good) (!good)

/-- CYCLE_FRAME_RX: a frame arrives on an uplink of a die's ring pair, its up or its down port; `age` nanoseconds ago it passed the
ingress stamping point, and it stays in the device for `res` units of 1/256 ns (R251, R257, R264, R267, R287).  A frame that is no
cycle frame of the ring, or comes by a pair whose modes carry none (R248), goes on as ordinary traffic. -/
def execCycleFrameRx (d : Die) (up : Bool) (bytes : List Byte) (age res : Nat) (s : State) : Host.Outcome State Fault Refusal :=
  let p := s.ringDie d
  let x := s.ringOf p
  let m := 12 + (if up then 1 - x.dn else x.dn)
  let body := bytes.take (bytes.length - 4)
  .next (if !(isCycle x.cur bytes || isCycle x.pend bytes) ∨ s.pairMode d = none then s.frameRx d m bytes false age
    else if !s.macLink d m || !s.running p || decide (3 ≤ s.powerEff p) then s
    else
      let (bad, stomped, s) := (s.rxOctets d m bytes.length).macCheck d m bytes (decide (9728 ≤ bytes.length)) false
      let good := !bad && !stomped
      let s := (if good then s.macPassed d m bytes else s.count (R.TFR_CNT_BAD p)).count (R.TFR_CNT_RX p)
      let stamp := s.rxStamp d m age
      match s.masterEpoch p bytes good with
      | none => s.count (R.TFR_CNT_STALE_MASTER p)
      | some s =>
        if s.acting p ∧ p = d then s.masterReturn p (s.ringOf p).cur bytes up good stamp
        else match s.schedule p bytes good with
          | (none, s) => if p = d then s.ringForward p x.cur body up good else s.childReturn p x.cur body good
          | (some r, s) =>
            if p ≠ d then
              let res := s.residence d p m ((s.ringOf p).mac (s.childUp p r)) res
              s.childReturn p r (s.passBlock p r bytes none stamp (s.linkDelay d up) res body) good
            else
              let o := s.ringOut p r up
              let (out, s) := s.memberPass p r bytes up good (decide (o = (p, up))) stamp (s.residence d o.1 m (s.ringMac p o) res)
              s.ringForward p r out up good)

/-! ## The other commands of the ring -/

/-- Output windows of a record prefetched, `n` left: kept when they could be read whole with VALID = 1 (R257, R258). -/
def State.prefetch (s : State) (d : Die) (r : List Word) : Nat → State
  | 0 => s
  | n + 1 =>
    let w := rcWins r - (n + 1)
    if !winOut r w then s.prefetch d r n else
    let a := winBuf r w % 0x80_0000_0000
    let len := (16 + ringWinLen r w + 63) / 64 * 64
    match s.poolReadSpan d ((s.ringOf d).port true) a len (lineCount a len) with
    | (.ok bs, s) =>
      let x := s.ringOf d
      let pre := x.pre.filter fun p => p.1 ≠ w
      (s.setRing d { x with pre := if byteAt bs 0 % 2 = 1 then pre ++ [(w, (bs.drop 16).take (ringWinLen r w))] else pre }).prefetch d r n
    | (.error _, s) => (s.setRing d { s.ringOf d with pre := (s.ringOf d).pre.filter fun p => p.1 ≠ w }).prefetch d r n

/-- SKIM_PREFETCH (R258). -/
def execSkimPrefetch (d : Die) (s : State) : Host.Outcome State Fault Refusal :=
  let r := (s.ringOf d).cur
  .next (if r = [] ∨ s.powerEff d > 1 then s else s.prefetch d r (rcWins r))

/-- The announcement of the next cycle: a changed entry four times, else the addresses in turn (R279).  Operation, sequence, address,
epoch, UID, and the ring pair after it. -/
def Ring.announce (x : Ring) : (Nat × Nat × Nat × Nat × Nat) × Ring :=
  match x.ann with
  | (a, uid, k) :: t =>
    let seq := if k = 4 then (x.annSeq + 1) % 256 else x.annSeq
    (((x.member a).1, seq, a, (x.member a).2, uid), { x with annSeq := seq, ann := if k ≤ 1 then t else (a, uid, k - 1) :: t })
  | [] =>
    let a := x.annNext % 4096
    (((x.member a).1, (x.annSeq + 1) % 256, a, (x.member a).2, 0), { x with annSeq := (x.annSeq + 1) % 256, annNext := (a + 1) % 4096 })

/-- The bytes of a segment that the master sends, without FCS: header, time block, and a data area of zeros with its own output
windows (R252, R253, R256). -/
def State.segment (s : State) (d : Die) (r : List Word) (seg : Nat) (ann : Nat × Nat × Nat × Nat × Nat) (rev : Bool) :
    List Byte × State :=
  let x := s.ringOf d
  let z := decide (seg = 0)
  let tb := z && rcTime r
  let (cs, csp, ca, cu) := (match x.claim with | some c => c | none => (0, 0, 0, 0))
  let (op, sq, aa, ae, au) := ann
  let m := x.mac false
  let mac (lo hi : Nat) : List Byte := leBytes 4 lo ++ leBytes 2 hi
  let hdr := beBytes 2 (bits (rcW r 0) 0 16) ++ beBytes 1 ((rcNseg r - 1) * 16 + seg) ++
    beBytes 1 ((if rev then 0x40 else 0) + (if tb then 0x20 else 0)) ++ beBytes 4 x.cycle ++ beBytes 2 (rcVer r) ++ beBytes 2 0 ++
    beBytes 2 (s.fld (R.TFR_EPOCH d) 16 16) ++ beBytes 2 (bits (rcSeg r seg) 0 14) ++
    (if z then beBytes 1 cs ++ beBytes 1 csp ++ beBytes 2 ca ++ beBytes 4 cu ++ beBytes 1 op ++ beBytes 1 sq ++ beBytes 2 aa ++
      beBytes 2 ae ++ beBytes 2 0 ++ beBytes 4 au ++ beBytes 4 0 else List.replicate 24 0)
  let bs := mac (rcW r 4).toNat (bits (rcW r 5) 0 16) ++ mac (s.getReg (R.MAC_ADDR_LO d m)).toNat (s.fld (R.MAC_ADDR_HI d m) 0 16) ++
    beBytes 2 0x88B5 ++ [1, 3, 0, 0] ++ hdr ++ (if tb then List.replicate 256 0 else []) ++
    List.replicate (bits (rcSeg r seg) 0 14) 0
  let bs := if tb then timeBlock (refEntry r) (s.timeEntry d (s.txStamp d (x.mac rev))) 0 none 16 bs else bs
  let ((out, any), s) := if s.powerEff d ≤ 1 ∧ !rev then s.windows d r (x.port false) (bs ++ [0, 0, 0, 0]) true true false (rcWins r) (bs ++ [0, 0, 0, 0]) false
    else ((bs ++ [0, 0, 0, 0], false), s)
  let out := out.take bs.length
  (if any then putTfp out 10 2 1 else out, s)

/-- Segments sent out of the down port, and in dual mode a copy with REVERSE out of the up port; `n` segments are left (R268,
R285). -/
def State.sendSegments (s : State) (d : Die) (r : List Word) (ann : Nat × Nat × Nat × Nat × Nat) : Nat → State
  | 0 => s
  | n + 1 =>
    let seg := rcNseg r - (n + 1)
    let pre := (s.ringOf d).pre
    let (bs, s) := s.segment d r seg ann false
    let s := (s.ringSend d false (ringFcs bs true) false)
    let s := if s.flag (R.TFR_STAT d) 10 then
        let (rb, s) := (s.setRing d { s.ringOf d with pre := pre }).segment d r seg ann true
        s.ringSend d true (ringFcs rb true) false
      else s
    (s.dropPre d r seg).sendSegments d r ann n

/-- The tags of the cycle that ends: an address whose tag came back starts anew, another misses once more; `n` are left (R280). -/
def State.countMiss (s : State) (d : Die) (r : List Word) : Nat → State
  | 0 => s
  | n + 1 =>
    let x := s.ringOf d
    let a := bits (rcPresence r n) 0 12
    let k := if x.seen.contains a ∨ (x.member a).1 ≠ 1 then 0 else Tab.get (fun _ => 0) x.miss a + 1
    (s.setRing d { x with miss := Tab.put (fun _ => 0) x.miss a k }).countMiss d r n

/-- The cycle that ends at the master: copies left alone are taken as they are, tags are counted, and a frame that was turned back or did not return leads to dual mode (R268, R280, R285). -/
def State.endCycle (s : State) (d : Die) (r : List Word) : State :=
  let x := s.ringOf d
  let s := x.wait.foldl (fun s w => s.masterTake d r w.2 (tfp w.2 10 2) false (s.now d)) (s.setRing d { x with wait := [] })
  let x := s.ringOf d
  let s := s.countMiss d r (rcPres r)
  let x := s.ringOf d
  let claim := (match x.claim with | some (2, c) => if x.ret.testBit 0 then some (2, c) else none | c => c)
  let s := s.setRing d { x with full := if x.fullNow then x.full + 1 else 0, fullNow := false, turned := false, seen := [], claim := claim }
  if rcTopo r = 1 ∧ !s.flag (R.TFR_STAT d) 10 ∧ (x.turned ∨ !x.ret.testBit 0) then
    let s := ((s.setFlag (R.TFR_STAT d) 10 true).ringEvent d 9).logEv d 0xA06 2 0 (s.ringAddr d) (s.ringEpoch d)
    s.setRing d { s.ringOf d with full := 0 }
  else s

/-- MASTER_CYCLE_START: the acting master closes the cycle, makes its pending record current where it may, and sends the next cycle's
segments (R267, R268, R279). -/
def execMasterCycleStart (d : Die) (s : State) : Host.Outcome State Fault Refusal :=
  let x := s.ringOf d
  let due := decide (x.pend ≠ []) && decide (rcRole x.pend = 1) && decide (x.pendAt + 10_000_000 ≤ s.lin d)
  .next (if !(s.running d) || decide (s.powerEff d > 1) || !((s.acting d && decide (x.cur ≠ [])) || due) then s else
    let s := if x.sentAt ≠ 0 ∧ x.cur ≠ [] ∧ s.acting d then s.endCycle d x.cur else s
    let s := if due then s.ringCurrent d else s
    let x := s.ringOf d
    let r := x.cur
    let (ann, x) := ({ x with cycle := (x.cycle + 1) % 0x1_0000_0000, sentAt := s.lin d, ret := 0 } : Ring).announce
    let s := (s.setRing d x).sendSegments d r ann (rcNseg r)
    let x := s.ringOf d
    s.setRing d { x with claim := (match x.claim with | some (2, c) => some (2, c) | _ => none) })

/-- GUARD_HOLD_START (R263): a test of the Skim unit ends for it (R284, R518). -/
def execGuardHoldStart (d : Die) (up : Bool) (s : State) : Host.Outcome State Fault Refusal :=
  let x := s.ringOf d
  .next (if x.cur = [] ∨ !bit (rcW x.cur 1) 9 then s else
    ({ s with ringHold := Tab.put (fun _ => false) s.ringHold (d.idx * 2 + (x.mac up - 12)) true }).count (R.TFR_CNT_GUARD d)
      |>.serviceReq d 5 (x.mac up - 12) true)

/-- PDELAY_EXCHANGE: the Skim unit of an uplink sends a peer-delay request (R271). -/
def execPdelayExchange (d : Die) (up : Bool) (s : State) : Host.Outcome State Fault Refusal :=
  let x := s.ringOf d
  .next (if x.cur = [] ∨ !s.macLink d (x.mac up) then s else s.emit (.pdelay d up false))

/-- PDELAY_MESSAGE_RX: a request, which is answered, or the message that ends an exchange with its measured delay in 1/16 ns: the link
delay is the mean of the last eight (R271). -/
def execPdelayMessageRx (d : Die) (up : Bool) (delay : Option Nat) (s : State) : Host.Outcome State Fault Refusal :=
  let x := s.ringOf d
  .next (if x.cur = [] ∨ !s.macLink d (x.mac up) then s else
    match delay with
    | none => s.emit (.pdelay d up true)
    | some t =>
      let l := ((if up then x.ldUp else x.ldDn) ++ [t])
      let l := l.drop (l.length - 8)
      let s := s.setRing d (if up then { x with ldUp := l } else { x with ldDn := l })
      s.setReg (if up then R.TFR_LD_UP d else R.TFR_LD_DN d) (wdInt (Frac.mk' ((l.sum : Nat) : Int) l.length).round))

/-- RATE_WINDOW_UPDATE: the window has reached RATE_MS and the rate is corrected (R274). -/
def execRateWindowUpdate (d : Die) (s : State) : Host.Outcome State Fault Refusal :=
  let x := s.ringOf d
  let r := x.cur
  let full := Frac.le (.ofInt ((bits (rcW r 9) 16 16 * 1_000_000 : Nat) : Int)) x.winNs
  .next (if r = [] ∨ !full ∨ x.winNs.num ≤ 0 then s else
    let residual := ((x.off.sub x.offWin).sub x.slewNs).scale 1_000_000_000 1 |>.div x.winNs
    let rate := (x.rate.sub (residual.scale 1 (2 ^ bits (rcW r 6) 24 4))).clamp (-500000) 500000
    let s := s.setRing d { x with rate := rate, offWin := x.off, winNs := {}, slewNs := {} }
    (s.setReg (R.TFR_RATE d) (wdInt rate.round)).ringSteer d)

/-- REF_SUSPECT: an entry has been discarded 64 times in a row (R274). -/
def execRefSuspect (d : Die) (e : Fin 16) (s : State) : Host.Outcome State Fault Refusal :=
  .next (if s.fld (R.TFR_REF_OUT d e.val) 0 16 < 64 then s else (s.setFlag (R.TFR_REF_OUT d e.val) 31 true).ringEvent d 11)

/-- RING_LOSS: SELF_CYC cycles have passed without a good segment 0: the device free-runs at its last rate, in holdover where the ring
steers, and fences itself (R277, R281, R297). -/
def execRingLoss (d : Die) (s : State) : Host.Outcome State Fault Refusal :=
  let x := s.ringOf d
  .next (if x.cur = [] ∨ s.acting d then s else
    let s := s.setRing d { x with slew := {} }
    let s := match s.ringSteers d with | some t => s.holdover t | none => s
    let s := (s.setFlag (R.TFR_STAT d) 8 true).ringEvent d 1
    if s.fenced d then s else s.ringFence d 2)

/-- ADDRESS_DEAD: the acting master declares dead an address whose tag has been missing for DEAD_CYC cycles (R280). -/
def execAddressDead (d : Die) (a : Fin 4096) (s : State) : Host.Outcome State Fault Refusal :=
  let x := s.ringOf d
  let a := a.val
  .next (if !s.acting d ∨ x.cur = [] ∨ (x.member a).1 ≠ 1 ∨ Tab.get (fun _ => 0) x.miss a < bits (rcW x.cur 8) 0 8 then s else
    let y := x.setMember a 2 (x.member a).2
    let s := (s.setRing d { y with ann := y.ann ++ [(a, 0, 4)] }).showDead d a true
    let s := s.setReg (R.TFR_LAST_DEAD d) (wd (0x8000_0000 + a))
    (s.ringEvent d 5).logEv d 0xA02 2 0 a (x.member a).2)

/-- DUAL_MODE_EXIT: full copies have returned on the up port for 16 cycles (R285). -/
def execDualModeExit (d : Die) (s : State) : Host.Outcome State Fault Refusal :=
  .next (if (s.ringOf d).full < 16 ∨ !s.flag (R.TFR_STAT d) 10 then s else s.setFlag (R.TFR_STAT d) 10 false)

/-- STANDBY_TAKEOVER: a standby master that has heard no cycle frame for MTMO cycles becomes the acting master (R287). -/
def execStandbyTakeover (d : Die) (s : State) : Host.Outcome State Fault Refusal :=
  let x := s.ringOf d
  .next (if x.cur = [] ∨ rcRole x.cur ≠ 2 ∨ s.acting d then s else
    let me := nextEpoch (s.fld (R.TFR_EPOCH d) 16 16)
    let s := (s.setFlag (R.TFR_STAT d) 7 true).setFld (R.TFR_EPOCH d) 16 16 me
    let s := s.setRing d { x with claim := none, sentAt := 0, cycle := (s.getReg (R.TFR_CYCLE d)).toNat, miss := [], ret := 0, wait := [] }
    (s.ringEvent d 10).logEv d 0xA05 2 0 (s.ringAddr d) me)

end Sys2Proof.Machine
end

