-- ==== Sys2Proof/Machine/Access.lean ====
section
/-! DEFINITION. Accesses of every requester to every register, to the pool and to the other memories: where an address leads, what a write
of each block does, and the commands that are plain accesses (R10 to R12, R23 to R27, R124, R156, R157, R170, R226, R386, R442, R487,
R502, R503, R536 to R549). -/

namespace Sys2Proof.Machine

/-! ## Addresses (R156) -/

/-- The internal address an offset of a BAR leads to; none for the MSI-X structures and for what lies outside every range. -/
def barAddr (own : Die) : AccAddr → Option Nat
  | .int a => some a
  | .bar0 off =>
    if off < 0x1_0000 then some (R.blk own 5 + off)
    else if off < 0x2_0000 then some (R.blk own 6 + (off - 0x1_0000))
    else none
  | .bar2 off =>
    if off < 0x400_0000 then some (own.org + off)
    else if off < 0x800_0000 then some (own.other.org + (off - 0x400_0000))
    else none
  | .bar4 off =>
    if off < 0x40_0000 then some (R.blk own 0 + off)
    else if off < 0x80_0000 then some (R.blk own.other 0 + (off - 0x40_0000))
    else if off < 0xE0_0000 then some (own.org + 0x1000_0000 + (off - 0x80_0000))
    else if off < 0x140_0000 then some (own.other.org + 0x1000_0000 + (off - 0xE0_0000))
    else none
  | .h3 _ => none

/-- Where an access leads: an internal address, the MSI-X table or pending bits of a function, a port register of H3, or nowhere.  Only a
PCIe function has BARs, and only H3 its port registers. -/
inductive Lead where
  | at_ (a : Nat)
  | msix (d : Die) (fn off : Nat)
  | pba (d : Die) (fn off : Nat)
  | h3 (n : Nat)
  | none
deriving DecidableEq, Repr

/-- Where a function of a die's PCIe port finds an address. -/
def leadFn (d : Die) (fn : Nat) (a : AccAddr) : Lead :=
  match a with
  | .bar0 off =>
    if 0x2_0000 ≤ off ∧ off < 0x2_0200 then .msix d fn (off - 0x2_0000)
    else if 0x2_1000 ≤ off ∧ off < 0x2_1008 then .pba d fn (off - 0x2_1000)
    else match barAddr d a with | some x => .at_ x | .none => .none
  | _ => match barAddr d a with | some x => .at_ x | .none => .none

/-- Where an access of a requester leads. -/
def leadOf (who : Requester) (a : AccAddr) : Lead :=
  match who, a with
  | .pf0 d, _ => leadFn d 0 a
  | .pf1 d, _ => leadFn d 1 a
  | .h3, .h3 n => .h3 n.val
  | _, .int x => .at_ x
  | _, _ => .none

/-! ## Writes by block -/

/-- RST (R487, R502): PIN_WARM is one value for the device, read on both dies, and Die 1 cannot write it while the link is down. -/
def effRst (who : Requester) (d : Die) (off : Nat) (v : Word) (s : State) : Eff :=
  if off = 8 then
    if d = .d1 ∧ !s.linkUp then .error causeDOMAIN_OFF
    else
      let s := s.setFlag (R.RST_CFG .d0) 0 (bit v 0)
      .ok ((if s.linkUp then s.setFlag (R.RST_CFG .d1) 0 (bit v 0) else s).cfgTouch)
  else if off = 0xC then
    if bits v 0 16 < 10 ∨ bits v 0 16 > 1000 then .error causeRULE else .ok ((s.rowWrite d 1 off v).cfgTouch)
  else if off = 0x10 then
    if !who.isSup d then .error causeRULE
    else .ok (if bit v 0 then s.setFld (R.RST_WD_LEFT d) 0 16 (s.fld (R.RST_WD_TMO d) 0 16) else s)
  else .ok (s.rowWrite d 1 off v)

/-- PWR: PWR_PMB_CFG is written by a host only in P0 (R503). -/
def effPwr (who : Requester) (d : Die) (off : Nat) (v : Word) (s : State) : Eff :=
  if off = 0x1C then
    if who.isHost ∧ s.power d ≠ 0 then .error causeRULE else .ok ((s.rowWrite d 3 off v).cfgTouch)
  else .ok (s.rowWrite d 3 off v)

/-- The placement of an intent that PLC_QRY reports: the live or pinned one while it exists, else the target (R107). -/
def Intent.shown (i : Intent) : Option Placement := i.cur.or i.tgt

/-- Whether a migration's target is ADMITTED or in SHADOW (R124 MIGRATING). -/
def Intent.migrating (i : Intent) : Bool := match i.tgt with | some p => p.st = 2 || p.st = 3 | none => false

/-- PLC_QRY_LOC of an intent: first compare unit, die and engine (R124). -/
def Intent.locWord (i : Intent) : Word :=
  match i.shown with
  | none => wd 0x7F3F
  | some p =>
    if i.isFlow then wd (0x7F3F + p.die.idx * 0x40)
    else wd (p.cmps.headD 0x7F * 0x100 + p.die.idx * 0x40 + (p.die.idx * 24 + p.ce))

/-- The five words of the query window for a handle (R124): an intent released last keeps its cause and reads RELEASED; a handle never
given reads as at reset. -/
def State.qryWords (s : State) (h : Nat) : List Word :=
  let i := s.intent h
  if h = 0 ∨ i.handle ≠ h then [0, wd 0x7F3F, 0, 0, 0]
  else
    let st := match i.shown with | some p => p.st | none => 7
    let stat := wd ((if i.held then 0x8000_0000 else 0) + (if i.held ∧ i.shown.isNone then 0x4000_0000 else 0) + i.cause * 0x1000 +
      i.moveWanted * 0x100 + (if i.pinFault then 0x10 else 0) + (if i.migrating then 8 else 0) + st)
    let ctx := match i.shown with
      | some p => if i.isFlow then 0 else wd (p.ctx / 0x80_0000_0000 * 0x8000_0000 + p.ctx % 0x400_0000 / 64 * 64)
      | none => 0
    [stat, i.locWord, ctx, wd i.cycles, wd (i.epoch % 0x1_0000)]

/-- PLC: a write of PLC_QRY_HANDLE loads the snapshot (R124). -/
def effPlc (d : Die) (off : Nat) (v : Word) (s : State) : Eff :=
  if off = 0x400 then
    .ok ((List.zip [R.PLC_QRY_STAT d, R.PLC_QRY_LOC d, R.PLC_QRY_CTX d, R.PLC_QRY_CYCLE d, R.PLC_QRY_EPOCH d] (s.qryWords v.toNat)).foldl
      (fun s e => s.setReg e.1 e.2) (s.setReg (R.PLC_QRY_HANDLE d) v))
  else .ok (s.rowWrite d 7 off v)

/-- Whether a path group member may be named (R226). -/
def pgMember (m : Nat) : Bool := m = 12 || m = 13 || m = 15

/-- SW: ranges, the bridges' windows and the gate control lists (R187, R206, R212 to R214, R226). -/
def effSw (d : Die) (off : Nat) (v : Word) (s : State) : Eff :=
  let row : Eff := .ok (s.rowWrite d 34 off v)
  let need (b : Bool) : Eff := if b then row else .error causeRULE
  if off = 0 then need (decide (bits v 0 4 ≤ 8))
  else if 0x40 ≤ off ∧ off < 0x50 then need (decide (64 ≤ bits v 0 18) && decide (bits v 0 18 ≤ 196_608))
  else if 0x300 ≤ off ∧ off < 0x320 then
    if pgMember (bits v 0 5) ∧ pgMember (bits v 16 5) then .ok ((s.rowWrite d 34 off v).pgShow d) else .error causeRULE
  else if off = 0x404 then effSidCmd d v s
  else if off = 0x444 then effVlanCmd d v s
  else if off = 0x480 then effFtIdx d v s
  else if 0x1000 ≤ off ∧ off < 0x1880 then
    let i := (off - 0x1000) / 0x80
    let o := off % 0x80
    if o = 4 then need ((List.range 8).all fun p => decide (bits v (3 * p) 3 ≤ 6))
    else if o = 8 then need (decide (64 ≤ bits v 0 14) && decide (bits v 0 14 ≤ 9216))
    else if 0x10 ≤ o ∧ o < 0x1C ∧ 14 ≤ i then .ok s
    else if o = 0x20 then if i < 14 then effGclCtrl d i v s else need (decide (bits v 0 8 ≤ 128))
    else if o = 0x2C then need (decide (1000 ≤ bits v 0 30) && decide (bits v 0 30 ≤ 999_999_999))
    else row
  else if 0x4000 ≤ off ∧ off < 0xB000 then
    let j := (off - 0x4000) / 0x800
    if s.flag (R.SW_GCL_CTRL d j) 31 then .error causeRULE
    else if off % 8 = 4 then need (decide (64 ≤ bits v 0 30) && decide (bits v 0 30 ≤ 999_999_999))
    else row
  else row

/-- MAC (R236, R238, R246). -/
def effMac (d : Die) (off : Nat) (v : Word) (s : State) : Eff :=
  if off = 0x18 then effPauseLines d false v s
  else if off = 0x1C then effPauseLines d true v s
  else if off = 0x20 then effMdio d v s
  else if 0x1000 ≤ off ∧ off < 0x1E00 ∧ off % 0x100 = 8 then effPauseCfg d ((off - 0x1000) / 0x100) v s
  else .ok (s.rowWrite d 35 off v)

/-- The per-die index of a unit's number in the TARGET numbering (R127). -/
def unitLocal (cls i : Nat) : Nat :=
  match cls with
  | 2 => i % 24
  | 3 => i % 2
  | 4 => i % 12
  | 5 => i % 2
  | 6 => i % 4
  | 7 => i % 16
  | _ => i

/-- Whether a number of the TARGET numbering names a unit of a die (R127). -/
def unitHere (d : Die) (cls i : Nat) : Bool :=
  decide (unitLocal cls i < unitCount d cls) && decide (unitNum d cls (unitLocal cls i) = i)

/-- HLT_UNIT_SEL loads the query registers (R536). -/
def State.unitSelect (s : State) (d : Die) (v : Word) : State :=
  let cls := bits v 0 4
  let i := bits v 16 16
  let s := s.rowWrite d 41 0x40 v
  let u := s.hunit d cls (unitLocal cls i)
  let ok := unitHere d cls i
  let ws : List Word := if ok then
      [wd (u.epoch * 0x1_0000 + 0x8000 + u.st * 0x1000 + u.result * 0x400), wd (u.faults * 0x1_0000 + u.tests), wd u.lastS, wd u.detail]
    else [0, 0, 0, 0]
  (List.zip [R.HLT_UNIT_STAT d, R.HLT_UNIT_COUNTS d, R.HLT_UNIT_LAST_S d, R.HLT_UNIT_DETAIL d] ws).foldl (fun s e => s.setReg e.1 e.2) s

/-- Key of a supervisor pair. -/
def supKey (d : Die) (p : Nat) : Nat := d.idx * 2 + p

/-- A pair's main core besides its registers. -/
def State.supOf (s : State) (d : Die) (p : Nat) : SupCore := Tab.get (fun _ => {}) s.sup (supKey d p)

/-- The state with it replaced. -/
def State.setSup (s : State) (d : Die) (p : Nat) (c : SupCore) : State := { s with sup := Tab.put (fun _ => {}) s.sup (supKey d p) c }

/-- SPR_DBG_CTRL of a pair that is out of service or halted from there: EN, and HALT, RUN and STEP (R442).  HALT takes effect at the next
boundary, which is now, between two instructions; STEP lets one instruction be executed. -/
def State.sprDbg (s : State) (d : Die) (p : Nat) (v : Word) : State :=
  let st := s.fld (R.SPR_STAT d p) 0 3
  let s := s.setFlag (R.SPR_DBG_CTRL d p) 8 (bit v 8)
  if bit v 0 ∧ st = 4 then s.setFld (R.SPR_STAT d p) 0 3 1
  else if bit v 2 ∧ st = 1 then (s.setFld (R.SPR_STAT d p) 0 3 4).setSup d p { s.supOf d p with step := false }
  else if bit v 1 ∧ st = 1 then s.setSup d p { s.supOf d p with step := true }
  else s

/-- HLT, the supervisor registers among it; a unit class of the query outside 2 to 12 is refused (R442, R536, R569). -/
def effHlt (who : Requester) (d : Die) (off : Nat) (v : Word) (s : State) : Eff :=
  if off = 0x14 then
    if bits v 0 14 < 10 ∨ bits v 0 14 > 10_000 then .error causeRULE else .ok (s.rowWrite d 41 off v)
  else if off = 0x40 then if bits v 0 4 < 2 ∨ 12 < bits v 0 4 then .error causeRULE else .ok (s.unitSelect d v)
  else if 0x8000 ≤ off ∧ off < 0x8200 then
    let p := (off - 0x8000) / 0x100
    let o := off % 0x100
    if o = 0x2C then if s.pairDebug who d p then .ok (s.sprDbg d p v) else .error causeRULE
    else if 0x30 ≤ o ∧ o ≤ 0x44 then
      if s.pairDebug who d p ∧ s.fld (R.SPR_STAT d p) 0 3 = 1 then .ok (s.rowWrite d 41 off v) else .error causeRULE
    else .ok (s.rowWrite d 41 off v)
  else .ok (s.rowWrite d 41 off v)

/-- The Log Fault Record of a die cleared (R526). -/
def State.lfrClear (s : State) (d : Die) : State :=
  let s := s.setLog d { s.logOf d with lfr := [] }
  ((List.range 16).foldl (fun s i => s.setReg (R.LOG_LFR d i) 0) s).setFld (R.LOG_LFR_STAT d) 0 3 0

/-- LOG: CLEAR is refused while RING = 1 (R537). -/
def effLog (d : Die) (off : Nat) (v : Word) (s : State) : Eff :=
  if off = 0x144 then
    if !bit v 0 then .ok s
    else if s.flag (R.LOG_LFR_STAT d) 3 then .error causeRULE
    else .ok (s.lfrClear d)
  else .ok (s.rowWrite d 42 off v)

/-- A write of 32 bits to a register of any block, by the register's own rule. -/
def regEff (who : Requester) (d : Die) (b off : Nat) (v : Word) (s : State) : Eff :=
  if h : 10 ≤ b ∧ b < 34 then effCe who d ⟨b - 10, by omega⟩ off v s
  else match b with
    | 1 => effRst who d off v s
    | 3 => effPwr who d off v s
    | 5 => effMbx who d off v s
    | 6 => effDbl who d off v s
    | 7 => effPlc d off v s
    | 9 => writeUnit who d 9 off v s
    | 34 => effSw d off v s
    | 35 => effMac d off v s
    | 37 => writeUnit who d 37 off v s
    | 38 => writeUnit who d 38 off v s
    | 39 => writeUnit who d 39 off v s
    | 40 => writeUnit who d 40 off v s
    | 41 => effHlt who d off v s
    | 42 => effLog d off v s
    | 43 => if off < 0xC0 then effPinCfg who d (off / 4) v s else .ok (s.rowWrite d 43 off v)
    | _ => .ok (s.rowWrite d b off v)

/-- A 64-bit write of a declared pair: TB_CMP_TGT commits in one step, the others ignore it (R308, R543). -/
def pairEff (who : Requester) (d : Die) (b off : Nat) (lo hi : Word) (s : State) : Eff :=
  if b = 37 ∧ 0x1000 ≤ off ∧ off < 0x1800 then effCmpHi who d ((off - 0x1000) / 0x20) (some lo) hi s
  else .ok s

/-! ## Memories (R23 to R26, R434, R548) -/

/-- The requester port a requester's pool accesses use on a die (R28). -/
def poolPort (who : Requester) (e : Die) : Nat :=
  if who.die ≠ e then 10
  else match who with
    | .sup _ _ => 13
    | .ce _ k => k.val / 6
    | _ => 14

/-- Check 4 for the pool: the link, and the die's start-up (R37, R546). -/
def State.poolOff (s : State) (who : Requester) (d : Die) : Bool :=
  (decide (who.die ≠ d) && !s.linkUp) || (!s.running d && !who.isSup d)

/-- The bytes a write of a width carries, absent where it has no byte enable. -/
def widthBytes (w : Width) (v hi : Word) : List (Option Byte) :=
  let bs := leBytes 4 v.toNat
  match w with
  | .w64 => (bs ++ leBytes 4 hi.toNat).map some
  | .w32 => bs.map some
  | .w16 h => (List.range 4).map fun i => if (i / 2 = 1) = h then some (bs.getD i 0) else none
  | .w8 l => (List.range 4).map fun i => if i = l.val then some (bs.getD i 0) else none
  | .odd => []

/-- The lanes of a word that a read of a width returns; the others read 0 (R541). -/
def widthMask (w : Width) (v : Word) : Word :=
  match w with
  | .w16 h => v &&& (if h then 0xFFFF0000 else 0x0000FFFF)
  | .w8 l => v &&& maskOf (8 * l.val) 8
  | _ => v

/-- A read of supervisor memory by its die's pair `p`: a single-bit error is counted and written back, an uncorrectable one refused with
MEMORY (R435). -/
def State.supRead (s : State) (d : Die) (p a n : Nat) : Except Nat (List Byte) × State :=
  match Tab.get (fun _ => 0) s.supEcc (a / 4) with
  | 0 => (.ok (s.load a n), s)
  | 1 => (.ok (s.load a n), ({ s with supEcc := Tab.put (fun _ => 0) s.supEcc (a / 4) 0 }).count (R.SPR_ECC_CORR d p))
  | _ => (.error causeMEMORY, s)

/-- A write of supervisor memory: a whole word stores good check bits, a byte reads the rest of its word first. -/
def State.supWrite (s : State) (d : Die) (p a : Nat) (bs : List Byte) : Except Nat Unit × State :=
  if bs.length = 4 then (.ok (), ({ s with supEcc := Tab.put (fun _ => 0) s.supEcc (a / 4) 0 }).store a bs)
  else match s.supRead d p (a / 4 * 4) 4 with
    | (.error c, t) => (.error c, t)
    | (.ok _, t) => (.ok (), t.store a bs)

/-- R26: what refuses an access to an engine's local memory. -/
def State.ceMemRefuses (s : State) (who : Requester) (d : Die) (k : Fin 24) (off : Nat) : Bool :=
  let st := s.ceState d k
  let inCode : Bool := (List.range 63).any fun n => s.flag (R.CE_SLOT_W0 d k n) 31 &&
    decide ((off + 0x1_0000 - s.fld (R.CE_SLOT_W1 d k n) 4 12 * 16) % 0x1_0000 < s.fld (R.CE_SLOT_W1 d k n) 16 13 * 16)
  !(st = 2 || st = 3) && !(who.isSup d && decide (off < 0x1_0000) && !inCode)

/-- Whether a requester is an engine: engines reach registers and, through their windows, the pool only. -/
def reqIsCe : Requester → Bool
  | .ce _ _ => true
  | _ => false

/-- The pair number of a supervisor. -/
def reqPair : Requester → Nat
  | .sup _ p => p.val
  | _ => 0

/-! ## One access at an internal address (R546) -/

/-- What a write gives: the cause it is refused with, if any, and the state after. -/
def State.busWrite (s : State) (who : Requester) (a : Nat) (w : Width) (v hi : Word) : Option Nat × State :=
  let out (e : Eff) : Option Nat × State := match e with | .ok t => (none, t) | .error c => (some c, s)
  match targetOf (canonAddr a) with
  | .reg d b off =>
    match s.regCheck who a w true with
    | some c => (some c, s)
    | none =>
      if s.engineRefuses who a then (some causeRULE, s)
      else if w = .w64 then out (pairEff who d b off v hi s)
      else out (regEff who d b off v s)
  | .pool d off =>
    if a % w.size ≠ 0 then (some causeALIGN, s)
    else if s.poolOff who d then (some causeDOMAIN_OFF, s)
    else match s.poolWriteSpan d (poolPort who d) off (widthBytes w v hi) 2 with
      | (.ok _, t) => (none, t)
      | (.error c, t) => (some c, t)
  | .ceMem d k off =>
    if reqIsCe who then (some causeNO_TARGET, s)
    else if a % 4 ≠ 0 then (some causeALIGN, s)
    else if w ≠ .w32 then (some causeWIDTH, s)
    else if s.domainOff who d 10 then (some causeDOMAIN_OFF, s)
    else if h : k < 24 then
      if s.ceMemRefuses who d ⟨k, h⟩ off then (some causeRULE, s)
      else (none, (s.setLocalEcc a 0).store a (leBytes 4 v.toNat))
    else (some causeNO_TARGET, s)
  | .supMem d =>
    if !who.isSup d then (some causeNO_TARGET, s)
    else
      let bs := (widthBytes w v hi).filterMap id
      let at_ := a + ((widthBytes w v hi).findIdx? fun b => b.isSome).getD 0
      match s.supWrite d (reqPair who) at_ bs with
      | (.ok _, t) => (none, t)
      | (.error c, t) => (some c, t)
  | .logMem d => if who.isSup d then (none, s.storeEn a (widthBytes w v hi)) else (some causeNO_TARGET, s)
  | .nothing => (some causeNO_TARGET, s)

/-- The read of a register, once checks 1 to 6 have passed: the words, or none where it stalls on a stream FIFO (R73, R162, R407). -/
def State.regRead (s : State) (who : Requester) (d : Die) (b off : Nat) (w : Width) : Except Nat (Option (List Word)) × State :=
  let serial : Bool := match who with | .h2 => true | .h2s => true | .h3 => true | _ => false
  let other : Bool := match who with | .ce e k => sideEffectRead b off && s.otherSlot e k.val b off | _ => false
  if (b = 9 ∨ b = 38) ∧ other then (.error causeRULE, s)
  else if isSfqData b off then
    if serial then (.error causeRULE, s)
    else match s.sfqRead who d ((off - 0x100) / 0x40) (decide (w = .w64)) with
      | (.error c, t) => (.error c, t)
      | (.ok none, t) => (.ok none, t)
      | (.ok (some x), t) => (.ok (some (if w = .w64 then [wd x, wd (x / 0x1_0000_0000)] else [wd x])), t)
  else match readReg who d b off s with
    | .error c => (.error c, s)
    | .ok (x, t) => (.ok (some (if w = .w64 then [x, readHigh who d b t] else [widthMask w x])), t)

/-- What a read gives: its words, none where it stalls, or the cause it is refused with; and the state after. -/
def State.busRead (s : State) (who : Requester) (a : Nat) (w : Width) : Except Nat (Option (List Word)) × State :=
  let bytes (r : Except Nat (List Byte) × State) : Except Nat (Option (List Word)) × State :=
    match r with
    | (.ok bs, t) => (.ok (some ((bytesWords bs).map (widthMask w))), t)
    | (.error c, t) => (.error c, t)
  match targetOf (canonAddr a) with
  | .reg d b off =>
    match s.regCheck who a w false with
    | some c => (.error c, s)
    | none => s.regRead who d b off w
  | .pool d off =>
    if a % w.size ≠ 0 then (.error causeALIGN, s)
    else if s.poolOff who d then (.error causeDOMAIN_OFF, s)
    else bytes (s.poolReadSpan d (poolPort who d) off w.size 2)
  | .ceMem d k off =>
    if reqIsCe who then (.error causeNO_TARGET, s)
    else if a % 4 ≠ 0 then (.error causeALIGN, s)
    else if w ≠ .w32 then (.error causeWIDTH, s)
    else if s.domainOff who d 10 then (.error causeDOMAIN_OFF, s)
    else if h : k < 24 then
      if s.ceMemRefuses who d ⟨k, h⟩ off then (.error causeRULE, s)
      else match s.localRead d ⟨k, h⟩ a 4 with
        | (some x, t) => (.ok (some [wd x]), t)
        | (none, t) => (.error causeMEMORY, t)
    else (.error causeNO_TARGET, s)
  | .supMem d => if !who.isSup d then (.error causeNO_TARGET, s) else bytes (s.supRead d (reqPair who) a w.size)
  | .logMem d => if who.isSup d then bytes (.ok (s.load a w.size), s) else (.error causeNO_TARGET, s)
  | .nothing => (.error causeNO_TARGET, s)

/-! ## The port registers of H3 (R167 to R169) -/

/-- The internal address in the port registers; bits [1:0] are ignored. -/
def State.h3Addr (s : State) : Nat := (s.h3.addr0 + s.h3.addr1 * 0x1_0000 + s.h3.addr2 % 0x100 * 0x1_0000_0000) / 4 * 4

/-- The address after a completed access: 4 more where AINC is set. -/
def State.h3Next (s : State) : State :=
  if s.h3.addr2 / 0x100 % 2 = 0 then s
  else
    let a := (s.h3.addr0 + s.h3.addr1 * 0x1_0000 + s.h3.addr2 % 0x100 * 0x1_0000_0000 + 4) % 0x100_0000_0000
    { s with h3 := { s.h3 with addr0 := a % 0x1_0000, addr1 := a / 0x1_0000 % 0x1_0000, addr2 := 0x100 + a / 0x1_0000_0000 } }

/-- A refused access: CAUSE, ERR, the record, and H3_BERR_N with H3_D at 0 (R170, R171, R546). -/
def State.h3Refuse (s : State) (a : Nat) (wr : Bool) (c : Nat) : State :=
  (({ s with h3 := { s.h3 with cause := c, err := true } }).recordRefusal .h3 a wr c).emit (.par true 0)

/-- A write of a port register. -/
def State.h3Write (s : State) (n v : Nat) : State :=
  let done (s : State) : State := s.emit (.par false 0)
  match n with
  | 0 => done { s with h3 := { s.h3 with addr0 := v } }
  | 1 => done { s with h3 := { s.h3 with addr1 := v } }
  | 2 => done { s with h3 := { s.h3 with addr2 := v % 0x200 } }
  | 3 => done { s with h3 := { s.h3 with dataL := v } }
  | 4 => match s.busWrite .h3 s.h3Addr .w32 (wd (s.h3.dataL + v * 0x1_0000)) 0 with
    | (none, t) => done t.h3Next
    | (some c, t) => t.h3Refuse s.h3Addr true c
  | 5 => done (if v % 2 = 1 then { s with h3 := { s.h3 with err := false } } else s)
  | _ => done s

/-- A read of a port register. -/
def State.h3Read (s : State) (n : Nat) : State :=
  let got (s : State) (v : Nat) : State := s.emit (.par false v)
  match n with
  | 0 => got s s.h3.addr0
  | 1 => got s s.h3.addr1
  | 2 => got s s.h3.addr2
  | 3 => match s.busRead .h3 s.h3Addr .w32 with
    | (.ok ws, t) =>
      let x := ((ws.getD []).headD 0).toNat
      got ({ t with h3 := { t.h3 with dataH := x / 0x1_0000 } }).h3Next (x % 0x1_0000)
    | (.error c, t) => t.h3Refuse s.h3Addr false c
  | 4 => got s s.h3.dataH
  | 5 => got s (s.h3.cause * 16 + (if s.h3.err then 1 else 0))
  | _ => got s 0

/-! ## Accesses as commands -/

/-- A write of a requester, checked, performed or refused, recorded and answered (R170, R171, R546).  An offset outside every range, and one
of the MSI-X table or pending bits, has no internal address to record: a free value stands there (DESIGN CHOICE, log entry 56). -/
def State.accWrite (s : State) (who : Requester) (a : AccAddr) (w : Width) (v hi : Word) : State :=
  match leadOf who a with
  | .at_ x => match s.busWrite who x w v hi with
    | (none, t) => t.emit (.answer who x .done)
    | (some c, t) => t.refuse who x true c
  | .msix d fn off =>
    if off % 4 ≠ 0 then s.drawn.refuse who s.freeNow.toNat true causeALIGN
    else if w ≠ .w32 then s.drawn.refuse who s.freeNow.toNat true causeWIDTH
    else (s.msixWrite d fn off v).emit (.answer who off .done)
  | .pba _ _ off =>
    if off % 4 ≠ 0 then s.drawn.refuse who s.freeNow.toNat true causeALIGN
    else if w ≠ .w32 then s.drawn.refuse who s.freeNow.toNat true causeWIDTH else s.emit (.answer who off .done)
  | .h3 n => s.h3Write n (v.toNat % 0x1_0000)
  | .none => s.drawn.refuse who s.freeNow.toNat true causeNO_TARGET

/-- A read of a requester, likewise. -/
def State.accRead (s : State) (who : Requester) (a : AccAddr) (w : Width) : State :=
  match leadOf who a with
  | .at_ x => match s.busRead who x w with
    | (.ok (some ws), t) => t.emit (.answer who x (.data ws))
    | (.ok none, t) => t.emit (.answer who x .stalled)
    | (.error c, t) => t.refuse who x false c
  | .msix d fn off =>
    if off % 4 ≠ 0 then s.drawn.refuse who s.freeNow.toNat false causeALIGN
    else if w = .w64 ∨ w = .odd then s.drawn.refuse who s.freeNow.toNat false causeWIDTH
    else s.emit (.answer who off (.data [widthMask w (s.msixRead d fn off)]))
  | .pba d fn off =>
    if off % 4 ≠ 0 then s.drawn.refuse who s.freeNow.toNat false causeALIGN
    else if w = .w64 ∨ w = .odd then s.drawn.refuse who s.freeNow.toNat false causeWIDTH
    else s.emit (.answer who off (.data [widthMask w (if off < 4 then Tab.get (fun _ => 0) s.msixPba (d.idx * 2 + fn) else 0)]))
  | .h3 n => s.h3Read n
  | .none => s.drawn.refuse who s.freeNow.toNat false causeNO_TARGET

/-- REGISTER_WRITE (R546). -/
def execRegisterWrite (who : Requester) (a : AccAddr) (w : Width) (v hi : Word) (s : State) : Host.Outcome State Fault Refusal :=
  .next (s.accWrite who a w v hi)

/-- COUNTER_READ_CLEAR: a read, which clears the RC fields it returns (R10). -/
def execCounterReadClear (who : Requester) (a : AccAddr) (w : Width) (s : State) : Host.Outcome State Fault Refusal :=
  .next (s.accRead who a w)

/-- PAIR_LO_READ: a read of a pair's _LO, which latches the high half (R320, R544). -/
def execPairLoRead (who : Requester) (a : AccAddr) (w : Width) (s : State) : Host.Outcome State Fault Refusal :=
  .next (s.accRead who a w)

/-- H3_DATA_L_READ (R167). -/
def execH3DataLRead (s : State) : Host.Outcome State Fault Refusal := .next (s.h3Read 3)

/-- H3_DATA_H_WRITE (R167). -/
def execH3DataHWrite (v : BitVec 16) (s : State) : Host.Outcome State Fault Refusal := .next (s.h3Write 4 v.toNat)

/-- HOST_POOL_TLP: a TLP to BAR2 of a function (R157): part by part in address order, up to the first refused part.  The record of a refusal
names the TLP's own address, whichever part was refused (DESIGN CHOICE, log entry 96).  A write is posted and has no completion (R170). -/
def execHostPoolTlp (d : Die) (fn : Fin 2) (off : Nat) (rd : Nat) (wr : List (Option Byte)) (isWr : Bool) (s : State) :
    Host.Outcome State Fault Refusal :=
  let who : Requester := if fn = 0 then .pf0 d else .pf1 d
  .next (match barAddr d (.bar2 off) with
    | none =>
      let t := (s.drawn).recordRefusal who s.freeNow.toNat isWr causeNO_TARGET
      t.emit (.tlp d fn.val false [] (cplOf who isWr causeNO_TARGET))
    | some a =>
      let e := dieOfAddr a
      let x := a % 0x80_0000_0000
      let bad (t : State) (c : Nat) : State := (t.recordRefusal who a isWr c).emit (.tlp d fn.val false [] (cplOf who isWr c))
      if s.poolOff who e then bad s causeDOMAIN_OFF
      else if isWr then match s.poolWriteSpan e (poolPort who e) x wr (lineCount x wr.length) with
        | (.ok _, t) => t.emit (.tlp d fn.val true [])
        | (.error c, t) => bad t c
      else match s.poolReadSpan e (poolPort who e) x rd (lineCount x rd) with
        | (.ok bs, t) => t.emit (.tlp d fn.val true bs (some .sc))
        | (.error c, t) => bad t c)

/-! ## Rows that are one write -/

/-- PLC_QUERY_WINDOW: a write of PLC_QRY_HANDLE (R124). -/
def execPlcQueryWindow (who : Requester) (d : Die) (v : Word) (s : State) : Host.Outcome State Fault Refusal :=
  .next (s.guardWrite who (R.PLC_QRY_HANDLE d) .w32 (effPlc d 0x400 v))

/-- WATCHDOG_KICK: a write of RST_WD_KICK (R487). -/
def execWatchdogKick (who : Requester) (d : Die) (v : Word) (s : State) : Host.Outcome State Fault Refusal :=
  .next (s.guardWrite who (R.RST_WD_KICK d) .w32 (effRst who d 0x10 v))

/-- HLT_UNIT_SELECT: a write of HLT_UNIT_SEL (R536). -/
def execHltUnitSelect (who : Requester) (d : Die) (v : Word) (s : State) : Host.Outcome State Fault Refusal :=
  .next (s.guardWrite who (R.HLT_UNIT_SEL d) .w32 (effHlt who d 0x40 v))

/-- LOG_LFR_CLEAR: a write of LOG_LFR_CTRL (R526, R537). -/
def execLogLfrClear (who : Requester) (d : Die) (v : Word) (s : State) : Host.Outcome State Fault Refusal :=
  .next (s.guardWrite who (R.LOG_LFR_CTRL d) .w32 (effLog d 0x144 v))

end Sys2Proof.Machine
end

