-- ==== Sys2Proof/Machine/Duolay.lean ====
section
/-! DEFINITION. The Duolay link (R29 to R40, R47): transfers in order and once, lanes, the link going down and re-joining. -/

namespace Sys2Proof.Machine

/-! ## Transfers (R31) -/

/-- What the receiving die keeps of a direction. -/
def State.dlyOf (s : State) (d : Die) : DlyDir := Tab.get (fun _ => {}) s.dly d.idx

/-- The state with it replaced. -/
def State.setDly (s : State) (d : Die) (x : DlyDir) : State := { s with dly := Tab.put (fun _ => {}) s.dly d.idx x }

/-- Lanes in use of the direction that a die receives. -/
def State.rxLanes (s : State) (d : Die) : Nat := s.fld (R.SYS_DLY_STAT d) 2 2

/-- A bit of SYS_DLY_EVENT set, with doorbell LINK (R47, R179). -/
def State.dlyEvent (s : State) (d : Die) (i : Nat) : State := s.event d (R.SYS_DLY_EVENT d) i dblLINK

/-- `n` transfers retransmitted by the sender of the direction that `d` receives: counted, and while more than 1,024 lie in the last 1 ms
each retransmission sets RETRY_EXCESS on the sender; it is logged there when the sum passes 1,024 or when the bit had been cleared (R34, R47,
R522; log entry 89). -/
def State.retransmit (s : State) (d : Die) (n : Nat) : State :=
  let e := d.other
  let s := s.countBy (R.SYS_DLY_RETRY e) n
  let x := s.dlyOf d
  let old := x.retryAt.filter fun r => s.lin e < r.1 + 1_000_000
  let before := (old.map Prod.snd).sum
  let s := s.setDly d { x with retryAt := if n = 0 then old else old ++ [(s.lin e, n)] }
  if n ≠ 0 ∧ before + n > 1024 ∧ (before ≤ 1024 ∨ !s.flag (R.SYS_DLY_EVENT e) 3) then
    (s.dlyEvent e 3).logEv e 0x104 2 0 0 (before + n)
  else s

/-- The transfers of a sender's retry buffer in flight when a lane fails, the oldest `n`, sent again (R34). -/
def State.dlyAgain (s : State) (e : Die) (n : Nat) : State := s.dlyResend e ((s.dlyWait e).take n)

/-- A payload delivered to its destination: a frame through switch port 15 with its tail status (R200); nothing of another kind
is carried in this model (log entry 7). -/
def State.dlyDeliver (s : State) (d : Die) (payload : List Byte) : State :=
  match payload with
  | [] => s
  | k :: _ =>
    if k ≠ 0 then s else
    let (f, bad) := decodeFrm payload
    let s := if bad then s.count (R.SW_STOMP_RX d 15) else s
    s.switchFrame d 15 { f with stomped := bad, ends := !bad } bad (f.bytes.length + 4)

/-- Held transfers of a class delivered (a message of class L1 shows on receiver 0, R441) while the next one in order is there; `n` bounds the rounds. -/
def State.dlyDrain (s : State) (d : Die) (cls : Nat) : Nat → State
  | 0 => s
  | n + 1 =>
    let x := s.dlyOf d
    let k := x.nextSeq.getD cls 0
    match x.held.find? fun h => h.1 = cls && h.2.1 = k with
    | none => s
    | some h =>
      let s := s.setDly d { x with nextSeq := x.nextSeq.set cls (k + 1), held := x.held.filter fun y => !(y.1 = cls && y.2.1 = k) }
      let s := s.dlyDeliver d h.2.2
      (if cls = 1 then s.raiseSup d 27 else s).dlyDrain d cls n

/-- DUOLAY_TRANSFER_RX: a transfer of a class arrives at a die, `corr` of its codewords corrected, or uncorrectable, whereupon its sender
sends it again; one that arrives whole is acknowledged, a second copy of it too, and delivered once and in order (R31, R47). -/
def execDuolayTransferRx (d : Die) (cls : Fin 4) (seq : Nat) (payload : List Byte) (corr : Nat) (uncorr : Bool) (s : State) :
    Host.Outcome State Fault Refusal :=
  .next (if s.rxLanes d = 0 ∨ !s.linkUp then s else
    let s := s.countBy (R.SYS_DLY_CORR d) corr
    if uncorr then
      ((s.count (R.SYS_DLY_UNCORR d)).retransmit d 1).dlyResend d.other
        ((s.dlyWait d.other).filter fun x => x.1 = cls.val && x.2.1 = seq)
    else
      let s := s.dlyAck d.other cls.val seq
      let x := s.dlyOf d
      if seq < x.nextSeq.getD cls.val 0 ∨ x.held.any (fun h => h.1 = cls.val && h.2.1 = seq) then s
      else (s.setDly d { x with held := x.held ++ [(cls.val, seq, payload)] }).dlyDrain d cls.val (x.held.length + 1))

/-! ## Roles of the pairs (R419, R420, R422) -/

/-- The primary die. -/
def State.primary (s : State) : Die := dieOf (s.fld (R.SPR_ROLES .d0) 0 1)

/-- Whether a pair runs. -/
def State.pairRuns (s : State) (d : Die) (p : Nat) : Bool := decide (s.fld (R.SPR_STAT d p) 0 3 = 0)

/-- ROLE, MIRROR and AGENT of a die's pairs: a pair that does not run takes none; without the link a die's pairs hold their roles. -/
def State.showPairs (s : State) (d : Die) : State :=
  let main := decide (s.primary = d) || !s.linkUp
  let one (s : State) (p : Nat) : State :=
    let run := s.pairRuns d p
    let s := s.setFld (R.SPR_STAT d p) 4 2 (if main && run then p + 1 else 0)
    let s := s.setFlag (R.SPR_STAT d p) 6 (!main && run)
    s.setFlag (R.SPR_STAT d p) 7 (run && (decide (p = 0) || !s.pairRuns d 0))
  one (one s 0) 1

/-- The roles of both dies shown: the pairs', and PRIMARY of the SYS and CMD blocks (R422). -/
def State.showRoles (s : State) : State :=
  let one (s : State) (d : Die) : State :=
    let m := decide (s.primary = d)
    ((s.setFlag (R.SYS_DIE d) 1 m).setFlag (R.CMD_STAT d) 8 m).showPairs d
  (one (one s .d0) .d1).showPlanner

/-! ## The link going down (R36 to R38, R141) -/

/-- Reads of one die that stall on a stream FIFO of the other end with LINK_LOST (R38, R74); `n` FIFOs are left. -/
def State.endRemoteStalls (s : State) (d : Die) : Nat → State
  | 0 => s
  | n + 1 =>
    (s.sfqEndWhere d n (fun who => who.die ≠ d) causeLINK_LOST).endRemoteStalls d n

/-- Accepted commands whose target is on the other die than their interpreter end with DOMAIN_OFF (R141). -/
def State.endRemoteCmds (s : State) : List (Die × HostCmd) → State
  | [] => s
  | (i, c) :: t => (if c.cls ≠ 0 ∧ c.tdie ≠ i then s.complete c stDOMAIN_OFF 0 [] else s).endRemoteCmds t

/-- One die's side of a link that is down: the lanes that have not failed stay as they are. -/
def State.dieLinkDown (s : State) (d : Die) : State :=
  let a := R.SYS_DLY_STAT d
  let s := (s.setFld a 4 2 2).setFlag a 9 false
  let s := ((s.setFlag (R.SYS_DIE d) 2 true).setFlag (R.PLC_STAT d) 1 true).setFlag (R.PLC_STAT d) 0 (s.running d)
  let s := (s.countFld (R.SYS_DLY_DOWNCNT d) 0 16 1).dlyEvent d 1
  s.logEv d 0x102 3 0 0 0

/-- The frames of a die still in flight when the link goes down are lost and counted, and their transmit descriptors told so (R222, R245). -/
def State.dlyLost (s : State) (d : Die) : List (Nat × Nat × List Byte) → State
  | [] => s
  | x :: t =>
    let s := if x.2.2.headD 1 = 0 then (s.count (R.SW_FLUSH d 15)).txBack d (decodeFrm x.2.2).1 false false 1 15 none else s
    s.dlyLost d t

/-- The link is declared down by both dies (R36): each governs itself with its own pairs in the roles (R86, R422), sequences start anew, what
waited on the other die ends, and Die 1's time base goes on at its last INC, its slew cancelled and its slaving lost (R301). -/
def State.linkLost (s : State) : State :=
  if !s.linkUp then s else
  let cmds := (s.interpOf .d0).async.map (fun c => (Die.d0, c)) ++ (s.interpOf .d1).async.map (fun c => (Die.d1, c))
  let q0 := s.planEvents .d0
  let q1 := s.planEvents .d1
  let s := (s.dieLinkDown .d0).dieLinkDown .d1
  let s := (s.dlyLost .d0 (s.dlyWait .d0)).dlyLost .d1 (s.dlyWait .d1)
  let s := { s with dly := [], dlyTx := [], dlyBuf := [] }
  let s := (s.showPairs .d0).showPairs .d1
  let all := q0 ++ q1
  let s := (s.setPlanEvents .d0 (all.filter fun e => e.die = .d0)).setPlanEvents .d1 (all.filter fun e => e.die = .d1)
  let s := s.slaveLost.setSlew .d1 0
  let s := (s.chooseSource .d0).chooseSource .d1
  let s := (s.portFlush .d0 15).portFlush .d1 15
  let s := (s.endRemoteStalls .d0 32).endRemoteStalls .d1 32
  let s := s.endRemoteCmds cmds
  let s := (s.showLog .d0).showLog .d1
  (s.plan .d0 .linkDown).plan .d1 .linkDown

/-- A lane that a die receives on taken out, with `retx` transfers in flight on it, which are sent again (R34, R36); while the link is down
only the lane is noted. -/
def State.laneFail (s : State) (d : Die) (l retx : Nat) : State :=
  let e := d.other
  if !s.flag (R.SYS_DLY_STAT d) (2 + l) then s else
    let s := (s.setFlag (R.SYS_DLY_STAT d) (2 + l) false).setFlag (R.SYS_DLY_STAT e) l false
    let s := ((s.dlyEvent d 0).dlyEvent e 0).logEv d 0x101 2 0 (2 * (if d = .d1 then 0 else 1) + l) 0
    if !s.linkUp then s else
    let s := s.retransmit d retx
    if s.rxLanes d = 0 then s.linkLost
    else
      let s := s.dlyAgain e retx
      let s := (s.setFld (R.SYS_DLY_STAT d) 4 2 1).setFld (R.SYS_DLY_STAT e) 4 2 1
      s.plan d .linkDegraded

/-- LANE_FAIL: a lane that a die receives on is declared failed; `retx` transfers were in flight on it (R34, R36). -/
def execLaneFail (d : Die) (lane : Fin 2) (retx : Nat) (s : State) : Host.Outcome State Fault Refusal := .next (s.laneFail d lane.val retx)

/-- Every lane of both directions taken out. -/
def State.lanesOut (s : State) : State := (s.setFld (R.SYS_DLY_STAT .d0) 0 4 0).setFld (R.SYS_DLY_STAT .d1) 0 4 0

/-- LINK_ACK_TIMEOUT: a sender has had no acknowledgement for 10 µs, after `retx` retransmissions (R36).  No lane is known to be good
then: all four are retrained before the link is re-joined (log entry 89). -/
def execLinkAckTimeout (d : Die) (retx : Nat) (s : State) : Host.Outcome State Fault Refusal :=
  .next (if !s.linkUp then s else ((s.retransmit d.other retx).dlyAgain d retx).linkLost.lanesOut)

/-! ## Lanes returning (R39, R527) -/

/-- Entries of a die's log copied from its memory to its mirror, from `k` on; `n` are left. -/
def State.logCopy (s : State) (d : Die) (k : Nat) : Nat → State
  | 0 => s
  | n + 1 => (s.mirWrite d k (s.words (logSlot d k) 4)).logCopy d (k + 1) n

/-- A die sends the other the entries that the mirror of its log lacks (R527); logged as 0x704 with their number (R522). -/
def State.logResync (s : State) (d : Die) : State :=
  let l := s.logOf d
  match l.mirLack with
  | none => s
  | some k =>
    if !s.mirReach d ∨ !l.primOk then s else
    let head := (s.getReg (R.LOG_HEAD d)).toNat
    let n := min (head - k) (head - (s.getReg (R.LOG_OLDEST d)).toNat)
    ((s.logCopy d (head - n) n).setLog d { l with mirLack := none }).logEv d 0x704 1 0 0 n

/-- One die's side of a link that is up again: mode, LINK_UP and the log with the link epoch (R39, R47, R522). -/
def State.dieLinkUp (s : State) (d : Die) (rejoin : Bool) : State :=
  let a := R.SYS_DLY_STAT d
  let s := s.setFld a 4 2 (if s.fld a 0 4 = 15 then 0 else 1)
  let s := if rejoin then s.wrapFld a 16 16 else s
  let s := ((s.setFlag (R.SYS_DIE d) 2 false).setFlag (R.PLC_STAT d) 1 false).dlyEvent d 2
  s.logEv d 0x103 1 0 0 (s.fld a 16 16)

/-- REPLY no longer carried to a die's receivers on account of what was kept before the link failed (R179). -/
def State.replyForgotten (s : State) (d : Die) : State :=
  (List.range 4).foldl (fun s r =>
    let m := Tab.get (fun _ => (0 : Word)) s.dblRemote (rcvKey d r)
    { s with dblRemote := Tab.put (fun _ => 0) s.dblRemote (rcvKey d r) (m &&& ~~~maskOf dblREPLY 1) }) s

/-- REPLY kept to be carried to the receiver on the other die of every channel of a die whose OUT_VALID still reads 1 (R179). -/
def State.repliesWaiting (s : State) (d : Die) : State :=
  (List.range 32).foldl (fun s c =>
    match ownerReceiver (s.fld (R.MBX_CH_STAT d c) 29 3) with
    | some (e, r) => if e = d.other ∧ s.flag (R.MBX_CH_STAT d c) 8 then s.dblQueue e r (maskOf dblREPLY 1) else s
    | none => s) s

/-- The link is up, trained for the first time or re-joined: one planner plans both dies again, Die 1's time base re-slaves, the log
mirrors are completed, and the mirrors of the roles are to be built anew (R39, R86, R423, R527). -/
def State.linkJoined (s : State) (rejoin : Bool) : State :=
  let s := (s.dieLinkUp .d0 rejoin).dieLinkUp .d1 rejoin
  let s := s.releaseLate
  let s := (s.replyForgotten .d0).replyForgotten .d1
  let s := (s.repliesWaiting .d0).repliesWaiting .d1
  let p := if s.flag (R.SYS_DIE .d0) 1 then Die.d0 else Die.d1
  let q := s.planEvents p ++ s.planEvents p.other
  let s := ((s.setPlanEvents p.other []).setPlanEvents p q).setFlag (R.PLC_STAT p.other) 0 false
  let s := { s with slvRun := 0, mirror := [] }
  let s := (s.showPairs .d0).showPairs .d1
  let s := s.setFlag (R.RST_CFG .d1) 0 (s.flag (R.RST_CFG .d0) 0)
  let s := (s.chooseSource .d0).chooseSource .d1
  ((((s.logResync .d0).logResync .d1).pgShow .d0).pgShow .d1).showLog .d0 |>.showLog .d1

/-- LANE_RETURN: a retrained lane has held for 100 ms and is returned (R39). -/
def execLaneReturn (d : Die) (lane : Fin 2) (s : State) : Host.Outcome State Fault Refusal :=
  let l := lane.val
  let e := d.other
  let mode := s.fld (R.SYS_DLY_STAT .d0) 4 2
  .next (if s.flag (R.SYS_DLY_STAT d) (2 + l) ∨ mode = 3 then s else
    let s := (s.setFlag (R.SYS_DLY_STAT d) (2 + l) true).setFlag (R.SYS_DLY_STAT e) l true
    if mode = 2 then (if s.rxLanes d ≠ 0 ∧ s.rxLanes e ≠ 0 then s.linkJoined true else s)
    else if s.rxLanes d = 3 ∧ s.rxLanes e = 3 then (s.setFld (R.SYS_DLY_STAT d) 4 2 0).setFld (R.SYS_DLY_STAT e) 4 2 0
    else s)

end Sys2Proof.Machine
end

