-- ==== Sys2Proof/Machine/Crypto.lean ====
section
/-! DEFINITION. The algorithms R164 and R165 name for the secure session of port H2: SHA-384 with HMAC and HKDF, and AES-256 in GCM.
PRESUMED: the spec names them and defines none; what stands here is FIPS 180-4, RFC 2104, RFC 5869, FIPS 197 and SP 800-38D
(log entry 8). -/

namespace Sys2Proof.Machine.Crypto

/-! ## SHA-384 -/

/-- Round constants 0 to 39 of SHA-512. -/
def k0 : List (BitVec 64) := [0x428A2F98D728AE22, 0x7137449123EF65CD, 0xB5C0FBCFEC4D3B2F, 0xE9B5DBA58189DBBC, 0x3956C25BF348B538,
    0x59F111F1B605D019, 0x923F82A4AF194F9B, 0xAB1C5ED5DA6D8118, 0xD807AA98A3030242, 0x12835B0145706FBE, 0x243185BE4EE4B28C,
    0x550C7DC3D5FFB4E2, 0x72BE5D74F27B896F, 0x80DEB1FE3B1696B1, 0x9BDC06A725C71235, 0xC19BF174CF692694, 0xE49B69C19EF14AD2,
    0xEFBE4786384F25E3, 0x0FC19DC68B8CD5B5, 0x240CA1CC77AC9C65] ++
  [0x2DE92C6F592B0275, 0x4A7484AA6EA6E483, 0x5CB0A9DCBD41FBD4, 0x76F988DA831153B5, 0x983E5152EE66DFAB, 0xA831C66D2DB43210,
    0xB00327C898FB213F, 0xBF597FC7BEEF0EE4, 0xC6E00BF33DA88FC2, 0xD5A79147930AA725, 0x06CA6351E003826F, 0x142929670A0E6E70,
    0x27B70A8546D22FFC, 0x2E1B21385C26C926, 0x4D2C6DFC5AC42AED, 0x53380D139D95B3DF, 0x650A73548BAF63DE, 0x766A0ABB3C77B2A8,
    0x81C2C92E47EDAEE6, 0x92722C851482353B]

/-- Round constants 40 to 79. -/
def k1 : List (BitVec 64) := [0xA2BFE8A14CF10364, 0xA81A664BBC423001, 0xC24B8B70D0F89791, 0xC76C51A30654BE30, 0xD192E819D6EF5218,
    0xD69906245565A910, 0xF40E35855771202A, 0x106AA07032BBD1B8, 0x19A4C116B8D2D0C8, 0x1E376C085141AB53, 0x2748774CDF8EEB99,
    0x34B0BCB5E19B48A8, 0x391C0CB3C5C95A63, 0x4ED8AA4AE3418ACB, 0x5B9CCA4F7763E373, 0x682E6FF3D6B2B8A3, 0x748F82EE5DEFB2FC,
    0x78A5636F43172F60, 0x84C87814A1F0AB72, 0x8CC702081A6439EC] ++
  [0x90BEFFFA23631E28, 0xA4506CEBDE82BDE9, 0xBEF9A3F7B2C67915, 0xC67178F2E372532B, 0xCA273ECEEA26619C, 0xD186B8C721C0C207,
    0xEADA7DD6CDE0EB1E, 0xF57D4F7FEE6ED178, 0x06F067AA72176FBA, 0x0A637DC5A2C898A6, 0x113F9804BEF90DAE, 0x1B710B35131C471B,
    0x28DB77F523047D84, 0x32CAAB7B40C72493, 0x3C9EBE0A15C9BEBC, 0x431D67C49C100D4C, 0x4CC5D4BECB3E42B6, 0x597F299CFC657E2A,
    0x5FCB6FAB3AD6FAEC, 0x6C44198C4A475817]

/-- The initial hash value of SHA-384. -/
def h384 : List (BitVec 64) := [0xCBBB9D5DC1059ED8, 0x629A292A367CD507, 0x9159015A3070DD17, 0x152FECD8F70E5939,
    0x67332667FFC00B31, 0x8EB44A8768581511, 0xDB0C2E0D64F98FA7, 0x47B5481DBEFA4FA4]

/-- The 80 words of a block's message schedule; `w` holds the latest 16, newest first, `n` are left to add. -/
def schedule : Nat → List (BitVec 64) → List (BitVec 64)
  | 0, w => w
  | n + 1, w =>
    let x := w.getD 14 0
    let y := w.getD 1 0
    let s0 := x.rotateRight 1 ^^^ x.rotateRight 8 ^^^ (x >>> 7)
    let s1 := y.rotateRight 19 ^^^ y.rotateRight 61 ^^^ (y >>> 6)
    schedule n ((s1 + w.getD 6 0 + s0 + w.getD 15 0) :: w)

/-- One round over the eight working variables. -/
def round (v : List (BitVec 64)) (kw : BitVec 64) : List (BitVec 64) :=
  match v with
  | [a, b, c, d, e, f, g, h] =>
    let s1 := e.rotateRight 14 ^^^ e.rotateRight 18 ^^^ e.rotateRight 41
    let t1 := h + s1 + ((e &&& f) ^^^ (~~~e &&& g)) + kw
    let s0 := a.rotateRight 28 ^^^ a.rotateRight 34 ^^^ a.rotateRight 39
    let t2 := s0 + ((a &&& b) ^^^ (a &&& c) ^^^ (b &&& c))
    [t1 + t2, a, b, c, d + t1, e, f, g]
  | _ => v

/-- One block of 16 words into a hash value. -/
def compress (h w : List (BitVec 64)) : List (BitVec 64) :=
  let ws := (schedule 64 w.reverse).reverse
  let v := (List.zipWith (· + ·) (k0 ++ k1) ws).foldl round h
  List.zipWith (· + ·) h v

/-- The words of a padded message, most significant byte first. -/
def beWords (l : List Byte) (n : Nat) : List (BitVec 64) := (List.range n).map fun i => BitVec.ofNat 64 (ofBe ((l.drop (8 * i)).take 8))

/-- The blocks of a padded message folded into a hash value; `n` blocks are left. -/
def hashBlocks (h : List (BitVec 64)) (l : List Byte) : Nat → List (BitVec 64)
  | 0 => h
  | n + 1 => hashBlocks (compress h (beWords l 16)) (l.drop 128) n

/-- SHA-384 of a message. -/
def sha384 (m : List Byte) : List Byte :=
  let pad := (239 - m.length % 128) % 128
  let l := m ++ [0x80] ++ List.replicate pad 0 ++ beBytes 16 (m.length * 8)
  ((hashBlocks h384 l (l.length / 128)).flatMap fun w => beBytes 8 w.toNat).take 48

/-- HMAC-SHA-384. -/
def hmac (key m : List Byte) : List Byte :=
  let k := if key.length > 128 then sha384 key else key
  let k := k ++ List.replicate (128 - k.length) 0
  sha384 (k.map (· ^^^ 0x5C) ++ sha384 (k.map (· ^^^ 0x36) ++ m))

/-- HKDF-SHA-384 of up to 96 bytes. -/
def hkdf (ikm salt info : List Byte) (n : Nat) : List Byte :=
  let prk := hmac salt ikm
  let t1 := hmac prk (info ++ [1])
  let t2 := hmac prk (t1 ++ info ++ [2])
  (t1 ++ t2).take n

/-! ## AES-256 -/

/-- Multiplication by x in the field of AES. -/
def xtime (a : Nat) : Nat := if a < 128 then 2 * a else (2 * a) % 256 ^^^ 0x1B

/-- Product in the field of AES; `n` bits of `b` are left. -/
def gmul (a b : Nat) : Nat → Nat
  | 0 => 0
  | n + 1 => (if b % 2 = 1 then a else 0) ^^^ gmul (xtime a) (b / 2) n

/-- A field element raised to the power 254, its inverse: the product of its powers 2, 4, … 128. -/
def ginv (a : Nat) : Nat := ((List.range 7).foldl (fun (p : Nat × Nat) _ =>
  let q := gmul p.1 p.1 8
  (q, gmul p.2 q 8)) (a, 1)).2

/-- The S-box. -/
def sbox (b : Byte) : Byte :=
  let x := BitVec.ofNat 8 (ginv b.toNat)
  x ^^^ x.rotateLeft 1 ^^^ x.rotateLeft 2 ^^^ x.rotateLeft 3 ^^^ x.rotateLeft 4 ^^^ 0x63

/-- Bytes added in the field. -/
def xorB (a b : List Byte) : List Byte := List.zipWith (· ^^^ ·) a b

/-- The expanded key, newest word first; word number `i` is next and `n` are left. -/
def expand (ws : List (List Byte)) (i rcon : Nat) : Nat → List (List Byte)
  | 0 => ws
  | n + 1 =>
    let p := ws.getD 0 []
    let t := if i % 8 = 0 then xorB ((p.drop 1 ++ p.take 1).map sbox) [BitVec.ofNat 8 rcon, 0, 0, 0]
      else if i % 8 = 4 then p.map sbox else p
    expand (xorB (ws.getD 7 []) t :: ws) (i + 1) (if i % 8 = 0 then xtime rcon else rcon) n

/-- The fifteen round keys of a 32-byte key. -/
def roundKeys (key : List Byte) : List (List Byte) :=
  let ws := (expand ((List.range 8).map fun i => (key.drop (4 * i)).take 4).reverse 8 1 52).reverse
  (List.range 15).map fun r => ((ws.drop (4 * r)).take 4).flatten

/-- ShiftRows over the state held column by column. -/
def shiftRows (l : List Byte) : List Byte := (List.range 16).map fun i => l.getD ((i + 4 * (i % 4)) % 16) 0

/-- MixColumns. -/
def mixColumns (l : List Byte) : List Byte := (List.range 16).map fun i =>
  let at_ (j : Nat) : Nat := (l.getD (i / 4 * 4 + (i + j) % 4) 0).toNat
  BitVec.ofNat 8 (gmul (at_ 0) 2 8 ^^^ gmul (at_ 1) 3 8 ^^^ at_ 2 ^^^ at_ 3)

/-- The rounds after the first key addition: all but the last mix the columns. -/
def rounds : List (List Byte) → List Byte → List Byte
  | [], x => x
  | [k], x => xorB (shiftRows (x.map sbox)) k
  | k :: t, x => rounds t (xorB (mixColumns (shiftRows (x.map sbox))) k)

/-- One block enciphered under the round keys. -/
def aes (ks : List (List Byte)) (x : List Byte) : List Byte :=
  match ks with
  | [] => x
  | k :: t => rounds t (xorB x k)

/-! ## GCM -/

/-- Product in GF(2^128), bit 127 of `x` first; `n` bits are left. -/
def gf (x v z : Nat) : Nat → Nat
  | 0 => z
  | n + 1 => gf x (if v % 2 = 1 then v / 2 ^^^ (0xE1 <<< 120) else v / 2) (if x.testBit n then z ^^^ v else z) n

/-- GHASH of a whole number of blocks; `n` are left. -/
def ghash (h y : Nat) (l : List Byte) : Nat → Nat
  | 0 => y
  | n + 1 => ghash h (gf (y ^^^ ofBe (l.take 16)) h 0 128) (l.drop 16) n

/-- Zeros that fill a block. -/
def pad16 (l : List Byte) : List Byte := l ++ List.replicate ((16 - l.length % 16) % 16) 0

/-- Counter mode from counter `c` on; `n` blocks are left. -/
def ctr (ks : List (List Byte)) (iv : List Byte) (c : Nat) (l : List Byte) : Nat → List Byte
  | 0 => []
  | n + 1 => xorB (l.take 16) (aes ks (iv ++ beBytes 4 c)) ++ ctr ks iv (c + 1) (l.drop 16) n

/-- The text under a key and a 12-byte nonce: enciphered, or deciphered again. -/
def gcmText (key iv l : List Byte) : List Byte := ctr (roundKeys key) iv 2 l ((l.length + 15) / 16)

/-- The tag of a ciphertext and additional data. -/
def gcmTag (key iv aad c : List Byte) : List Byte :=
  let ks := roundKeys key
  let h := ofBe (aes ks (List.replicate 16 0))
  let l := pad16 aad ++ pad16 c ++ beBytes 8 (aad.length * 8) ++ beBytes 8 (c.length * 8)
  xorB (beBytes 16 (ghash h 0 l (l.length / 16))) (aes ks (iv ++ beBytes 4 1))

end Sys2Proof.Machine.Crypto
end

