-- ==== Sys2Proof/Machine/Images.lean ====
section
/-! DEFINITION. Bexvin images: header, sections, cost expressions and declarations (R388 to R395, R397), and the checks of an
installation (R390). -/

namespace Sys2Proof.Machine

/-! ## Bytes of an image -/

/-- Two, four bytes of an image at an offset (R6). -/
def img16 (bs : List Byte) (o : Nat) : Nat := ofLe ((bs.drop o).take 2)
def img32 (bs : List Byte) (o : Nat) : Nat := ofLe ((bs.drop o).take 4)

/-- Header fields (R388). -/
def imgTotal (bs : List Byte) : Nat := img32 bs 16
def imgPers (bs : List Byte) : Nat := img16 bs 8
def imgNocmp (bs : List Byte) : Bool := (img16 bs 10).testBit 0
def imgVersion (bs : List Byte) : Nat := img32 bs 12
def imgCodeOff (bs : List Byte) : Nat := img32 bs 20
def imgCodeLen (bs : List Byte) : Nat := img32 bs 24
def imgEntry (bs : List Byte) : Nat := img32 bs 28
def imgSigOff (bs : List Byte) : Nat := img32 bs 56

/-- The code section. -/
def imgCode (bs : List Byte) : List Byte := (bs.drop (imgCodeOff bs)).take (imgCodeLen bs)

/-- Word `n` of the context and of the resource section (R393, R397). -/
def ctxWord (bs : List Byte) (n : Nat) : Word := wd (img32 bs (img32 bs 32 + 4 * n))
def resWord (bs : List Byte) (n : Nat) : Word := wd (img32 bs (img32 bs 40 + 4 * n))

/-! ## The declaration (R392, R393, R397) -/

/-- A cost expression's value: base and two terms, saturated (R392). -/
def costVal (w0 w1 w2 : Word) (v : Nat → Nat) : Nat :=
  let term (w : Word) : Nat := bits w 8 24 * v (bits w 0 8)
  min 0xFFFF_FFFF (w0.toNat + term w1 + term w2)

/-- The cost expression at a word of a section. -/
def costAt (word : Nat → Word) (n : Nat) (v : Nat → Nat) : Nat := costVal (word n) (word (n + 1)) (word (n + 2)) v

/-- Whether VAR is one of R392. -/
def varOk (x : Nat) : Bool := decide (x ≤ 127) || x = 0xF0 || x = 0xF1 || x = 0xF2 || x = 0xFF

/-- Whether both terms of a cost expression name a VAR of R392. -/
def costOk (word : Nat → Word) (n : Nat) : Bool := varOk (bits (word (n + 1)) 0 8) && varOk (bits (word (n + 2)) 0 8)

/-- Fields of the resource section. -/
def nparMin (bs : List Byte) : Nat := bits (resWord bs 0) 0 8
def nparMax (bs : List Byte) : Nat := bits (resWord bs 0) 8 8
def nrange (bs : List Byte) : Nat := bits (resWord bs 0) 16 8
def ngrant (bs : List Byte) : Nat := bits (resWord bs 0) 24 4
def ncmp (bs : List Byte) : Nat := bits (resWord bs 1) 0 4
def ncap (bs : List Byte) : Nat := bits (resWord bs 1) 4 4
def imgQueues (bs : List Byte) : Nat := bits (resWord bs 1) 8 3
def imgTime (bs : List Byte) : Bool := bit (resWord bs 1) 11
def imgWm (bs : List Byte) : Nat := bits (resWord bs 3) 0 18
def imgStack (bs : List Byte) : Nat := bits (resWord bs 4) 0 18

/-- Word `w` of grant `g`, of range entry `r`. -/
def grantWord (bs : List Byte) (g w : Nat) : Word := resWord bs (17 + 4 * g + w)
def rangeWord (bs : List Byte) (r w : Nat) : Word := resWord bs (17 + 4 * ngrant bs + 3 * r + w)

/-- INIT_LEN and PARAM_OFF of the context section (R397). -/
def initLen (bs : List Byte) : Nat := bits (ctxWord bs 3) 0 20
def paramOff (bs : List Byte) : Nat := bits (ctxWord bs 4) 0 20

/-- The initial data. -/
def imgInit (bs : List Byte) : List Byte := (bs.drop (img32 bs 32 + 20)).take (initLen bs)

/-- A length rounded up to whole lines (R397). -/
def roundLine (n : Nat) : Nat := (n + 63) / 64 * 64

/-- Context length in bytes for given values of the variables. -/
def cxLen (bs : List Byte) (v : Nat → Nat) : Nat := roundLine (costAt (ctxWord bs) 0 v)

/-- The variables of R392 for an intent: its parameter words and the ports, controllers and stencils of its maps. -/
def costVars (rec_ params : List Word) (x : Nat) : Nat :=
  if x ≤ 127 then (params.getD x 0).toNat
  else if x = 0xF0 then popcount 28 (bits (rec_.getD 4 0) 0 28)
  else if x = 0xF1 then popcount 8 (bits (rec_.getD 5 0) 0 8)
  else if x = 0xF2 then popcount 32 (rec_.getD 6 0).toNat
  else 0

/-- The smallest value a parameter may take by its range entries (R397). -/
def rangeMin (bs : List Byte) (p : Nat) : Nat :=
  ((List.range (nrange bs)).filter fun r => bits (rangeWord bs r 0) 0 8 = p).foldl (fun m r => max m (rangeWord bs r 1).toNat) 0

/-- The variables with every parameter at its range minimum and the maps at the fewest bits declared. -/
def minVars (bs : List Byte) (x : Nat) : Nat :=
  if x ≤ 127 then rangeMin bs x else if x = 0xF0 then bits (resWord bs 2) 0 8 else 0

/-! ## Installation (R389, R390) -/

/-- The six sections in order, each on a 16-byte boundary, none overlapping, the signature block ending the image (R388, R389). -/
def layoutOk (bs : List Byte) : Bool :=
  let o (n : Nat) : Nat := img32 bs (20 + n)
  let offs := [o 0, o 12, o 20, o 28, o 36]
  let lens := [o 4, o 16, o 24, o 32, o 40]
  offs.all (fun x => x % 16 = 0) && decide (64 ≤ o 0) &&
  (List.range 4).all (fun i => decide (offs.getD i 0 + lens.getD i 0 ≤ offs.getD (i + 1) 0)) &&
  decide (o 36 + o 40 = imgTotal bs)

/-- The signature block's form and length (R389). -/
def sigForm (bs : List Byte) : Bool :=
  let f := img16 bs (imgSigOff bs)
  decide (img16 bs (imgSigOff bs + 2) = 0) &&
  ((f = 0 && decide (img32 bs 60 = 100)) || (f = 1 && decide (img32 bs 60 = 297)))

/-- The resource section's fields in their ranges (R393). -/
def resourceOk (bs : List Byte) : Bool :=
  let w := resWord bs
  decide (68 + 16 * ngrant bs + 12 * nrange bs ≤ img32 bs 44) &&
  decide (nparMax bs ≤ 128) && decide (nparMin bs ≤ nparMax bs) && decide (nrange bs ≤ 128) && decide (ngrant bs ≤ 8) && decide (bits (w 0) 28 4 = 0) &&
  decide (1 ≤ ncmp bs) && decide (ncmp bs ≤ 8) && decide (ncap bs ≤ 8) && decide (bits (w 1) 12 20 = 0) &&
  decide (bits (w 2) 26 6 = 0) && decide (bits (w 3) 18 14 = 0) && decide (bits (w 4) 18 14 = 0) &&
  [5, 8, 11, 14].all (fun n => costOk w n) &&
  (List.range (ngrant bs)).all (fun g => decide ((grantWord bs g 0 &&& 0xFFFF00FE) = 0) && decide (bits (grantWord bs g 0) 8 8 ≤ 126) &&
    costOk (grantWord bs g) 1)

/-- The context section's fields in their ranges, with every parameter at its range minimum (R397). -/
def contextOk (bs : List Byte) : Bool :=
  let n := cxLen bs (minVars bs)
  decide (20 + initLen bs ≤ img32 bs 36) && costOk (ctxWord bs) 0 && decide (paramOff bs % 4 = 0) && decide (64 ≤ paramOff bs) &&
  decide (64 + initLen bs ≤ n) && decide (paramOff bs + 4 * nparMax bs ≤ n)

/-- Every check of R390 on an image whose announced length is `len`; whether the signature block verifies is the part's to say, which
holds the public key. -/
def imageOk (bs : List Byte) (len : Nat) : Bool :=
  decide (len = imgTotal bs) && decide (bs.length = len) && decide (256 ≤ len) && decide (len ≤ 1_048_576) &&
  decide (img32 bs 0 = 0x4E56_5842) && decide (img16 bs 4 = 1) && decide (img16 bs 6 = 1) &&
  ((decide (1 ≤ imgPers bs) && decide (imgPers bs ≤ 12)) || decide (0x8000 ≤ imgPers bs)) && decide (img16 bs 10 ≤ 1) &&
  decide (64 ≤ imgCodeLen bs) && decide (imgCodeLen bs ≤ 65_536) && decide (imgCodeLen bs % 16 = 0) &&
  decide (imgEntry bs % 4 = 0) && decide (imgEntry bs < imgCodeLen bs) &&
  layoutOk bs && sigForm bs && resourceOk bs && contextOk bs && Config.imageSigned bs

/-- Whether the bytes handed to IMG_UNDERCOAT are an Undercoat image: the header of R388 with KIND 2 and the length announced, a signature
block of R389; whether that verifies is the part's to say. -/
def undercoatOk (bs : List Byte) (len : Nat) : Bool :=
  decide (len = imgTotal bs) && decide (bs.length = len) && decide (256 ≤ len) && decide (img32 bs 0 = 0x4E56_5842) && decide (img16 bs 4 = 1) &&
  decide (img16 bs 6 = 2) && sigForm bs && Config.undercoatSigned bs

/-- Version number of an Undercoat copy: VERSION of its header; no bytes: the copy as shipped (R147, R388). -/
def undercoatVersion (bs : List Byte) : Nat := if bs = [] then Config.undercoatShipped else img32 bs 12

/-! ## The image store (R390, R391) -/

/-- An installed image; empty where the number is free. -/
def State.image (s : State) (n : Nat) : List Byte := Tab.get (fun _ => []) s.images n

/-- Whether an image number is in use. -/
def State.hasImage (s : State) (n : Nat) : Bool := !(s.image n).isEmpty

/-- Bytes of the image store in use. -/
def State.storeUsed (s : State) : Nat := (s.images.map fun e => e.2.length).sum

/-- Image number of an instance intent (R91). -/
def Intent.imageNo (i : Intent) : Nat := bits (i.recWord 0) 0 16

/-- Images whose code a die's cache holds: those of the placements on it (R391). -/
def State.cached (s : State) (d : Die) : List Nat :=
  (s.intents.flatMap fun e => if e.2.isFlow then [] else
    (e.2.placements.filter fun p => decide (p.die = d) && decide (2 ≤ p.st) && decide (p.st ≤ 6)).map fun _ => e.2.imageNo).eraseDups

/-- Whether a die's 1 MiB image cache holds an image or has room for it (R391). -/
def State.cacheRoom (s : State) (d : Die) (n : Nat) : Bool :=
  let c := s.cached d
  c.contains n || decide (((c.map fun m => imgCodeLen (s.image m)).sum + imgCodeLen (s.image n)) ≤ 1_048_576)

end Sys2Proof.Machine
end

