-- ==== Sys2Proof/Machine/Ledger.lean ====
section
/-! DEFINITION. The planner's ledger: capacities, reserves, standing and committed amounts of every budget, charges, the engine test
and the per-hop latency bound (R94 to R100, R104, R216 to R220). -/

namespace Sys2Proof.Machine

/-! ## Budgets (R94 to R96) -/

/-- Budget codes (R94). -/
def bENGINE : Nat := 1
def bCE_COUNT : Nat := 2
def bPOOL_PORT : Nat := 3
def bPOOL_BANK : Nat := 4
def bPORT_TX : Nat := 5
def bPORT_RX : Nat := 6
def bDUOLAY : Nat := 7
def bCOMPARE : Nat := 8
def bTAGS : Nat := 9
def bFLOW_TABLE : Nat := 10
def bEXCLUSIVE : Nat := 11
def bDEADLINE : Nat := 12

/-- Certified frequency of the cluster of an engine, and of the pool, in MHz. -/
def State.fcl (s : State) (d : Die) (k : Nat) : Nat := s.fld (R.PLC_CL_FCERT d (k / 6)) 0 10
def State.fpool (s : State) (d : Die) : Nat := s.fld (R.PLC_POOL_FCERT d) 0 10

/-- The dies a planner plans: both while the link is up, else its own (R86). -/
def State.plannedDies (s : State) (p : Die) : List Die := if s.linkUp then [.d0, .d1] else [p]

/-- Link payload the planner may budget in the direction that a die sends, in Mb/s: full mode with both its lanes, else degraded (R33, R34). -/
def State.dlyMbps (s : State) (d : Die) : Nat := if s.fld (R.SYS_DLY_STAT d.other) 2 2 = 3 then 95_000 else 45_000

/-- Line rate of a switch port in Mb/s (R19): without link, the highest rate of the port's mode (R229). -/
def State.lineRate (s : State) (d : Die) (e : Nat) : Nat :=
  if e < 14 then speedMbps (if s.portSpeed d e = 7 then s.portTop d e else s.portSpeed d e) else if e = 14 then 100_000 else if e = 15 then s.dlyMbps d else 10_000

/-- In-service engines of a die, and those without a placement. -/
def State.ceServing (s : State) (d : Die) : Nat := ((List.range 24).filter fun k => s.ceUsable d k).length
def State.ceEmpty (s : State) (d : Die) : Nat := ((List.range 24).filter fun k => s.ceUsable d k && decide (s.ceInst d k = 0)).length

/-- Bank that holds a stream FIFO's drain buffer or another device structure than the frame buffer (R96). -/
def State.bankDevice (s : State) (d : Die) (b : Nat) : Bool :=
  (s.flag (R.PLC_BANK d b) 31 && decide (s.fld (R.PLC_BANK d b) 26 4 ≠ 1)) ||
  (List.range 32).any fun n => s.sfqBufOn d n b

/-- Capacity of a budget (R94).  A dual-port bank has two sides of one capacity each and PLC_BANK.COMMIT is per side; how the slots charged to
it divide between them is not said, so every slot is charged in full to the one figure, against the capacity of one side (DESIGN CHOICE, log
entry 91). -/
def State.capacity (s : State) (code : Nat) (d : Die) (idx : Nat) : Nat :=
  match code with
  | 1 => s.fcl d idx * 1000
  | 2 => s.ceServing d
  | 3 => s.fpool d * 1000
  | 4 => s.fpool d * 1000
  | 5 => s.lineRate d idx
  | 6 => s.lineRate d idx
  | 7 => s.dlyMbps (dieOf idx)
  | 8 => s.fld (R.PLC_CMP d) 8 7
  | 9 => 131_072
  | 10 => 32_768
  | 11 => 1
  | _ => 0

/-- The reserve of a budget in percent of its capacity, or as an amount (R95). -/
def State.reservePct (s : State) (code : Nat) (d : Die) : Nat :=
  match code with
  | 3 => s.fld (R.PLC_RESV d) 4 8
  | 4 => s.fld (R.PLC_RESV d) 4 8
  | 5 => s.fld (R.PLC_RESV d) 12 8
  | 6 => s.fld (R.PLC_RESV d) 12 8
  | 7 => s.fld (R.PLC_RESV d) 12 8
  | _ => 0
def State.reserveAmt (s : State) (code : Nat) (d : Die) : Nat :=
  match code with
  | 2 => s.fld (R.PLC_RESV d) 0 4
  | 8 => s.fld (R.PLC_RESV d) 20 4
  | 9 => s.fld (R.PLC_RESV d) 24 8 * 256
  | _ => 0

/-- The record whose share of the ledger is charged: the last one loaded. -/
def Ring.booked (x : Ring) : List Word := if x.pend = [] then x.cur else x.pend

/-- Slots or cycles per ms of `n` per cycle of T ns; a fraction is shown one way or the other (log entry 12). -/
def perMs (n t : Nat) : Nat :=
  let x := n * 1_000_000
  if t = 0 ∨ x % t = 0 then x / t else if Config.roundUp x t then x / t + 1 else x / t

/-- Pool slots that a window of a record costs in a cycle: its prefetch or its capture (R259). -/
def winSlots (r : List Word) (w : Nat) : Nat := (16 + ringWinLen r w + 63) / 64 + (if winOut r w then 0 else 2)

/-- Slots per ms of a record's windows at crossbar ports 8 and 9, and at a bank, by where their buffers begin (R266). -/
def ringSlots (r : List Word) : Nat := perMs (((List.range (rcWins r)).map fun w => winSlots r w).sum) (rcCycle r)
def ringBank (r : List Word) (b : Nat) : Nat :=
  perMs ((((List.range (rcWins r)).filter fun w => bankOf (winBuf r w % 0x80_0000_0000) = b).map fun w => winSlots r w).sum) (rcCycle r)

/-- Standing commitments (R96, R266). -/
def State.standing (s : State) (code : Nat) (d : Die) (idx : Nat) : Nat :=
  match code with
  | 3 => if 4 ≤ idx ∧ idx ≤ 7 then 39_000 else if idx = 8 ∨ idx = 9 then ringSlots (s.ringOf d).booked else 0
  | 4 => if s.bankDevice d idx then s.capacity 4 d idx else ringBank (s.ringOf d).booked idx
  | _ => 0

/-- Units of an exclusive budget held by a placement: CAN controller n or 32 + STN n, device-wide (R98, R104). -/
def State.exclusiveHeld (s : State) (idx : Nat) : Bool :=
  s.heldIntents.any fun i => !i.isFlow && i.placements.any (fun p => decide (2 ≤ p.st) && decide (p.st ≤ 6)) &&
    (if idx < 32 then bit (i.recWord 5) idx else bit (i.recWord 6) (idx - 32))

/-- What placements have committed of a budget. -/
def State.committed (s : State) (code : Nat) (d : Die) (idx : Nat) : Nat :=
  match code with
  | 1 => s.fld (R.PLC_CE d idx) 8 20
  | 2 => s.ceServing d - s.ceEmpty d
  | 3 => s.fld (R.PLC_PORT d idx) 0 24 - s.standing 3 d idx
  | 4 => s.fld (R.PLC_BANK d idx) 0 24 - ringBank (s.ringOf d).booked idx
  | 5 => s.fld (R.PLC_SWTX d idx) 0 17
  | 6 => s.fld (R.PLC_SWRX d idx) 0 17
  | 7 => if idx = 0 then s.fld (R.PLC_DLY_TX .d0) 0 17 else s.fld (R.PLC_DLY_TX .d1) 0 17
  | 8 => s.fld (R.PLC_CMP d) 0 7
  | 9 => s.fld (R.PLC_TAGS d) 0 18
  | 10 => s.fld (R.PLC_FLOWTAB d) 16 16
  | 11 => if s.exclusiveHeld idx then 1 else 0
  | _ => 0

/-- Free amount of a budget: capacity less reserve, standing and committed (R94). -/
def State.freeOf (s : State) (code : Nat) (d : Die) (idx : Nat) (resvOk : Bool) : Nat :=
  let cap := s.capacity code d idx
  let r := if resvOk then 0 else s.reserveAmt code d + (cap * s.reservePct code d + 99) / 100
  cap - r - s.standing code d idx - s.committed code d idx

/-- Whether an amount still fits a budget with its reserve kept, or used (R94, R95, R100). -/
def State.fitsAmt (s : State) (code : Nat) (d : Die) (idx amt : Nat) (resvOk : Bool) : Bool :=
  let cap := s.capacity code d idx
  let pct := if resvOk then 0 else s.reservePct code d
  let amtR := if resvOk then 0 else s.reserveAmt code d
  decide ((amt + s.committed code d idx + s.standing code d idx + amtR) * 100 ≤ cap * (100 - pct))

/-! ## Charges (R98) -/

/-- A register field raised or lowered by an amount. -/
def State.addFld (s : State) (a lo n amt : Nat) (up : Bool) : State :=
  s.setFld a lo n (if up then min (s.fld a lo n + amt) (2 ^ n - 1) else s.fld a lo n - amt)

/-- One charge entered into the ledger, or taken out of it (R94, R98). -/
def State.chargeOne (s : State) (c : Charge) (up : Bool) : State :=
  let d := dieOf c.die
  match c.code with
  | 1 => (s.addFld (R.PLC_CE d c.idx) 8 20 c.amt up).addFld (R.PLC_CE d c.idx) 2 6 1 up
  | 3 => s.addFld (R.PLC_PORT d c.idx) 0 24 c.amt up
  | 4 => s.addFld (R.PLC_BANK d c.idx) 0 24 c.amt up
  | 5 => s.addFld (R.PLC_SWTX d c.idx) 0 17 c.amt up
  | 6 => s.addFld (R.PLC_SWRX d c.idx) 0 17 c.amt up
  | 7 => if c.idx = 0 then (s.addFld (R.PLC_DLY_TX .d0) 0 17 c.amt up).addFld (R.PLC_DLY_RX .d1) 0 17 c.amt up
    else (s.addFld (R.PLC_DLY_TX .d1) 0 17 c.amt up).addFld (R.PLC_DLY_RX .d0) 0 17 c.amt up
  | 8 => s.addFld (R.PLC_CMP d) 0 7 c.amt up
  | 9 => s.addFld (R.PLC_TAGS d) 0 18 c.amt up
  | 10 => s.addFld (R.PLC_FLOWTAB d) 16 16 c.amt up
  | _ => s

/-- A list of charges entered or taken out. -/
def State.charge (s : State) (cs : List Charge) (up : Bool) : State := cs.foldl (fun s c => s.chargeOne c up) s

/-- A ring's share of a switch port in Mb/s (R266). -/
def ringShare (r : List Word) : Nat :=
  let bytes := ((List.range (rcNseg r)).map fun g => (if g = 0 ∧ rcTime r then 338 else 82) + bits (rcSeg r g) 0 14).sum
  (bytes * 8_000 + rcCycle r - 1) / max 1 (rcCycle r)

/-- Switch ports that a record's frames pass: both uplinks of the pair, for a junction also those of its child pair and port 15. -/
def ringPorts (d : Die) (r : List Word) : List (Die × Nat) :=
  [(d, 12), (d, 13)] ++ if rcRole r = 3 then [(d.other, 12), (d.other, 13), (d, 15), (d.other, 15)] else []

/-- A record's share entered into the ledger of its pair's die, or taken out of it (R266). -/
def State.ringCharge (s : State) (d : Die) (r : List Word) (up : Bool) : State :=
  if r = [] then s else
  let m := ringShare r
  let s := (ringPorts d r).foldl (fun s (p : Die × Nat) => (s.addFld (R.PLC_SWTX p.1 p.2) 0 17 m up).addFld (R.PLC_SWRX p.1 p.2) 0 17 m up) s
  let s := (s.addFld (R.PLC_PORT d 8) 0 24 (ringSlots r) up).addFld (R.PLC_PORT d 9) 0 24 (ringSlots r) up
  (((List.range (rcWins r)).map fun w => bankOf (winBuf r w % 0x80_0000_0000)).eraseDups.filter fun b => b < 272).foldl
    (fun s b => s.addFld (R.PLC_BANK d b) 0 24 (ringBank r b) up) s

/-- A rejection record of R104, before it is written: code, die, index, demand and free amount; none of the two last where the spec states
no figure. -/
structure Rej where
  code : Nat
  die : Nat := 0
  idx : Nat := 0
  nums : Option (Nat × Nat) := none
deriving DecidableEq, Repr

/-- The record that a charge fails with. -/
def State.rejOf (s : State) (c : Charge) (resvOk : Bool) : Rej :=
  { code := c.code, die := c.die, idx := c.idx, nums := some (c.amt, s.freeOf c.code (dieOf c.die) c.idx resvOk) }

/-- The first charge, in the order given, that does not fit; charges before it are in the ledger `s` (R100, R101). -/
def State.firstMiss (s : State) (resvOk : Bool) : List Charge → Option Rej
  | [] => none
  | c :: t =>
    if c.code ≠ 1 ∧ !s.fitsAmt c.code (dieOf c.die) c.idx c.amt resvOk then some (s.rejOf c resvOk)
    else (s.chargeOne c true).firstMiss resvOk t

/-! ## The engine test (R99) -/

/-- What the engine test needs of an instance: cycle time and deadline in ns, engine time in 1/(1000 × f_cl) µs. -/
structure Load where
  t : Nat
  d : Nat
  e : Nat
deriving DecidableEq, Repr

/-- Cycle time and deadline of an instance record in ns (R91). -/
def recCycle (rec_ : List Word) : Nat := (rec_.getD 1 0).toNat
def recDeadline (rec_ : List Word) : Nat :=
  let x := (rec_.getD 3 0).toNat
  if x = 0 then recCycle rec_ - 4_000 else x

/-- C and S of an instance (R395). -/
def costC (img : List Byte) (v : Nat → Nat) : Nat := costAt (resWord img) 5 v
def costS (img : List Byte) (v : Nat → Nat) : Nat := costAt (resWord img) 8 v

/-- The load of an instance at a cluster frequency in MHz. -/
def loadOf (img : List Byte) (rec_ params : List Word) (f : Nat) : Load :=
  let v := costVars rec_ params
  { t := max 1 (recCycle rec_), d := recDeadline rec_, e := 1000 * costC img v + costS img v * f }

/-- Load of one instance's deadline by the others of a set. -/
def loadSum (i : Load) (others : List Load) : Nat :=
  others.foldl (fun n j => n + ((i.d + j.t - 1) / j.t + 1) * j.e) i.e

/-- Sum of E/T over a set as numerator and denominator. -/
def useSum : List Load → Nat × Nat
  | [] => (0, 1)
  | l :: t => let (n, d) := useSum t; (n * l.t + l.e * d, d * l.t)

/-- The first instance of a set whose load exceeds its deadline's share: (demand, free) in ns, demands rounded up; `pre` are those
already looked at. -/
def loadMiss (f g : Nat) (pre : List Load) : List Load → Option (Nat × Nat)
  | [] => none
  | i :: t =>
    let load := loadSum i (pre ++ t)
    if load * 100 > f * i.d * (100 - g) then some ((load + f - 1) / f, i.d * (100 - g) / 100)
    else loadMiss f g (pre ++ [i]) t

/-- The engine test of R99: none where the set fits, else the figures it fails with. -/
def engineFits (f g : Nat) (l : List Load) : Option (Option (Nat × Nat)) :=
  let (n, d) := useSum l
  if l.length > 63 then some none
  else if f = 0 ∨ n * 100 > f * (100 - g) * d then some none
  else match loadMiss f g [] l with
    | some x => some (some x)
    | none => none

/-- The instances whose placements stand on an engine. -/
def State.onEngine (s : State) (d : Die) (k : Nat) : List (Intent × Placement) :=
  s.intents.flatMap fun e => if e.2.isFlow then [] else
    (e.2.placements.filter fun p => decide (p.die = d) && decide (p.ce = k) && decide (2 ≤ p.st) && decide (p.st ≤ 6)).map fun p => (e.2, p)

/-- Their loads at a frequency. -/
def State.engineLoads (s : State) (d : Die) (k f : Nat) : List Load :=
  (s.onEngine d k).map fun x => loadOf (s.image x.1.imageNo) x.1.record x.1.params f

/-- Committed engine time of an instance in cycles per ms (PLC_CE.COMMIT). -/
def engineAmt (img : List Byte) (rec_ params : List Word) (f : Nat) : Nat := perMs (loadOf img rec_ params f).e (1000 * recCycle rec_)

/-! ## Flows: endpoints and paths (R92, R102, R220) -/

/-- Fields of a flow record (R92). -/
def flowTc (r : List Word) : Nat := bits (r.getD 2 0) 0 3
def flowStream (r : List Word) : Nat := bits (r.getD 2 0) 16 16
def flowRate (r : List Word) : Nat := (r.getD 3 0).toNat
def flowMaxF (r : List Word) : Nat := bits (r.getD 4 0) 0 16
def flowBurst (r : List Word) : Nat := bits (r.getD 4 0) 16 16

/-- A device-wide port of a record (0 to 23 field ports, 24 to 27 uplinks) as die and switch port (R19). -/
def portAt (n : Nat) : Die × Nat :=
  if n < 12 then (.d0, n) else if n < 24 then (.d1, n - 12) else if n < 26 then (.d0, n - 12) else (.d1, n - 14)

/-- The switch ports an endpoint of a flow stands for: an instance's engine port, a port, of either uplink the one of lower committed egress
that is not among those to be avoided, or the set in DST_SET; none where an instance has no placement (R92, R102). -/
def State.endpoint (s : State) (w set : Word) (no : List (Die × Nat) := []) : List (Die × Nat) :=
  if bits w 30 2 = 0 then
    match (s.intent w.toNat).cur with
    | some p => [(p.die, 14)]
    | none => []
  else
    let n := bits w 0 5
    let either (d : Die) : List (Die × Nat) :=
      if no.contains (d, 12) then [(d, 13)].filter fun e => !no.contains e
      else if !no.contains (d, 13) ∧ s.fld (R.PLC_SWTX d 13) 0 17 < s.fld (R.PLC_SWTX d 12) 0 17 then [(d, 13)]
      else [(d, 12)]
    if n < 28 then [portAt n]
    else if n = 28 then either .d0
    else if n = 29 then either .d1
    else ((List.range 28).filter fun i => set.toNat.testBit i).map portAt

/-- A flow's path: ingress port and egress ports. -/
structure Path where
  src : Die × Nat
  dst : List (Die × Nat)
deriving DecidableEq, Repr

/-- The path a flow record takes now, where it has a choice not over the uplinks `no`. -/
def State.flowPath (s : State) (r : List Word) (no : List (Die × Nat) := []) : Option Path :=
  match s.endpoint (r.getD 0 0) 0 no, s.endpoint (r.getD 1 0) (r.getD 7 0) no with
  | src :: _, d :: ds => some { src := src, dst := d :: ds }
  | _, _ => none

/-- Whether a path crosses the link. -/
def Path.crosses (p : Path) : Bool := p.dst.any fun x => x.1 ≠ p.src.1

/-- The egress ports of a path, the Duolay port of the first die among them where it crosses. -/
def Path.hops (p : Path) : List (Nat × Nat) :=
  (if p.crosses then [(p.src.1.idx, 15)] else []) ++ p.dst.map fun x => (x.1.idx, x.2)

/-- The dies a path passes. -/
def Path.dies (p : Path) : List Die :=
  if p.crosses then [p.src.1, p.src.1.other] else [p.src.1]

/-- Slots per ms of one write or read of a flow's frames: as frames of 65 bytes, or of 64 where none is longer (R98). -/
def flowSlots (r : List Word) (k : Nat) : Nat :=
  let x := if flowMaxF r ≤ 64 then flowRate r * k * 1 else flowRate r * k * 2
  let y := if flowMaxF r ≤ 64 then 8 * 64 else 8 * 65
  if x % y = 0 then x / y else if Config.roundUp x y then x / y + 1 else x / y

/-- The share of a frame-buffer bank. -/
def bankShare (n : Nat) : Nat := if n % 48 = 0 then n / 48 else if Config.roundUp n 48 then n / 48 + 1 else n / 48

/-- Mb/s a flow charges to a port or the link (R98). -/
def flowMbps (r : List Word) : Nat := (flowRate r * 84 + 63_999) / 64_000

/-- The requester ports a flow's frames are charged to: R98 says port 4 or 5 and port 6 or 7, and the planner takes the less committed of
each pair, the lower one of equal ones (DESIGN CHOICE, log entry 91). -/
def State.flowPort (s : State) (d : Die) (rd : Bool) : Nat :=
  let a := if rd then 6 else 4
  if s.fld (R.PLC_PORT d (a + 1)) 0 24 < s.fld (R.PLC_PORT d a) 0 24 then a + 1 else a

/-- Charges of a flow on one die it passes (R98, R184, R209). -/
def State.flowDieCharges (s : State) (r : List Word) (p : Path) (d : Die) : List Charge :=
  let k := (p.hops.filter fun h => h.1 = d.idx).length
  [⟨bPOOL_PORT, d.idx, s.flowPort d false, flowSlots r 1⟩, ⟨bPOOL_PORT, d.idx, s.flowPort d true, flowSlots r k⟩] ++
  (s.fbBanks d).map fun b => ⟨bPOOL_BANK, d.idx, b, bankShare (flowSlots r (1 + k))⟩

/-- The charges of a flow, in code order. -/
def State.flowCharges (s : State) (r : List Word) (p : Path) : List Charge :=
  let all := p.dies.flatMap fun d => s.flowDieCharges r p d
  let m := flowMbps r
  (all.filter fun c => c.code = 3) ++ (all.filter fun c => c.code = 4) ++
  (p.dst.map fun x => ⟨bPORT_TX, x.1.idx, x.2, m⟩) ++ [⟨bPORT_RX, p.src.1.idx, p.src.2, m⟩] ++
  (if p.crosses then [⟨bDUOLAY, p.src.1.idx, p.src.1.idx, m⟩] else []) ++
  (p.dies.map fun d => ⟨bTAGS, d.idx, 0, flowBurst r⟩) ++ p.dies.map fun d => ⟨bFLOW_TABLE, d.idx, 0, 1⟩

/-! ## The latency bound (R196, R220): times in 1/17,100,000 ns, in which every rate's bit time is whole -/

/-- Units per ns. -/
def lu : Nat := 17_100_000

/-- Time of `n` bytes at a rate in Mb/s. -/
def byteTime (n mbps : Nat) : Nat := if mbps = 0 then 0 else n * 8_000 * (lu / mbps) + n * 8_000 * (lu % mbps) / mbps

/-- Fixed part of a hop in ns (R196). -/
def tfixMax (mbps : Nat) : Nat :=
  match mbps with
  | 10 => 1_400
  | 100 => 340
  | 1000 => 200
  | 10000 => 120
  | 25000 => 100
  | x => Config.tfixMax x
def tfixMin (mbps : Nat) : Nat :=
  match mbps with
  | 10 => 1_000
  | 100 => 250
  | 1000 => 150
  | 10000 => 100
  | 25000 => 85
  | x => Config.tfixMin x

/-- A placed flow as its latency matters to others: record and path's ports. -/
structure Placed where
  h : Nat
  rec_ : List Word
  path : Path
deriving DecidableEq, Repr

/-- The path a flow placement stands for. -/
def State.placedPath (s : State) (i : Intent) (p : Placement) : Option Path :=
  match s.endpoint (i.recWord 0) 0, (p.hops.filter fun h => h.2 ≠ 15).map fun h => (dieOf h.1, h.2) with
  | src :: _, d :: ds => some { src := (if bits (i.recWord 0) 30 2 = 2 ∧ 28 ≤ bits (i.recWord 0) 0 5 then (p.die, p.ce) else src), dst := d :: ds }
  | _, _ => none

/-- Every placed flow. -/
def State.placedFlows (s : State) : List Placed :=
  s.heldIntents.flatMap fun i => if !i.isFlow then [] else
    i.placements.filterMap fun p => if p.st < 2 ∨ 6 < p.st then none else (s.placedPath i p).map fun q => ⟨i.handle, i.record, q⟩

/-- The intervals of a port's gate list from entry `i` and time `at_` on, as (open, ns); `n` entries are left (R212). -/
def State.gateRuns (s : State) (d : Die) (e t cyc len at_ : Nat) : Nat → List (Bool × Nat)
  | 0 => []
  | n + 1 =>
    let i := len - (n + 1)
    let end_ := if n = 0 then cyc else min (at_ + s.gateNs d e i) cyc
    (s.gateBit d e i t, end_ - at_) :: s.gateRuns d e t cyc len end_ n

/-- Longest run of closed intervals. -/
def closedRun : Nat → Nat → List (Bool × Nat) → Nat
  | best, cur, [] => max best cur
  | best, cur, (o, n) :: t => if o then closedRun (max best cur) 0 t else closedRun best (cur + n) t

/-- Longest closed interval of a class in the gate list of a port, in ns; 0 without an active list (R212, R220). -/
def State.closedMax (s : State) (d : Die) (e t : Nat) : Nat :=
  let g := s.gclOf d e
  if 14 ≤ e ∨ g.len = 0 then 0
  else
    let l := s.gateRuns d e t g.cycle g.len 0 g.len
    if l.all fun x => !x.1 then 2 ^ 32 else closedRun 0 0 (l ++ l)

/-- Whether an uplink uses RS-FEC. -/
def State.fecPort (s : State) (d : Die) (e : Nat) : Nat :=
  if (e = 12 ∨ e = 13) ∧ s.flag (R.MAC_PORT_MODE d e) 11 then 130 else 0

/-- hop_bound of a flow to one egress, among the placed flows `fs` (R220). -/
def State.hopBound (s : State) (fs : List Placed) (f : Placed) (e : Die × Nat) : Nat :=
  let (sd, a) := f.path.src
  let (ed, x) := e
  let ra := s.lineRate sd a
  let re := s.lineRate ed x
  let t := flowTc f.rec_
  let bt (j : List Word) : Nat := flowBurst j * (flowMaxF j + 20)
  let others := fs.filter fun j => j.h ≠ f.h
  byteTime (flowMaxF f.rec_) ra + (tfixMax ra + s.fecPort sd a + s.fecPort ed x) * lu +
  (if sd = ed then 0 else 100 * lu + ((others.filter fun j => j.path.crosses && decide (j.path.src.1 = sd)).map
    fun j => byteTime (bt j.rec_) (s.dlyMbps sd)).sum) +
  byteTime (s.fld (R.SW_PORT_MAXF ed x) 0 14 + 20) re + byteTime (4 * 1066) re +
  ((others.filter fun j => j.path.dst.contains e && decide (t ≤ flowTc j.rec_)).map fun j => byteTime (bt j.rec_) re).sum +
  byteTime ((flowBurst f.rec_ - 1) * (flowMaxF f.rec_ + 20)) re +
  (if t ≤ 3 then ((List.range 4).map fun u => if u < t then 0 else byteTime (s.fld (R.SW_QLIMIT ed u) 0 18 * 84) re).sum else 0) +
  (if s.closedMax ed x t = 0 ∧ (14 ≤ x ∨ (s.gclOf ed x).len = 0) then 0 else s.closedMax ed x t * lu + byteTime (flowMaxF f.rec_ + 20) re)

/-- hop_min (R220). -/
def State.hopMin (s : State) (f : Placed) (e : Die × Nat) : Nat :=
  let ra := s.lineRate f.path.src.1 f.path.src.2
  byteTime 64 ra + (tfixMin ra + if e.1 = f.path.src.1 then 0 else 70) * lu

/-- The DEADLINE budget of one placed flow among all: an egress that honours pause, which has no bound, or the egress with the greatest
bound, with bound or spread and its limit, where one fails (R98, R218, R220, R236). -/
def State.deadlineMiss (s : State) (fs : List Placed) (f : Placed) : Option Rej :=
  match f.path.dst.find? fun e => decide (e.2 < 14) && s.flag (R.MAC_PAUSE_CFG e.1 e.2) 0 with
  | some e => some { code := bDEADLINE, die := e.1.idx, idx := e.2 }
  | none =>
  let hops := f.path.dst.map fun e => (e, s.hopBound fs f e, s.hopMin f e)
  let worst := hops.foldl (fun (m : (Die × Nat) × Nat × Nat) h => if h.2.1 > m.2.1 then h else m) ((f.path.src.1, 0), 0, 0)
  let dl := (f.rec_.getD 5 0).toNat
  let jit := (f.rec_.getD 6 0).toNat
  let up (n : Nat) : Nat := (n + lu - 1) / lu
  let spread := (hops.map fun h => h.2.1 - h.2.2).foldl max 0
  let e := worst.1
  if worst.2.1 > dl * lu then some { code := bDEADLINE, die := e.1.idx, idx := e.2, nums := some (up worst.2.1, dl) }
  else if spread > jit * lu then some { code := bDEADLINE, die := e.1.idx, idx := e.2, nums := some (up spread, jit) }
  else none

/-- Lines a placed flow may have in a queue at once (R218). -/
def burstLines (r : List Word) : Nat := flowBurst r * ((flowMaxF r + 63) / 64)

/-- The queue limits of R218: a protected queue that could exceed 16,384 lines, or a die's flows 98,304. -/
def State.queueMiss (fs : List Placed) (f : Placed) : Option Rej :=
  let t := flowTc f.rec_
  let full := f.path.dst.find? fun e => decide (4 ≤ t) && decide (16_384 <
    ((fs.filter fun j => j.path.dst.contains e && decide (flowTc j.rec_ = t)).map fun j => burstLines j.rec_).sum)
  match full with
  | some e => some { code := bDEADLINE, die := e.1.idx, idx := e.2 }
  | none =>
    match f.path.dies.find? fun d => decide (98_304 < ((fs.filter fun j => j.path.dies.contains d).map fun j => burstLines j.rec_).sum) with
    | some d => some { code := bDEADLINE, die := d.idx, idx := (f.path.dst.headD (d, 0)).2 }
    | none => none

/-- The first placed flow whose DEADLINE fails. -/
def State.flowsMiss (s : State) : Option Rej :=
  let fs := s.placedFlows
  fs.findSome? fun f => match s.deadlineMiss fs f with
    | some r => some r
    | none => State.queueMiss fs f

/-- The bucket of a stream flow's static entry on a die: destination address and VID of a null stream identification (R190, R193, R214). -/
def State.flowKeyOf (s : State) (d : Die) (r : List Word) : Option (Nat × Nat) :=
  let n := flowStream r
  if n ≥ 4096 ∨ bits (s.sidWord d n 0) 0 2 ≠ 0 ∨ !bit (s.sidWord d n 0) 2 then none
  else some ((s.sidWord d n 1).toNat + bits (s.sidWord d n 2) 0 16 * 0x1_0000_0000, bits (s.sidWord d n 2) 16 12)

/-- The keys of the static entries of a bucket on a die: those installed, and those of admitted flows whose entries are still to come. -/
def State.bucketKeys (s : State) (d : Die) (b : Nat) : List (Nat × Nat) :=
  let have_ := (List.range 4).filterMap fun w =>
    let e := s.ftAt d (4 * b + w)
    if e.type = 2 then some (e.mac, e.vid) else none
  let coming := s.heldIntents.flatMap fun i => if !i.isFlow then [] else
    (i.placements.filter fun p => p.st = 2 && (p.die = d || p.hops.any fun h => h.1 = d.idx)).filterMap fun p => s.flowKeyOf p.die i.record
  (have_ ++ coming.filter fun k => s.ftBucket d k.1 k.2 = b).eraseDups

/-- The FLOW_TABLE budget's second limit: a bucket full of static entries, those of flows admitted and not yet LIVE among them (R193). -/
def State.bucketMiss (s : State) (r : List Word) (p : Path) : Option Rej :=
  p.dies.findSome? fun d =>
    match s.flowKeyOf p.src.1 r with
    | none => none
    | some key =>
      let b := s.ftBucket d key.1 key.2
      let ks := s.bucketKeys d b
      if 4 ≤ ks.length ∧ !ks.contains key then some { code := bFLOW_TABLE, die := d.idx, idx := b, nums := some (1, 0) } else none

end Sys2Proof.Machine
end

