-- ==== Sys2Proof/Machine/Placing.lean ====
section
/-! DEFINITION. Placing of intents: the checks of a record, candidates in their order, the choice of a placement, what preparing and
releasing one does to the units it uses (R88 to R93, R101 to R107, R308, R317, R391, R394, R395, R398). -/

namespace Sys2Proof.Machine

/-! ## Records of a command (R91 to R93, R148, R394) -/

/-- One intent of a command: whether it is a flow, the command word of its record's word 0, record and parameters. -/
structure Item where
  flow : Bool := false
  at_ : Nat := 0
  rec_ : List Word := []
  params : List Word := []
  known : Bool := true
deriving DecidableEq, Repr

/-- The intents of a PLC_ADMIT from command word `pos` on, `n` of them, and the words left; none where a word is missing.  A kind that does not
exist ends them: what follows it has no layout (R147). -/
def takeItems : Nat → Nat → List Word → Option (List Item × List Word)
  | 0, _, ws => some ([], ws)
  | n + 1, pos, ws =>
    match ws with
    | [] => none
    | k :: t =>
      let np := if bits k 0 2 = 1 then 0 else bits (t.getD 7 0) 0 8
      if 2 ≤ bits k 0 2 then some ([{ at_ := pos + 1, known := false }], [])
      else if t.length < 8 + np then none
      else match takeItems n (pos + 9 + np) (t.drop (8 + np)) with
        | none => none
        | some (is, rest) => some ({ flow := bits k 0 2 = 1, at_ := pos + 1, rec_ := t.take 8, params := (t.drop 8).take np } :: is, rest)

/-- Whether every port of a set of P and U bits exists (R20). -/
def State.portsExist (s : State) (m : Nat) : Bool :=
  (List.range 28).all fun n => !m.testBit n || s.portExists (portAt n).1 (portAt n).2

/-- The least command word of the checks that fail. -/
def firstBad (l : List (Bool × Nat)) : Option Nat :=
  (l.filter fun c => !c.1).foldl (fun m c => match m with | none => some c.2 | some x => some (min x c.2)) none

/-- Grant regions of an instance: internal address and lines (R393). -/
def grantsOf (img : List Byte) (rec_ params : List Word) : List (Nat × Nat) :=
  (List.range (ngrant img)).map fun g =>
    let a := bits (grantWord img g 0) 8 8
    ((params.getD a 0).toNat + bits (params.getD (a + 1) 0) 0 8 * 0x1_0000_0000,
      costVal (grantWord img g 1) (grantWord img g 2) (grantWord img g 3) (costVars rec_ params))

/-- The banks of a die that a region of lines touches. -/
def banksOf (a lines : Nat) : List Nat :=
  let o := a % 0x80_0000_0000
  (List.range 272).filter fun b =>
    let lo := bankBase b
    let hi := lo + (if b < 240 then 0x4_0000 else 0x2_0000)
    decide (lo < o + lines * 64) && decide (o < hi)

/-- Whether a grant region may be used: whole lines of the pool, no bank in retention or out of service, or with a context or a device
structure (R394). -/
def State.grantOk (s : State) (a lines : Nat) : Bool :=
  let d := dieOfAddr a
  decide (a % 64 = 0) && decide (a < 0x100_0000_0000) && decide (0 < lines) && decide (a % 0x80_0000_0000 + lines * 64 ≤ 0x0400_0000) &&
  (banksOf a lines).all fun b => !s.bankOos d b && !s.groupOff d (b / 16) && !s.flag (R.PLC_BANK d b) 31 && !s.flag (R.PLC_BANK d b) 30 &&
    !s.bankDevice d b

/-- Ports, controllers and stencils of a record on a die (R102, R118). -/
def unitsOn (d : Die) (rec_ : List Word) : Nat :=
  let w (n : Nat) : Nat := (rec_.getD n 0).toNat
  popcount 12 (w 4 >>> (12 * d.idx)) + popcount 2 (w 4 >>> (24 + 2 * d.idx)) + popcount 4 (w 5 >>> (4 * d.idx)) +
    popcount 16 (w 6 >>> (16 * d.idx))

/-- DIE_PREF and NO_CROSS of a record. -/
def recPref (rec_ : List Word) : Nat := bits (rec_.getD 0 0) 16 2
def recNoCross (rec_ : List Word) : Bool := bit (rec_.getD 0 0) 18

/-- The first command word for which an instance record is refused (R93, R394). -/
def State.instBad (s : State) (it : Item) : Option Nat :=
  let w (n : Nat) : Word := it.rec_.getD n 0
  let o := it.at_
  let img := s.image (bits (w 0) 0 16)
  let v := costVars it.rec_ it.params
  let cx := cxLen img v
  let np := it.params.length
  let ports := popcount 28 (bits (w 4) 0 28)
  match firstBad [(decide (bits (w 0) 16 2 ≠ 3) && decide (bits (w 0) 21 11 = 0) && s.hasImage (bits (w 0) 0 16), o),
      (decide (10_000 ≤ (w 1).toNat) && decide ((w 1).toNat ≤ 1_000_000_000), o + 1), (decide ((w 2).toNat < (w 1).toNat), o + 2),
      (decide ((w 3).toNat + 4_000 ≤ (w 1).toNat), o + 3), (decide (bits (w 4) 28 4 = 0) && s.portsExist (w 4).toNat, o + 4),
      (decide (bits (w 5) 8 24 = 0), o + 5), (decide (bits (w 7) 8 24 = 0) && decide (np ≤ 128), o + 7)] with
  | some e => some e
  | none => firstBad ([
      (decide (bits (resWord img 2) 0 8 ≤ ports) && decide (ports ≤ bits (resWord img 2) 8 8), o + 4),
      (!recNoCross it.rec_ || ((unitsOn .d0 it.rec_ = 0 || recPref it.rec_ ≠ 2) && (unitsOn .d1 it.rec_ = 0 || recPref it.rec_ ≠ 1) &&
        (unitsOn .d0 it.rec_ = 0 || unitsOn .d1 it.rec_ = 0)), o + 4),
      (decide (popcount 8 (w 5).toNat ≤ bits (resWord img 2) 16 4), o + 5), (decide (popcount 32 (w 6).toNat ≤ bits (resWord img 2) 20 6), o + 6),
      (decide (nparMin img ≤ np) && decide (np ≤ nparMax img), o + 7),
      (decide (128 ≤ cx) && decide (cx ≤ 1_048_576) && decide (64 + initLen img ≤ cx) && decide (paramOff img + 4 * np ≤ cx), o + 7)] ++
    (List.range (nrange img)).map (fun r =>
      let p := bits (rangeWord img r 0) 0 8
      let x := (it.params.getD p 0).toNat
      (decide ((rangeWord img r 1).toNat ≤ x) && decide (x ≤ (rangeWord img r 2).toNat), if p < np then o + 8 + p else o + 7)) ++
    ((List.range (ngrant img)).zip (grantsOf img it.rec_ it.params)).map fun g =>
      let a := bits (grantWord img g.1 0) 8 8
      (s.grantOk g.2.1 g.2.2 && decide (bits (it.params.getD (a + 1) 0) 8 24 = 0), if a < np then o + 8 + a else o + 7))

/-- Whether a flow's endpoint word is one of R92 and R148: `inst j` tells whether record `j` of the command is an earlier instance.  Of an
instance intent that is held without a placement the spec says nothing here: it is refused like one that is not held (DESIGN CHOICE, log
entry 91). -/
def State.endpointOk (s : State) (w set : Word) (dst : Bool) (inst : Nat → Bool) : Bool :=
  match bits w 30 2 with
  | 0 => s.handleHeld w.toNat && !(s.intent w.toNat).isFlow && (s.intent w.toNat).cur.isSome
  | 1 => decide (bits w 16 14 = 0) && inst (bits w 0 16)
  | 2 =>
    let n := bits w 0 5
    decide (bits w 5 25 = 0) &&
    (if n < 28 then s.portExists (portAt n).1 (portAt n).2 else if n < 30 then true
     else decide (n = 30) && dst && decide (set ≠ 0) && decide (bits set 28 4 = 0) && s.portsExist set.toNat)
  | _ => false

/-- Whether an endpoint word names an instance. -/
def isInst (w : Word) : Bool := decide (bits w 30 2 < 2)

/-- The first command word for which a flow record is refused (R92, R93, R148). -/
def State.flowBad (s : State) (it : Item) (inst : Nat → Bool) : Option Nat :=
  let w (n : Nat) : Word := it.rec_.getD n 0
  let o := it.at_
  firstBad [(s.endpointOk (w 0) 0 false inst, o), (s.endpointOk (w 1) (w 7) true inst, o + 1),
    (decide (bits (w 2) 0 3 ≠ 7) && decide (bits (w 2) 3 13 = 0) &&
      (if isInst (w 0) then decide (flowStream it.rec_ = 0xFFFF) else decide (flowStream it.rec_ < 4096)), o + 2),
    (decide (64 ≤ flowMaxF it.rec_) && decide (flowMaxF it.rec_ ≤ 9_216) && decide (1 ≤ flowBurst it.rec_) &&
      decide (flowBurst it.rec_ ≤ 1_024), o + 4), (decide (bits (w 7) 28 4 = 0), o + 7)]

/-- The first command word for which a list of records is refused; `pre` are the records before them. -/
def State.itemsBad (s : State) (pre : List Item) : List Item → Option Nat
  | [] => none
  | it :: t =>
    let bad := if it.flow then s.flowBad it fun j => (match pre[j]? with | some x => !x.flow | none => false) else s.instBad it
    match bad with
    | some e => some e
    | none => s.itemsBad (pre ++ [it]) t

/-! ## Units in use -/

/-- Every placement that stands on a die. -/
def State.placedOn (s : State) (d : Die) : List (Intent × Placement) :=
  s.intents.flatMap fun e => if e.2.isFlow then [] else
    (e.2.placements.filter fun p => decide (p.die = d) && decide (2 ≤ p.st) && decide (p.st ≤ 6)).map fun p => (e.2, p)

/-- Free compare and capture units of a die, lowest first (R102, R317). -/
def State.freeCmps (s : State) (d : Die) : List Nat :=
  let used := (s.placedOn d).flatMap fun x => x.2.cmps
  (List.range 64).filter fun u => !used.contains u && decide ((s.hunit d 9 u).st = 0)
def State.freeCaps (s : State) (d : Die) : List Nat :=
  let used := (s.placedOn d).flatMap fun x => x.2.caps
  (List.range 32).filter fun u => !used.contains u

/-- Free stream FIFOs of a die. -/
def State.freeSfqs (s : State) (d : Die) : List Nat :=
  (List.range 32).filter fun n => decide (s.fld (R.SFQ_OWNER d n) 0 8 = 0xFF) && decide ((s.hunit d 11 n).st = 0)

/-- Contexts in a die's pool, as (offset, length). -/
def State.contexts (s : State) (d : Die) : List (Nat × Nat) :=
  s.intents.flatMap fun e => if e.2.isFlow then [] else
    (e.2.placements.filter fun p => decide (2 ≤ p.st) && decide (p.st ≤ 6) && decide (dieOfAddr p.ctx = d)).map
      fun p => (p.ctx % 0x80_0000_0000, p.ctxLen)

/-- Bytes of a CAN controller's two queues: 2 × 32 slots of the larger size (R340). -/
def canQLen : Nat := 2 * 32 * 2112

/-- Queues of CAN controllers in a die's pool, as (offset, length). -/
def State.canQs (s : State) (d : Die) : List (Nat × Nat) :=
  (s.placedOn d).flatMap fun x => x.2.canq.map fun q => (q.2 % 0x80_0000_0000, canQLen)

/-- CAN controllers and stencils of a record on a die, by local index. -/
def recCans (d : Die) (rec_ : List Word) : List Nat := (List.range 4).filter fun c => bit (rec_.getD 5 0) (d.idx * 4 + c)
def recStns (d : Die) (rec_ : List Word) : List Nat := (List.range 16).filter fun n => bit (rec_.getD 6 0) (d.idx * 16 + n)

/-- Whether one of a list of grant regions touches a bank. -/
def grantsTouch (gs : List (Nat × Nat)) (d : Die) (b : Nat) : Bool :=
  gs.any fun g => decide (dieOfAddr g.1 = d) && (banksOf g.1 g.2).contains b

/-- Whether a grant region of a placement touches a bank (R395). -/
def State.grantOn (s : State) (d : Die) (b : Nat) : Bool :=
  s.heldIntents.any fun i => !i.isFlow && i.placements.any (fun p => decide (2 ≤ p.st) && decide (p.st ≤ 6)) &&
    grantsTouch (grantsOf (s.image i.imageNo) i.record i.params) d b

/-- Whether a context may lie in a bank, `own` being its own placement's grant regions (R102, R183, R395). -/
def State.bankEligible (s : State) (own : List (Nat × Nat)) (d : Die) (b : Nat) : Bool :=
  decide (b < 240) && !s.flag (R.PLC_BANK d b) 31 && !s.bankDevice d b && !s.bankOos d b && !s.groupOff d (b / 16) &&
  decide ((s.hunit d 10 (b / 16)).st = 0) && !s.grantOn d b && !grantsTouch own d b

/-- The lowest place of a bank with room for a context, in the pool of its die, clear of the regions `avoid`; a context longer than a bank
takes whole banks. -/
def State.roomIn (s : State) (own avoid : List (Nat × Nat)) (d : Die) (b len : Nat) : Option Nat :=
  let base := bankBase b
  let ctxs := s.contexts d ++ s.canQs d ++ avoid
  let clear (a : Nat) : Bool := ctxs.all fun c => decide (a + len ≤ c.1) || decide (c.1 + c.2 ≤ a)
  if len ≤ 0x4_0000 then
    if !s.bankEligible own d b then none
    else (base :: (ctxs.map fun c => c.1 + c.2)).foldl (fun best a =>
      if base ≤ a ∧ a + len ≤ base + 0x4_0000 ∧ clear a then (match best with | none => some a | some x => some (min x a)) else best) none
  else if (List.range ((len + 0x3_FFFF) / 0x4_0000)).all (fun j => s.bankEligible own d (b + j)) && clear base then some base
  else none

/-- The place for a context: the eligible bank with the lowest committed slots, the lowest of equal ones (R102). -/
def State.chooseCtx (s : State) (own avoid : List (Nat × Nat)) (d : Die) (len : Nat) : Option Nat :=
  ((List.range 240).foldl (fun (best : Option (Nat × Nat)) b =>
    match s.roomIn own avoid d b len with
    | none => best
    | some a =>
      let c := s.fld (R.PLC_BANK d b) 0 24
      match best with
      | none => some (c, a)
      | some x => if c < x.1 then some (c, a) else some x) none).map Prod.snd

/-- The places for the queues of CAN controllers, each in one bank chosen as a context's is (R340). -/
def State.chooseCanQs (s : State) (own avoid : List (Nat × Nat)) (d : Die) : List Nat → Option (List (Nat × Nat))
  | [] => some []
  | c :: t =>
    match s.chooseCtx own avoid d canQLen with
    | none => none
    | some a => (s.chooseCanQs own ((a, canQLen) :: avoid) d t).map fun l => (c, d.org + a) :: l

/-- The lowest 16-byte boundary of an engine's code memory at which an image's code may lie: where its image already stands, else the
first free run (R394). -/
def State.codeRoom (s : State) (d : Die) (k img : Nat) : Option Nat :=
  let on := s.onEngine d k
  match on.find? fun x => x.1.imageNo = img with
  | some x => some x.2.cb
  | none =>
    let len := imgCodeLen (s.image img)
    let runs := on.map fun x => (x.2.cb, imgCodeLen (s.image x.1.imageNo))
    (0 :: (runs.map fun r => r.1 + r.2)).foldl (fun best a =>
      if a + len ≤ 0x1_0000 ∧ runs.all (fun r => decide (a + len ≤ r.1) || decide (r.1 + r.2 ≤ a)) then
        (match best with | none => some a | some x => some (min x a)) else best) none

/-- The lowest free slot of an engine. -/
def State.freeSlot (s : State) (d : Die) (k : Nat) : Option Nat :=
  let used := (s.onEngine d k).map fun x => x.2.slot
  (List.range 63).find? fun n => !used.contains n

/-! ## Candidates (R102) -/

/-- Field ports and uplinks of a record on a die (R102). -/
def portsOn (d : Die) (rec_ : List Word) : Nat :=
  let m := (rec_.getD 4 0).toNat
  popcount 12 (m >>> (12 * d.idx)) + popcount 2 (m >>> (24 + 2 * d.idx))

/-- The dies to be tried for an instance, in order. -/
def dieOrder (rec_ : List Word) : List Die :=
  match recPref rec_ with
  | 1 => [.d0]
  | 2 => [.d1]
  | _ =>
    let a := portsOn .d0 rec_
    let b := portsOn .d1 rec_
    let first := if a < b then Die.d1 else Die.d0
    if recNoCross rec_ then [first] else [first, first.other]

/-- Insertion of an engine among those of a die in the order of R102: lower committed time per ms first, then the lower number. -/
def State.insCe (s : State) (d : Die) (k : Nat) : List Nat → List Nat
  | [] => [k]
  | j :: t =>
    if s.fld (R.PLC_CE d k) 8 20 * s.fcl d j < s.fld (R.PLC_CE d j) 8 20 * s.fcl d k then k :: j :: t else j :: s.insCe d k t

/-- The engines of a die in the order they are tried: those that hold an instance, then empty ones where the reserve allows. -/
def State.ceOrder (s : State) (d : Die) (resvOk : Bool) : List Nat :=
  let l := (List.range 24).filter fun k => s.ceUsable d k
  let busy := (l.filter fun k => decide (0 < s.ceInst d k)).foldl (fun acc k => s.insCe d k acc) []
  let free := l.filter fun k => decide (s.ceInst d k = 0)
  busy ++ (if resvOk ∨ s.reserveAmt 2 d + 1 ≤ s.ceEmpty d then free else [])

/-- Why an intent is not placed: a limit with its DETAIL, or a budget. -/
inductive Miss where
  | limit (detail : Nat)
  | budget (r : Rej)
deriving DecidableEq, Repr

/-- What a candidate keeps of an earlier placement: its context, its capture units where the die stays the same, its CAN queues, and engines
that are out of the question. -/
structure Keep where
  ctx : Option (Nat × Nat) := none
  caps : Option (Die × List Nat) := none
  barred : List (Nat × Nat) := []
  only : Option (Nat × Nat) := none
  canq : Option (List (Nat × Nat)) := none
  holds : Bool := false
  dies : List Die := [.d0, .d1]
deriving DecidableEq, Repr

/-- Mb/s of slots per ms carried over the link (R98). -/
def slotMbps (n : Nat) : Nat := (n * 64 * 8 + 999) / 1000

/-- The charges of an instance on an engine with a context and CAN queues, in code order after ENGINE (R98, R340, R395). -/
def State.instCharges (s : State) (img : List Byte) (rec_ params : List Word) (d : Die) (k ctx len : Nat) (holds : Bool)
    (canq : List (Nat × Nat)) : List Charge :=
  let v := costVars rec_ params
  let slots := perMs (costAt (resWord img) 11 v + 1) (recCycle rec_)
  let e := dieOfAddr ctx
  let grants := grantsOf img rec_ params
  let remote := decide (e ≠ d) || grants.any fun g => decide (dieOfAddr g.1 ≠ d)
  [⟨bENGINE, d.idx, k, engineAmt img rec_ params (s.fcl d k)⟩, ⟨bPOOL_PORT, d.idx, k / 6, slots⟩] ++
  (canq.map fun _ => ⟨bPOOL_PORT, d.idx, 12, 128⟩) ++
  ((banksOf ctx (len / 64)).map fun b => ⟨bPOOL_BANK, e.idx, b, slots⟩) ++
  (grants.flatMap fun g => (banksOf g.1 g.2).map fun b => ⟨bPOOL_BANK, (dieOfAddr g.1).idx, b, slots⟩) ++
  (canq.map fun q => ⟨bPOOL_BANK, d.idx, bankOf (q.2 % 0x80_0000_0000), 128⟩) ++
  (if remote then [⟨bDUOLAY, 0, 0, slotMbps slots⟩, ⟨bDUOLAY, 1, 1, slotMbps slots⟩] else []) ++
  [⟨bCOMPARE, d.idx, 0, ncmp img⟩, ⟨bTAGS, d.idx, 0, costAt (resWord img) 14 v⟩] ++
  (if holds then [] else
    ((List.range 8).filter fun n => bit (rec_.getD 5 0) n).map (fun n => ⟨bEXCLUSIVE, n / 4, n, 1⟩) ++
    ((List.range 32).filter fun n => bit (rec_.getD 6 0) n).map fun n => ⟨bEXCLUSIVE, n / 16, 32 + n, 1⟩)

/-- One candidate tried: its placement, or the first budget that fails (R101). -/
def State.tryCe (s : State) (imgNo : Nat) (rec_ params : List Word) (resvOk : Bool) (kp : Keep) (d : Die) (k : Nat) : Except Rej Placement :=
  let img := s.image imgNo
  let f := s.fcl d k
  let v := costVars rec_ params
  let g := s.fld (R.PLC_GUARD d) 0 8
  match engineFits f g (loadOf img rec_ params f :: s.engineLoads d k f) with
  | some nums => .error { code := bENGINE, die := d.idx, idx := d.idx * 24 + k, nums := nums }
  | none =>
    let len := cxLen img v
    match (match kp.ctx with | some c => some c.1 | none => (s.chooseCtx (grantsOf img rec_ params) [] d len).map fun a => d.org + a) with
    | none => .error { code := bPOOL_BANK, die := d.idx }
    | some ctx =>
      let avoid := if dieOfAddr ctx = d then [(ctx % 0x80_0000_0000, len)] else []
      match (match kp.canq with | some l => some l | none => s.chooseCanQs (grantsOf img rec_ params) avoid d (recCans d rec_)) with
      | none => .error { code := bPOOL_BANK, die := d.idx }
      | some canq =>
      let cs := s.instCharges img rec_ params d k ctx len kp.holds canq
      let cmps := (s.freeCmps d).take (ncmp img)
      let caps := match kp.caps with | some (e, l) => if e = d then l else (s.freeCaps d).take (ncap img) | none => (s.freeCaps d).take (ncap img)
      match s.firstMiss resvOk cs with
      | some r => .error r
      | none =>
        if cmps.length < ncmp img then .error { code := bCOMPARE, die := d.idx, nums := some (ncmp img, cmps.length) }
        else
          let n := popcount 4 ((rec_.getD 5 0).toNat >>> (4 * d.idx)) + popcount 16 ((rec_.getD 6 0).toNat >>> (16 * d.idx))
          .ok { st := 2, die := d, ce := k, slot := (s.freeSlot d k).getD 0, ctx := ctx, ctxLen := len, cmps := cmps, caps := caps,
                tags := costAt (resWord img) 14 v, cb := (s.codeRoom d k imgNo).getD 0, charges := cs, canq := canq,
                sfqs := if kp.holds then [] else (s.freeSfqs d).take n }

/-- The first candidate that fits, or the first failure of the most preferred one; without a candidate CE_COUNT fails, an engine being asked
for of those empty beyond the reserve (R94, R101). -/
def State.tryAll (s : State) (imgNo : Nat) (rec_ params : List Word) (resvOk : Bool) (kp : Keep) (first : Option Rej) :
    List (Die × Nat) → Except Rej Placement
  | [] =>
    let d := (dieOrder rec_).headD .d0
    .error (first.getD { code := bCE_COUNT, die := d.idx, nums := some (1, s.ceEmpty d - if resvOk then 0 else s.reserveAmt 2 d) })
  | (d, k) :: t =>
    match s.tryCe imgNo rec_ params resvOk kp d k with
    | .ok p => .ok p
    | .error r => s.tryAll imgNo rec_ params resvOk kp (some (first.getD r)) t

/-- An instance placed: candidates in order, those without capture units, code memory and stack, or image cache skipped (R102, R317, R391,
R394); CAN controllers limit the candidates to their die, and those on both dies leave none (R327). -/
def State.placeInst (s : State) (imgNo : Nat) (rec_ params : List Word) (resvOk : Bool) (kp : Keep) : Except Miss Placement :=
  let img := s.image imgNo
  let cans := [Die.d0, Die.d1].filter fun d => recCans d rec_ ≠ []
  let all := ((dieOrder rec_).filter fun d => kp.dies.contains d && cans.all fun e => e = d).flatMap fun d => (s.ceOrder d resvOk).map fun k => (d, k)
  let c0 := all.filter fun c => !kp.barred.contains (c.1.idx, c.2) && (match kp.only with | some o => o = (c.1.idx, c.2) | none => true)
  let c1 := c0.filter fun c => (match kp.caps with | some (e, _) => e = c.1 | none => false) || decide (ncap img ≤ (s.freeCaps c.1).length)
  let c2 := c1.filter fun c =>
    let lo := (s.getReg (R.CE_SP_LO c.1 c.2)).toNat
    decide (imgStack img ≤ (s.getReg (R.CE_SP_HI c.1 c.2)).toNat - lo) && decide (imgWm img ≤ lo - 0x1_0000) && (s.codeRoom c.1 c.2 imgNo).isSome
  let c3 := c2.filter fun c => s.cacheRoom c.1 imgNo
  if cans = [.d0, .d1] then .error (.budget { code := bEXCLUSIVE, die := 1, idx := 4 + (recCans .d1 rec_).headD 0 })
  else if c0 ≠ [] ∧ c1 = [] then .error (.limit 3)
  else if c1 ≠ [] ∧ c2 = [] then .error (.limit 4)
  else if c2 ≠ [] ∧ c3 = [] then .error (.limit 5)
  else match s.tryAll imgNo rec_ params resvOk kp none c3 with
    | .ok p => .ok p
    | .error r => .error (.budget r)

/-! ## Ledger of a placement -/

/-- CTX of the banks of a range, by the contexts that lie in them now (R124). -/
def State.showCtx (s : State) (d : Die) (l : List Nat) : State :=
  let ctxs := s.contexts d
  l.foldl (fun s b =>
    let lo := bankBase b
    let hi := lo + (if b < 240 then 0x4_0000 else 0x2_0000)
    s.setFlag (R.PLC_BANK d b) 30 (ctxs.any fun c => decide (c.1 < hi) && decide (lo < c.1 + c.2))) s

/-! ## Preparation (R103, R109, R387, R398) -/

/-- An engine's number as an index. -/
def ceIx (k : Nat) : Fin 24 := ⟨k % 24, Nat.mod_lt _ (by decide)⟩

/-- A range of pool bytes zeroed, its error marks gone. -/
def State.zeroPool (s : State) (a n : Nat) : State :=
  let w (x : Nat) : Nat := wordNo (dieOfAddr x) (x % 0x80_0000_0000)
  { s with mem := s.mem.filter fun c => !(decide (a ≤ c.1) && decide (c.1 < a + n)),
           ecc := s.ecc.filter fun e => !(decide (w a ≤ e.1) && decide (e.1 < w a + n / 8)) }

/-- The context header, eight whole words, written by the device (R57, R399): `fl` is 1 << 16 for FRESH and 1 << 17 for REPLACED. -/
def State.writeHeader (s : State) (i : Intent) (p : Placement) (fl : Nat) : State :=
  let old := s.words (p.ctx + 8) 4
  let fresh := decide (fl / 0x1_0000 % 2 = 1)
  (s.setWords p.ctx (headerWords i p p.commit fl (if fresh then [0, 0, 0] else old.take 3) (if fresh then 0 else old.getD 3 0) p.lost)).wordsClean
    (dieOfAddr p.ctx) (p.ctx % 0x80_0000_0000) 8

/-- A context built: zeroed, the image's initial data, the parameter words, the header (R398). -/
def State.buildCtx (s : State) (i : Intent) (p : Placement) : State :=
  let img := s.image i.imageNo
  let s := (s.zeroPool p.ctx p.ctxLen).store (p.ctx + 64) (imgInit img)
  (s.setWords (p.ctx + paramOff img) i.params).writeHeader i p 0x1_0000

/-- The code of an image copied into an engine's code memory (R391). -/
def State.loadCode (s : State) (p : Placement) (img : List Byte) : State :=
  let a := ceMemAddr p.die (ceIx p.ce) p.cb
  let s := s.store a (imgCode img)
  { s with ceEcc := s.ceEcc.filter fun e => !(decide (a / 4 ≤ e.1) && decide (e.1 < (a + imgCodeLen img) / 4)) }

/-- The slot of a placement written (R387, R395). -/
def State.writeSlot (s : State) (i : Intent) (p : Placement) (shadow : Bool) : State :=
  let img := s.image i.imageNo
  let v := costVars i.record i.params
  let d := p.die
  let k := p.ce
  let limit := costC img v + (costS img v * s.fcl d k + 999) / 1000
  let line := p.ctx % 0x80_0000_0000 / 64
  let s := s.setReg (R.CE_SLOT_W0 d k p.slot) (wd (0x8000_0000 + imgEntry img))
  let s := s.setReg (R.CE_SLOT_W1 d k p.slot) (wd (imgCodeLen img / 16 * 0x1_0000 + p.cb))
  let s := s.setReg (R.CE_SLOT_W2 d k p.slot) (wd ((dieOfAddr p.ctx).idx * 0x10_0000 + line))
  let s := s.setReg (R.CE_SLOT_W3 d k p.slot) (wd p.ctxLen)
  let s := s.setReg (R.CE_SLOT_W4 d k p.slot) (wd limit)
  let s := s.setReg (R.CE_SLOT_W5 d k p.slot) (wd (recDeadline i.record))
  let s := s.setReg (R.CE_SLOT_W6 d k p.slot) (wd ((if shadow then 0x80_0000 else 0) + 0x40_0000 + p.cmps.headD 0 * 0x1_0000 + p.epoch))
  let gs := grantsOf img i.record i.params
  (List.range 8).foldl (fun s g =>
    match gs[g]? with
    | some (a, n) =>
      (s.setReg (R.CE_SLOT_W0 d k p.slot + 32 + 8 * g) (wd (0x8000_0000 + (if bit (grantWord img g 0) 0 then 0x20_0000 else 0) +
        (dieOfAddr a).idx * 0x10_0000 + a % 0x80_0000_0000 / 64))).setReg (R.CE_SLOT_W0 d k p.slot + 36 + 8 * g) (wd n)
    | none => (s.setReg (R.CE_SLOT_W0 d k p.slot + 32 + 8 * g) 0).setReg (R.CE_SLOT_W0 d k p.slot + 36 + 8 * g) 0) s

/-- The first start of an instance's cycle grid at or after a linear count (R404). -/
def gridFrom (i : Intent) (t : Nat) : Nat :=
  let c := max 1 (recCycle i.record)
  let ph := (i.recWord 2).toNat
  if t ≤ ph then ph else ph + (t - ph + c - 1) / c * c

/-- The first compare unit of a placement armed on the intent's grid (R404). -/
def State.armPlacement (s : State) (i : Intent) (p : Placement) (t : Nat) : State :=
  let d := p.die
  let u := p.cmps.headD 0
  let s := s.setPair (R.TB_CMP_TGT_LO d u) (R.TB_CMP_TGT_HI d u) (t % 2 ^ 64)
  let s := (s.setReg (R.TB_CMP_PERIOD d u) (i.recWord 1)).setFld (R.TB_CMP_CTRL d u) 0 4 3
  ((s.setFlag (R.TB_CMP_STAT d u) 0 true).setFlag (R.TB_CMP_STAT d u) 1 false).setCmpU d u { lo := wd t, written := t % 2 ^ 64 }

/-- The compare units of a placement become its engine's (R308). -/
def State.ownCmps (s : State) (p : Placement) : State :=
  p.cmps.foldl (fun s u => s.setFld (R.TB_CMP_OWNER p.die u) 0 8 p.ce) s

/-- The bases of a CAN controller's queues shown (R340). -/
def State.showCanQ (s : State) (d : Die) (c off : Nat) : State :=
  (s.setFld (R.CAN_Q_BASE d c 0) 6 20 (off / 64)).setFld (R.CAN_Q_BASE d c 1) 6 20 ((off + canQLen / 2) / 64)

/-- The capture units, controllers, stencils and stream FIFOs of a placement become its engine's (R77, R317, R326, R340, R445). -/
def State.ownUnits (s : State) (i : Intent) (p : Placement) : State :=
  let d := p.die
  let s := p.caps.foldl (fun s u => s.setFld (R.TB_CAP_OWNER d u) 0 8 p.ce) s
  let s := (recCans d i.record).foldl (fun s c => s.canSetOwner d c p.ce) s
  let s := (recStns d i.record).foldl (fun s n => s.setFld (R.STN_OWNER d n) 0 8 p.ce) s
  let s := p.canq.foldl (fun s q => s.showCanQ d q.1 (q.2 % 0x80_0000_0000)) s
  p.sfqs.foldl (fun s n => s.sfqSetOwner d n p.ce) s

/-- An instance's placement made ready to go LIVE at its first cycle start at or after `t`; the intent stands in the state. -/
def State.prepare (s : State) (i : Intent) (p : Placement) (t : Nat) : State :=
  (((s.loadCode p (s.image i.imageNo)).writeSlot i p false).ownCmps p).ownUnits i p |>.armPlacement i p (gridFrom i t)

/-! ## Release (R105, R107) -/

/-- Trigger outputs that name a placement's compare units, as die × 16 + output, with the units' places in its declaration (R316). -/
def State.trigsOf (s : State) (p : Placement) : List (Nat × Nat) :=
  (List.range p.cmps.length).flatMap fun j => (s.trigsOn p.die (p.cmps.getD j 0)).map fun n => (p.die.idx * 16 + n, j)

/-- A compare unit given back: disarmed, the supervisors' again; the trigger outputs that name it become free, but for those that wait for the
replacement of a placement whose unit failed (R315, R316). -/
def State.dropCmp (s : State) (d : Die) (u : Nat) : State :=
  let waits (n : Nat) : Bool := s.intents.any fun e => e.2.trigs.any fun t => decide (t.1 = d.idx * 16 + n)
  let s := ((s.trigsOn d u).filter fun n => !waits n).foldl (fun s n => s.trigFree d n) s
  (s.setArmed d u false).setFld (R.TB_CMP_OWNER d u) 0 8 0x20

/-- An instance is LIVE at a placement: the trigger outputs of the one before are re-routed to the compare units of the same place in the
declaration; an output of the other die, which no unit here drives, becomes free (R316; log entry 99). -/
def State.trigFollow (s : State) (h : Nat) (l : List (Nat × Nat)) (p : Placement) : State :=
  let s := s.setIntent h { s.intent h with trigs := [] }
  l.foldl (fun s t =>
    let d := dieOf (t.1 / 16)
    match (if d = p.die then p.cmps[t.2]? else none) with
    | some u => s.trigRoute d (t.1 % 16) u p.ce
    | none => s.trigFree d (t.1 % 16)) s

/-- A placement's unit has failed: its trigger outputs rest until the replacement is LIVE, and a time base that its clock instance steers is in
holdover (R298, R316). -/
def State.instDown (s : State) (h : Nat) (p : Placement) : State :=
  let i := s.intent h
  let l := s.trigsOf p
  let s := s.setIntent h { i with trigs := i.trigs ++ l }
  let s := l.foldl (fun s t => s.trigRest (dieOf (t.1 / 16)) (t.1 % 16)) s
  if !i.time then s
  else [Die.d0, .d1].foldl (fun s t =>
    if s.fld (R.TB_STAT t) 0 3 = 2 ∧ s.steerCe t = 1 + p.die.idx * 24 + p.ce then s.holdover t else s) s

/-- The slot of a placement emptied. -/
def State.clearSlot (s : State) (p : Placement) : State :=
  let s := (List.range 24).foldl (fun s w => s.setReg (R.CE_SLOT_W0 p.die p.ce p.slot + 4 * w) 0) s
  s.setFlag (pendReg p.die (ceIx p.ce) p.slot) (p.slot % 32) false

/-- Static entries of a flow removed from a die's flow table (R190). -/
def State.ftRemove (s : State) (h : Nat) : State := { s with ft := s.ft.filter fun e => !(decide (e.2.type = 2) && decide (e.2.handle = h)) }

/-- A placement is RELEASED: its charges, units and slot are free again; what the other placement of its intent, `other`, holds stays
(R105, R317). -/
def State.unplace (s : State) (i : Intent) (p : Placement) (other : Option Placement) : State :=
  let s := s.charge p.charges false
  if i.isFlow then s
  else
    let d := p.die
    let same : Bool := match other with | some o => decide (o.die = d) | none => false
    let held (l : Placement → List Nat) (u : Nat) : Bool := match other with | some o => same && (l o).contains u | none => false
    let s := s.clearSlot p
    let s := (p.cmps.filter fun u => !held (fun o => o.cmps) u).foldl (fun s u => s.dropCmp d u) s
    let s := (p.caps.filter fun u => !held (fun o => o.caps) u).foldl (fun s u => s.setFld (R.TB_CAP_OWNER d u) 0 8 0x20) s
    let s := (p.sfqs.filter fun u => !held (fun o => o.sfqs) u).foldl
      (fun s n => (s.setFlag (R.SFQ_CTRL d n) 0 false).sfqSetOwner d n 0xFF) s
    if same then s
    else
      let s := (recCans d i.record).foldl (fun s c => if s.fld (R.CAN_OWNER d c) 0 8 = p.ce then s.canRelease d c else s) s
      (recStns d i.record).foldl (fun s n =>
        if s.fld (R.STN_OWNER d n) 0 8 = p.ce then (s.stnLeave d n 0).setFld (R.STN_OWNER d n) 0 8 0x20 else s) s

/-- The intent of a handle with its placements replaced, CTX of the banks concerned following. -/
def State.setPlacements (s : State) (h : Nat) (cur tgt : Option Placement) : State :=
  let i := s.intent h
  let old := i.placements
  let s := s.setIntent h { i with cur := cur, tgt := tgt }
  let now := (s.intent h).placements
  if i.isFlow then s
  else (old ++ now).foldl (fun s p => s.showCtx (dieOfAddr p.ctx) (banksOf p.ctx (p.ctxLen / 64))) s

/-! ## Flows in the switch (R190, R193, R216) -/

/-- A static entry installed in a bucket: over the key's own entry, a free way, or a learned one. -/
def State.ftInstall (s : State) (d : Die) (mac vid : Nat) (e : FtEntry) : State :=
  let b := s.ftBucket d mac vid
  match s.ftFind d mac vid with
  | some n => s.setFt d n e
  | none =>
    match (List.range 4).find? fun w => (s.ftAt d (4 * b + w)).type = 0 with
    | some w => s.setFt d (4 * b + w) e
    | none => match (List.range 4).find? fun w => (s.ftAt d (4 * b + w)).type = 1 with
      | some w => s.setFt d (4 * b + w) e
      | none => s

/-- The meter of a flow's stream entry as admission sets it: CIR its rate, CBS its burst (R216). -/
def State.sidMeter (s : State) (i : Intent) (p : Placement) : State :=
  let r := i.record
  let n := flowStream r
  if n ≥ 4096 then s
  else
    let ws := (List.range 8).map fun w => s.sidWord p.die n w
    let ws := (ws.set 3 (wd (flowRate r))).set 4 (wd (min (flowBurst r * flowMaxF r) 0xFF_FFFF))
    { s with sid := Tab.put (fun _ => []) s.sid (sidKey p.die n) ws }

/-- A flow's placement entered: its charges, and the meter of its stream entry (R101, R216). -/
def State.takeFlow (s : State) (i : Intent) (p : Placement) : State := (s.charge p.charges true).sidMeter i p

/-- The entries of a placed flow on every die it passes: a static entry for a null-identified stream (R193). -/
def State.flowInstall (s : State) (i : Intent) (p : Placement) : State :=
  let r := i.record
  let n := flowStream r
  if n ≥ 4096 then s
  else
    let key := s.flowKeyOf p.die r
    let dies : List Die := (p.die :: (p.hops.map fun h => dieOf h.1)).eraseDups
    match key with
      | none => s
      | some (mac, vid) => dies.foldl (fun (s : State) (d : Die) =>
          let target := ((p.hops.filter fun h : Nat × Nat => h.1 = d.idx).map fun h : Nat × Nat => 2 ^ h.2).sum
          s.ftInstall d mac vid { type := 2, mac := mac, vid := vid, tc := flowTc r, target := target, seen := (s.now d).sec, handle := i.handle }) s

/-- A flow's placement along a path. -/
def State.flowPlacement (s : State) (r : List Word) (q : Path) (epoch : Nat) : Placement :=
  { st := 2, die := q.src.1, ce := q.src.2, slot := 63, hops := q.hops, tags := flowBurst r, epoch := epoch, charges := s.flowCharges r q }

/-- A flow placed: charges, bucket and deadlines in code order (R98, R101, R193, R218). The state is a trial one with the intent of the
flow in it, `dies` those that the planner plans, `no` uplinks to be avoided. -/
def State.placeFlow (s : State) (h : Nat) (resvOk : Bool) (dies : List Die) (no : List (Die × Nat) := []) : Except Rej Placement :=
  let i := s.intent h
  match s.flowPath i.record no with
  | none => .error { code := bPORT_TX }
  | some q =>
    let p := s.flowPlacement i.record q i.epoch
    if !((q.src.1 :: q.dst.map Prod.fst).all fun d => dies.contains d) then .error { code := bPORT_TX } else
    match s.firstMiss resvOk p.charges with
    | some r => .error r
    | none => match s.bucketMiss i.record q with
      | some r => .error r
      | none => match (s.setIntent h { i with tgt := some p }).flowsMiss with
        | some r => .error r
        | none => .ok p

/-! ## Handles (R88, R90, R106) -/

/-- Key of an index pool: issuer and kind. -/
def poolKey (d : Die) (flow : Bool) : Nat := d.idx * 2 + (if flow then 1 else 0)

/-- Indexes of a kind. -/
def indexCount (flow : Bool) : Nat := if flow then 65_536 else 1_024

/-- A handle issued by a die's planner: an index never used, else the one released longest ago, at its next generation. -/
def State.newHandle (s : State) (d : Die) (flow : Bool) : Option (Nat × State) :=
  let key := poolKey d flow
  let n := Tab.get (fun _ => 0) s.idxNext key
  let free := Tab.get (fun _ => ([] : List Nat)) s.idxFree key
  let base := (if flow then 0x4000_0000 else 0) + d.idx * 0x2000_0000
  let mk (ix : Nat) : Nat :=
    let g := (s.intent (base + ix)).handle / 0x1_0000 % 0x2000
    base + (if g ≥ 8191 then 1 else g + 1) * 0x1_0000 + ix
  if n < indexCount flow then some (mk n, { s with idxNext := Tab.put (fun _ => 0) s.idxNext key (n + 1) })
  else match free with
    | [] => none
    | ix :: t => some (mk ix, { s with idxFree := Tab.put (fun _ => []) s.idxFree key t })

/-- An intent given up with a cause: its handle is valid no longer, its index waits for reuse (R106, R124). -/
def State.dropIntent (s : State) (h cause : Nat) : State :=
  let i := s.intent h
  let key := (h >>> 29) % 2 * 2 + (h >>> 30) % 2
  let s := i.trigs.foldl (fun s t => s.trigFree (dieOf (t.1 / 16)) (t.1 % 16)) s
  let s := s.setIntent h { i with trigs := [], held := false, cause := cause, cur := none, tgt := none, stage := 0, outCur := [], outTgt := [] }
  let s := s.setIq h {}
  { s with idxFree := Tab.put (fun _ => []) s.idxFree key (Tab.get (fun _ => []) s.idxFree key ++ [h % 0x1_0000]) }

/-- An intent taken in: held, with what its image says of it. -/
def State.newIntent (s : State) (h : Nat) (it : Item) : State :=
  let img := s.image (bits (it.rec_.getD 0 0) 0 16)
  let i : Intent := { handle := h, held := true, record := it.rec_, params := it.params }
  if it.flow then s.setIntent h i
  else s.setIntent h { i with pinned := bit (it.rec_.getD 0 0) 19, pinFault := bit (it.rec_.getD 0 0) 20, time := imgTime img,
                              qmask := imgQueues img, nocmp := imgNocmp img, pers := imgPers img }

end Sys2Proof.Machine
end

