-- ==== Sys2Proof/Machine/Planner.lean ====
section
/-! DEFINITION. The Placement Planner: its events by rank and what each does, fault replacement, migration, flows that change their
path, the forecast, and the publishing of it all (R86, R87, R103 to R123). -/

namespace Sys2Proof.Machine

/-! ## Publishing (R87, R119, R120, R124) -/

/-- Resource indexes of a budget per die that the planner compares (R94). -/
def budgetIdx : Nat → List Nat
  | 3 => List.range 13
  | 4 => List.range 272
  | 5 => (List.range 15)
  | 6 => (List.range 15)
  | 8 => [0]
  | 9 => [0]
  | 10 => [0]
  | _ => []

/-- Budgets of a die in code order with their indexes, the link's own direction among them. -/
def budgetList (d : Die) : List (Nat × Nat) :=
  [3, 4, 5, 6].flatMap (fun c => (budgetIdx c).map fun i => (c, i)) ++ [(7, d.idx)] ++ [8, 9, 10].flatMap fun c => (budgetIdx c).map fun i => (c, i)

/-- The engines of a die whose instances no longer fit them. -/
def State.engineShort (s : State) (d : Die) : List Rej :=
  (List.range 24).filterMap fun k =>
    if s.ceInst d k = 0 then none
    else match engineFits (s.fcl d k) (s.fld (R.PLC_GUARD d) 0 8) (s.engineLoads d k (s.fcl d k)) with
      | some nums => some { code := bENGINE, die := d.idx, idx := d.idx * 24 + k, nums := nums }
      | none => none

/-- The budgets of a die that are committed beyond their capacity, or beyond what the reserve leaves, in code order (R95, R120, R122). -/
def State.shorts (s : State) (d : Die) (resv : Bool) : List Rej :=
  s.engineShort d ++ (if resv ∧ s.ceEmpty d < s.reserveAmt 2 d then [{ code := bCE_COUNT, die := d.idx }] else []) ++
  (budgetList d).filterMap fun b =>
    -- the standing load of a device bank is all of its capacity: such a bank is never short (R96)
    if (b.1 = 4 ∧ s.bankDevice d b.2) ∨ s.committed b.1 d b.2 = 0 ∨ s.fitsAmt b.1 d b.2 0 (!resv) then none
    else some { code := b.1, die := d.idx, idx := b.2 }

/-- The first of them. -/
def State.short (s : State) (d : Die) (resv : Bool) : Option Rej := (s.shorts d resv).head?

/-- RESV_SHORT: a reserve that is no longer whole (R119). -/
def State.resvShort (s : State) (d : Die) : Bool :=
  decide (s.ceEmpty d < s.reserveAmt 2 d) || ((budgetList d).any fun b =>
    !(b.1 = 4 ∧ s.bankDevice d b.2) && decide (s.committed b.1 d b.2 ≠ 0) && !s.fitsAmt b.1 d b.2 0 false)

/-- RESV_SHORT and OVERDRAWN of a die as its ledger stands (R119, R120). -/
def State.showShort (s : State) (d : Die) : State :=
  (s.setFlag (R.PLC_STAT d) 4 (s.resvShort d)).setFlag (R.PLC_STAT d) 3 (s.short d false).isSome

/-- The changes of an event published: status bits, then GEN (R87). -/
def State.publish (s : State) (p : Die) : State :=
  (s.plannedDies p).foldl (fun s d => (s.showShort d).wrapFld (R.PLC_STAT d) 16 16) s.showPlanner

/-- A change of placements or ledgers outside an event's handling published by the planner of a die: GEN advances with it (R87). -/
def State.republish (s : State) (d : Die) : State := s.publish (s.plannerOf d)

/-- A planner event's bit with doorbell PLC (R124, R179). -/
def State.plcEvent (s : State) (d : Die) (i : Nat) : State := s.event d (R.PLC_EVENT d) i dblPLC

/-- A forecast run queued at a planner, unless one waits (R123). -/
def State.planForecast (s : State) (p : Die) : State :=
  if (s.planEvents p).any fun e => e.kind = .forecast then s
  else s.setPlanEvents p (s.planEvents p ++ [⟨s.lin p, p, .forecast⟩])

/-! ## Replies of the planner (R101, R104) -/

/-- Words of a rejection record with its record number; figures the spec does not state are free values. -/
def State.rejWords (s : State) (r : Rej) (recNo : Nat) : List Word × State :=
  let w0 := wd (r.code + r.die * 0x100 + r.idx * 0x1_0000)
  match r.nums with
  | some (a, b) => ([w0, wd recNo, wd a, wd b], s)
  | none => ([w0, wd recNo, s.freeNow, s.drawn.freeNow], s.drawn.drawn)

/-- A command refused for a budget: the record in PLC_LAST_REJ and in the completion, REJECT counted; a dry one changes nothing (R104, R124,
R126). -/
def State.rejectCmd (s : State) (p : Die) (c : HostCmd) (r : Rej) (recNo : Nat) : State :=
  let (ws, s) := s.rejWords r recNo
  if c.flags.testBit 0 then s.complete c stOVERCOMMIT 0 ws else
  let s := (s.setReg (R.PLC_LAST_REJ p) (ws.getD 0 0)).setReg (R.PLC_LAST_REJ_TAG p) c.tag
  (s.count (R.PLC_CNT_REJECT p)).complete c stOVERCOMMIT 0 ws

/-- A command refused for a limit or a budget. -/
def State.missCmd (s : State) (p : Die) (c : HostCmd) (m : Miss) (recNo : Nat) : State :=
  match m with
  | .limit n => s.complete c stNO_RESOURCE n []
  | .budget r => s.rejectCmd p c r recNo

/-! ## Admission (R90, R101, R103, R148) -/

/-- An endpoint word that names a record of the command replaced by the handle it got (R148). -/
def substEnd (hs : List Nat) (w : Word) : Word := if bits w 30 2 = 1 then wd (hs.getD (bits w 0 16) 0) else w

/-- One intent admitted against a trial state: its handle and the state with it placed and charged. -/
def State.admitOne (t : State) (p : Die) (it : Item) (hs : List Nat) (resvOk : Bool) : Except Miss (Nat × State) :=
  match t.newHandle p it.flow with
  | none => .error (.limit (if it.flow then 2 else 1))
  | some (h, t) =>
    let it := if it.flow then { it with rec_ := (it.rec_.set 0 (substEnd hs (it.rec_.getD 0 0))).set 1 (substEnd hs (it.rec_.getD 1 0)) } else it
    let t := t.newIntent h it
    let done (q : Placement) : Except Miss (Nat × State) :=
      .ok (h, (if it.flow then t.takeFlow (t.intent h) q else t.charge q.charges true).setPlacements h
        (some { q with epoch := (t.intent h).epoch }) none)
    if it.flow then match t.placeFlow h resvOk (t.plannedDies p) with
      | .error r => .error (.budget r)
      | .ok q => done q
    else match t.placeInst (bits (it.rec_.getD 0 0) 0 16) it.rec_ it.params resvOk { dies := t.plannedDies p } with
      | .error m => .error m
      | .ok q => done q

/-- The intents of a command admitted in record order, or the first that fails with its record number (R101). -/
def State.admitAll (t : State) (p : Die) (hs : List Nat) : List Item → Except (Nat × Miss) (List Nat × State)
  | [] => .ok (hs, t)
  | it :: rest =>
    match t.admitOne p it hs false with
    | .error m => .error (hs.length, m)
    | .ok (h, t) => t.admitAll p (hs ++ [h]) rest

/-- Whether the limits of R90 hold with `n` more of a kind. -/
def State.roomFor (s : State) (flow : Bool) (n : Nat) : Bool :=
  decide ((s.heldIntents.filter fun i => i.isFlow = flow).length + n ≤ indexCount flow)

/-- An admitted instance prepared: its context built, ready for its first cycle start at least 100 µs on (R103, R398). -/
def State.startUp (s : State) (h : Nat) : State :=
  let i := s.intent h
  match i.cur with
  | some q => if i.isFlow then s else (s.buildCtx i q).prepare i q (s.lin q.die + 100_000)
  | none => s

/-- PLC_ADMIT as a planner's event (R90, R93, R101). -/
def State.doAdmit (s : State) (p : Die) (c : HostCmd) : State :=
  let n := bits (c.par 0) 0 7
  match takeItems n 1 (c.params.drop 1) with
  | none => s.complete c stBAD_LENGTH 0 []
  | some (items, _) =>
    match s.itemsBad [] items with
    | some e => s.complete c stBAD_PARAM e []
    | none =>
      let flows := (items.filter fun i => i.flow).length
      if !s.roomFor false (n - flows) then s.complete c stNO_RESOURCE 1 []
      else if !s.roomFor true flows then s.complete c stNO_RESOURCE 2 []
      else match s.admitAll p [] items with
        | .error (k, m) => s.missCmd p c m k
        | .ok (hs, t) =>
          let locs := hs.map fun h => (t.intent h).locWord
          if c.flags.testBit 0 then s.complete c stOK 0 (hs.map (fun _ => 0) ++ locs)
          else ((hs.foldl (fun s h => s.startUp h) (t.countBy (R.PLC_CNT_ADMIT p) n)).planForecast p).complete c stOK 0
            (hs.map wd ++ locs)

/-! ## Ending a migration (R110, R111, R414) -/

/-- Descriptors a slot leaves behind: their frames given back. -/
def State.dropRx (s : State) (l : List (List Word)) : State :=
  l.foldl (fun s ws => s.dropRef (dieOf (ws.getD 8 0).toNat) (some (bits (ws.getD 1 0) 0 18))) s

/-- Signals left behind: their senders' tags are free again. -/
def State.dropSig (s : State) (l : List (List Word)) : State :=
  l.foldl (fun s ws =>
    let g := (ws.getD 0 0).toNat
    s.setIq g { s.iqOf g with used := (s.iqOf g).used - 1 }) s

/-- The queues after a migration: the target's read positions become the queues', or are discarded (R345, R414). -/
def State.endShadow (s : State) (i : Intent) (p : Placement) (adopt : Bool) : State :=
  let q := s.iqOf i.handle
  let a := if adopt then q.shRx else q.liveRx
  let b := if adopt then q.shSig else q.liveSig
  let s := (s.dropRx (q.rx.take a)).dropSig (q.sigin.take b)
  let s := s.setIq i.handle { s.iqOf i.handle with rx := q.rx.drop a, sigin := q.sigin.drop b, shRx := 0, shSig := 0, liveRx := 0, liveSig := 0 }
  (recCans p.die i.record).foldl (fun s c => if (s.canOf p.die c).shadow then s.canShadowEnd p.die c adopt else s) s

/-- Host migrations of an intent that waited for the one that has ended go to the planner (R117). -/
def State.nextMigration (s : State) (h : Nat) : State :=
  let i := s.intent h
  match i.migAsked with
  | [] => s
  | c :: t =>
    let p := s.plannerOf (dieOf ((h >>> 29) % 2))
    let s := s.setIntent h { i with migAsked := t }
    s.setPlanEvents p (s.planEvents p ++ [⟨s.lin p, p, .command c⟩])

/-- The target of a migration given up: RELEASED, its charges returned; the host's migration completes with word 0 as given (R110, R111,
R117). -/
def State.dropTarget (s : State) (h : Nat) (word0 : Nat) : State :=
  let i := s.intent h
  match i.tgt with
  | none => s
  | some q =>
    if q.st = 6 then s else
    let s := if q.st = 3 then s.endShadow i q false else s
    let s := (s.unplace i q i.cur).setPlacements h i.cur none
    let s := s.setIntent h { s.intent h with stage := 0, outCur := [], outTgt := [], migCmd := none }
    let s := match i.migCmd with
      | some c => s.complete c stOK 0 [wd word0, (s.intent h).locWord]
      | none => s
    s.nextMigration h

/-- A migration mismatched or abandoned, for its own sake or for a higher-ranked event: ABORT counted, MIG_ABORT, logged (R110, R111, R117,
R522). -/
def State.abortMigration (s : State) (h : Nat) (word0 : Nat) : State :=
  let i := s.intent h
  match i.tgt with
  | none => s
  | some q =>
    if q.st = 6 then s else
    let d := q.die
    ((((s.dropTarget h word0).count (R.PLC_CNT_ABORT d)).plcEvent d 2).logEv d 0x203 2 0 0 h)

/-! ## Migration (R108, R109, R114) -/

/-- MOVE_WANTED for a pinned placement, with its reason (R114, R121). -/
def State.moveWanted (s : State) (h reason : Nat) : State :=
  let i := s.intent h
  let d := match i.cur with | some p => p.die | none => .d0
  ((s.setIntent h { i with moveWanted := reason }).plcEvent d 5).logEv d 0x205 1 0 0 h

/-- The engines not to be tried for an intent: its own, and mismatched ones for 10 s (R110). -/
def State.barredFor (s : State) (i : Intent) (p : Placement) : List (Nat × Nat) :=
  (p.die.idx, p.ce) :: (i.barred.filter fun b => decide (s.lin p.die < b.2)).map fun b => (b.1 / 24, b.1 % 24)

/-- A target for a live instance admitted: both placements are charged (R108, R109 step 1). -/
def State.startMigration (s : State) (h : Nat) (only : Option (Nat × Nat)) (cmd : Option HostCmd) (resv : Bool) (rank : Nat) : Except Miss State :=
  let i := s.intent h
  match i.cur with
  | none => .error (.limit 4)
  | some p =>
    let barred := if only.isSome then [(p.die.idx, p.ce)] else s.barredFor i p
    match s.placeInst i.imageNo i.record i.params resv { caps := some (p.die, p.caps), canq := some p.canq, barred := barred, only := only, holds := true, dies := s.plannedDies p.die } with
    | .error m => .error m
    | .ok q =>
      let q := { q with epoch := nextEpoch i.epoch, sfqs := if q.die = p.die then p.sfqs else q.sfqs }
      let s := (s.charge q.charges true).setPlacements h i.cur (some q)
      .ok (s.setIntent h { s.intent h with stage := 0, shadows := 0, outCur := [], outTgt := [], repCur := false, repTgt := false, tgtLate := false,
                                           migCmd := cmd, migRank := rank })

/-- Whether an intent's instance can be migrated now: LIVE or PINNED, no migration under way. -/
def Intent.movable (i : Intent) : Bool :=
  i.held && !i.isFlow && i.tgt.isNone && !i.releasing && (match i.cur with | some p => p.st = 4 || p.st = 5 | none => false)

/-- A migration of lower rank that is still in progress given up for an event of a rank (R117). -/
def State.yieldTo (s : State) (h rank : Nat) : State :=
  let i := s.intent h
  if i.migrating ∧ rank < i.migRank then s.abortMigration h 3 else s

/-- An instance migrated of the planner's own accord by an event of a rank, where a target is found; a pinned one is only wished away, with
the reason (R114, R116, R117). -/
def State.moveAway (s : State) (h rank reason : Nat) (resv : Bool) : State :=
  let s := s.yieldTo h rank
  let i := s.intent h
  if i.pinned then s.moveWanted h reason
  else if !i.movable then s
  else match s.startMigration h none none resv rank with
    | .ok t => t
    | .error _ => s

/-- PLC_MIGRATE as a planner's event (R109, R117).  On a handle whose migration is in progress it waits for that one's end and for the
release of the old placement; a dry one answers OK at once, having nothing to try until then (DESIGN CHOICE, log entry 91). -/
def State.doMigrate (s : State) (p : Die) (c : HostCmd) : State :=
  let h := (c.par 0).toNat
  let i := s.intent h
  let ce := bits (c.par 1) 0 6
  let only := if ce = 0x3F then none else some (ce / 24, ce % 24)
  let live : Bool := match i.cur with | some q => q.st = 4 || q.st = 5 | none => false
  if !s.handleHeld h ∨ i.isFlow ∨ !live ∨ i.releasing then s.complete c stBAD_PARAM 0 []
  else if i.tgt.isSome then
    if c.flags.testBit 0 then s.complete c stOK 0 [0, i.locWord] else s.setIntent h { i with migAsked := i.migAsked ++ [c] }
  else match s.startMigration h only (some c) false 3 with
    | .error m => s.missCmd p c m 0
    | .ok t =>
      if c.flags.testBit 0 then
        s.complete c stOK 0 [0, ({ t.intent h with cur := none }).locWord]
      else t.planForecast p

/-! ## Release (R106, R117) -/

/-- One intent's release: a flow drains at once, a placement not yet LIVE and an intent without one are gone at once, a live instance
drains from its next cycle start. -/
def State.releaseOne (s : State) (h : Nat) : State :=
  let s := s.abortMigration h 3
  let i := s.intent h
  match i.cur with
  | none => s.dropIntent h 1
  | some p =>
    if i.isFlow then
      if p.st = 2 then (s.unplace i p none).dropIntent h 1
      else (s.ftRemove h).setIntent h { i with held := false, cause := 1, cur := some { p with st := 6 } }
    else if p.st = 2 then (((s.unplace i p none).setPlacements h none none)).dropIntent h 1
    else s.setIntent h { i with releasing := true, cause := 1 }

/-- PLC_RELEASE as a planner's event. -/
def State.doRelease (s : State) (p : Die) (c : HostCmd) : State :=
  let hs := (c.params.drop 1).map fun w => w.toNat
  match firstIdx hs.length fun n => !s.handleHeld (hs.getD n 0) || (s.intent (hs.getD n 0)).releasing with
  | some n => s.complete c stBAD_PARAM (n + 1) []
  | none => ((hs.foldl (fun s h => s.releaseOne h) s).planForecast p).complete c stOK 0 []

/-! ## Flows that move (R113, R118) -/

/-- A flow whose endpoint has moved, given a new path beside the old one, or released where none meets all budgets. -/
def State.moveFlow (s : State) (h : Nat) (resvOk : Bool) : State :=
  let i := s.intent h
  match i.cur, s.flowPath i.record with
  | some p, some q =>
    if p.st = 6 ∨ (p.hops = q.hops ∧ (p.die, p.ce) = q.src) then s
    else
      let s := match i.tgt with
        | some old => (s.unplace i old none).setIntent h { i with tgt := none, stage := 0 }
        | none => s
      match s.placeFlow h resvOk (s.plannedDies p.die) with
      | .ok n => (s.takeFlow (s.intent h) n).setIntent h { s.intent h with tgt := some n }
      | .error _ => (((s.ftRemove h).unplace i p none).dropIntent h 2).logEv p.die 0x201 2 0 0 h
  | _, _ => s

/-- Every flow with an instance as an endpoint re-pathed after the instance has moved. -/
def State.moveFlowsOf (s : State) (h : Nat) (resvOk : Bool) : State :=
  (s.heldIntents.filter fun f => f.isFlow && (decide ((f.recWord 0).toNat = h) || decide ((f.recWord 1).toNat = h))).foldl
    (fun s f => s.moveFlow f.handle resvOk) s

/-- The uplinks that have no link: not to be chosen where a flow may use either (R118). -/
def State.deadUplinks (s : State) : List (Die × Nat) :=
  [(Die.d0, 12), (Die.d0, 13), (Die.d1, 12), (Die.d1, 13)].filter fun e => !s.portUp e.1 e.2

/-- A flow whose path has failed: its old placement is RELEASED; another path that meets all budgets, the reserve allowed, takes its
place, or the flow is released with cause FAULT; a pinned one without PIN_FAULT is held unplaced (R115, R118). -/
def State.replaceFlow (s : State) (h cause : Nat) : State :=
  let i := s.intent h
  match i.cur with
  | none => s
  | some p =>
    let s := match i.tgt with
      | some t => s.unplace i t none
      | none => s
    let s := ((s.ftRemove h).unplace i p none).setIntent h { i with cur := none, tgt := none, stage := 0 }
    if i.pinned ∧ !i.pinFault then s.setIntent h { s.intent h with cause := 3 }
    else
      let alive : Bool := match s.flowPath i.record s.deadUplinks with
        | some q => s.portUp q.src.1 q.src.2 && q.dst.all fun e => s.portUp e.1 e.2
        | none => false
      match (if alive then s.placeFlow h true (s.plannedDies p.die) s.deadUplinks else .error { code := bPORT_TX }) with
      | .ok n => ((s.takeFlow (s.intent h) n).setIntent h { s.intent h with cur := some n, cause := cause, replaced := true }).logEv p.die 0x201 2 0 0 h
      | .error _ => s.dropIntent h cause

/-! ## Fault replacement (R115, R117, R118) -/

/-- A rank-1 fault replacement that no engine but one under test can take: that test is given up (R518). -/
def State.abortForFault (s : State) (i : Intent) (kp : Keep) : State :=
  let fits (t : State) : Bool := match t.placeInst i.imageNo i.record i.params true kp with | .ok _ => true | .error _ => false
  if fits s then s
  else
    let under := (kp.dies.flatMap fun d => (List.range 24).map fun k => (d, k)).filter fun e => (s.hunit e.1 2 e.2).st = 1
    match under.find? fun e => fits (s.testAbort e.1 2 e.2) with
    | some e => (s.serviceReq e.1 2 e.2 true).testAbort e.1 2 e.2
    | none => s

/-- Cycle starts of an instance after `t` and before its first one at or after `u`: those that a replacement loses (R118, R401). -/
def lostStarts (i : Intent) (t u : Nat) : Nat := (gridFrom i u - gridFrom i (t + 1)) / max 1 (recCycle i.record)

/-- Cycles lost with the one in progress on a placement's engine, unless that one has been counted (R118, R401). -/
def State.lostNow (s : State) (i : Intent) (p : Placement) (u : Nat) : Nat :=
  let run := if s.runSlot p.die p.ce = some p.slot ∧ !(s.ceOf p.die (ceIx p.ce)).lost then 1 else 0
  min (p.lost + run + lostStarts i (s.lin p.die) u) 0xFFFF

/-- An instance replaced after a fault: the old placement is RELEASED; a pinned one without PIN_FAULT, and one for which no target on the dies
given meets all budgets with the reserve, leaves the intent held unplaced; else its context is mapped where it lies or built anew.  A placement that is DRAINING goes on draining. -/
def State.replaceInst (s : State) (h cause : Nat) (rebuild : Bool) (dies : List Die) : State :=
  let i := s.intent h
  match i.cur with
  | none => s
  | some p =>
    let lost := s.lostNow i p (s.lin p.die + 80_000)
    let old := i.tgt.filter fun q => q.st = 6
    let s := ((s.instDown h p).unplace i p old).setPlacements h none old
    let s := s.setIntent h { s.intent h with stage := 0, migCmd := none, cause := if i.pinned ∧ !i.pinFault then 3 else cause }
    if i.releasing then s.dropIntent h cause
    else if i.pinned ∧ !i.pinFault then s
    else
    let kp : Keep := { ctx := if rebuild then none else some (p.ctx, p.ctxLen), dies := dies }
    let s := s.abortForFault i kp
    match s.placeInst i.imageNo i.record i.params true kp with
      | .error _ => s
      | .ok q =>
        let e := nextEpoch i.epoch
        let q := { q with epoch := e, commit := if rebuild then 0 else p.commit, lost := if rebuild then 0 else lost }
        let s := (s.charge q.charges true).setPlacements h (some q) old
        let s := s.setIntent h { s.intent h with epoch := e, replaced := true, fresh := i.fresh || rebuild }
        let j := s.intent h
        let s := if rebuild then s.buildCtx j q else s.writeHeader j q ((if j.fresh then 0x1_0000 else 0) + 0x2_0000)
        ((s.prepare j q (s.lin q.die + 80_000)).moveFlowsOf h true).logEv q.die 0x201 2 0 0 h

/-- A unit of an instance has failed: a migration's target on it is given up; a live placement is taken over by a target in SHADOW at the
next cycle start without a compare, or is replaced (R117, R118). -/
def State.instFault (s : State) (h cause : Nat) (rebuild : Bool) (dies : List Die) (hit : Placement → Bool) : State :=
  let i := s.intent h
  let tgtHit : Bool := match i.tgt with | some q => hit q | none => false
  let s := if tgtHit then s.abortMigration h 2 else s
  let i := s.intent h
  match i.cur with
  | none => s
  | some p =>
    if !hit p then s
    else match i.tgt with
      | some q =>
        if q.st = 3 then
          let s := ((s.instDown h p).unplace i p (some q)).setPlacements h none (some q)
          ((s.setIntent h { s.intent h with stage := 4, cause := cause }).count (R.PLC_CNT_UNVERIFIED q.die)).logEv q.die 0x204 2 0 0 h
        else (s.abortMigration h 3).replaceInst h cause rebuild dies
      | none => s.replaceInst h cause rebuild dies

/-- Every intent for which `p` holds. -/
def State.intentsWhere (s : State) (p : Intent → Bool) : List Nat :=
  ((s.intents.map Prod.snd).filter fun i => (i.held || i.cur.isSome || i.tgt.isSome) && p i).map fun i => i.handle

/-- Every instance of which a placement is hit by a fault handled in turn; one that is DRAINING leaves for RELEASED only (R105). -/
def State.faultAll (s : State) (cause : Nat) (rebuild : Bool) (dies : List Die) (on : Placement → Bool) : State :=
  let hit (p : Placement) : Bool := decide (2 ≤ p.st) && decide (p.st ≤ 5) && on p
  (s.intentsWhere fun i => !i.isFlow && i.placements.any hit).foldl (fun s h => s.instFault h cause rebuild dies hit) s

/-- Every flow whose path uses a switch port replaced. -/
def State.portFault (s : State) (d : Die) (m : Nat) : State :=
  (s.intentsWhere fun i => i.isFlow && i.held && (match i.cur with
    | some p => p.hops.contains (d.idx, m) || (decide (p.die = d) && decide (p.ce = m))
    | none => false)).foldl (fun s h => s.replaceFlow h 2) s

/-- An instance whose maps name the failed unit: no other unit can take its place, so its placement is RELEASED with cause FAULT and the
intent is held with none (R115, R351, R445). -/
def State.releaseFaulty (s : State) (h : Nat) : State :=
  let s := s.abortMigration h 3
  let i := s.intent h
  match i.cur with
  | none => s
  | some p =>
    if p.st < 2 ∨ 5 < p.st then s
    else
      let old := i.tgt
      let s := ((s.instDown h p).unplace i p old).setPlacements h none old
      let s := s.setIntent h { s.intent h with stage := 0, migCmd := none, cause := if i.pinned ∧ !i.pinFault then 3 else 2 }
      if i.releasing then s.dropIntent h 2 else s.logEv p.die 0x201 2 0 0 h

/-- The instances, held or on their way out, whose maps name a CAN controller or a stencil of a die. -/
def State.namers (s : State) (d : Die) (cls idx : Nat) : List Nat :=
  s.intentsWhere fun i => !i.isFlow && (if cls = 6 then bit (i.recWord 5) (d.idx * 4 + idx) else bit (i.recWord 6) (d.idx * 16 + idx))

/-- A unit fault: engines and compare units take their placements with them, ports their flows, CAN controllers and stencils the instances
that name them (R116, R118, R351, R445). -/
def State.doUnitFault (s : State) (p d : Die) (cls idx : Nat) : State :=
  match cls with
  | 2 => s.faultAll 2 false (s.plannedDies p) fun q => decide (q.die = d) && decide (q.ce = idx)
  | 4 => s.portFault d idx
  | 5 => s.portFault d (12 + idx)
  | 6 => (s.namers d 6 idx).foldl (fun s h => s.releaseFaulty h) s
  | 7 => (s.namers d 7 idx).foldl (fun s h => s.releaseFaulty h) s
  | 9 => s.faultAll 2 false (s.plannedDies p) fun q => decide (q.die = d) && q.cmps.contains idx
  | _ => s

/-- What `f` does while banks of a die are no candidates. -/
def State.withoutBanks (s : State) (d : Die) (bs : List Nat) (f : State → State) : State :=
  let t := f (bs.foldl (fun s b => s.setFlag (R.POOL_BANK_OOS d (b / 32)) (b % 32) true) s)
  (List.range 9).foldl (fun t i => t.setReg (R.POOL_BANK_OOS d i) (s.getReg (R.POOL_BANK_OOS d i))) t

/-- The contexts on a bank that is to leave service migrated off it, the reserve allowed; pinned ones are wished away (R61, R114, R116,
R516). -/
def State.vacateContexts (s : State) (d : Die) (b : Nat) : State :=
  s.withoutBanks d [b] fun s =>
    (s.heldIntents.filter fun i => !i.isFlow && (match i.cur with
      | some p => (p.st = 4 || p.st = 5) && decide (dieOfAddr p.ctx = d) && (banksOf p.ctx (p.ctxLen / 64)).contains b
      | none => false)).foldl (fun s i => s.moveAway i.handle 1 1 true) s

/-- An uncorrectable word: contexts that hold it restart from their parameters, and the other contexts of its bank move off it (R61, R118). -/
def State.doBankFault (s : State) (p d : Die) (a : Nat) : State :=
  let x := d.org + a
  (s.withoutBanks d [bankOf a] fun s =>
    s.faultAll 5 true (s.plannedDies p) fun p => decide (p.ctx ≤ x) && decide (x < p.ctx + p.ctxLen)).vacateContexts d (bankOf a)

/-- Whether an instance uses the field I/O section: it owns an output of it (R36, R467). -/
def State.usesFio (s : State) (i : Intent) : Bool := (List.range 8).any fun k => decide ((s.getReg (R.FIO_OWN .d0 k)).toNat = i.handle)

/-- Dies an instance uses: engine, context, grants, its ports, and Die 0 for field I/O. -/
def State.instDies (s : State) (i : Intent) (p : Placement) : List Nat :=
  ((if s.usesFio i then [0] else []) ++ [p.die.idx, (dieOfAddr p.ctx).idx] ++ ((grantsOf (s.image i.imageNo) i.record i.params).map fun (g : Nat × Nat) => (dieOfAddr g.1).idx) ++
    (if unitsOn .d0 i.record = 0 then [] else [0]) ++ (if unitsOn .d1 i.record = 0 then [] else [1])).eraseDups

/-- The link is down: straddling instances whose ports lie on one die are replaced by its planner there; those with ports on both, and flows
that crossed, are released with cause LINK_DOWN (R36, R118). -/
def State.doLinkDown (s : State) (d : Die) : State :=
  let insts := s.intentsWhere fun i => !i.isFlow && (match i.cur with
    | some p => decide (1 < (s.instDies i p).length)
    | none => false)
  let s := insts.foldl (fun s h =>
    let i := s.intent h
    let s := s.abortMigration h 2
    match i.cur with
    | none => s
    | some p =>
      let a := unitsOn .d0 i.record ≠ 0
      let b := unitsOn .d1 i.record ≠ 0
      if a ∧ b then (if p.die = d then ((s.unplace i p none).setPlacements h none none).dropIntent h 6 else s)
      else if (a ∧ d = .d0) ∨ (b ∧ d = .d1) ∨ (¬a ∧ ¬b ∧ p.die = d) then s.replaceInst h 6 (decide (dieOfAddr p.ctx ≠ d)) [d]
      else s) s
  let s := (s.intentsWhere fun i => !i.isFlow && (match i.tgt with
    | some q => (q.st = 2 || q.st = 3) && (match i.cur with | some p => decide (p.die ≠ q.die) | none => false)
    | none => false)).foldl (fun s h => s.abortMigration h 2) s
  (s.intentsWhere fun i => i.isFlow && (match i.cur with
    | some p => (p.hops.any fun x => x.2 = 15) && decide (p.die = d)
    | none => false)).foldl (fun s h =>
      match (s.intent h).cur with
      | some p => ((s.ftRemove h).unplace (s.intent h) p none).dropIntent h 6
      | none => s) s

/-- What an intent's placement charges to a link direction. -/
def linkLoad (d : Die) (i : Intent) : Nat :=
  match i.cur with
  | some p => ((p.charges.filter fun c => c.code = 7 ∧ c.idx = d.idx).map fun c => c.amt).sum
  | none => 0

/-- Flows and instances that load the link in a direction, the largest charge first (R35). -/
def State.crossing (s : State) (d : Die) : List Nat :=
  let l := s.heldIntents.filter fun i => decide (0 < linkLoad d i)
  let ins (i : Intent) (acc : List Intent) : List Intent :=
    (acc.takeWhile fun j => decide (linkLoad d i ≤ linkLoad d j)) ++ [i] ++ acc.dropWhile fun j => decide (linkLoad d i ≤ linkLoad d j)
  (l.foldr ins []).map fun i => i.handle

/-- The charges of placements that migrations under way will leave behind taken out: what the ledgers will be without them. -/
def State.onTheirWay (s : State) : State := s.heldIntents.foldl (fun t i =>
  if i.migrating ∧ !i.isFlow then (match i.cur with
    | some p => (t.charge p.charges false).setPlacements i.handle none i.tgt
    | none => t)
  else t) s

/-- One placement taken off a degraded link: an instance moves to where its pool lines lie on its own die, if such a place is found, and is
released with cause FAULT else; a flow, whose ends are fixed, is released (R35; log entry 31). -/
def State.offLink (s : State) (d : Die) (h : Nat) : State :=
  let i := s.intent h
  match i.cur with
  | none => s
  | some p =>
    if i.isFlow then ((s.ftRemove h).unplace i p none).dropIntent h 2
    else
      let t := s.moveAway h 1 1 true
      let away : Bool := match (t.intent h).tgt with
        | some q => (t.intent h).migrating && !(q.charges.any fun c => c.code = 7 && c.idx = d.idx)
        | none => false
      if i.pinned ∨ away then t else (s.yieldTo h 1).releaseFaulty h

/-- The link runs degraded: placements that load it are re-placed or released, the largest first, until what is left fits (R35). -/
def State.doDegraded (s : State) : State :=
  [Die.d0, Die.d1].foldl (fun s d => (s.crossing d).foldl (fun s h =>
    if s.onTheirWay.committed 7 d d.idx ≤ s.dlyMbps d then s else s.offLink d h) s) s

/-! ## Overdraft, tests, gate lists (R116, R119 to R121, R213) -/

/-- What a placement charges to a budget. -/
def Placement.chargeOf (p : Placement) (code die idx : Nat) : Nat :=
  ((p.charges.filter fun c => c.code = code ∧ c.die = die ∧ c.idx = idx).map fun c => c.amt).sum

/-- Instances charged to a budget, the largest charge first. -/
def State.chargedTo (s : State) (code die idx : Nat) : List Nat :=
  let amt (i : Intent) : Nat := match i.cur with | some p => p.chargeOf code die idx | none => 0
  let l := s.heldIntents.filter fun i => !i.isFlow && decide (0 < amt i)
  let ins (i : Intent) (acc : List Intent) : List Intent :=
    (acc.takeWhile fun j => decide (amt i ≤ amt j)) ++ [i] ++ acc.dropWhile fun j => decide (amt i ≤ amt j)
  (l.foldr ins []).map fun i => i.handle

/-- Placements migrated off an overdrawn budget in turn, the largest charge first, until it holds without those on their way; a migration of
lower rank gives way, pinned placements are only wished away (R114, R116, R117). -/
def State.relieve (s : State) (r : Rej) : State :=
  let idx := if r.code = 1 then r.idx % 24 else r.idx
  (s.chargedTo r.code r.die idx).foldl (fun s h =>
    let s := s.yieldTo h 2
    if (s.onTheirWay.shorts (dieOf r.die) false).any fun x => x.code = r.code && x.idx = r.idx then s.moveAway h 2 3 false else s) s

/-- Committed engine time of a cluster shown anew at its certified frequency (R124 PLC_CE). -/
def State.rechargeCl (s : State) (d : Die) (cl : Nat) : State :=
  (s.intentsWhere fun i => !i.isFlow).foldl (fun s h =>
    let i := s.intent h
    let f (s : State) (p : Placement) : State × Placement :=
      if p.die ≠ d ∨ p.ce / 6 ≠ cl then (s, p)
      else
        let amt := engineAmt (s.image i.imageNo) i.record i.params (s.fcl d p.ce)
        let old := p.chargeOf 1 d.idx p.ce
        let s := s.setFld (R.PLC_CE d p.ce) 8 20 (s.fld (R.PLC_CE d p.ce) 8 20 - old + amt)
        (s, { p with charges := p.charges.map fun c => if c.code = 1 then { c with amt := amt } else c })
    let (s, c) := match i.cur with | some p => let (s, q) := f s p; (s, some q) | none => (s, none)
    let (s, t) := match i.tgt with | some p => let (s, q) := f s p; (s, some q) | none => (s, none)
    s.setPlacements h c t) s

/-- A certified frequency has fallen: every budget that no longer holds is relieved without the reserve; the first that will still not hold
once those on their way are gone is the overdraft that is reported (R116, R120). -/
def State.doFcert (s : State) (p d : Die) (dom : Nat) : State :=
  let s := if dom < 4 then s.rechargeCl d dom else s
  let s := (s.shorts d false).foldl (fun s r => s.relieve r) s
  match s.onTheirWay.short d false with
  | none => s
  | some r =>
    let (ws, s) := s.rejWords r 0
    ((s.setReg (R.PLC_LAST_REJ p) (ws.getD 0 0)).plcEvent d 4).logEv d 0x206 3 0 0 r.code

/-- Who holds a unit: instances that can be migrated off it, flows on a port, holders that no migration moves, and whether someone else than an
intent holds it. -/
structure Holders where
  move : List Nat := []
  flows : List Nat := []
  stuck : List Nat := []
  other : Bool := false
deriving DecidableEq, Repr

/-- The holders of a unit to be vacated (R514): a port its flows use, a CAN controller or a stencil the instances that name it, a stream FIFO
its owner, a mailbox channel its owner. -/
def State.holders (s : State) (d : Die) (cls idx : Nat) : Holders :=
  let inst (hit : Placement → Bool) : List Nat :=
    (s.heldIntents.filter fun i => !i.isFlow && (match i.cur with | some p => hit p | none => false)).map fun i => i.handle
  let flows (m : Nat) : List Nat :=
    (s.heldIntents.filter fun i => i.isFlow && i.placements.any fun p => p.hops.contains (d.idx, m) || (p.die, p.ce) = (d, m)).map fun i => i.handle
  match cls with
  | 2 => { move := inst fun p => decide (p.die = d) && decide (p.ce = idx) }
  | 4 => { flows := flows idx }
  | 5 => { flows := flows (12 + idx) }
  | 6 => { stuck := if s.exclusiveHeld (d.idx * 4 + idx) then s.namers d 6 idx else [] }
  | 7 => { stuck := if s.exclusiveHeld (32 + d.idx * 16 + idx) then s.namers d 7 idx else [] }
  | 9 => { move := inst fun p => decide (p.die = d) && p.cmps.contains idx }
  | 10 => { move := inst fun p => decide (dieOfAddr p.ctx = d) && (banksOf p.ctx (p.ctxLen / 64)).any fun b => b / 16 = idx }
  | 11 => { stuck := inst fun p => decide (p.die = d) && p.sfqs.contains idx, other := decide (s.fld (R.SFQ_OWNER d idx) 0 8 ≠ 0xFF) }
  | 12 => { other := decide (s.fld (R.MBX_CH_STAT d idx) 29 3 ≠ 0) }
  | _ => {}

/-- Every intent among them. -/
def Holders.all (x : Holders) : List Nat := x.move ++ x.flows ++ x.stuck

/-- Whether nothing stands on a unit any longer. -/
def State.vacated (s : State) (d : Die) (cls idx : Nat) : Bool :=
  let x := s.holders d cls idx
  decide (x.all = []) && !x.other && (cls ≠ 2 || decide (s.ceInst d idx = 0))

/-- A test refused for want of a vacant unit: deferred and logged; a host's command completes with the reason (R121). -/
def State.deferTest (s : State) (d : Die) (cls idx reason : Nat) (hs : List Nat) : State :=
  let s := hs.foldl (fun s h => s.moveWanted h 2) s
  let s := if s.testingUnit d cls idx then s.setReg (R.HLT_TEST_STAT d) 0 else s
  let s := ((s.count (R.HLT_CNT_DEFER d)).event d (R.HLT_EVENT d) 3 dblHLT).logUnit d 0x604 1 cls idx 0
  match s.healthCmd d cls idx with
  | some c => s.complete c stNO_RESOURCE reason []
  | none => s

/-- A flow given a path that avoids a port, where its record leaves the choice; one that is moving off it already is left alone (R113). -/
def State.flowAway (s : State) (d : Die) (m h : Nat) : Option State :=
  let i := s.intent h
  let off (p : Placement) : Bool := !p.hops.contains (d.idx, m) && (p.die, p.ce) ≠ (d, m)
  match i.cur, i.tgt with
  | some p, none =>
    match s.flowPath i.record [(d, m)] with
    | some q =>
      if (p.st ≠ 4 ∧ p.st ≠ 5) ∨ q.src = (d, m) ∨ q.dst.contains (d, m) then none
      else match s.placeFlow h false (s.plannedDies p.die) [(d, m)] with
        | .ok n => some ((s.takeFlow i n).setIntent h { i with tgt := some n })
        | .error _ => none
    | none => none
  | some p, some q => if p.st = 6 ∨ (q.st ≠ 6 ∧ off q) ∨ (off p ∧ q.st = 6) then some s else none
  | _, _ => some s

/-- Every placement migrated off a unit, and every flow led round it, without the reserve, or the test is deferred (R116, R121). -/
def State.vacateUnit (s : State) (d : Die) (cls idx : Nat) : State :=
  let x := s.holders d cls idx
  let pins := x.all.filter fun h => (s.intent h).pinned
  if pins ≠ [] then s.deferTest d cls idx 1 pins
  else if x.stuck ≠ [] ∨ x.other then s.deferTest d cls idx 2 x.all
  else
    let s := x.move.foldl (fun s h => s.yieldTo h 4) s
    let go := x.move.foldl (fun (r : Option State) h => match r with
      | none => none
      | some t => if (t.intent h).migrating then some t else if !(t.intent h).movable then none
        else match t.startMigration h none none false 4 with
          | .ok u => some u
          | .error _ => none) (some s)
    let go := x.flows.foldl (fun (r : Option State) h => r.bind fun t => t.flowAway d (if cls = 5 then 12 + idx else idx) h) go
    match go with
    | some t => t
    | none => s.deferTest d cls idx 2 x.all

/-- A test request (R116, R121): the banks of a bank group are no candidates meanwhile. -/
def State.doTest (s : State) (d : Die) (cls idx : Nat) : State :=
  s.withoutBanks d (if cls = 10 then (List.range 16).map (idx * 16 + ·) else []) fun s => s.vacateUnit d cls idx

/-- The list a port's CHANGE asks for, in force (R213). -/
def State.gclTrial (s : State) (d : Die) (j : Nat) : State :=
  let a := R.SW_GCL_CTRL d j
  let s := s.setFld a 8 1 (s.fld a 8 1 + 1)
  s.setGcl d j { s.gclOf d j with len := s.fld a 0 8, cycle := max 1 (s.fld (R.SW_GCL_CYCLE_NS d j) 0 30) }

/-- A changed gate control list: scheduled where every placed flow that uses the port keeps its deadline, else REFUSED (R213). -/
def State.doGcl (s : State) (p d : Die) (j : Nat) : State :=
  let t := s.gclTrial d j
  let fs := t.placedFlows
  match (fs.filter fun f => f.path.dst.contains (d, j)).findSome? fun f => t.deadlineMiss fs f with
  | none => s.gclSchedule d j
  | some r =>
    let (ws, s) := s.rejWords r 0
    ((s.setReg (R.PLC_LAST_REJ p) (ws.getD 0 0)).setFlag (R.SW_GCL_CTRL d j) 30 true).setFlag (R.SW_GCL_CTRL d j) 31 false

/-! ## The reserve, re-placement, forecast (R95, R115, R122) -/

/-- PLC_RESERVE as a planner's event. -/
def State.doReserve (s : State) (p : Die) (c : HostCmd) : State :=
  let d := dieOf (bits (c.par 0) 0 1)
  let t := (s.setReg (R.PLC_RESV d) (c.par 1)).setFld (R.PLC_GUARD d) 0 8 (bits (c.par 2) 0 8)
  match t.short d true with
  | some r => s.rejectCmd p c r 0
  | none => if c.flags.testBit 0 then s.complete c stOK 0 [] else (t.planForecast p).cfgTouch.complete c stOK 0 []

/-- A fault replacement of an intent held unplaced, its context built anew (R115, R485). -/
def State.placeAgain (s : State) (p : Die) (h : Nat) : Except Miss State :=
  let i := s.intent h
  if i.isFlow then
    match s.placeFlow h true (s.plannedDies p) with
    | .error r => .error (.budget r)
    | .ok n => .ok ((s.takeFlow i n).setIntent h { i with cur := some n, replaced := true })
  else match s.placeInst i.imageNo i.record i.params true { dies := s.plannedDies p } with
    | .error m => .error m
    | .ok q =>
      let e := nextEpoch i.epoch
      let q := { q with epoch := e }
      let s := (s.charge q.charges true).setPlacements h (some q) none
      let s := s.setIntent h { s.intent h with epoch := e, replaced := true, fresh := true }
      let s := ((s.buildCtx (s.intent h) q).prepare (s.intent h) q (s.lin q.die + 80_000)).moveFlowsOf h true
      .ok (s.logEv q.die 0x201 2 0 0 h)

/-- PLC_REPLACE as a planner's event (R115). -/
def State.doReplace (s : State) (p : Die) (c : HostCmd) : State :=
  let h := (c.par 0).toNat
  let i := s.intent h
  if !s.handleHeld h ∨ i.cur.isSome ∨ i.tgt.isSome then s.complete c stBAD_PARAM 0 []
  else match s.placeAgain p h with
    | .error m => s.missCmd p c m 0
    | .ok t => (t.planForecast p).complete c stOK 0 [(t.intent h).locWord]

/-- A die has become ready again: each intent that a fault left without a placement is placed again, but those whose pin forbids it (R115,
R485). -/
def State.doDieReady (s : State) (p : Die) : State :=
  (s.heldIntents.filter fun i => i.cur.isNone && i.tgt.isNone && decide (i.cause ≠ 3)).foldl (fun s i =>
    match s.placeAgain p i.handle with
    | .ok t => t
    | .error _ => s) s

/-- Ageing record of a clock domain. -/
def State.ageOf (s : State) (d : Die) (dom : Nat) : Age := Tab.get (fun _ => {}) s.age (d.idx * 8 + dom)

/-- T_HIST of a domain in 10^-6 ps: the greatest normalised delay of the last 7 days of powered time (R507). -/
def State.tHist (s : State) (d : Die) (dom : Nat) : Nat := (s.ageOf d dom).hist.foldl (fun (m : Nat) (e : Nat × Nat) => max m e.2) 0

/-- Days of powered time of a die (R510). -/
def State.poweredDays (s : State) (d : Die) : Nat := (s.getReg (R.HLT_LIFE_HOURS d)).toNat / 24

/-- Guard band of a domain in per mille (R507). -/
def State.guardBand (s : State) (d : Die) (dom : Nat) : Nat :=
  s.fld (R.HLT_DOM_GB d dom) 0 10 + s.fld (R.HLT_DOM_GB d dom) 10 10 + s.fld (R.HLT_DOM_GB d dom) 20 10

/-- Projected frequency of a domain `t` days ahead before the clamp, no more than `fc` (R510). -/
def State.rawMhz (s : State) (d : Die) (dom fc t : Nat) : Nat :=
  let th := s.tHist d dom
  let loss (x : Nat) : Nat := Config.ageLoss (d.idx * 8 + dom) (s.ageOf d dom).readings x
  let now := s.poweredDays d
  let den := th * (1_000_000_000 + loss (now + t)) * (1000 + s.guardBand d dom)
  if den = 0 then fc else min fc (1_000_000_000_000 * 1000 * (1_000_000_000 + loss now) / den)

/-- The projection, never rising with the day. -/
def State.projMhz (s : State) (d : Die) (dom fc : Nat) : Nat → Nat
  | 0 => s.rawMhz d dom fc 0
  | t + 1 => min (s.projMhz d dom fc t) (s.rawMhz d dom fc (t + 1))

/-- The state with every budget at the frequencies projected for a day. -/
def State.atDay (s : State) (t : Nat) : State :=
  [Die.d0, Die.d1].foldl (fun u d =>
    let u := (List.range 4).foldl (fun u c => u.setFld (R.PLC_CL_FCERT d c) 0 10 (s.projMhz d c (s.fld (R.PLC_CL_FCERT d c) 0 10) t)) u
    u.setFld (R.PLC_POOL_FCERT d) 0 10 (s.projMhz d 4 (s.fpool d) t)) s

/-- The first budget that would fail admission on a day, with the present reserve: the ledgers', then the placed flows' DEADLINE (R122). -/
def State.failsAt (s : State) (p : Die) (t : Nat) : Option Rej :=
  let u := s.atDay t
  match (s.plannedDies p).findSome? fun d => u.short d true with
  | some r => some r
  | none => u.flowsMiss

/-- The bisection of R122 between a day that admits all and one that does not. -/
def State.bisect (s : State) (p : Die) (lo hi : Nat) : Nat → Nat
  | 0 => hi
  | fuel + 1 =>
    if hi - lo ≤ 1 then hi
    else
      let mid := (lo + hi) / 2
      if (s.failsAt p mid).isNone then s.bisect p mid hi fuel else s.bisect p lo mid fuel

/-- The forecast day (R122). -/
def State.forecastDay (s : State) (p : Die) : Nat :=
  if (s.failsAt p 0).isSome then 0
  else if (s.failsAt p 10_958).isNone then 0xFFFF
  else s.bisect p 0 10_958 14

/-- A forecast run: its day, the first failing budget, 0 where none fails within the horizon, the time of the run, FCST_CHG when the day moved
by more than 30 (R122; log entry 91). -/
def State.doForecast (s : State) (p : Die) : State :=
  let day := s.forecastDay p
  let what := match (if day = 0xFFFF then none else s.failsAt p day) with
    | some r => wd (r.idx * 0x1_0000 + r.die * 0x100 + r.code)
    | none => 0
  (s.plannedDies p).foldl (fun s d =>
    let old := s.fld (R.PLC_FCST_DAYS d) 0 16
    let s := ((s.setReg (R.PLC_FCST_DAYS d) (wd day)).setReg (R.PLC_FCST_WHAT d) what).setReg (R.PLC_FCST_BASE d) (wd (s.now d).sec)
    if day > old + 30 ∨ old > day + 30 then s.plcEvent d 6 else s) s

/-! ## Rebalancing (R116) -/

/-- The engine of a die with the least free engine time among those that hold an instance. -/
def State.leastFree (s : State) (d : Die) : Option Nat :=
  ((List.range 24).filter fun k => s.ceUsable d k && decide (0 < s.ceInst d k)).foldl (fun (m : Option Nat) k => match m with
    | none => some k
    | some j => if s.freeOf 1 d k true < s.freeOf 1 d j true then some k else some j) none

/-- One migration that spreads the wear of a die, if there is one: off the engine with the least free time, the largest charge first, where
the lesser free time of the two engines is afterwards at least 10 % more than that engine's before; a pinned instance is wished away
(R114, R116; log entry 91). -/
def State.spread (s : State) (d : Die) : State :=
  match s.leastFree d with
  | none => s
  | some k =>
    ((s.chargedTo 1 d.idx k).foldl (fun (r : Bool × State) h =>
      let s := r.2
      let i := s.intent h
      if r.1 ∨ !i.movable then r
      else match s.startMigration h none none false 5 with
        | .error _ => r
        | .ok t =>
          let u := t.onTheirWay
          match (t.intent h).tgt with
          | some q =>
            if s.freeOf 1 d k true * 11 ≤ min (u.freeOf 1 d k true) (u.freeOf 1 q.die q.ce true) * 10 then
              (true, if i.pinned then s.moveWanted h 4 else t)
            else r
          | none => r) (false, s)).2

/-- A rebalancing run: at most one migration per die planned. -/
def State.doRebalance (s : State) (p : Die) : State := (s.plannedDies p).foldl (fun s d => s.spread d) s

/-! ## Events (R87, R116) -/

/-- Rank of an event (R116). -/
def PlanKind.rank : PlanKind → Nat
  | .unitFault _ _ => 1
  | .portDown _ => 1
  | .linkDown => 1
  | .linkDegraded => 1
  | .contextLost _ => 1
  | .bankFault _ => 1
  | .vacateBank _ => 1
  | .dieReady => 1
  | .fcertDrop _ => 2
  | .command _ => 3
  | .gclChange _ => 3
  | .test _ _ => 4
  | .forecast => 5
  | .rebalance => 5

/-- Opcodes of the placement commands that the planner handles as events (R147). -/
def State.doCommand (s : State) (p : Die) (c : HostCmd) : State :=
  match c.op with
  | 0x0200 => s.doAdmit p c
  | 0x0201 => s.doRelease p c
  | 0x0202 => s.doMigrate p c
  | 0x0204 => s.doReplace p c
  | 0x0205 => s.doReserve p c
  | 0x0208 =>
    let s := s.doForecast p
    s.complete c stOK 0 [s.getReg (R.PLC_FCST_DAYS p), s.getReg (R.PLC_FCST_WHAT p)]
  | _ => s

/-- What one event does to placements and ledgers. -/
def State.doEvent (s : State) (p : Die) (e : PlanEv) : State :=
  match e.kind with
  | .unitFault cls idx => (s.doUnitFault p e.die cls idx).planForecast p
  | .portDown m => (s.portFault e.die m).planForecast p
  | .linkDown => (s.doLinkDown e.die).planForecast p
  | .linkDegraded => s.doDegraded.planForecast p
  | .contextLost h => (s.instFault h 5 true (s.plannedDies p) fun q => decide (q.st ≠ 6)).planForecast p
  | .bankFault a => (s.doBankFault p e.die a).planForecast p
  | .vacateBank b => s.vacateContexts e.die b
  | .dieReady => (s.doDieReady p).planForecast p
  | .fcertDrop dom => (s.doFcert p e.die dom).planForecast p
  | .command c => s.doCommand p c
  | .gclChange j => s.doGcl p e.die j
  | .test cls idx => s.doTest e.die cls idx
  | .forecast => s.doForecast p
  | .rebalance => s.doRebalance p

/-- Whether an event is served before another: by rank, then device time, then die (R116). -/
def PlanEv.before (a b : PlanEv) : Bool :=
  let ka := (a.kind.rank, a.time, a.die.idx)
  let kb := (b.kind.rank, b.time, b.die.idx)
  decide (ka.1 < kb.1) || (ka.1 = kb.1 && (decide (ka.2.1 < kb.2.1) || (ka.2.1 = kb.2.1 && decide (ka.2.2 < kb.2.2))))

/-- The event served next; of equal ones the one that came first. -/
def nextEvent : List PlanEv → Option PlanEv
  | [] => none
  | e :: t => match nextEvent t with
    | none => some e
    | some f => if f.before e then some f else some e

/-- PLANNER_EVENT: a planner handles the next event of its queue and publishes its changes (R87). -/
def execPlannerEvent (d : Die) (s : State) : Host.Outcome State Fault Refusal :=
  .next (match nextEvent (s.planEvents d) with
    | none => s
    | some e =>
      let s := s.setPlanEvents d ((s.planEvents d).erase e)
      (s.doEvent d e).publish d)

/-- FORECAST_TIMER: an hour of device time has passed: a forecast run (R123), and behind it a rebalancing of wear, which the spec gives no
time of its own (R116; log entry 91). -/
def execForecastTimer (d : Die) (s : State) : Host.Outcome State Fault Refusal :=
  let s := s.planForecast d
  .next (if (s.planEvents d).any fun e => e.kind = .rebalance then s
    else s.setPlanEvents d (s.planEvents d ++ [⟨s.lin d, d, .rebalance⟩]))

/-! ## States of a placement (R103, R105, R106) -/

/-- Events of a placement that went LIVE: LIVE, and FAULT_REP after a fault replacement (R124). -/
def State.wentLive (s : State) (i : Intent) (d : Die) : State :=
  let s := s.plcEvent d 0
  if i.replaced then (s.count (R.PLC_CNT_FAULTREP d)).plcEvent d 3 else s

/-- PLACEMENT_LIVE: an ADMITTED instance reaches its first cycle start, which follows READY (R103, R118, R491). -/
def execPlacementLive (h : Nat) (s : State) : Host.Outcome State Fault Refusal :=
  let i := s.intent h
  .next (match i.cur with
    | some p =>
      if !s.handleHeld h ∨ i.isFlow ∨ p.st ≠ 2 ∨ !s.running p.die then s
      else
        let s := (s.setPlacements h (some { p with st := if i.pinned then 5 else 4 }) i.tgt).trigFollow h i.trigs p
        ((if i.time then s.clockRefresh else s).wentLive i p.die).republish p.die
    | none => s)

/-- FLOW_LIVE: an ADMITTED flow's entries are installed (R103, R193, R216). -/
def execFlowLive (h : Nat) (s : State) : Host.Outcome State Fault Refusal :=
  let i := s.intent h
  .next (match i.cur with
    | some p =>
      if !s.handleHeld h ∨ !i.isFlow ∨ p.st ≠ 2 ∨ !s.running p.die then s
      else
        let p := { p with st := if i.pinned then 5 else 4 }
        (((s.flowInstall i p).setIntent h { i with cur := some p, replaced := false }).wentLive i p.die).republish p.die
    | none => s)

/-- RELEASE_DRAIN_START: at the next cycle start of an instance whose release was asked for, it runs no further cycle and its handle is
no longer valid (R105, R106). -/
def execReleaseDrainStart (h : Nat) (s : State) : Host.Outcome State Fault Refusal :=
  let i := s.intent h
  .next (match i.cur with
    | some p =>
      if !i.releasing ∨ (p.st ≠ 4 ∧ p.st ≠ 5) then s
      else
        let s := p.cmps.foldl (fun s u => s.setArmed p.die u false) s
        (s.setIntent h { i with held := false, releasing := false, cur := some { p with st := 6 } }).republish p.die
    | none => s)

/-- Whether a frame of a flow still waits in a queue of the ports given. -/
def State.flowQueued (s : State) (h : Nat) (hops : List (Nat × Nat)) : Bool :=
  hops.any fun e => (List.range 8).any fun t => (s.queue (dieOf e.1) e.2 t).any fun f => f.handle = h

/-- PLACEMENT_RELEASED: the last tag of a DRAINING placement retires and its budgets return; behind a switch-over the migration is at its end,
and one asked for meanwhile goes to the planner (R105, R108, R117). -/
def execPlacementReleased (h : Nat) (s : State) : Host.Outcome State Fault Refusal :=
  let i := s.intent h
  .next (match i.tgt, i.cur with
    | some q, _ =>
      if q.st ≠ 6 ∨ i.isFlow ∨ s.runSlot q.die q.ce = some q.slot then s
      else ((((s.unplace i q i.cur).setPlacements h i.cur none).nextMigration h).republish q.die)
    | none, some p =>
      if p.st ≠ 6 then s
      else if i.isFlow then (if s.flowQueued h p.hops then s else ((s.unplace i p none).dropIntent h 1).republish p.die)
      else if (s.iqOf h).used ≠ 0 ∨ s.runSlot p.die p.ce = some p.slot then s
      else (((s.dropRx (s.iqOf h).rx).unplace i p none).setPlacements h none none).dropIntent h 1 |>.republish p.die
    | none, none => s)

/-! ## The steps of a migration (R109 to R112, R416) -/

/-- MIGRATION_CODE_LOADED: step 2 of R109. -/
def execMigrationCodeLoaded (h : Nat) (s : State) : Host.Outcome State Fault Refusal :=
  let i := s.intent h
  .next (match i.tgt, i.cur with
    | some q, some _ =>
      if i.isFlow ∨ q.st ≠ 2 ∨ i.stage ≠ 0 then s
      else
        let s := ((s.loadCode q (s.image i.imageNo)).writeSlot i q true).ownCmps q
        -- armed on the grid; its fires start cycles once the context has been copied
        let s := (s.armPlacement i q (gridFrom i (s.lin q.die + 1))).setFlag (R.TB_CMP_CTRL q.die (q.cmps.headD 0)) 1 false
        s.setIntent h { i with stage := 1, repCur := false }
    | _, _ => s)

/-- A stretch of pool read line by line through a requester port for what its errors leave, and whether a word of it is uncorrectable
(R58, R59); `n` lines are left. -/
def State.scanLines (s : State) (d : Die) (port a : Nat) : Nat → Bool × State
  | 0 => (false, s)
  | n + 1 =>
    let (b, t) := (s.grant d port a 1).eccScan d port false a 8
    let (c, u) := t.scanLines d port (a + 64) n
    (b || c, u)

/-- MIGRATION_CONTEXT_COPY: step 3 of R109, after the live placement's report, by the planner's pair at requester port 13; the target runs from
the next cycle start on in SHADOW.  A context with an uncorrectable word is not copied. -/
def execMigrationContextCopy (h : Nat) (s : State) : Host.Outcome State Fault Refusal :=
  let i := s.intent h
  .next (match i.tgt, i.cur with
    | some q, some p =>
      if i.isFlow ∨ q.st ≠ 2 ∨ i.stage ≠ 1 ∨ !i.repCur then s
      else
        let (bad, s) := s.scanLines (dieOfAddr p.ctx) 13 (p.ctx % 0x80_0000_0000) (p.ctxLen / 64)
        if bad then s
        else
          let bs := s.load p.ctx p.ctxLen
          let s := (s.zeroPool q.ctx q.ctxLen).store q.ctx bs
          let q := { q with st := 3, commit := p.commit, lost := p.lost }
          let s := s.setFlag (R.TB_CMP_CTRL q.die (q.cmps.headD 0)) 1 true
          let s := if q.die = p.die then (recCans p.die i.record).foldl (fun s c => s.canShadow p.die c) s else s
          let s := s.setIq h { s.iqOf h with shRx := 0, shSig := 0, liveRx := 0, liveSig := 0 }
          let s := s.setPlacements h i.cur (some q)
          (s.setIntent h { s.intent h with stage := 2, shadows := 1, outCur := [], outTgt := [], repCur := false, repTgt := false, tgtLate := false }).republish q.die
    | _, _ => s)

/-- Outputs of one queue. -/
def outsOn (l : List (Nat × List Byte)) (q : Nat) : Nat := (l.filter fun o => o.1 = q).length

/-- Whether the outputs of two cycles match: the same number to each queue, and equal CRC-32C over destination, length and bytes of each,
in emission order (R110). -/
def outsMatch (a b : List (Nat × List Byte)) : Bool :=
  ((a ++ b).all fun o => outsOn a o.1 = outsOn b o.1) &&
  decide (crc32c (a.flatMap fun o => leBytes 1 o.1 ++ o.2) = crc32c (b.flatMap fun o => leBytes 1 o.1 ++ o.2))

/-- MIGRATION_COMPARE: step 5 of R109, or the check of an image with NOCMP (R110, R416). -/
def execMigrationCompare (h : Nat) (s : State) : Host.Outcome State Fault Refusal :=
  let i := s.intent h
  .next (match i.tgt with
    | some q =>
      if i.isFlow ∨ q.st ≠ 3 ∨ i.stage ≠ 2 ∨ !i.repTgt then s
      else if i.nocmp then (if i.tgtLate then s else s.setIntent h { i with stage := 4 })
      else if !i.repCur then s
      else if outsMatch i.outCur i.outTgt then s.setIntent h { i with stage := 4 }
      else
        let s := s.setIntent h { i with barred := i.barred ++ [(q.die.idx * 24 + q.ce, s.lin q.die + 10_000_000_000)], cause := 4 }
        (s.abortMigration h 1).republish q.die
    | none => s)

/-- SHADOW_EXTEND: no compare has completed 1 µs before the next cycle start: the shadow runs one more (R111). -/
def execShadowExtend (h : Nat) (s : State) : Host.Outcome State Fault Refusal :=
  let i := s.intent h
  .next (match i.tgt with
    | some q =>
      if i.isFlow ∨ q.st ≠ 3 ∨ i.stage ≠ 2 ∨ 4 ≤ i.shadows then s
      else s.setIntent h { i with shadows := i.shadows + 1, outCur := [], outTgt := [], repCur := false, repTgt := false, tgtLate := false }
    | none => s)

/-- MIGRATION_ABANDON: four shadow cycles without a matching compare (R111). -/
def execMigrationAbandon (h : Nat) (s : State) : Host.Outcome State Fault Refusal :=
  let i := s.intent h
  .next (match i.tgt with
    | some q => if i.isFlow ∨ q.st ≠ 3 ∨ i.stage ≠ 2 ∨ i.shadows < 4 then s else (s.abortMigration h 2).republish q.die
    | none => s)

/-- MIGRATION_SWITCH_OVER: step 6 of R109 at the first cycle start behind a completed matching compare, or without one where the old
placement's unit failed: the target is LIVE with the next epoch, the old placement DRAINING (R109, R112, R117, R416). -/
def execMigrationSwitchOver (h : Nat) (s : State) : Host.Outcome State Fault Refusal :=
  let i := s.intent h
  .next (match i.tgt with
    | some q =>
      if i.isFlow ∨ q.st ≠ 3 ∨ i.stage ≠ 4 then s
      else
        let d := q.die
        let s := s.endShadow i q true
        let s := s.setFlag (R.CE_SLOT_W6 d q.ce q.slot) 23 false
        let live := { q with st := if i.pinned then 5 else 4 }
        let old := i.cur.map fun p => { p with st := 6 }
        let s := match i.cur with
          | some p => (p.cmps.foldl (fun (s : State) u => s.setArmed p.die u false) s).ownUnits i live
          | none => s.ownUnits i live
        let moved := i.trigs ++ (match i.cur with | some p => (s.trigsOf p).filter fun t => t.1 / 16 = d.idx | none => [])
        let s := (s.setPlacements h (some live) old).trigFollow h moved live
        let s := s.setIntent h { s.intent h with epoch := q.epoch, stage := 0, outCur := [], outTgt := [], migCmd := none, moveWanted := 0 }
        let s := ((s.count (R.PLC_CNT_MIGRATE d)).plcEvent d 1).logEv d 0x202 0 0 0 h
        let s := if i.nocmp ∧ i.cur.isSome then (s.count (R.PLC_CNT_UNVERIFIED d)).logEv d 0x204 2 0 0 h else s
        let s := (if i.time then s.clockRefresh else s).moveFlowsOf h false
        let s := match i.migCmd with
          | some c => s.complete c stOK 0 [0, (s.intent h).locWord]
          | none => s
        ((s.nextMigration h).planForecast (s.plannerOf d)).republish d
    | none => s)

/-! ## Flows that change their path (R113) -/

/-- FLOW_PATH_SWITCH: the flow's entry is switched to its new path between two of its frames; frames on it are held. -/
def execFlowPathSwitch (h : Nat) (s : State) : Host.Outcome State Fault Refusal :=
  let i := s.intent h
  .next (match i.tgt, i.cur with
    | some q, some p =>
      if !s.handleHeld h ∨ !i.isFlow ∨ q.st ≠ 2 then s
      else
        let live := { q with st := if i.pinned then 5 else 4 }
        ((s.ftRemove h).flowInstall i live).setIntent h { i with cur := some live, tgt := some { p with st := 6 }, stage := 1 } |>.republish q.die
    | _, _ => s)

/-- FLOW_HOLD_RELEASE: the old path's last frame has left its egress port: the held frames go on, and the old path is RELEASED. -/
def execFlowHoldRelease (h : Nat) (s : State) : Host.Outcome State Fault Refusal :=
  let i := s.intent h
  .next (match i.tgt with
    | some q =>
      if !i.isFlow ∨ i.stage ≠ 1 ∨ s.flowQueued h q.hops then s
      else
        let held := Tab.get (fun _ => ([] : List HeldFrm)) s.flowHold (intentKey h)
        let s := { s with flowHold := Tab.put (fun _ => []) s.flowHold (intentKey h) [] }
        let s := (s.unplace i q none).setIntent h { i with tgt := none, stage := 0 }
        held.foldl (fun s x => s.deliver (dieOf x.die) x.port x.frm false x.es) (s.republish q.die)
    | none => s)

end Sys2Proof.Machine
end

