-- ==== Sys2Proof/Machine/Flash.lean ====
section
/-! DEFINITION. What the flash holds and start-up restores: the configuration with its commits and journal, the ageing record, the log
stream and the power-loss snapshot (R493 to R495, R528 to R535); the device structures in the pool (R568). -/

namespace Sys2Proof.Machine

/-! ## Tables -/

/-- The table without the keys for which `p` holds. -/
def dropKeys {α : Type} (p : Nat → Bool) (t : Tab α) : Tab α := t.filter fun e => !p e.1

/-- The table with only the keys for which `p` holds. -/
def keepKeys {α : Type} (p : Nat → Bool) (t : Tab α) : Tab α := t.filter fun e => p e.1

/-- The die a configuration key belongs to, by its register or ring pair; 2 for the device's own. -/
def cfgDie (k : Nat) : Nat :=
  if k < 0x80_0000_0000 then 0 else if k < 0x100_0000_0000 then 1
  else if k = 0x100_0000_0010 ∨ k = 0x100_0000_0012 then 0 else if k = 0x100_0000_0011 ∨ k = 0x100_0000_0013 then 1 else 2

/-- Keys of the command epoch, the H2 pairing key, a die's ring record and own ring epoch, and the stored intents. -/
def keyEpoch : Nat := 0x100_0000_0000
def keyH2 : Nat := 0x100_0000_0001
def keyRing (d : Die) : Nat := 0x100_0000_0010 + d.idx
def keyRingEpoch (d : Die) : Nat := 0x100_0000_0012 + d.idx
def keyIntent (h : Nat) : Nat := 0x100_0001_0000 + intentKey h

/-! ## The configuration (R494, R495, R531) -/

/-- The configuration registers of a die with the bits of them that are stored: reset and regulator settings, pins, reserve and guard, port
and lane modes with the ports' administrative states, time roles, the in-band settings. -/
def cfgRegs (d : Die) : List (Nat × Nat) :=
  (if d = .d0 then [(R.RST_CFG d, 1)] else []) ++
  [(R.RST_WD_TMO d, 0xFFFF), (R.PWR_PMB_CFG d, 0x7F), (R.PLC_RESV d, 0xFFFF_FFFF), (R.PLC_GUARD d, 0xFF),
   (R.CMD_IB_MAC_LO d, 0xFFFF_FFFF), (R.CMD_IB_MAC_HI d, 0x8000_FFFF), (R.CMD_IB_RATE d, 0x7FF)] ++
  (List.range 48).map (fun k => (R.PIN_CFG d k, 0x0003_3FF7)) ++
  (List.range 14).flatMap (fun m => [(R.MAC_PORT_MODE d m, 0x207), (R.SW_PORT_CFG d m, 0x8000_0000), (R.TB_PTC d m, 0xFF07)]) ++
  (List.range 3).map (fun l => (R.MAC_LANE d l, 1)) ++
  (List.range 8).flatMap fun k => [(R.CMD_IB_ALLOW_LO d k, 0xFFFF_FFFF), (R.CMD_IB_ALLOW_HI d k, 0x8000_FFFF)]

/-- What an unlisted configuration key stands for: nothing stored, the reset value. -/
def cfgNone (_ : Nat) : List Word := []

/-- A value stored at a key, or nothing where it is the default. -/
def cfgPut (t : Tab (List Word)) (k : Nat) (v : List Word) : Tab (List Word) := Tab.put cfgNone t k v

/-- A die's part of the configuration as its registers hold it. -/
def State.cfgOfDie (s : State) (d : Die) : Tab (List Word) :=
  let t := (cfgRegs d).foldl (fun t (e : Nat × Nat) =>
    let v := s.getReg e.1 &&& wd e.2
    if v = resetWord e.1 &&& wd e.2 then t else cfgPut t e.1 [v]) []
  let x := s.ringOf d
  let t := cfgPut t (keyRing d) (if x.cur = [] then [] else wd x.dn :: x.cur)
  cfgPut t (keyRingEpoch d) (if s.ringEpoch d = 0 then [] else [wd (s.ringEpoch d)])

/-- A stored intent: handle, pin flags, lengths, record and parameters. -/
def Intent.stored (i : Intent) : List Word :=
  [wd i.handle, wd ((if i.pinned then 1 else 0) + (if i.pinFault then 2 else 0) + i.record.length * 0x100)] ++ i.record ++ i.params

/-- The device's own part: command epoch, pairing key, stored intents. -/
def State.cfgOfDevice (s : State) : Tab (List Word) :=
  let p : Die := s.interpDie .d0
  let e := s.cmdEpoch p
  let t := cfgPut [] keyEpoch (if e = 0 then Tab.get cfgNone s.flash.now keyEpoch else [wd e])
  let t := cfgPut t keyH2 (bytesWords s.h2.key)
  (s.heldIntents.filter fun i => !i.releasing).foldl (fun t i => cfgPut t (keyIntent i.handle) i.stored) t

/-- The configuration as commit and journal hold it now: each part from the machine once it has been restored, else as it was. -/
def State.cfgBody (s : State) : Tab (List Word) :=
  let part (live : Bool) (n : Nat) (t : Tab (List Word)) : Tab (List Word) := if live then t else keepKeys (fun k => cfgDie k = n) s.flash.now
  let a := part (decide (5 ≤ (s.bootOf .d0).stage)) 0 (s.cfgOfDie .d0)
  let b := part (decide (5 ≤ (s.bootOf .d1).stage)) 1 (s.cfgOfDie .d1)
  let c := part s.rst.loaded 2 s.cfgOfDevice
  (a ++ b ++ c).foldl (fun t e => cfgPut t e.1 e.2) []

/-- The configuration with its journal brought into flash: what a reset finds there (R531). -/
def State.cfgSync (s : State) : State := { s with flash := { s.flash with now := s.cfgBody } }

/-- GEN, SLOT and PEND shown by both dies (R502). -/
def State.showCfg (s : State) (gen slot : Nat) (pend : Bool) : State :=
  let one (s : State) (d : Die) : State :=
    (s.setReg (R.RST_CFG_GEN d) (wd gen)).setReg (R.RST_CFG_STAT d) (wd (slot * 4 + (if pend then 1 else 0)))
  one (one s .d0) .d1

/-- A commit: a whole copy into the next slot with the next generation; it empties the journal (R494, R531). -/
def State.commit (s : State) : State :=
  let s := s.cfgSync
  let top := s.flash.copies.headD ({} : CfgCopy)
  let first := s.flash.copies.isEmpty
  let gen := (top.gen + 1) % 0x1_0000_0000
  let slot := if first then 0 else (top.slot + 1) % 64
  let s := { s with flash := { s.flash with copies := (CfgCopy.mk gen slot s.flash.now :: s.flash.copies).take 64 } }
  ((s.showCfg gen slot false).count (R.RST_CFG_COMMITS .d0)).count (R.RST_CFG_COMMITS .d1)

/-- CONFIG_COMMIT: 10 s after the first uncommitted change (R495). -/
def execConfigCommit (s : State) : Host.Outcome State Fault Refusal :=
  .next (if s.flag (R.RST_CFG_STAT .d0) 0 || s.flag (R.RST_CFG_STAT .d1) 0 then s.commit else s)

/-- The configuration that start-up finds when the newest `bad` copies do not check: the next older one with every journal record newer
than the newest (R494, R531). -/
def Flash.found (f : Flash) (bad : Nat) : Option (Nat × Nat × Tab (List Word)) :=
  match f.copies[bad]? with
  | none => none
  | some c =>
    let newest := (f.copies.headD ({} : CfgCopy)).body
    let at_ (t : Tab (List Word)) (k : Nat) : List Word := Tab.get cfgNone t k
    let keys := ((newest ++ f.now).map Prod.fst).filter fun k => at_ newest k ≠ at_ f.now k
    some (c.gen, c.slot, keys.foldl (fun t k => cfgPut t k (at_ f.now k)) c.body)

/-- A die's registers and ring as a configuration gives them. -/
def State.cfgRestoreDie (s : State) (d : Die) (t : Tab (List Word)) : State :=
  let s := (cfgRegs d).foldl (fun s (e : Nat × Nat) =>
    let v := (Tab.get cfgNone t e.1).headD (resetWord e.1)
    s.setReg e.1 ((s.getReg e.1 &&& ~~~wd e.2) ||| (v &&& wd e.2))) s
  let s := if d = .d1 then s.setFlag (R.RST_CFG .d1) 0 (s.flag (R.RST_CFG .d0) 0) else s
  s.setFld (R.TFR_EPOCH d) 0 16 ((Tab.get cfgNone t (keyRingEpoch d)).headD 0).toNat

/-- A stored intent taken in: held with no placement (R494). -/
def State.loadIntent (s : State) (ws : List Word) : State :=
  let h := (ws.headD 0).toNat
  let fl := (ws.getD 1 0).toNat
  let n := fl / 0x100
  let rec_ := (ws.drop 2).take n
  let s := s.newIntent h { flow := (h >>> 30) % 4 = 1, rec_ := rec_, params := ws.drop (2 + n) }
  s.setIntent h { s.intent h with pinned := fl.testBit 0, pinFault := fl.testBit 1 }

/-- Indexes of the loaded intents taken; the ones between them wait as free (R106). -/
def State.loadIndexes (s : State) (key : Nat) : State :=
  let used := (s.intents.filter fun e => e.1 / 65536 = key ∧ e.2.held).map fun e => e.1 % 65536
  let top := used.foldl (fun m i => max m (i + 1)) 0
  { s with idxNext := Tab.put (fun _ => 0) s.idxNext key top,
           idxFree := Tab.put (fun _ => []) s.idxFree key ((List.range top).filter fun i => !used.contains i) }

/-- The device's own part restored; `keep` leaves the intents as the planners' journals hold them (R486). -/
def State.cfgRestoreDevice (s : State) (t : Tab (List Word)) (keep : Bool) : State :=
  let key := (wordBytes (Tab.get cfgNone t keyH2)).take 32
  let s := { s with h2 := { s.h2 with key := key }, rst := { s.rst with loaded := true } }
  let s := s.setFlag (R.MBX_H2KEY_CTRL .d0) 8 (!key.isEmpty)
  let s := if keep then s
    else (keepKeys (fun k => decide (0x100_0001_0000 ≤ k)) t).foldl (fun s e => s.loadIntent e.2)
      { s with intents := [], idxNext := [], idxFree := [], iq := [] }
  [0, 1, 2, 3].foldl (fun s k => s.loadIndexes k) s

/-! ## The ageing record (R508, R530, R534) -/

/-- HLT_LIFE registers of a die (R534). -/
def lifeRegs (d : Die) : List Nat :=
  [R.HLT_LIFE_HOURS d, R.HLT_LIFE_RESETS d, R.HLT_LIFE_PWRLOSS d, R.HLT_LIFE_FAULTS d, R.HLT_LIFE_TESTS d, R.HLT_LIFE_ENTRIES d]

/-- Registers of the ageing record of a die: certified frequencies, delays and fits of the domains, impedance codes, LOG_RATE, and the
persistent counters. -/
def ageRegs (d : Die) : List Nat :=
  (List.range 8).flatMap (fun i => [R.CLK_DOM d i, R.HLT_DOM_DELAY d i, R.HLT_DOM_GB d i, R.HLT_DOM_AGE d i, R.HLT_DOM_FCST d i]) ++
  (List.range 4).map (fun c => R.PLC_CL_FCERT d c) ++ [R.PLC_POOL_FCERT d] ++ (List.range 3).map (fun b => R.HLT_DRV d b) ++
  [R.LOG_RATE d] ++ lifeRegs d

/-- Values of registers as a table. -/
def State.regTab (s : State) (l : List Nat) : Tab Word := l.foldl (fun t a => Tab.put resetWord t a (s.getReg a)) []

/-- The ageing record written: two copies, alternately (R530). -/
def State.ageWrite (s : State) : State :=
  let rates := [Die.d0, Die.d1].foldl (fun t d => Tab.put (fun _ => []) t d.idx (s.logOf d).hours) []
  let r : AgeRec := { regs := s.regTab (ageRegs .d0 ++ ageRegs .d1), ages := s.age, eyes := s.eyes, rates := rates }
  { s with flash := { s.flash with recs := (r :: s.flash.recs).take 2 } }

/-- AGEING_RECORD_WRITE: every 4 h of powered time (R530). -/
def execAgeingRecordWrite (s : State) : Host.Outcome State Fault Refusal := .next s.ageWrite

/-- The persistent counters of both dies at this moment. -/
def State.lifeNow (s : State) : Tab Word := s.regTab (lifeRegs .d0 ++ lifeRegs .d1)

/-- COUNTER_CHECKPOINT: every 250 µs (R534). -/
def execCounterCheckpoint (s : State) : Host.Outcome State Fault Refusal := .next { s with ckpt := s.lifeNow }

/-! ## The log in flash (R532, R533, R535) -/

/-- The log stream's entries of a die with those of the newest sealed snapshot, the newest 16,384 of them by number. -/
def Flash.entries (f : Flash) (d : Die) : List (Nat × List Word) :=
  let mine (t : Tab (List Word)) : Tab (List Word) := keepKeys (fun k => k / 0x1_0000_0000 = d.idx) t
  let t := (mine (f.snaps.headD ({} : Snapshot)).ents).foldl (fun t e => Tab.put cfgNone t e.1 e.2) (mine f.stream)
  (t.drop (t.length - 16384)).map fun e => (e.1 % 0x1_0000_0000, e.2)

/-- A die's log memory rebuilt from flash: entries, LOG_HEAD, LOG_OLDEST and LOG_STREAMED (R532). -/
def State.logRebuild (s : State) (d : Die) : State :=
  let es := s.flash.entries d
  let head := match es.getLast? with | some e => e.1 + 1 | none => 0
  let s := es.foldl (fun s e => s.setWords (logSlot d e.1) e.2) s
  let s := (s.setReg (R.LOG_HEAD d) (wd head)).setReg (R.LOG_OLDEST d) (wd (es.headD (head, [])).1)
  s.setReg (R.LOG_STREAMED d) (wd head)

/-- LOG_STREAM_PAGE: a page of up to 16 pending entries of a die goes into flash; Die 1's come through the link. A failed page write is
counted and retried once: `fails` of the two attempts fail (R532, R537). -/
def execLogStreamPage (d : Die) (fails : Fin 3) (s : State) : Host.Outcome State Fault Refusal :=
  let l := s.logOf d
  .next (if l.unstr = [] ∨ (d = .d1 ∧ !s.linkUp) then s else
    let s := s.countBy (R.LOG_CNT_STREAM_ERR d) fails.val
    if fails.val = 2 then s
    else
      let page := l.unstr.take 16
      let rest := l.unstr.drop 16
      let t := page.foldl (fun t e => Tab.put cfgNone t (d.idx * 0x1_0000_0000 + e.1) e.2) s.flash.stream
      let mine := keepKeys (fun k => k / 0x1_0000_0000 = d.idx) t
      let cut := ((mine.drop (mine.length - 16384)).headD (0, [])).1
      let t := dropKeys (fun k => k / 0x1_0000_0000 = d.idx && decide (k < cut)) t
      let s := { s with flash := { s.flash with stream := t } }
      let s := (s.setLog d { l with unstr := rest }).setFld (R.LOG_STAT d) 8 6 (min 32 rest.length)
      s.setReg (R.LOG_STREAMED d) (wd ((page.getLastD (0, [])).1 + 1)))

/-! ## Device structures (R131, R183, R568) -/

/-- Whether a single-port bank is in service and holds nothing: none of the structures placed so far, no context, no drain buffer. -/
def State.bankFree (s : State) (d : Die) (used : List Nat) (b : Nat) : Bool :=
  decide (b < 240) && !s.bankOos d b && !used.contains b && !((s.contexts d ++ s.canQs d).any fun c => (banksOf c.1 (c.2 / 64)).contains b) &&
  !((List.range 32).any fun n => s.sfqBufOn d n b)

/-- The banks a structure gets: its default banks, each replaced where it is out of service or taken by the lowest free one. -/
def State.pickBanks (s : State) (d : Die) (used : List Nat) : List Nat → List Nat
  | [] => []
  | b :: t =>
    let c := if !s.bankOos d b && !used.contains b then b else ((List.range 240).find? fun x => s.bankFree d used x).getD b
    c :: s.pickBanks d (c :: used) t

/-- The staging area's banks: the default ones, or as a whole the lowest four free banks in a row (R131). -/
def State.pickStaging (s : State) (d : Die) (used : List Nat) : List Nat :=
  let l := [236, 237, 238, 239]
  if l.all fun b => !s.bankOos d b && !used.contains b then l
  else match (List.range 237).find? fun b => (List.range 4).all fun j => s.bankFree d used (b + j) with
    | some b => (List.range 4).map fun j => b + j
    | none => l

/-- A structure's banks marked in PLC_BANK. -/
def State.markStruct (s : State) (d : Die) (n : Nat) (l : List Nat) : State :=
  l.foldl (fun s b => (s.setFlag (R.PLC_BANK d b) 31 true).setFld (R.PLC_BANK d b) 26 4 n) s

/-- Default banks of the structures in their order, the staging area apart. -/
def structDefaults (n : Nat) : List Nat :=
  match n with
  | 1 => List.range 48
  | 3 => (List.range 16).map (208 + ·)
  | 4 => [232, 233, 234, 235]
  | 5 => [231]
  | 6 => [230]
  | 7 => [229]
  | 8 => [228]
  | _ => []

/-- The banks of a die that hold a structure. -/
def State.structBanks (s : State) (d : Die) (n : Nat) : List Nat := (List.range 240).filter fun b => s.fld (R.PLC_BANK d b) 26 4 = n

/-- The base registers that show the structures: the lowest bank of each; LOG_SNAP_BASE where a snapshot is held. -/
def State.showStructs (s : State) (d : Die) : State :=
  let low (n : Nat) : Nat := (s.structBanks d n).headD 0
  let s := (s.setFld (R.SW_FB d) 0 9 (low 1)).setFld (R.SW_FB d) 16 9 48
  let s := (s.setFld (R.SW_MGMT_BUF d) 0 9 (low 4)).setFld (R.SW_MGMT_BUF d) 16 9 4
  let s := s.setFld (R.SW_SMP_BASE d) 6 20 (low 5 * 4096)
  let s := (s.setFld (R.LOG_MIRROR_BASE d.other) 6 20 (low 7 * 4096)).setFlag (R.LOG_MIRROR_BASE d.other) 31 true
  if d = .d0 ∧ s.flag (R.LOG_SNAP_BASE d) 31 then s.setFld (R.LOG_SNAP_BASE d) 6 20 (low 8 * 4096) else s

/-- The device structures of a die assigned at start-up (R568), and the standing commitments of ports 4–7 shown (R96, R124). -/
def State.assignStructs (s : State) (d : Die) : State :=
  let s := (List.range 240).foldl (fun s b => (s.setFlag (R.PLC_BANK d b) 31 false).setFld (R.PLC_BANK d b) 26 4 0) s
  let order := [1, 2, 3, 4, 5, 6, 7] ++ (if d = .d0 then [8] else [])
  let (s, _) := order.foldl (fun (acc : State × List Nat) n =>
    let l := if n = 2 then acc.1.pickStaging d acc.2 else acc.1.pickBanks d acc.2 (structDefaults n)
    (acc.1.markStruct d n l, l ++ acc.2)) (s, [])
  let s := [4, 5, 6, 7].foldl (fun s n => s.setFld (R.PLC_PORT d n) 0 24 39_000) s
  s.showStructs d

/-- Base of a die's staging area: internal address (R131). -/
def State.stagingBase (s : State) (d : Die) : Nat := d.org + ((s.structBanks d 2).headD 236) * 0x4_0000

/-! ## Banks leaving service (R516) -/

/-- Memory and error marks of a die's pool carried from one address range to another: each span is an old base, a new base and a size. -/
def State.moveSpans (s : State) (d : Die) (spans : List (Nat × Nat × Nat)) : State :=
  let goes (o : Nat) : Option Nat := spans.findSome? fun e => if e.1 ≤ o ∧ o < e.1 + e.2.2 then some (e.2.1 + (o - e.1)) else none
  let here (a : Nat) : Bool := decide (a / 0x80_0000_0000 = d.idx) && decide (a % 0x80_0000_0000 < 0x0400_0000)
  let hit (a : Nat) : Bool :=
    let o := a % 0x80_0000_0000
    here a && spans.any fun e => decide (e.1 ≤ o ∧ o < e.1 + e.2.2) || decide (e.2.1 ≤ o ∧ o < e.2.1 + e.2.2)
  let mem := s.mem.foldl (fun m c => if !hit c.1 then m else match goes (c.1 % 0x80_0000_0000) with
    | some x => Tab.put memDefault m (d.org + x) c.2
    | none => m) (dropKeys hit s.mem)
  let ecc := s.ecc.foldl (fun m e => if !hit (e.1 * 8) then m else match goes (e.1 * 8 % 0x80_0000_0000) with
    | some x => Tab.put (fun _ => 0) m ((d.org + x) / 8) e.2
    | none => m) (dropKeys (fun w => hit (w * 8)) s.ecc)
  { s with mem := mem, ecc := ecc }

/-- The banks of `old` carried to those of `new`, place by place. -/
def State.moveBanks (s : State) (d : Die) (old new : List Nat) : State :=
  s.moveSpans d ((List.zip old new).map fun e => (bankBase e.1, bankBase e.2, bankLines e.1 * 64))

/-- The drain buffers on a bank that reach into others, each moved as a whole to the lowest aligned run of free single-port banks; none where
there is no such run (R79, R516). -/
def State.moveWide (s : State) (d : Die) (b : Nat) : Option State :=
  let used := (List.range 240).filter fun x => s.flag (R.PLC_BANK d x) 31
  (List.range 32).foldl (fun (acc : Option State) n => acc.bind fun s =>
    let size := s.sfqBuf d n
    let on := (List.range 272).filter fun x => s.sfqBufOn d n x
    if !on.contains b ∨ on.length < 2 then some s
    else match (List.range (0x03C0_0000 / size)).find? fun x =>
        (List.range 240).all fun y => !(decide (bankBase y < x * size + size) && decide (x * size < bankBase y + 0x4_0000)) || s.bankFree d used y with
      | none => none
      | some x =>
        some ((s.moveSpans d [(s.fld (R.SFQ_BUF_BASE d n) 6 20 * 64, x * size, size)]).setFld (R.SFQ_BUF_BASE d n) 6 20 (x * size / 64)))
    (some s)

/-- Stream FIFO buffers that start in a bank moved to another. -/
def State.moveBufs (s : State) (d : Die) (b c : Nat) : State :=
  (List.range 32).foldl (fun s n =>
    let base := s.fld (R.SFQ_BUF_BASE d n) 6 20 * 64
    if s.sfqBufOn d n b ∧ bankOf base = b then s.setFld (R.SFQ_BUF_BASE d n) 6 20 ((bankBase c + (base - bankBase b)) / 64) else s) s

/-- CAN queues in a bank moved to another: their places, their charges and the bases shown (R340). -/
def State.moveCanQs (s : State) (d : Die) (b c : Nat) : State :=
  let here (q : Nat × Nat) : Bool := decide (bankOf (q.2 % 0x80_0000_0000) = b)
  let goes (q : Nat × Nat) : Nat × Nat := if here q then (q.1, q.2 + bankBase c - bankBase b) else q
  let fix (p : Placement) : Placement :=
    if p.die = d ∧ p.canq.any here then
      { p with canq := p.canq.map goes,
               charges := p.charges.map fun x => if x = ⟨bPOOL_BANK, d.idx, b, 128⟩ then { x with idx := c } else x }
    else p
  s.heldIntents.foldl (fun s i =>
    if i.isFlow then s
    else
      let s := i.placements.foldl (fun s p => (s.charge p.charges false).charge (fix p).charges true) s
      let s := s.setPlacements i.handle (i.cur.map fix) (i.tgt.map fix)
      i.placements.foldl (fun s p => (fix p).canq.foldl (fun s q => if p.die = d then s.showCanQ d q.1 (q.2 % 0x80_0000_0000) else s) s) s) s

/-- What stands on a bank moved off it, the buffers that reach into other banks apart: the lowest free single-port bank takes it, or none
where no bank is free (R516). -/
def State.vacateOne (s : State) (d : Die) (b : Nat) : Option State :=
  let n := s.fld (R.PLC_BANK d b) 26 4
  let buf := (s.canQs d).any (fun c => bankOf c.1 = b) ||
    (List.range 32).any fun k => s.sfqBufOn d k b
  if n = 0 ∧ !buf then some s
  else
    let old := if n = 0 then [b] else s.structBanks d n
    let used := (List.range 240).filter fun x => s.flag (R.PLC_BANK d x) 31
    let done (s : State) (new : List Nat) : State :=
      let s := s.moveBanks d old new
      let s := old.foldl (fun s x => (s.setFlag (R.PLC_BANK d x) 31 false).setFld (R.PLC_BANK d x) 26 4 0) s
      if n = 0 then s else (s.markStruct d n new).showStructs d
    if n = 2 then
      match (List.range 237).find? fun x => (List.range 4).all fun j => x + j ≠ b && (s.bankFree d used (x + j) || old.contains (x + j)) with
      | some x => some (done s ((List.range 4).map fun j => x + j))
      | none => none
    else match (List.range 240).find? fun x => s.bankFree d used x with
      | none => none
      | some c => some ((done s ((List.range 240).filter fun x => (old.contains x && x ≠ b) || x = c)).moveBufs d b c |>.moveCanQs d b c)

/-- What stands on a bank moved off it (R516). -/
def State.vacateBank (s : State) (d : Die) (b : Nat) : Option State := (s.moveWide d b).bind fun s => s.vacateOne d b

/-- BANK_RETIRE: a bank from which the planner has moved every context: its structures are moved, then it is marked out of service; where no
free bank exists the retirement is deferred and logged (R61, R516). -/
def execBankRetire (d : Die) (bank : Fin 272) (s : State) : Host.Outcome State Fault Refusal :=
  let b := bank.val
  .next (if s.bankOos d b ∨ (s.contexts d).any (fun c => (banksOf c.1 (c.2 / 64)).contains b) then s
    else match s.vacateBank d b with
      | none => s.logEv d 0x604 3 10 (b / 16) 0
      | some t => (t.setFlag (R.POOL_BANK_OOS d (b / 32)) (b % 32) true).logEv d 0x605 1 10 (b / 16) 0)

end Sys2Proof.Machine
end

