-- ==== Sys2Proof/Machine/Reset.lean ====
section
/-! DEFINITION. Resets: their requests and precedence, what each kind keeps, their sources and their end; the power-loss snapshot, which
defers them (R176, R478 to R490, R533, R560, R571). -/

namespace Sys2Proof.Machine

/-! ## What stays (R478, R482, R571) -/

/-- Whether a warm reset of its die keeps a register, by block and offset: the always-on island, the identity and persistent ones; the
planner's ledger where the other die's planner keeps it (`ledger`); the roles stay where they are (R432). -/
def keptReg (ledger : Bool) (b off : Nat) : Bool :=
  match b with
  | 0 => true
  | 1 => decide (off = 0x08) || decide (off = 0x0C) || decide (off = 0x20) || decide (off = 0x30) || decide (off = 0x34) || decide (off = 0x38)
  | 2 => decide (off = 0) || (decide (0x10 ≤ off) && decide (off < 0x30))
  | 3 => decide (off = 0x08) || decide (off = 0x1C)
  | 4 => decide (off = 0)
  | 7 => (decide (0x40 ≤ off) && decide (off < 0x54)) ||
      (ledger && !(decide (off = 4) || (decide (0x320 ≤ off) && decide (off < 0x338)) || (decide (0x400 ≤ off) && decide (off < 0x418))))
  | 8 => decide (off = 0x20) || decide (off = 0x24)
  | 37 => decide (off = 0x20) || decide (off = 0x4C)
  | 40 => !(decide (0x20 ≤ off) && decide (off < 0x40))
  | 41 => (decide (0x500 ≤ off) && decide (off < 0x518)) || (decide (0x100 ≤ off) && decide (off < 0x180)) ||
      (decide (0x380 ≤ off) && decide (off < 0x38C)) || (decide (0x8200 ≤ off) && decide (off < 0x820C))
  | 42 => decide (off = 0x08) || decide (off = 0x0C) || decide (off = 0x10) || decide (off = 0x14) || decide (off = 0x18) ||
      (decide (0x1C ≤ off) && decide (off < 0x28)) || (decide (0x100 ≤ off) && decide (off < 0x144))
  | 43 => true
  | _ => false

/-- Registers of a die that a warm reset loses at their reset values again. -/
def State.resetDieRegs (s : State) (ledger : Bool) (d : Die) : State :=
  let lvl := (List.range 16).map fun n => (R.TB_TRIG_CFG d n, s.getReg (R.TB_TRIG_CFG d n) &&& 1)
  let emerg := s.fld (R.HLT_STAT d) 24 4
  let s := s.resetRegsIf fun a => decide (dieOfAddr a = d) && (match blockOf a with
    | some (b, off) => !keptReg ledger b off
    | none => false)
  -- the trigger outputs hold their levels (R482, R484)
  let s := lvl.foldl (fun s (e : Nat × Word) => s.setFld e.1 0 1 e.2.toNat) s
  -- EMERG_DOM names the domain of the last emergency, which a reset follows (R509)
  s.setFld (R.HLT_STAT d) 24 4 emerg

/-- The registers that show a die's units, after a reset of its registers (R513, R536). -/
def State.showUnits (s : State) (d : Die) : State :=
  let mine := s.units.filter fun e => decide (e.1 / 8192 = d.idx)
  let s := mine.foldl (fun s (e : Nat × HUnit) => s.showOos d (e.1 / 512 % 16) (e.1 % 512) (decide (e.2.st ≠ 0))) s
  let s := mine.foldl (fun s (e : Nat × HUnit) => if e.1 / 512 % 16 = 2 ∧ e.2.st ≠ 0 ∧ e.2.st ≠ 4 then s.setFld (R.CE_STAT d (e.1 % 512)) 0 2 3 else s) s
  let s := (s.setFld (R.HLT_STAT d) 8 8 (min 255 (s.unitsIn d fun x => decide (x ≠ 0)))).setFld (R.HLT_STAT d) 16 8
    (min 255 (s.unitsIn d fun x => decide (x = 3)))
  s.setFld (R.PLC_CMP d) 8 7
    (64 - popcount 32 (s.getReg (R.HLT_OOS_CMP_LO d)).toNat - popcount 32 (s.getReg (R.HLT_OOS_CMP_HI d)).toNat)

/-- A unit through a reset: a test is over without a verdict; its epoch starts anew (R519, R571). -/
def HUnit.afterReset (u : HUnit) : HUnit := { st := if u.st = 1 then 0 else u.st }

/-- The units of a die through a reset (R571): a command whose test it ended completes with TIMEOUT. -/
def State.resetUnits (s : State) (d : Die) : State :=
  let cmds := s.asyncCmds.filter fun c => (c.op = opTEST || c.op = opSERVICE) && decide (c.tdie = d)
  let s := if d = .d0 then (s.setFio { s.fio with test := 0, testOk := true, testRes := none }).setFlag fioStat 2 false else s
  let s := { s with units := s.units.foldl (fun t (e : Nat × HUnit) =>
    Tab.put (fun _ => {}) t e.1 (if e.1 / 8192 = d.idx then e.2.afterReset else e.2)) [] }
  cmds.foldl (fun s c => s.complete c stTIMEOUT 0 []) s

/-- The power commands of a die that its reset ends complete with TIMEOUT; the exit from P4, which is a reset itself, leaves those that wait to be
judged (R147, R496, R497). -/
def State.resetPwr (s : State) (d : Die) (cause : Nat) : State :=
  let p := s.pwrOf d
  let ended := (if cause = 8 then [] else p.cmds ++ p.wait) ++ p.margin.toList
  let busy4 := s.fld (R.PWR_STAT d) 0 3 = 4 ∨ (s.flag (R.PWR_STAT d) 7 ∧ s.fld (R.PWR_STAT d) 8 3 = 4)
  let s := if busy4 then s.setFld (R.PWR_VCORE d) 16 10 p.before else s
  let s := s.setPwr d { mv := p.mv, before := p.before, lastProp := p.lastProp }
  ended.foldl (fun s c => s.complete c stTIMEOUT 0 []) s

/-! ## A die loses what stands beside its registers (R482, R485) -/

/-- Whether a requester sits on a die. -/
def whoOn (d : Die) : Requester → Bool
  | .sup e _ => decide (e = d)
  | .ce e _ => decide (e = d)
  | _ => false

/-- Stalled stream FIFO reads that end with the reset of a die: those at its FIFOs, and those of its own units elsewhere. -/
def State.resetStalls (s : State) (d : Die) : State :=
  let s := (List.range 32).foldl (fun s n => s.sfqEndWhere d n (fun _ => true) causeDOMAIN_OFF) s
  let s := (List.range 32).foldl (fun s n => s.sfqEndWhere d.other n (whoOn d) causeDOMAIN_OFF) s
  { s with accWait := dropKeys (fun k => k / 256 = d.idx && decide (k % 256 < 0x40)) s.accWait }

/-- Frames that a die's engines and the queues of its instances hold given back, on whichever die they lie. -/
def State.resetFrames (s : State) (d : Die) : State :=
  let s := (List.range 24).foldl (fun s k => s.ceFreeFrames d (ceIx k)) s
  (s.intentsWhere fun i => !i.isFlow && (match i.cur with | some p => decide (p.die = d) | none => false)).foldl (fun s h =>
    (s.dropRx (s.iqOf h).rx).setIq h {}) s

/-- Everything of a die beside registers, memory and the units' health that a warm reset discards. -/
def State.dropHidden (s : State) (d : Die) : State :=
  let at_ (n : Nat) (k : Nat) : Bool := decide (k / n = d.idx)
  { s with
    shadow := dropKeys (at_ 0x1_0000) s.shadow
    snaps := dropKeys (at_ 0x1_0000) s.snaps
    dblRemote := dropKeys (at_ 4) s.dblRemote
    msix := dropKeys (at_ 64) s.msix
    msixCtl := dropKeys (at_ 2) s.msixCtl
    msixPba := dropKeys (at_ 2) s.msixPba
    aer := dropKeys (at_ 2) s.aer
    interp := dropKeys (at_ 1) s.interp
    planQ := dropKeys (at_ 1) s.planQ
    sfq := dropKeys (at_ 32) s.sfq
    bankQ := dropKeys (at_ 512) s.bankQ
    bankPtr := dropKeys (at_ 512) s.bankPtr
    bankWb := dropKeys (at_ 512) s.bankWb
    bankHold := dropKeys (at_ 512) s.bankHold
    dlyUse := dropKeys (at_ 1) s.dlyUse
    scrubPos := dropKeys (at_ 512) s.scrubPos
    retEnter := dropKeys (at_ 1) s.retEnter
    retPrio := dropKeys (at_ 1) s.retPrio
    cmp := dropKeys (at_ 64) s.cmp
    trigRun := dropKeys (at_ 16) s.trigRun
    capLvl := dropKeys (at_ 32) s.capLvl
    clockCe := s.clockCe.filter fun e => decide (e.1 ≠ d.idx) && decide ((e.2 - 1) / 24 ≠ d.idx)
    ceDeadline := dropKeys (at_ 1536) s.ceDeadline
    scrubDone := dropKeys (at_ 1) s.scrubDone
    portUse := dropKeys (at_ 16) s.portUse
    stn := dropKeys (at_ 16) s.stn
    can := s.can.foldl (fun t (e : Nat × Can) => Tab.put (fun _ => {}) t e.1 (if at_ 4 e.1 then { stb := e.2.stb } else e.2)) []
    padHeld := (List.range 48).foldl (fun t k => Tab.put (fun _ => false) t (d.idx * 48 + k) true) s.padHeld
    swQ := dropKeys (at_ 136) s.swQ
    swAvg := dropKeys (at_ 136) s.swAvg
    swLfsr := dropKeys (at_ 17) s.swLfsr
    swCbs := dropKeys (at_ 136) s.swCbs
    stored := dropKeys (at_ 0x4_0000) s.stored
    smp := dropKeys (at_ 17) s.smp
    vlan := dropKeys (at_ 4096) s.vlan
    ft := dropKeys (at_ 32_768) s.ft
    sid := dropKeys (at_ 4096) s.sid
    sidSt := dropKeys (at_ 4096) s.sidSt
    pgAway := dropKeys (at_ 8) s.pgAway
    rsq := dropKeys (at_ 256) s.rsq
    gcl := dropKeys (at_ 14) s.gcl
    pausing := dropKeys (at_ 1) s.pausing
    mgmtMeter := dropKeys (at_ 2) s.mgmtMeter
    ringHold := dropKeys (at_ 2) s.ringHold
    ring := dropKeys (at_ 1) s.ring
    ce := dropKeys (at_ 24) s.ce
    sup := dropKeys (at_ 2) s.sup
    corr := dropKeys (at_ 512) s.corr
    supEcc := dropKeys (fun k => decide (dieOfAddr (k * 4) = d)) s.supEcc
    slvRun := if d = .d1 then 0 else s.slvRun
    flowHold := s.flowHold.foldl (fun t (e : Nat × List HeldFrm) => Tab.put (fun _ => []) t e.1 (e.2.filter fun h => h.die ≠ d.idx)) []
    mirror := if s.flag (R.SYS_DIE d) 1 then s.mirror else []
    h2 := if d = .d0 then { s.h2 with pend := none, sess := none, hostCtr := 0, devCtr := 0 } else s.h2
    h3 := if d = .d1 then {} else s.h3 }

/-- Supervisor memory of a die cleared: both pairs' (R23, R482). -/
def State.clearSupMem (s : State) (d : Die) : State :=
  { s with mem := s.mem.filter fun c => !(decide (d.org + 0x0800_0000 ≤ c.1) && decide (c.1 < d.org + 0x0900_0000)) }

/-- Every mailbox and in-band channel of a die released (R176). -/
def State.resetChans (s : State) (d : Die) : State :=
  let s := (List.range 32).foldl (fun s c => s.chanRelease d c) s
  (List.range 8).foldl (fun s k => s.setChan d (32 + k) { gen := (s.chan d (32 + k)).gen + 1 }) s

/-! ## The resets themselves (R478, R480, R485, R489) -/

/-- What a reset records on its die: cause, time, counts and the log (R479, R480, R502, R522, R534). -/
def State.recordReset (s : State) (d : Die) (device : Bool) (cause : Nat) : State :=
  let s := s.setReg (R.RST_CAUSE d) (wd (cause + if device then 0x100 else 0))
  let s := (s.setReg (R.RST_TIME_S d) (wd (s.now d).sec)).setReg (R.RST_TIME_NS d) (wd (s.now d).ns)
  ((s.count (R.RST_CNT d)).count (R.HLT_LIFE_RESETS d)).logEv d 0x801 2 0 0 cause

/-- A trial copy that has run and has not been confirmed: watchdog resets in a row before its first READY; the second makes Primer boot the
other copy from then on (R488). -/
def State.trialReset (s : State) (cause : Nat) : State :=
  let f := s.flash
  if !f.trial ∨ !f.tried then s
  else if cause ≠ 3 then { s with flash := { f with wd := 0 } }
  else if f.wd = 0 then { s with flash := { f with wd := 1 } }
  else { s with flash := { f with wd := 0, trial := false, tried := false, bootB := !f.bootB, fell := true } }

/-- The ports of a die that have link go down (R245). -/
def State.portsDown (s : State) (d : Die) : State := (List.range 14).foldl (fun s m => s.macDown d m) s

/-- The other die sees every unit of a die that resets alone as failed: its planner gets a rank-1 event for each engine that holds an
instance, beside the ports' (R485). -/
def State.peerFaults (s : State) (d : Die) : State :=
  let evs := ((List.range 24).filter fun k => s.ceInst d k ≠ 0).map fun k => ({ time := s.lin d, die := d, kind := .unitFault 2 k } : PlanEv)
  s.setPlanEvents d.other (s.planEvents d.other ++ (s.planEvents d).filter (fun e => e.kind.rank = 1) ++ evs)

/-- An intent as the planners' journals keep it through a device-wide warm reset: what was placed is recorded with state 7 until start-up
restores it (R486). -/
def Intent.journaled (i : Intent) : Intent :=
  { handle := i.handle, held := true, record := i.record, params := i.params, cur := i.cur.map (fun p => { p with st := 7 }), cause := i.cause,
    pinned := i.pinned, pinFault := i.pinFault, epoch := i.epoch, barred := i.barred, cycles := i.cycles, fresh := i.fresh, time := i.time,
    qmask := i.qmask, nocmp := i.nocmp, pers := i.pers }

/-- An intent whose placement was lost with its planner: held with no placement. -/
def Intent.unplaced (i : Intent) (cause : Nat) : Intent := { i.journaled with cur := none, cause := cause }

/-- An instance with the cycle in progress counted as lost (R401). -/
def State.countedLoss (s : State) (i : Intent) : Intent :=
  { i with cur := i.cur.map fun p => { p with lost := s.lostNow i p (s.lin p.die + 1) } }

/-- The intents through a warm reset: of the device, as the journals hold them; of one die without its partner, those on it held unplaced. -/
def State.resetIntents (s : State) (alone : Bool) (d : Die) : State :=
  if alone then
    if s.linkUp then s
    else { s with intents := s.intents.foldl (fun t (e : Nat × Intent) =>
      let hit := e.2.placements.any fun p => decide (p.die = d)
      if !hit then Tab.put (fun _ => {}) t e.1 e.2
      else if e.2.held ∧ !e.2.releasing then Tab.put (fun _ => {}) t e.1 (e.2.unplaced 2) else t) [] }
  else { s with intents := (s.intents.filter fun e => e.2.held && !e.2.releasing).map fun e => (e.1, (s.countedLoss e.2).journaled), idxNext := [], idxFree := [],
                iq := [], flowHold := [] }

/-- The state of the primary roles as it stands (R423). -/
def State.roleCopy (s : State) (p : Nat) : RoleCopy :=
  if p = 0 then { interp := s.interp }
  else { planQ := s.planQ, intents := s.intents, idxNext := s.idxNext, idxFree := s.idxFree, cfg := s.cfgBody }

/-- The mirror of role pair `p`. -/
def State.mirrorOf (s : State) (p : Nat) : Mirror := Tab.get (fun _ => {}) s.mirror p
def State.setMirror (s : State) (p : Nat) (m : Mirror) : State := { s with mirror := Tab.put (fun _ => {}) s.mirror p m }

/-- The last changes of both roles sent to the mirrors before their die goes down (R423, R430). -/
def State.mirrorFlush (s : State) : State :=
  let one (s : State) (p : Nat) : State := s.setMirror p { s.mirrorOf p with held := (s.mirrorOf p).held ++ [s.roleCopy p] }
  one (one s 0) 1

/-- A warm reset of a die, alone or as part of the device's (R482, R484, R485). -/
def State.warmDie (s : State) (d : Die) (alone : Bool) (cause : Nat) : State :=
  let keep := alone && s.linkUp && s.flag (R.SYS_DIE d) 1
  let s := if keep then s.mirrorFlush else s
  let s := (s.cfgSync).portsDown d
  let s := if alone ∧ s.linkUp then s.peerFaults d else s
  let s := (s.resetStalls d).resetFrames d
  let s := ((s.functionReset d 0).functionReset d 1).resetChans d
  let s := if d = .d0 then s.h2End else s
  let s := ((s.resetUnits d).resetPwr d cause).resetIntents alone d
  let s := ((s.ringCharge d (s.ringOf d).booked false).dropHidden d).clearSupMem d
  let s := (s.resetDieRegs (alone && s.linkUp) d).setFld (R.CMD_STAT d) 16 16 0
  let s := if keep then s else (s.setFlag (R.SYS_DLY_STAT .d0) 9 false).setFlag (R.SYS_DLY_STAT .d1) 9 false
  let s := if d = .d1 then s.setSlaved false else s
  let s := (s.setNow d { s.now d with slew := 0 }).showUnits d
  let b := s.bootOf d
  let s := s.setBoot d { b with stage := if alone then 1 else 0, warm := true, dev := !alone }
  let s := if alone then s else { s with rst := { s.rst with loaded := false } }
  let s := if !alone then s else if d = .d0 then { s with rst := { s.rst with img := false } } else { s with rst := { s.rst with sent := false } }
  (s.trialReset cause).recordReset d (!alone) cause

/-- The log of a die after a cold reset: kept; after a power-on reset only what the flash holds. -/
def State.freshLog (s old : State) (d : Die) (cold : Bool) : State :=
  if cold then
    let keep := [R.LOG_HEAD d, R.LOG_OLDEST d, R.LOG_STREAMED d, R.LOG_RATE d, R.LOG_LFR_STAT d] ++ (List.range 16).map fun i => R.LOG_LFR d i
    let s := keep.foldl (fun s a => s.setReg a (old.getReg a)) s
    s.setLog d { old.logOf d with mirLack := some 0, primOk := true, mirOk := true }
  else
    let r := s.flash.recs.headD ({} : AgeRec)
    (s.setLog d { mirLack := some 0, hours := Tab.get (fun _ => []) r.rates d.idx }).logRebuild d

/-- A cold or power-on reset of the device: everything starts anew but what flash and field side hold, the units' states, the ageing record
and the persistent counters; a cold one keeps the event logs as well (R478, R482, R530, R532, R534, R571). -/
def State.coldDevice (s : State) (cold : Bool) (cause : Nat) : State :=
  let s := s.cfgSync
  let old := s
  let r := s.flash.recs.headD ({} : AgeRec)
  let f := old.fio
  let fio : Fio :=
    { lastDn := f.lastDn, badDn := f.badDn, goodDn := f.goodDn, tripped := f.tripped, upSeq := f.upSeq, outs := f.outs, shut := f.shut,
      cosMode := f.cosMode, inputs := f.inputs, broken := f.broken, wbEn := f.wbEn, supply := f.supply, hot := f.hot }
  let s : State := { State.reset with
    pending := old.pending, fresh := old.fresh, out := old.out, flash := old.flash, images := old.images, fio := fio, h2 := {}, retired := old.retired,
    mem := if cold then old.mem.filter (fun c => decide (0x0900_0000 ≤ c.1 % 0x80_0000_0000) && decide (c.1 % 0x80_0000_0000 < 0x0904_0000)) else [],
    units := old.units.foldl (fun t (e : Nat × HUnit) => Tab.put (fun _ => {}) t e.1 e.2.afterReset) [],
    age := if cold then old.age else r.ages, eyes := if cold then old.eyes else r.eyes,
    rst := { rails := old.rst.rails, testen := old.rst.testen, pin := old.rst.pin, pfLow := old.rst.pfLow,
             pfWait := old.rst.pfWait, snap := if cold then old.rst.snap else none, deferred := if cold then old.rst.deferred else [] } }
  -- registers of the ageing record, and the persistent counters: of a cold reset as they stand, else from the newer of snapshot and record
  let keep := (ageRegs .d0 ++ ageRegs .d1) ++ (if cold then [R.RST_CNT .d0, R.RST_CNT .d1, R.RST_CFG_COMMITS .d0, R.RST_CFG_COMMITS .d1] else [])
  let snapNewer : Bool := match old.flash.snaps with | _ :: _ => !old.flash.restored | [] => false
  let from_ (a : Nat) : Word :=
    if cold then old.getReg a
    else if snapNewer ∧ (lifeRegs .d0 ++ lifeRegs .d1).contains a then Tab.get resetWord (old.flash.snaps.headD ({} : Snapshot)).life a
    else Tab.get resetWord r.regs a
  let s := keep.foldl (fun s a => s.setReg a (from_ a)) s
  let one (s : State) (d : Die) : State :=
    let s := (s.freshLog old d cold).showUnits d
    s.setBoot d { stage := 0, warm := false, dev := true, ref := (old.bootOf d).ref }
  let s := (one (one s .d0) .d1).trialReset cause
  (s.recordReset .d0 true cause).recordReset .d1 true cause

/-- A reset carried out (R478, R480, R483). -/
def State.startReset (s : State) (q : RstReq) : State :=
  if q.die ≠ 2 then s.warmDie (dieOf q.die) true q.cause
  else
    let s := if q.kind = 1 then
        let s := (s.warmDie .d0 false q.cause).warmDie .d1 false q.cause
        { s with rst := { s.rst with img := false, sent := false, asked := none } }
      else s.coldDevice (decide (q.kind = 2)) q.cause
    { s with rst := { s.rst with kind := q.kind } }

/-- Dies a reset request concerns. -/
def RstReq.dies (q : RstReq) : List Die := if q.die = 2 then [.d0, .d1] else [dieOf q.die]

/-- A request absorbed or deferred, in the log (R480, R481, R522). -/
def State.logRequest (s : State) (q : RstReq) : State := q.dies.foldl (fun s d => s.logEv d 0x802 1 0 0 q.cause) s

/-- A reset requested: deferred while a power-loss snapshot is being written, unless it is a power-on reset; absorbed by one under way of
the same or a wider scope that is no less destructive; else it starts (R480, R481). -/
def State.requestReset (s : State) (q : RstReq) : State :=
  if s.rst.snap.isSome ∧ q.kind ≠ 3 then ({ s with rst := { s.rst with deferred := s.rst.deferred ++ [q] } }).logRequest q
  else if s.rst.kind ≠ 0 ∧ (q.kind ≤ s.rst.kind ∨ q.die ≠ 2) then s.logRequest q
  else s.startReset q

/-! ## Sources (R479, R483, R487, R560) -/

/-- POWER_ON_RESET: a monitored rail falls below its threshold (R554). -/
def execPowerOnReset (s : State) : Host.Outcome State Fault Refusal :=
  .next (({ s with rst := { s.rst with rails := true } }).requestReset ⟨2, 3, 1⟩)

/-- TESTEN_HIGH: TESTEN holds both dies in power-on reset (R560). -/
def execTestenHigh (s : State) : Host.Outcome State Fault Refusal :=
  .next (({ s with rst := { s.rst with testen := true } }).requestReset ⟨2, 3, 9⟩)

/-- RESET_N_ASSERT: a recognised low level from outside: cold, or warm where PIN_WARM says so; while the device drives RESET_N it only
extends the reset under way (R479, R483). -/
def execResetNAssert (s : State) : Host.Outcome State Fault Refusal :=
  let t := { s with rst := { s.rst with pin := true } }
  .next (if s.rst.kind ≠ 0 then t else t.requestReset ⟨2, if s.flag (R.RST_CFG .d0) 0 then 1 else 2, 2⟩)

/-- WATCHDOG_EXPIRY: no refresh of a die's watchdog in time (R487). -/
def execWatchdogExpiry (d : Die) (s : State) : Host.Outcome State Fault Refusal :=
  .next (if (s.bootOf d).stage = 0 then s else (s.setFld (R.RST_WD_LEFT d) 0 16 0).requestReset ⟨d.idx, 1, 3⟩)

/-- DEVICE_RESET_START: 100 µs after the reply of the accepted RST_DEVICE has left its port (R151). -/
def execDeviceResetStart (s : State) : Host.Outcome State Fault Refusal :=
  .next (match s.rst.asked with
    | none => s
    | some k => ({ s with rst := { s.rst with asked := none } }).requestReset ⟨2, k, if k = 1 then 5 else 6⟩)

/-- RESET_SOURCE_GONE: a source that holds the reset goes away: 0 the rails, 1 TESTEN, 2 RESET_N from outside (R483, R554, R560). -/
def execResetSourceGone (src : Fin 3) (s : State) : Host.Outcome State Fault Refusal :=
  .next (match src.val with
    | 0 => { s with rst := { s.rst with rails := false } }
    | 1 => { s with rst := { s.rst with testen := false } }
    | _ => { s with rst := { s.rst with pin := false } })

/-- RESET_RELEASE: 1 ms after the last source has gone away RESET_N and the reset of each die are released; each watchdog arms with the
start-up allowance (R480, R483, R487). -/
def execResetRelease (s : State) : Host.Outcome State Fault Refusal :=
  .next (if s.rst.kind = 0 ∨ s.rst.rails ∨ s.rst.testen ∨ s.rst.pin then s else
    let one (s : State) (d : Die) : State := (s.setBoot d { s.bootOf d with stage := 1 }).setFld (R.RST_WD_LEFT d) 0 16 500
    one (one { s with rst := { s.rst with kind := 0 } } .d0) .d1)

/-! ## Power loss (R481, R533) -/

/-- The snapshot of power loss begins: PWRFAIL on both dies, deferral of resets, 0x111 in both logs (R481, R533). -/
def State.powerLoss (s : State) : State :=
  let un (d : Die) : Tab (List Word) := (s.logOf d).unstr.map fun e => (d.idx * 0x1_0000_0000 + e.1, e.2)
  let x : Snapshot := { sec := (s.now .d0).sec, ns := (s.now .d0).ns, life := s.ckpt, ents := un .d0 ++ un .d1 }
  let one (s : State) (d : Die) : State :=
    let s := (s.event d (R.PWR_EVENT d) 1 dblPWRFAIL).raiseSup d 29
    (s.count (R.HLT_LIFE_PWRLOSS d)).logEv d 0x111 3 0 0 (s.fld (R.PWR_STAT d) 0 3)
  one (one { s with rst := { s.rst with snap := some x, pfWait := false } } .d0) .d1

/-- PWRFAIL_ASSERT: in power-on reset without effect; before READY remembered until then; else the snapshot begins (R533, R560). -/
def execPwrfailAssert (s : State) : Host.Outcome State Fault Refusal :=
  .next (if s.rst.kind = 3 ∨ s.rst.pfLow then s
    else
      let t := { s with rst := { s.rst with pfLow := true } }
      if s.running .d0 then t.powerLoss else { t with rst := { t.rst with pfWait := true } })

/-- Deferred requests take effect in their order (R481). -/
def State.runDeferred (s : State) : List RstReq → State
  | [] => s
  | q :: t => (s.requestReset q).runDeferred t

/-- SNAPSHOT_SEALED: the snapshot stands in flash; 0x705 with its entries, SNAP; what was deferred takes effect (R481, R522, R533). -/
def execSnapshotSealed (s : State) : Host.Outcome State Fault Refusal :=
  .next (match s.rst.snap with
    | none => s
    | some x =>
      let qs := s.rst.deferred
      let s := { s with rst := { s.rst with snap := none, deferred := [] }, flash := { s.flash with snaps := (x :: s.flash.snaps).take 2, restored := false } }
      let s := (s.event .d0 (R.LOG_EVENT .d0) 3 dblLOG).logEv .d0 0x705 1 0 0 x.ents.length
      s.runDeferred qs)

/-- PWRFAIL_RELEASE: 0x112 in both logs, the slot not written last is erased (R522, R533). -/
def execPwrfailRelease (s : State) : Host.Outcome State Fault Refusal :=
  .next (if !s.rst.pfLow then s
    else
      let s := { s with rst := { s.rst with pfLow := false, pfWait := false }, flash := { s.flash with snaps := s.flash.snaps.take 1 } }
      let one (s : State) (d : Die) : State := s.logEv d 0x112 1 0 0 (s.fld (R.PWR_STAT d) 0 3)
      one (one s .d0) .d1)

end Sys2Proof.Machine
end

