-- ==== Sys2Proof/Machine/Startup.lean ====
section
/-! DEFINITION. Start-up from the release of a reset to READY: reset BIST, Primer, Undercoat, configuration, intents (R40, R179, R419, R422,
R486, R488, R491, R492, R494, R497, R568, R572). -/

namespace Sys2Proof.Machine

/-! ## Steps 1 and 2: clocks and reset BIST (R491, R572) -/

/-- A pair after its reset BIST: running from Primer's entry, failed, or out of service. -/
def State.pairBist (s : State) (d : Die) (p : Nat) (ok : Bool) : State :=
  let a := R.SPR_STAT d p
  let st := (s.hunit d 3 p).st
  if !ok then ((s.setFld a 0 3 2).setUnitSt d 3 p 3).ageWrite
  else if st = 2 ∨ st = 3 then s.setFld a 0 3 (if st = 2 then 4 else 2)
  else
    let s := s.setFld a 0 3 0
    -- Primer's entry and stack window are the firmware's own
    let s := (s.setReg (R.SPR_PC d p) (s.freeNow &&& 0xFFFF_FFFE)).drawn
    let s := (s.setReg (R.SPR_SPL d p) s.freeNow).drawn
    (s.setReg (R.SPR_SPH d p) s.freeNow).drawn

/-- RESET_BIST_DONE: the reset BIST of a die's pairs ends; before it a die that is not reset warm has checked its reference and locked its
PLLs (R41, R491, R492, R572).  A PWR_STATE that left P4 completes now (R497). -/
def execResetBistDone (d : Die) (ok0 ok1 : Bool) (s : State) : Host.Outcome State Fault Refusal :=
  let b := s.bootOf d
  .next (if b.stage ≠ 1 ∨ (!b.warm ∧ !b.ref) then s else
    let s := if b.warm then s else s.setReg (R.CLK_STAT d) 0x1_03FF
    let s := (s.pairBist d 0 ok0).pairBist d 1 ok1
    if !s.pairRuns d 0 && !s.pairRuns d 1 then s.setFlag (R.RST_STAT d) 8 true
    else
      let s := s.setBoot d { b with stage := 2, p4 := [] }
      if b.p4 = [] then s
      else b.p4.foldl (fun s c => s.complete c stOK 0 [0]) (((s.setFlag (R.PWR_EVENT d) 0 true)).logEv d 0x110 1 0 0 0))

/-! ## Steps 3 to 6: Undercoat (R40, R488, R491, R492) -/

/-- UNDERCOAT_VERIFIED: Die 0's Primer selects a copy and verifies it; where only the other one passes it boots that (R488). -/
def execUndercoatVerified (okA okB : Bool) (s : State) : Host.Outcome State Fault Refusal :=
  let f := s.flash
  let okSel := if f.bootB then okB else okA
  let okOther := if f.bootB then okA else okB
  .next (if (s.bootOf .d0).stage ≠ 2 ∨ s.rst.img then s
    else if !okSel && !okOther then s.setFlag (R.RST_STAT .d0) 8 true
    else
      let copyB := if okSel then f.bootB else !f.bootB
      let fell := f.fell || !okSel
      let trial := f.trial && okSel
      let a := R.RST_STAT .d0
      let s := (((s.setFlag a 8 false).setFlag a 7 copyB).setFlag a 6 fell).setFlag a 5 trial
      let s := { s with flash := { s.flash with tried := f.tried || trial, fell := false }, rst := { s.rst with img := true } }
      if fell then s.logEv .d0 0x803 3 0 0 (s.fld (R.RST_CAUSE .d0) 0 4) else s)

/-- DIE1_IMAGE_TRANSFER: Die 0 sends the verified image over the link, and Die 1's Primer verifies it again. -/
def execDie1ImageTransfer (ok : Bool) (s : State) : Host.Outcome State Fault Refusal :=
  .next (if (s.bootOf .d1).stage ≠ 2 ∨ !s.rst.img ∨ !s.linkUp ∨ s.rst.sent then s
    else if !ok then s.setFlag (R.RST_STAT .d1) 8 true
    else
      let v := s.getReg (R.RST_STAT .d0) &&& 0xE0
      let s := (s.setFlag (R.RST_STAT .d1) 8 false).orReg (R.RST_STAT .d1) v
      { s with rst := { s.rst with sent := true } })

/-- UNDERCOAT_START: Undercoat starts on a die, its pairs take their roles, and slaving begins (R300, R419, R491). -/
def execUndercoatStart (d : Die) (s : State) : Host.Outcome State Fault Refusal :=
  let b := s.bootOf d
  .next (if b.stage ≠ 2 ∨ !(if d = .d0 then s.rst.img else s.rst.sent) then s else
    let s := (s.setBoot d { b with stage := 3 }).setFld (R.RST_STAT d) 0 2 1
    let s := if d = .d1 then { s with slvRun := 0 } else s
    let s := if s.primary = d then ({ s with mirror := [] }.setFlag (R.SYS_DLY_STAT .d0) 9 false).setFlag (R.SYS_DLY_STAT .d1) 9 false else s
    s.showRoles.chooseSource d)

/-- DUOLAY_LINK_TRAINED: first training of the link is complete, with all four lanes (R40, R491). -/
def execDuolayLinkTrained (s : State) : Host.Outcome State Fault Refusal :=
  .next (if s.fld (R.SYS_DLY_STAT .d0) 4 2 ≠ 3 ∨ s.rst.kind ≠ 0 then s else
    let s := (s.setFld (R.SYS_DLY_STAT .d0) 0 4 15).setFld (R.SYS_DLY_STAT .d1) 0 4 15
    (s.linkJoined false).showRoles)

/-- DIE1_TRAIN_TIMEOUT: 50 ms after Die 1's reset release the link has not trained: Die 1 stays in Primer and is reported absent (R40). -/
def execDie1TrainTimeout (s : State) : Host.Outcome State Fault Refusal :=
  .next (if s.linkUp ∨ 3 ≤ (s.bootOf .d1).stage then s else
    let s := { s with rst := { s.rst with absent := true } }
    (s.setFlag (R.DBL_READY_INFO .d0) 2 true).setFlag (R.DBL_READY_INFO .d1) 2 true)

/-! ## Step 7: configuration and self-test (R134, R491, R494, R525 to R527, R568, R571) -/

/-- A unit's self-test at start-up: a fenced one returns on a pass, and one that fails is out of service for good. -/
def State.selfTest (s : State) (d : Die) (failed : List (Nat × Nat)) : State :=
  let s := (s.units.filter fun e => decide (e.1 / 8192 = d.idx) && decide (e.2.st = 4)).foldl (fun s (e : Nat × HUnit) =>
    let c := e.1 / 512 % 16
    let i := e.1 % 512
    if failed.contains (c, i) then s else s.unitReturn d c i) s
  failed.foldl (fun s u =>
    if u.2 < unitCount d u.1 ∧ u.1 ≠ 3 ∧ (s.hunit d u.1 u.2).st ≠ 2 ∧ (s.hunit d u.1 u.2).st ≠ 3 then
      (((s.setUnitSt d u.1 u.2 3).event d (R.HLT_EVENT d) 1 dblHLT).logUnit d 0x602 3 u.1 u.2 0).ageWrite
    else s) s

/-- The banks retired for good marked out of service again (R61). -/
def State.retireAgain (s : State) (d : Die) : State :=
  (List.range 272).foldl (fun s b => if Tab.get (fun _ => false) s.retired (bankKey d b) then s.setFlag (R.POOL_BANK_OOS d (b / 32)) (b % 32) true else s) s

/-- The log memory of a die whose primary copy had failed, rebuilt from the mirror (R526). -/
def State.primaryBack (s : State) (d : Die) : State :=
  let l := s.logOf d
  if l.primOk ∨ !s.mirReach d then s
  else
    let old := (s.getReg (R.LOG_OLDEST d)).toNat
    let n := min 16384 ((s.getReg (R.LOG_HEAD d)).toNat - old)
    let s := (List.range n).foldl (fun s k => s.setWords (logSlot d (old + k)) (s.words (logMirSlot s d (old + k)) 4)) s
    s.setLog d { l with primOk := true }

/-- Words of free values stored from an address. -/
def State.freeWords (s : State) (a : Nat) : Nat → State
  | 0 => s
  | n + 1 => ((s.setWord a s.freeNow).drawn).freeWords (a + 4) n

/-- The newest sealed snapshot restored on Die 0, once: its bytes in the snapshot bank, its time and base shown, 0x706 (R533). -/
def State.snapRestore (s : State) : State :=
  match s.flash.snaps with
  | [] => s
  | x :: _ =>
    if s.flash.restored then s
    else
      let base := (s.structBanks .d0 8).headD 0 * 0x4_0000
      let s := s.freeWords base 768
      let s := (s.setReg (R.LOG_SNAP_BASE .d0) (wd (0x8000_0000 + base))).setReg (R.LOG_SNAP_S .d0) (wd x.sec)
      let s := s.setReg (R.LOG_SNAP_NS .d0) (wd x.ns)
      let s := (s.event .d0 (R.LOG_EVENT .d0) 3 dblLOG).logEv .d0 0x706 1 0 0 x.ents.length
      { s with flash := { s.flash with restored := true } }

/-- Every command channel of a die no longer open: the epoch has changed (R134). -/
def State.closeChans (s : State) (d : Die) : State :=
  let s := (List.range 40).foldl (fun s c => s.setFlag (R.CMD_CH_STAT d c) 15 false) s
  (List.range 8).foldl (fun s k => s.setFlag (R.CMD_IB_ALLOW_HI d k) 30 false) s

/-- The command epoch advances at the start of the interpreter and is committed at once; the other die's interpreter knows it (R134, R495). -/
def State.newEpoch (s : State) (d : Die) (e : Nat) : State :=
  let s := (s.setFld (R.CMD_STAT d) 16 16 e).closeChans d
  (if s.linkUp then (s.setFld (R.CMD_STAT d.other) 16 16 e).closeChans d.other else s).commit

/-- The configuration of a die, and with its first reader the device's own, as start-up finds it when the newest `bad` copies do not check. -/
def State.configIn (s : State) (d : Die) (bad : Nat) : State :=
  let b := s.bootOf d
  let keep := b.warm && b.dev
  let dev (s : State) (t : Tab (List Word)) : State :=
    if s.rst.loaded then s else { s.cfgRestoreDevice t keep with flash := { s.flash with now := t } }
  let s := match s.flash.found bad with
    | none => ((s.setFlag (R.RST_STAT d) 3 true).logEv d 0x804 3 0 0 (s.fld (R.RST_CAUSE d) 0 4) |>.cfgRestoreDie d []) |> (dev · [])
    | some (gen, slot, t) =>
      let s := (dev (s.cfgRestoreDie d t) t).setReg (R.RST_CFG_GEN d) (wd gen)
      s.setReg (R.RST_CFG_STAT d) (wd (slot * 4))
  if s.interpDie d = d then
    let e := ((Tab.get cfgNone s.flash.now keyEpoch).headD 0).toNat
    s.newEpoch d (nextEpoch e)
  else s.setFld (R.CMD_STAT d) 16 16 (s.cmdEpoch (s.interpDie d))

/-- CONFIG_RESTORE: step 7 of a die's start-up: retired banks, device structures, configuration, self-test, epoch, logs and snapshot.
`failed` names the units whose self-test fails, by class and index. -/
def execConfigRestore (d : Die) (bad : Nat) (failed : List (Nat × Nat)) (s : State) : Host.Outcome State Fault Refusal :=
  let b := s.bootOf d
  .next (if b.stage ≠ 3 then s else
    let s := (s.setBoot d { b with stage := 4 }).setFld (R.RST_STAT d) 0 2 2
    let s := (s.retireAgain d).assignStructs d
    let s := (s.configIn d bad).selfTest d failed
    let s := ((s.primaryBack d).logResync .d0).logResync .d1
    let s := if d = .d0 then s.snapRestore else s
    (s.showLog .d0).showLog .d1)

/-! ## Step 8: intents, rings, ports (R118, R267, R281, R399, R486, R497) -/

/-- A journalled instance restored where it was: charges, epoch, code, slot and units again; its context mapped in place with REPLACED and
the cycles lost so far. -/
def State.restoreInst (s : State) (h : Nat) (q : Placement) : State :=
  let i := s.intent h
  let e := nextEpoch i.epoch
  let since := (s.getReg (R.RST_TIME_S q.die)).toNat * 1_000_000_000 + (s.getReg (R.RST_TIME_NS q.die)).toNat
  let t := s.lin q.die + 80_000
  let q := { q with st := 2, epoch := e, lost := min 0xFFFF (q.lost + lostStarts i since t) }
  let s := (s.charge q.charges true).setPlacements h (some q) none
  let s := s.setIntent h { s.intent h with epoch := e, replaced := true }
  let j := s.intent h
  (s.writeHeader j q ((if j.fresh then 0x1_0000 else 0) + 0x2_0000)).prepare j q t

/-- A stored intent admitted again at start-up, its context built afresh; where admission fails it is held with no placement (R497). -/
def State.readmit (s : State) (p : Die) (h : Nat) : State :=
  let i := s.intent h
  let fail (s : State) : State := s.setIntent h { i with cur := none, tgt := none, cause := 2 }
  if i.isFlow then
    match s.placeFlow h false (s.plannedDies p) with
    | .error _ => fail s
    | .ok n => (s.takeFlow i n).setIntent h { i with cur := some n, tgt := none }
  else match s.placeInst i.imageNo i.record i.params false { dies := s.plannedDies p } with
    | .error _ => fail s
    | .ok q =>
      let q := { q with epoch := i.epoch }
      let s := (s.charge q.charges true).setPlacements h (some q) none
      let s := s.setIntent h { s.intent h with fresh := true }
      (s.buildCtx (s.intent h) q).prepare (s.intent h) q (s.lin q.die + 100_000)

/-- The intents of a planner restored: from the journals where both check, else admitted again in INDEX order as one event. -/
def State.restoreIntents (s : State) (p : Die) (journals : Bool) : State :=
  let s := { s with rst := { s.rst with restoring := true } }
  let noted := s.heldIntents.any fun i => match i.cur with | some q => q.st = 7 | none => false
  let kept := noted && journals
  let s := s.heldIntents.foldl (fun s i => match i.cur with
    | some q =>
      if q.st ≠ 7 then s
      else if !kept then s.setIntent i.handle { i with cur := none }
      else if i.isFlow then (s.charge q.charges true).setIntent i.handle { i with cur := some { q with st := 2 } }
      else s.restoreInst i.handle q
    | none => s) s
  let s := if kept then (s.setFlag (R.RST_STAT .d0) 4 true).setFlag (R.RST_STAT .d1) 4 true
    else (s.heldIntents.filter fun i => i.cur.isNone && i.tgt.isNone && decide (i.cause ≠ 3)).foldl (fun s i => s.readmit p i.handle) s
  let s := { s with rst := { s.rst with restoring := false } }
  (s.publish p).planForecast p

/-- The stored ring record of a die current again, the device fenced (R267, R281); a master acts again. -/
def State.ringReload (s : State) (d : Die) : State :=
  match Tab.get cfgNone s.flash.now (keyRing d) with
  | [] => s
  | dn :: r =>
    let s := (s.setRing d { ((s.ringOf d).freeSpares r (rcSpares r)) with cur := r, dn := dn.toNat % 2 }).ringCharge d r true
    let s := ((s.showRecord d r).setFlag (R.TFR_STAT d) 13 true).setFld (R.TFR_STAT d) 11 2 2
    let s := if rcRole r = 1 then
        let s := s.setFlag (R.TFR_STAT d) 7 true
        if s.fld (R.TFR_EPOCH d) 16 16 = 0 then s.setFld (R.TFR_EPOCH d) 16 16 1 else s
      else s
    (s.ringEvent d 3).chooseSource d

/-- INTENT_RESTORE: step 8 of a die's start-up.  The die whose planner plans restores the intents; it waits for a partner that has started
Undercoat, and Die 0 goes on alone where Die 1 has not (R486, R491, R492, R497). -/
def execIntentRestore (d : Die) (journals : Bool) (s : State) : Host.Outcome State Fault Refusal :=
  let b := s.bootOf d
  let mine := decide (s.plannerOf d = d)
  let o := (s.bootOf d.other).stage
  .next (if b.stage ≠ 4 ∨ (mine ∧ o = 3) then s else
    let s := if mine ∧ d = .d0 ∧ o < 3 then
        let s := { s with rst := { s.rst with absent := true } }
        (s.setFlag (R.DBL_READY_INFO .d0) 2 true).setFlag (R.DBL_READY_INFO .d1) 2 true
      else s
    let s := (s.setBoot d { b with stage := 5 }).ringReload d
    if mine then s.restoreIntents d journals else s)

/-! ## Step 9: READY (R179, R484, R485, R487, R488, R492) -/

/-- What READY does on one die. -/
def State.readyDie (s : State) (d : Die) : State :=
  let s := (s.setBoot d { s.bootOf d with stage := 6 }).setFld (R.RST_STAT d) 0 2 3
  let s := s.setFld (R.RST_WD_LEFT d) 0 16 (s.fld (R.RST_WD_TMO d) 0 16)
  let s := (s.setFlag (R.DBL_READY_INFO .d0) d.idx true).setFlag (R.DBL_READY_INFO .d1) d.idx true
  let s := s.setFlag (R.HLT_STAT d) 0 true
  -- held pads pass to their drivers by a handover; a stencil's stays held; CANn_STB follows ASLEEP again (R482, R484)
  let s := (List.range 48).foldl (fun s k => if s.fld (R.PIN_CFG d k) 0 3 ≤ 1 then s.padRelease d k else s) s
  let s := (List.range 4).foldl (fun s c => s.canStandby d c (s.flag (R.CAN_STAT d c) 10)) s
  -- restored instances start with their first cycle after READY
  let s := (s.intentsWhere fun i => !i.isFlow && (match i.cur with | some q => decide (q.st = 2) && decide (q.die = d) | none => false)).foldl
    (fun s h => match (s.intent h).cur with
      | some q => s.armPlacement (s.intent h) q (gridFrom (s.intent h) (s.lin d + 1))
      | none => s) s
  s.raise d (maskOf dblREADY 1)

/-- READY_RAISE: start-up of the dies that start together is complete: READY on every host receiver (R179, R491, R492). -/
def execReadyRaise (d : Die) (s : State) : Host.Outcome State Fault Refusal :=
  let e := d.other
  let o := (s.bootOf e).stage
  let both := decide (o = 5)
  let alone := decide (o = 6) || (decide (d = .d0) && s.rst.absent && decide (o < 3))
  .next (if (s.bootOf d).stage ≠ 5 ∨ !(both || alone) then s else
    let s := s.readyDie d
    let s := if both then s.readyDie e else s
    let s := if both ∨ d = .d1 then
        let s := { s with rst := { s.rst with absent := false } }
        (s.setFlag (R.DBL_READY_INFO .d0) 2 false).setFlag (R.DBL_READY_INFO .d1) 2 false
      else s
    -- a first READY confirms a copy on trial
    let s := if s.flash.trial ∧ s.flash.tried then
        let s := { s with flash := { s.flash with trial := false, tried := false, wd := 0 } }
        (s.setFlag (R.RST_STAT .d0) 5 false).setFlag (R.RST_STAT .d1) 5 false
      else s
    let s := if !both ∧ o = 6 ∧ s.linkUp then s.plan d .dieReady else s
    if s.rst.pfWait ∧ (s.bootOf .d0).stage = 6 then s.powerLoss else s)

end Sys2Proof.Machine
end

