-- ==== Sys2Proof/Machine/Power.lean ====
section
/-! DEFINITION. Power states, the regulators and the clocks' reference (R36, R74, R116, R496 to R501, R504). -/

namespace Sys2Proof.Machine

/-! ## Transitions (R496 to R498) -/

/-- Whether a die refuses a power state now (R497). -/
def State.pwrRefuses (s : State) (d : Die) (device : Bool) (t : Nat) : Bool :=
  let ps := (s.intents.map Prod.snd).flatMap fun i => i.placements.map fun p => (i, p)
  let engine := ps.any fun e => !e.1.isFlow && decide (e.2.die = d)
  let charged := ps.any fun e => e.2.charges.any fun c => decide (c.die = d.idx) && decide (c.amt ≠ 0)
  let cur := s.power d
  (decide (t = 2) && engine) || (decide (t = 3 ∨ t = 4) && charged) ||
  (decide (t = 4) && (device || !s.linkUp || (decide (s.primary = d) && !s.flag (R.SYS_DLY_STAT d) 9))) ||
  (decide (cur = 4) && decide (t ≠ 0))

/-- Whether a die is in a transition. -/
def State.pwrBusy (s : State) (d : Die) : Bool := s.flag (R.PWR_STAT d) 7

/-- Every bank group of a die starts to enter retention, or to wake. -/
def State.groupsStart (s : State) (d : Die) (enter : Bool) : State :=
  (List.range 17).foldl (fun s g => if s.groupDone d enter g || s.groupMoving d g then s else s.groupStart d g enter) s

/-- A transition of a die begins: units that the target stops are stopped; retention and ports for P3, VCORE for P4. -/
def State.pwrStart (s : State) (d : Die) (t : Nat) (c : HostCmd) : State :=
  let cur := s.power d
  let s := ((s.setFlag (R.PWR_STAT d) 7 true).setFld (R.PWR_STAT d) 8 3 t).setPwr d { s.pwrOf d with cmds := [c] }
  -- stream FIFOs stop from P2 on: a read that stalls there ends (R74, R548)
  let s := if 2 ≤ t then (List.range 32).foldl (fun s n => s.sfqEndWhere d n (fun _ => true) causeDOMAIN_OFF) s else s
  let s := if 3 ≤ t then (s.portsDown d).groupsStart d true else s
  let s := if cur = 3 ∧ t < 3 then s.groupsStart d false else s
  if t = 4 then
    let p := s.pwrOf d
    (s.setPwr d { p with before := s.fld (R.PWR_VCORE d) 16 10 }).setFld (R.PWR_VCORE d) 16 10 650
  else if cur = 4 then s.setFld (R.PWR_VCORE d) 16 10 (s.pwrOf d).before
  else s

/-- State asked for by a PWR_STATE. -/
def HostCmd.pwrTarget (c : HostCmd) : Nat := bits (c.par 0) 0 4

/-- A PWR_STATE judged and begun; while a die it concerns is in a transition it waits (R497). -/
def State.pwrGo (s : State) (c : HostCmd) : State :=
  let t := c.pwrTarget
  match (s.dies c).find? fun d => s.pwrBusy d with
  | some d => s.setPwr d { s.pwrOf d with wait := (s.pwrOf d).wait ++ [c] }
  | none =>
    if (s.dies c).any fun d => s.pwrRefuses d (decide (c.cls = 0)) t then s.complete c stBAD_PARAM 0 []
    else
      let ds := (s.dies c).filter fun d => s.power d ≠ t
      if ds = [] then s.complete c stOK 0 [wd t] else ds.foldl (fun s d => s.pwrStart d t c) s

/-- What a transition is complete for: retention reached or left, VCORE where it is to be. -/
def State.pwrReached (s : State) (d : Die) : Bool :=
  let t := s.fld (R.PWR_STAT d) 8 3
  let cur := s.power d
  (decide (t < 3) || (List.range 17).all fun g => s.groupDone d true g) &&
  (decide (cur ≠ 3 ∨ 3 ≤ t) || (List.range 17).all fun g => s.groupDone d false g) &&
  (decide (t ≠ 4 ∧ cur ≠ 4) || decide ((s.pwrOf d).mv = s.fld (R.PWR_VCORE d) 16 10))

/-- PWR_TRANSITION_DONE: a die has reached its power state: STATE_DONE, 0x110, the reply; what waited is judged now.  An exit from P4 is the
reset of cause 8, after whose reset BIST its command completes (R479, R491, R497). -/
def execPwrTransitionDone (d : Die) (s : State) : Host.Outcome State Fault Refusal :=
  let p := s.pwrOf d
  let t := s.fld (R.PWR_STAT d) 8 3
  .next (if !s.pwrBusy d ∨ !s.pwrReached d then s
    else if s.power d = 4 then
      let s := s.setBoot d { s.bootOf d with p4 := (s.bootOf d).p4 ++ p.cmds }
      let s := s.requestReset ⟨d.idx, 1, 8⟩
      if (s.bootOf d).stage = 1 then p.wait.foldl (fun s c => s.pwrGo c) s else s
    else
      let s := ((s.setFlag (R.PWR_STAT d) 7 false).setFld (R.PWR_STAT d) 0 3 t).setFld (R.PWR_STAT d) 8 3 0
      -- the pool of the die may have slept, and with it the mirror of the other die's log (R64, R527)
      let s := (s.logResync d.other).showLog d.other
      let s := ((s.setFlag (R.PWR_EVENT d) 0 true).logEv d 0x110 1 0 0 t).setPwr d { p with cmds := [], wait := [] }
      let s := p.cmds.foldl (fun s c => if (s.pwrOf d.other).cmds.contains c then s else s.complete c stOK 0 [wd t]) s
      p.wait.foldl (fun s c => s.pwrGo c) s)

/-! ## The regulator (R500) -/

/-- A PMBus transaction that failed three times: counted, PMB_FAULT, logged with the last STATUS_WORD (R500, R503, R522). -/
def State.pmbFail (s : State) (d : Die) : State :=
  ((s.count (R.PWR_PMB_ERR d)).event d (R.PWR_EVENT d) 3 dblHLT).logEv d 0x113 3 0 0 (s.getReg (R.PWR_PMB_STATUS d)).toNat

/-- PMBUS_POLL: READ_VOUT in mV, READ_IOUT, READ_TEMPERATURE_1 and STATUS_WORD are read; `ok` says whether the bus answered (R500). -/
def execPmbusPoll (d : Die) (mv : Fin 1024) (ma temp status : Fin 65536) (ok : Bool) (s : State) : Host.Outcome State Fault Refusal :=
  .next (if !ok then s.pmbFail d
    else
      let s := (s.setFld (R.PWR_VCORE d) 0 10 mv.val).setReg (R.PWR_TELEM_I d) (wd ma.val)
      (s.setReg (R.PWR_TELEM_T d) (wd temp.val)).setReg (R.PWR_PMB_STATUS d) (wd status.val))

/-- One VOUT_COMMAND of 5 mV towards the voltage commanded. -/
def stepMv (mv target : Nat) : Nat := if mv < target then min target (mv + 5) else max target (mv - 5)

/-- VCORE_STEP: VCORE moves by 5 mV; at its target an approved margin completes.  Where the bus fails the voltage stays, and the command
concerned completes with TIMEOUT (R499, R500). -/
def execVcoreStep (d : Die) (ok : Bool) (s : State) : Host.Outcome State Fault Refusal :=
  let p := s.pwrOf d
  let target := s.fld (R.PWR_VCORE d) 16 10
  .next (if p.mv = target then s
    else if !ok then
      let s := s.pmbFail d
      match p.margin with
      | some c => ((s.setFld (R.PWR_VCORE d) 16 10 p.mv).setPwr d { p with margin := none }).complete c stTIMEOUT 0 []
      | none => p.cmds.foldl (fun s c => s.complete c stTIMEOUT 0 []) (s.setPwr d { p with cmds := [] })
    else
      let mv := stepMv p.mv target
      let s := s.setPwr d { p with mv := mv }
      match p.margin with
      | some c => if mv = target then (s.setPwr d { p with mv := mv, margin := none }).complete c stOK 0 [wd mv] else s
      | none => s)

/-! ## The reference and the PLLs (R46, R501, R504) -/

/-- REF_LOSS: the reference of a die is lost: its PLLs hold, and the die runs on (R501). -/
def execRefLoss (d : Die) (s : State) : Host.Outcome State Fault Refusal :=
  let s' := s.setBoot d { s.bootOf d with ref := false }
  .next (if !(s.bootOf d).ref then s
    else if (s.bootOf d).stage ≤ 1 then s'
    else ((s'.setFlag (R.CLK_STAT d) 16 false).event d (R.CLK_EVENT d) 1 dblHLT).count (R.CLK_CNT_REFLOSS d))

/-- REF_RETURN: the reference is back and the PLLs have relocked (R46, R501). -/
def execRefReturn (d : Die) (s : State) : Host.Outcome State Fault Refusal :=
  let s' := s.setBoot d { s.bootOf d with ref := true }
  .next (if (s.bootOf d).ref then s
    else if (s.bootOf d).stage ≤ 1 ∧ !(s.bootOf d).warm then s' else s'.setReg (R.CLK_STAT d) 0x1_03FF)

/-- An engine halted by a fault of its clock: its cycle is lost, and the halt is a rank-1 unit fault (R116, R509). -/
def State.ceStop (s : State) (d : Die) (k : Fin 24) : State :=
  let s := if s.ceLive d k ∧ !(s.ceOf d k).lost then s.ceLostCycle d k else s
  (((s.setCe d k { s.ceOf d k with lost := true }).setFld (R.CE_STAT d k) 0 2 2).raiseSup d k.val).unitFault d 2 k.val

/-- The six engines of a cluster (R17). -/
def State.clusterStop (s : State) (d : Die) (cl : Nat) : State := (List.range 6).foldl (fun s k => s.ceStop d (ceIx (cl * 6 + k))) s

/-- PLL_UNLOCK: a PLL loses lock; that of a CE cluster is a cluster clock fault: its six engines are fenced and their placements replaced
(R116, R504, R513). -/
def execPllUnlock (d : Die) (pll : Fin 10) (s : State) : Host.Outcome State Fault Refusal :=
  .next (
    let s := (s.setFlag (R.CLK_STAT d) pll.val false).event d (R.CLK_EVENT d) 2 dblHLT
    if pll.val < 4 then s.clusterStop d pll.val else s)

end Sys2Proof.Machine
end

