-- ==== Sys2Proof/Machine/Health.lean ====
section
/-! DEFINITION. The Health Manager: monitors, certified frequencies, emergencies and proposals, tests of units, the scrub and the summary of
the event log (R474, R499, R505 to R518, R524 to R526, R570). -/

namespace Sys2Proof.Machine

/-! ## Certified frequency (R499, R506 to R508, R510) -/

/-- Whether a clock domain is variable (R506). -/
def variableDom (n : Nat) : Bool := decide (n ≤ 4) || decide (n = 6)

/-- A quotient shown as a whole number; which way it is rounded is not stated (log entry 12). -/
def roundTo (x n : Nat) : Nat := if x % n = 0 then x / n else if Config.roundUp x n then x / n + 1 else x / n

/-- The state with a domain's ageing record replaced. -/
def State.setAge (s : State) (d : Die) (dom : Nat) (a : Age) : State := { s with age := Tab.put (fun _ => {}) s.age (d.idx * 8 + dom) a }

/-- Temperature of a die. -/
def State.thermOf (s : State) (d : Die) : Therm := Tab.get (fun _ => {}) s.therm d.idx

/-- Tj in 1/16 °C, a free value before the first reading. -/
def State.tj (s : State) (d : Die) : Int × State :=
  match (s.thermOf d).t16 with
  | some t => (t, s)
  | none => (s.freeNow.toInt, s.drawn)

/-- The normalised delay of a reading in 10^-6 ps: at 110 °C and the regulator's low limit (R507). -/
def normDelay (raw kt kv : Nat) (tj : Int) (mv target : Nat) : Nat :=
  let a : Int := 16_000_000_000 + kt * (1760 - tj)
  let b : Int := 100_000_000_000 + kv * ((100 * mv : Nat) - (97 * target : Nat) : Int)
  ((raw : Int) * a * b / (16_000_000_000 * 100_000_000_000)).toNat

/-- GB_NOISE: three standard deviations in per mille of the mean, as a whole number below 1,024. -/
def noiseOf (l : List Nat) : Nat :=
  let n := l.length
  let m := l.sum
  let q := (l.map fun x => x * x).sum
  ((List.range 1023).filter fun k => (k + 1) * (k + 1) * (m * m) ≤ 9_000_000 * (n * q - m * m)).length

/-- GB_FCST: growth over the next 7 days that the forecast projects, in per mille. -/
def State.fcstOf (s : State) (d : Die) (dom : Nat) : Nat :=
  let loss (t : Nat) : Nat := Config.ageLoss (d.idx * 8 + dom) (s.ageOf d dom).readings t
  let now := s.poweredDays d
  roundTo (1000 * (loss (now + 7) - loss now)) (1_000_000_000 + loss now)

/-- A reading taken into the domain's record and the registers that show it. -/
def State.takeReading (s : State) (d : Die) (dom ps : Nat) : State :=
  let key := d.idx * 8 + dom
  let raw := Config.domK key * ps
  let (t, s) := s.tj d
  let norm := normDelay raw (Config.domKt key) (Config.domKv key) t (s.fld (R.PWR_VCORE d) 0 10) (s.fld (R.PWR_VCORE d) 16 10)
  let a := s.ageOf d dom
  let hour := (s.getReg (R.HLT_LIFE_HOURS d)).toNat
  let old := (a.hist.find? fun (e : Nat × Nat) => e.1 = hour).map fun e => e.2
  let hist := (a.hist.filter fun (e : Nat × Nat) => e.1 ≠ hour && decide (hour < e.1 + 168)) ++ [(hour, max norm (old.getD 0))]
  let norms := (a.norms ++ [norm]).drop (a.norms.length + 1 - 1000)
  let s := s.setAge d dom { a with norms := norms, hist := hist }
  let r := R.HLT_DOM_DELAY d dom
  let s := (s.setFld r 16 16 (min 65535 (roundTo raw 1_000_000))).setFld r 0 16 (min 65535 (roundTo (s.tHist d dom) 1_000_000))
  (s.setFld (R.HLT_DOM_GB d dom) 10 10 (noiseOf norms)).setFld (R.HLT_DOM_GB d dom) 20 10 (min 1023 (s.fcstOf d dom))

/-- A domain's certified frequency shown (R504). -/
def State.showFcert (s : State) (d : Die) (dom f : Nat) : State :=
  let s := s.setFld (R.CLK_DOM d dom) 0 10 f
  if dom < 4 then s.setFld (R.PLC_CL_FCERT d dom) 0 10 f else if dom = 4 then s.setFld (R.PLC_POOL_FCERT d) 0 10 f else s

/-- A margin action: the clock of a variable domain lowered to its certified frequency (R499). -/
def State.marginAction (s : State) (d : Die) (dom f : Nat) : State :=
  let s := s.setFld (R.CLK_DOM d dom) 16 10 f
  let s := if dom < 4 then s.setFld (R.PLC_CL_FCERT d dom) 16 10 f else s
  ((s.count (R.CLK_CNT_MARGIN d)).event d (R.CLK_EVENT d) 0 dblHLT).logEv d 0x611 1 0 dom f

/-- The projections shown: 365 days ahead, and at 7,305 days (R536). -/
def State.showFcst (s : State) (d : Die) (dom : Nat) : State :=
  let fc := s.fld (R.CLK_DOM d dom) 0 10
  let s := s.setFld (R.HLT_DOM_FCST d dom) 0 10 (s.projMhz d dom fc 365)
  s.setFld (R.HLT_DOM_FCST d dom) 16 10 (s.projMhz d dom fc (7305 - s.poweredDays d))

/-- The certified frequency a reading leads to, before the register is compared (R507). -/
def State.certify (s : State) (d : Die) (dom : Nat) : Nat :=
  let den := s.tHist d dom * (1000 + s.guardBand d dom)
  let f := if den = 0 then 1023 else 1_000_000_000_000 * 1000 / den
  min f (Config.domFresh (d.idx * 8 + dom))

/-- recertify of R507 with what follows a fall: ageing record, FCERT_DROP, margin action, the planner. -/
def State.recertify (s : State) (d : Die) (dom ps : Nat) : State :=
  let s := s.takeReading d dom ps
  let f := s.certify d dom
  if s.fld (R.CLK_DOM d dom) 0 10 ≤ f then s
  else
    let s := ((s.showFcert d dom f).showFcst d dom).event d (R.HLT_EVENT d) 6 dblHLT
    let s := (s.logEv d 0x610 2 0 dom f).ageWrite
    let s := if variableDom dom then s.marginAction d dom f else s
    if dom ≤ 4 then s.plan d (.fcertDrop dom) else s.planForecast (s.plannerOf d)

/-! ## Proposals (R511) -/

/-- Whether a reason rests after a decline. -/
def State.reasonRests (s : State) (d : Die) (reason : Nat) : Bool :=
  (s.pwrOf d).declined.any fun e => decide (e.1 = reason) && decide (s.lin d < e.2)

/-- A proposal issued: one voltage, one reason, the next number; it withdraws a pending one of another reason. -/
def State.propose (s : State) (d : Die) (reason mv : Nat) : State :=
  let p := s.pwrOf d
  if mv < 650 ∨ 850 < mv ∨ s.reasonRests d reason ∨ (s.fld (R.PWR_PROP d) 16 16 ≠ 0 ∧ s.fld (R.PWR_PROP d) 12 4 = reason) then s
  else
    let n := nextEpoch p.lastProp
    let s := (s.setPwr d { p with lastProp := n }).setReg (R.PWR_PROP d) (wd (n * 0x1_0000 + reason * 0x1000 + mv))
    ((s.event d (R.PWR_EVENT d) 2 dblHLT).event d (R.HLT_EVENT d) 8 dblHLT).logEv d 0x612 1 0 0 n

/-- The proposal that the state of a die calls for after a reading of a domain; `fell` says whether a variable domain's certified frequency
has fallen by it. -/
def State.proposals (s : State) (d : Die) (dom : Nat) (fell : Bool) : State :=
  let mv := s.fld (R.PWR_VCORE d) 16 10
  let fixedLow := !variableDom dom && decide (s.projMhz d dom (s.fld (R.CLK_DOM d dom) 0 10) 180 < s.fld (R.CLK_DOM d dom) 16 10)
  let hot := match (s.thermOf d).hotAt with | some t => decide (t + 10_000_000_000 ≤ s.lin d) | none => false
  if s.fld (R.PLC_FCST_DAYS d) 0 16 < 180 || fixedLow then s.propose d 1 (mv + 10)
  else if hot && fell then s.propose d 2 (mv + 10)
  else if s.flag (R.PLC_STAT d) 3 then (if Config.raiseClears d.idx (mv + 10) then s.propose d 3 (mv + 10) else s)
  else if Config.lowerKeeps d.idx (mv - 10) then s.propose d 3 (mv - 10)
  else s

/-! ## Readings (R505, R509, R510, R512) -/

/-- Whether a reading stands above 0.98 of the domain's running clock period. -/
def State.tooSlow (s : State) (d : Die) (dom ps : Nat) : Bool :=
  decide (98 * 1_000_000_000_000 < Config.domK (d.idx * 8 + dom) * ps * s.fld (R.CLK_DOM d dom) 16 10 * 100)

/-- PATH_DELAY_READING: the greatest replica delay of a domain in ps, and the repeat reading: emergency or recertification (R507, R509). -/
def execPathDelayReading (d : Die) (dom : Fin 8) (ps again : Nat) (s : State) : Host.Outcome State Fault Refusal :=
  let n := dom.val
  let slow := s.tooSlow d n ps && s.tooSlow d n again
  let fc := s.fld (R.CLK_DOM d n) 0 10
  .next (if (s.bootOf d).stage < 3 then s
    else if slow && !variableDom n then
      let s := (s.event d (R.HLT_EVENT d) 7 dblHLT).logEv d 0x613 4 0 n (s.fld (R.CLK_DOM d n) 16 10)
      (s.propose d 1 (s.fld (R.PWR_VCORE d) 16 10 + 10)).recertify d n ps
    else if slow then
      let s := s.setFld (R.HLT_STAT d) 24 4 n
      let s := (s.event d (R.HLT_EVENT d) 12 dblHLT).logEv d 0x614 4 0 n (s.fld (R.CLK_DOM d n) 16 10)
      if n < 4 then (s.clusterStop d n).recertify d n ps
      else (s.recertify d n ps).requestReset ⟨d.idx, 1, 7⟩
    else
      let s := s.recertify d n ps
      s.proposals d n (variableDom n && decide (s.fld (R.CLK_DOM d n) 0 10 < fc)))

/-- RING_OSC_READING: the frequency loss of a domain in 0.01 % against the value fused at test: the fit and the projections are redone
(R505, R510). -/
def execRingOscReading (d : Die) (dom : Fin 8) (loss : Nat) (s : State) : Host.Outcome State Fault Refusal :=
  let n := dom.val
  let a := s.ageOf d n
  let rs := a.readings ++ [(s.poweredDays d, loss)]
  .next (if (s.bootOf d).stage < 3 then s else
    let s := s.setAge d n { a with readings := rs }
    let s := s.setReg (R.HLT_DOM_AGE d n) (wd ((100 + Config.ageFit (d.idx * 8 + n) rs % 251) * 0x1_0000 + min loss 65535))
    s.showFcst d n)

/-- First value of a lane's eye or a bank's impedance code, 0 before any reading. -/
def State.firstEye (s : State) (d : Die) (i : Nat) : Nat := Tab.get (fun _ => 0) s.eyes (d.idx * 16 + i)

/-- MONITOR with 0x615 (R512). -/
def State.monitor (s : State) (d : Die) (i : Nat) : State := (s.event d (R.HLT_EVENT d) 9 dblHLT).logEv d 0x615 2 0 0 i

/-- EYE_MONITOR_READING: height and width of a receive lane's eye; a Duolay lane that falls LOW is retrained (R39, R512). -/
def execEyeMonitorReading (d : Die) (lane : Fin 11) (height : Fin 1024) (width : Fin 64) (s : State) : Host.Outcome State Fault Refusal :=
  let i := lane.val
  let a := R.HLT_EYE d i
  let first := s.firstEye d i
  let low := decide (height.val * 100 < 60 * first) || decide (width.val < 16)
  let was := s.flag a 16
  .next (
    let s := if first = 0 then { s with eyes := Tab.put (fun _ => 0) s.eyes (d.idx * 16 + i) height.val } else s
    let s := s.setReg a (wd ((if low then 0x1_0000 else 0) + width.val * 0x400 + height.val))
    if was || !low then s
    else
      let s := s.monitor d i
      if (i = 5 ∨ i = 6) ∧ s.rxLanes d = 3 then s.laneFail d (i - 5) 0 else s)

/-- DRIVER_CAL_READING: the impedance code of a driver bank (R512). -/
def execDriverCalReading (d : Die) (bank : Fin 3) (code : Fin 64) (s : State) : Host.Outcome State Fault Refusal :=
  let a := R.HLT_DRV d bank.val
  let i := 11 + bank.val
  let stop := decide (code.val = 0) || decide (code.val = 63)
  let was := s.flag a 16
  .next (
    let s := if s.firstEye d i = 0 then
        ({ s with eyes := Tab.put (fun _ => 0) s.eyes (d.idx * 16 + i) (code.val + 1) }).setFld a 8 6 code.val
      else s
    let s := (s.setFld a 0 6 code.val).setFlag a 16 stop
    if stop && !was then s.monitor d i else s)

/-- TEMP_READING: the highest of a die's sensors in 1/16 °C (R505). -/
def execTempReading (d : Die) (t16 : Int) (s : State) : Host.Outcome State Fault Refusal :=
  let hot := if 1600 < t16 then some ((s.thermOf d).hotAt.getD (s.lin d)) else none
  .next { s with therm := Tab.put (fun _ => {}) s.therm d.idx { t16 := some t16, hotAt := hot } }

/-! ## Tests (R474, R513 to R518, R570) -/

/-- Whether a host's health command has a test of its own to come: every HLT_TEST, and a return of a unit that is not in service. -/
def State.needsTest (s : State) (c : HostCmd) : Bool :=
  c.op = opTEST || (decide (c.op = opSERVICE) && bit (c.par 0) 0 && decide ((s.hunit c.tdie c.cls c.unit).st ≠ 0))

/-- Host requests for tests on a die, in the order accepted. -/
def State.waitingTests (s : State) (d : Die) : List HostCmd :=
  s.asyncCmds.filter fun c => (c.op = opTEST || c.op = opSERVICE) && decide (c.tdie = d) && s.needsTest c

/-- Whether BIST may begin on a unit: nothing stands on it, and every bank of a group is out of service (R514, R516). -/
def State.bistReady (s : State) (d : Die) (cls idx : Nat) : Bool :=
  s.vacated d cls idx && (cls ≠ 10 || (List.range 16).all fun j => s.bankOos d (idx * 16 + j))

/-- BIST begins: the unit is under test; the ageing record follows a change out of state 2 or 3 (R530). -/
def State.bistStart (s : State) (d : Die) (cls idx : Nat) : State :=
  let was := (s.hunit d cls idx).st
  let s := s.setUnitSt d cls idx 1
  let s := if was = 2 ∨ was = 3 then s.ageWrite else s
  let s := s.setUnit d cls idx { s.hunit d cls idx with held := 0, hard := false }
  let s := s.setReg (R.HLT_TEST_STAT d) (wd (unitNum d cls idx * 0x1_0000 + 0x8000 + 0x2000 + cls))
  match cls with
  | 2 =>
    let k := ceIx idx
    (s.ceFreeFrames d k).setCe d k {}
  | 3 => ((s.setFld (R.SPR_STAT d idx) 0 3 5).setFlag (R.SYS_DLY_STAT .d0) 9 false).setFlag (R.SYS_DLY_STAT .d1) 9 false
  | 8 => s.setFio { s.fio with test := 1, testOk := true, testRes := none }
  | _ => s

/-- A test begun: its unit is vacated first, unless nothing stands on it or it is not in service (R514). -/
def State.testStart (s : State) (d : Die) (cls idx : Nat) : State :=
  if (s.hunit d cls idx).st ≠ 0 ∨ s.bistReady d cls idx then s.bistStart d cls idx
  else
    let s := s.setReg (R.HLT_TEST_STAT d) (wd (unitNum d cls idx * 0x1_0000 + 0x8000 + 0x1000 + cls))
    s.plan d (.test cls idx)

/-- Whether a die's test is in its vacate phase on a unit. -/
def State.vacating (s : State) (d : Die) (cls idx : Nat) : Bool := s.testingUnit d cls idx && decide (s.fld (R.HLT_TEST_STAT d) 12 3 = 1)

/-- TEST_START: the oldest host request of a die whose turn it is begins, or its BIST begins once its unit is vacated (R514, R570). -/
def execTestStart (d : Die) (cls : Fin 16) (idx : Fin 512) (s : State) : Host.Outcome State Fault Refusal :=
  let c := cls.val
  let i := idx.val
  .next (if s.vacating d c i then (if s.bistReady d c i then s.bistStart d c i else s)
    else if s.flag (R.HLT_TEST_STAT d) 15 then s
    else match s.waitingTests d with
      | q :: _ => if q.cls = c ∧ q.unit = i ∧ (s.hunit d c i).tries ≤ 3 then s.testStart d c i else s
      | [] => s)

/-- BACKGROUND_TEST_START: the rotation's next unit, while no host request waits and the die has no test; a fenced unit gets its test too, which
a failed one or one out of service does not (R509, R513, R517, R570). -/
def execBackgroundTestStart (d : Die) (cls : Fin 16) (idx : Fin 512) (s : State) : Host.Outcome State Fault Refusal :=
  let c := cls.val
  let i := idx.val
  let held := decide (c = 3) && s.fld (R.SPR_STAT d i) 4 2 ≠ 0
  .next (if s.vacating d c i then (if s.bistReady d c i then s.bistStart d c i else s)
    else if !s.flag (R.HLT_STAT d) 0 ∨ s.flag (R.HLT_TEST_STAT d) 15 ∨ s.waitingTests d ≠ [] ∨ unitCount d c ≤ i ∨
      ((s.hunit d c i).st ≠ 0 ∧ (s.hunit d c i).st ≠ 4) ∨ held then s
    else s.testStart d c i)

/-- Banks of a tested group: its retention result shown, failing ones retired for good, the others back in service (R516). -/
def State.banksTested (s : State) (d : Die) (g weak margin : Nat) (badB : List Nat) (detail : Nat) : State :=
  let bad := (badB ++ if margin < 25 then [weak] else []).filter fun b => b / 16 = g
  let s := s.setReg (R.HLT_RET d g) (wd (weak * 0x100 + margin))
  (List.range 16).foldl (fun s j =>
    let b := g * 16 + j
    if bad.contains b then
      let s := { s with retired := Tab.put (fun _ => false) s.retired (bankKey d b) true }
      (s.setFlag (R.POOL_BANK_OOS d (b / 32)) (b % 32) true).logEv d 0x607 3 10 g detail
    else if Tab.get (fun _ => false) s.retired (bankKey d b) then s
    else s.setFlag (R.POOL_BANK_OOS d (b / 32)) (b % 32) false) s

/-- HLT_SERVICE acted on by its unit's state, where no test is called for (R475, R513, R570). -/
def State.serviceAct (s : State) (c : HostCmd) : State :=
  let d := c.tdie
  let st := (s.hunit d c.cls c.unit).st
  if st = 1 ∨ s.needsTest c then s
  else if bit (c.par 0) 0 ∨ st ≠ 0 then s.complete c stOK 0 [0, 0]
  else if !s.vacated d c.cls c.unit ∨ (c.cls = 3 ∧ s.fld (R.SPR_STAT d c.unit) 4 2 ≠ 0) then s
  else
    let s := (s.setUnitSt d c.cls c.unit 2).logUnit d 0x605 1 c.cls c.unit 0
    let s := if c.cls = 3 then s.setFld (R.SPR_STAT d c.unit) 0 3 4 else s
    let s := if c.cls = 8 then (s.fioHoldAll).setFlag (R.FIO_STAT .d0) 1 true else s
    s.ageWrite.complete c stOK 0 [0, 0]

/-- Every HLT_SERVICE that waited for a unit acted on. -/
def State.serviceAll (s : State) (d : Die) (cls idx : Nat) : State :=
  (s.asyncCmds.filter fun c => c.op = opSERVICE && decide (c.tdie = d) && c.cls = cls && c.unit = idx).foldl (fun s c => s.serviceAct c) s

/-- A unit that has passed its test returns; an untrusted pair has self-tests to pass first (R432, R514, R519). -/
def State.testPassed (s : State) (d : Die) (cls idx : Nat) : State :=
  let v := s.fld (R.SPR_STAT d idx) 8 8
  if cls = 3 ∧ 2 ≤ v ∧ v ≤ 5 then
    let u := Tab.get (fun _ => ({} : SupCore)) s.sup (d.idx * 2 + idx)
    let s := { s with sup := Tab.put (fun _ => {}) s.sup (d.idx * 2 + idx) { u with trust := 1000 } }
    ((s.setFld (R.SPR_STAT d idx) 0 3 4).setUnitSt d 3 idx 2).ageWrite
  else
    let s := s.unitReturn d cls idx
    if cls = 3 then ((s.setFld (R.SPR_STAT d idx) 0 3 0).setFld (R.SPR_STAT d idx) 8 8 0).showPairs d else s

/-- BIST_COMPLETE: the die's test ends with a detail word ([7:0] 0 on a pass), of a bank group with its weakest bank, margin and failing banks;
the unit returns or is out for good; the requester is answered (R474, R514 to R516, R536). -/
def execBistComplete (d : Die) (detail : Word) (weak : Fin 272) (margin : Fin 256) (badBanks : List (Fin 272)) (s : State) :
    Host.Outcome State Fault Refusal :=
  let a := R.HLT_TEST_STAT d
  let cls := s.fld a 0 4
  let idx := s.fld a 16 16 - unitNum d cls 0
  let ok : Bool := match cls with
    | 8 => decide (s.fio.testRes = some true)
    | 10 => decide (bits detail 0 8 = 0) && decide (25 ≤ margin.val) && badBanks.isEmpty
    | _ => decide (bits detail 0 8 = 0)
  .next (if !s.flag a 15 ∨ s.fld a 12 3 ≠ 2 ∨ (cls = 8 ∧ s.fio.testRes = none) then s else
    let cmd := (s.waitingTests d).find? fun c => c.cls = cls && c.unit = idx
    let s := s.testOff d cls idx (if ok then 1 else 2)
    let s := (s.setReg (R.HLT_BIST_DETAIL d) detail).setUnit d cls idx
      { s.hunit d cls idx with detail := detail.toNat, tests := min 65535 ((s.hunit d cls idx).tests + 1), tries := 0 }
    let s := ((s.count (R.HLT_CNT_TEST d)).count (R.HLT_LIFE_TESTS d)).event d (R.HLT_EVENT d) 0 dblHLT
    let s := if cls = 10 then s.banksTested d idx weak.val margin.val (badBanks.map Fin.val) detail.toNat else s
    let s := if cls = 8 then (if ok then s.setFio { s.fio with testRes := none, testFail := false }
        else (s.setFio { s.fio with testRes := none, testFail := true }).fioHoldAll).fioFault.logEv d 0x904 1 8 0 (if ok then 0 else 1) else s
    let s := if ok then (s.logUnit d 0x601 0 cls idx detail.toNat).testPassed d cls idx
      else
        let s := ((s.setUnitSt d cls idx 3).count (R.HLT_CNT_TEST_FAIL d)).event d (R.HLT_EVENT d) 1 dblHLT
        let s := if cls = 3 then s.setFld (R.SPR_STAT d idx) 0 3 2 else s
        (s.logUnit d 0x602 3 cls idx detail.toNat).ageWrite
    let s := match cmd with
      | some c => s.complete c stOK 0 [if ok then 0 else 1, detail]
      | none => s
    s.serviceAll d cls idx)

/-- TEST_QUEUE_ABORT: eight service requests are held, one has waited HLT_TEST_QMAX µs, or one has a hard deadline: the test is given up and the
requests are served (R518). -/
def execTestQueueAbort (d : Die) (s : State) : Host.Outcome State Fault Refusal :=
  let a := R.HLT_TEST_STAT d
  let cls := s.fld a 0 4
  let idx := s.fld a 16 16 - unitNum d cls 0
  let u := s.hunit d cls idx
  let due := u.hard || decide (8 ≤ u.held) || (decide (u.held ≠ 0) && decide (u.heldAt + s.fld (R.HLT_TEST_QMAX d) 0 14 * 1000 ≤ s.lin d))
  .next (if !s.flag a 15 ∨ u.st ≠ 1 ∨ !due then s else (s.testAbort d cls idx).serviceAll d cls idx)

/-! ## The event log (R524 to R526, R537) -/

/-- LOG_RATE brought up once per second: entries offered in it, and the average over 30 days; 3,600 such seconds make a powered hour of
HLT_LIFE_HOURS (R525, R534, R537; DESIGN CHOICE, log entry 100). -/
def State.logSecond (s : State) (d : Die) : State :=
  let l := s.logOf d
  let full := decide (3600 ≤ l.secs + 1)
  let hours := if full then (l.hours ++ [(l.stored, l.secs + 1)]).drop (l.hours.length + 1 - 720) else l.hours
  let n := (hours.map Prod.fst).sum + if full then 0 else l.stored
  let t := (hours.map Prod.snd).sum + if full then 0 else l.secs + 1
  let s := if full then s.count (R.HLT_LIFE_HOURS d) else s
  let s := s.setReg (R.LOG_RATE d) (wd (min 65535 l.offered * 0x1_0000 + min 65535 (roundTo (n * 100) (max 1 t))))
  s.setLog d { l with offered := 0, stored := if full then 0 else l.stored, secs := if full then 0 else l.secs + 1, hours := hours }

/-- The failure entry of a log copy (R526). -/
def State.copyFail (s : State) (d : Die) (which : Nat) : State :=
  let s := (s.count (R.LOG_CNT_MEMERR d)).event d (R.LOG_EVENT d) which dblLOG
  let l := s.logOf d
  let ws := logWords d (s.now d) 0x703 4 0 (wd which)
  if which = 0 then
    let s := s.setLog d { l with primOk := false }
    if s.mirReach d then s.lfrWrite d ws
    else (s.setFlag (R.LOG_LFR_STAT d) 3 true).lfrWrite d ws
  else
    let s := s.setLog d { l with mirOk := false }
    if l.primOk then s.logEv d 0x703 4 0 0 1 else (s.setFlag (R.LOG_LFR_STAT d) 3 true).lfrWrite d ws

/-- A failed mirror replaced: its bank retired, a new one placed, the primary copied into it, 0x704 (R516, R526). -/
def State.mirrorAnew (s : State) (d : Die) : State :=
  let e := d.other
  let l := s.logOf d
  if l.mirOk ∨ !l.primOk ∨ !s.linkUp then s
  else
    let b := (s.structBanks e 7).headD 0
    match s.vacateBank e b with
    | none => s.logEv e 0x604 3 10 (b / 16) 0
    | some s =>
      let s := (s.setFlag (R.POOL_BANK_OOS e (b / 32)) (b % 32) true).logEv e 0x605 1 10 (b / 16) 0
      (s.setLog d { s.logOf d with mirOk := true, mirLack := some (s.getReg (R.LOG_OLDEST d)).toNat }).logResync d

/-- LOG_SCRUB: once per second both copies of a die's log are scrubbed; `primBad` and `mirBad` say where an uncorrectable error stands. -/
def execLogScrub (d : Die) (primBad mirBad : Bool) (s : State) : Host.Outcome State Fault Refusal :=
  .next (
    let s := s.logSecond d
    let s := if primBad && (s.logOf d).primOk then s.copyFail d 0 else s
    let s := if mirBad && s.mirReach d then (s.copyFail d 1).mirrorAnew d else s
    (s.showLog d).showLog d.other)

/-- LOG_SUPPRESS_SUMMARY: the allowance has returned: one entry 0x702 with the count and the first code it replaced (R524). -/
def execLogSuppressSummary (d : Die) (s : State) : Host.Outcome State Fault Refusal :=
  .next (
    let s := s.logRefill d
    let l := s.logOf d
    if l.supp = 0 ∨ l.allow = 0 then s
    else (s.setLog d { l with supp := 0, suppCode := 0 }).logEv d 0x702 2 0 l.suppCode l.supp)

end Sys2Proof.Machine
end

