-- ==== Sys2Proof/Machine/Lockstep.lean ====
section
/-! DEFINITION. The supervisor pairs' lockstep: self-tests, verdicts, mirrors, heartbeats and takeovers (R419, R420, R422 to R433). -/

namespace Sys2Proof.Machine

/-! ## Mirrors (R423) -/

/-- Whether the mirrors of both roles are in step: both pairs of the die that is not primary run, each has applied a copy, and both log
mirrors are complete. -/
def State.inSync (s : State) : Bool :=
  let e := s.primary.other
  s.linkUp && s.pairRuns e 0 && s.pairRuns e 1 && (s.mirrorOf 0).applied.isSome && (s.mirrorOf 1).applied.isSome &&
    (s.logOf .d0).mirLack.isNone && (s.logOf .d1).mirLack.isNone

/-- MIRROR_SYNC of both dies. -/
def State.setSync (s : State) (b : Bool) : State := (s.setFlag (R.SYS_DLY_STAT .d0) 9 b).setFlag (R.SYS_DLY_STAT .d1) 9 b

/-- The updates held from a primary pair applied: it has passed a test, or reached its verdict as FAILED (R423, R429). -/
def State.mirrorApply (s : State) (p : Nat) : State :=
  let m := s.mirrorOf p
  match m.held.getLast? with
  | some c => s.setMirror p { applied := some c }
  | none => s

/-- MIRROR_UPDATE_RX: the mirror pair `p` of a die receives the state of its role and holds it until the sender's next passed test. -/
def execMirrorUpdateRx (d : Die) (p : Fin 2) (s : State) : Host.Outcome State Fault Refusal :=
  .next (if !s.linkUp ∨ s.primary = d ∨ !s.pairRuns d p.val ∨ !s.pairRuns d.other p.val then s
    else s.setMirror p.val { s.mirrorOf p.val with held := (s.mirrorOf p.val).held ++ [s.roleCopy p.val] })

/-! ## Takeover (R430 to R432) -/

/-- What the mirror of role `p` gives the die that takes over: of an untrusted pair the state of its last passed test, of a die that went
down the last change it sent, else every change. -/
def State.takenCopy (s : State) (old : Die) (p : Nat) (untrusted : Option Nat) : RoleCopy :=
  let m := s.mirrorOf p
  if untrusted = some p then m.applied.getD {}
  else if s.running old then s.roleCopy p
  else (m.held.getLast?.or m.applied).getD (s.roleCopy p)

/-- Whether two states of an intent hold the same placements. -/
def Intent.sameAs (i j : Intent) : Bool :=
  i.handle = j.handle && i.held = j.held &&
    (i.placements.map fun q => (q.st, q.die, q.ce, q.slot, q.epoch)) = (j.placements.map fun q => (q.st, q.die, q.ce, q.slot, q.epoch))

/-- One intent as a mirror holds it put in place of the present one: what it holds released and the mirrored placements made again. -/
def State.revertIntent (s : State) (h : Nat) (j : Intent) : State :=
  let i := s.intent h
  if i.sameAs j then s
  else
    let s := i.placements.foldl (fun s q => s.unplace i q none) s
    let s := if i.isFlow then s.ftRemove h else s
    let s := s.setIntent h { j with tgt := none, cur := none }
    let s := s.setPlacements h j.cur j.tgt
    let i := s.intent h
    i.placements.foldl (fun s q =>
      let s := s.charge q.charges true
      if i.isFlow then s.flowInstall i q else s.prepare i q (s.lin q.die + 1)) s

/-- The planner's part of a takeover from an untrusted pair: intents and configuration as of its last passed test, every slot written
again and every first compare unit armed (R429). -/
def State.revertTo (s : State) (c : RoleCopy) : State :=
  let hs := (s.intents.map Prod.snd ++ c.intents.map Prod.snd).map fun i => i.handle
  let s := hs.eraseDups.foldl (fun s h => s.revertIntent h (Tab.get (fun _ => {}) c.intents (intentKey h))) s
  let s := { s with idxNext := c.idxNext, idxFree := c.idxFree }
  let s := (s.cfgRestoreDie .d0 c.cfg).cfgRestoreDie .d1 c.cfg
  (s.intentsWhere fun i => !i.isFlow).foldl (fun s h =>
    let i := s.intent h
    i.placements.foldl (fun s q =>
      let s := s.writeSlot i q (decide (q.st = 3))
      if s.flag (R.TB_CMP_STAT q.die (q.cmps.headD 0)) 0 then s else s.armPlacement i q (gridFrom i (s.lin q.die + 1))) s) s

/-- Whether the primary roles can move from a die (R430). -/
def State.canTake (s : State) (old : Die) : Bool :=
  let new := old.other
  s.linkUp && decide (s.primary = old) && s.pairRuns new 0 && s.pairRuns new 1 && s.running new && s.flag (R.SYS_DLY_STAT new) 9

/-- TAKEOVER: both roles move from a die to the other one, `untrusted` the pair whose last millisecond is not believed (R429, R431). -/
def State.takeover (s : State) (old : Die) (vcause : Nat) (untrusted : Option Nat) : State :=
  let new := old.other
  let tags := (s.interpOf old).exposed
  let c0 := s.takenCopy old 0 untrusted
  let c1 := s.takenCopy old 1 untrusted
  let s := if untrusted = some 1 then s.revertTo c1 else s
  -- the interpreter's commands and the planner's events
  let i := Tab.get (fun _ => ({} : Interp)) c0.interp old.idx
  let k := s.interpOf new
  let s := (s.setInterp old {}).setInterp new
      { k with urgent := i.urgent ++ k.urgent, normal := i.normal ++ k.normal, async := i.async ++ k.async, accepted := max i.accepted k.accepted, exposed := [] }
  let q := Tab.get (fun _ => ([] : List PlanEv)) c1.planQ old.idx
  let own := s.planEvents new
  let s := (s.setPlanEvents old []).setPlanEvents new (q ++ own.filter fun e => !q.contains e)
  -- step 4: migrations in progress are abandoned
  let s := (s.intentsWhere fun i => i.migrating).foldl (fun s h => s.abortMigration h 2) s
  -- step 5
  let one (s : State) (d : Die) : State :=
    let s := ((s.setFld (R.SPR_ROLES d) 0 1 new.idx).countFld (R.SPR_ROLES d) 16 16 1)
    (s.setReg (R.SPR_TKO_S d) (wd (s.now new).sec)).setReg (R.SPR_TKO_NS d) (wd (s.now new).ns)
  let s := (one (one s .d0) .d1).showRoles
  let s := ({ s with mirror := [] }.setSync false).newEpoch new (nextEpoch (s.cmdEpoch new))
  let s := s.logEv new 0x620 4 0 0 vcause
  let s := if untrusted = some 0 then tags.foldl (fun s t => s.logRaw new 0x621 3 0 t) s else s
  (s.event .d0 (R.HLT_EVENT .d0) 13 dblHLT).event .d1 (R.HLT_EVENT .d1) 13 dblHLT

/-! ## Verdicts (R427, R428, R433) -/

/-- A verdict on a pair: its gate closes and both cores stop; PAIR_FAULT here, a beacon to the other die; then a takeover, or a reset of the
die with cause lockstep fatal (R427 to R430, R433). -/
def State.supVerdict (s : State) (d : Die) (p : Nat) (untrusted : Bool) (vcause pos : Nat) : State :=
  let held := decide (s.fld (R.SPR_STAT d p) 4 2 ≠ 0)
  let take := held && s.canTake d
  let a := R.SPR_STAT d p
  let s := (s.setFld a 0 3 (if untrusted then 3 else 2)).setFld a 8 8 vcause
  let s := (s.setReg (R.SPR_FAULT_S d p) (wd (s.now d).sec)).setReg (R.SPR_FAULT_NS d p) (wd (s.now d).ns)
  let s := (s.setReg (R.SPR_FAULT_POS d p) (wd (pos % 256))).setSup d p {}
  let s := (s.raiseSup d 30).logUnit d 0x622 4 3 p vcause
  let s := if s.linkUp then s.raiseSup d.other 31 else s
  let s := if held && !untrusted then s.mirrorApply p else s
  if take then s.takeover d vcause (if untrusted then some p else none)
  else
    let s := if s.linkUp then s.setSync false else s
    if held || (!s.pairRuns d 0 && !s.pairRuns d 1) then s.requestReset ⟨d.idx, 1, 4⟩ else s.showPairs d

/-- Whether the comparator of a pair is at work: its cores run, in service or not. -/
def State.pairClocked (s : State) (d : Die) (p : Nat) : Bool :=
  let st := s.fld (R.SPR_STAT d p) 0 3
  decide (2 ≤ (s.bootOf d).stage) && decide (s.power d < 4) && (decide (st = 0) || decide (st = 1) || decide (st = 4))

/-- LOCKSTEP_MISMATCH: what the comparator or a delay register's parity finds outside a test, or an injection that goes wrong; `pos` is the
first position that reports (R425, R427). -/
def execLockstepMismatch (d : Die) (p : Fin 2) (finding : LockFinding) (pos : Nat) (s : State) : Host.Outcome State Fault Refusal :=
  .next (if !s.pairClocked d p.val then s else match finding with
    | .mismatch => s.supVerdict d p.val false 1 pos
    | .missed => s.drawn.supVerdict d p.val true 2 s.freeNow.toNat
    | .elsewhere => s.supVerdict d p.val true 3 pos
    | .rail => s.supVerdict d p.val true 4 pos
    | .parity => s.supVerdict d p.val true 5 0xFF)

/-! ## Self-tests (R426, R432) -/

/-- The next position and rail: the rail alternates, and each position is tested on both rails (R426). -/
def State.nextInjection (s : State) (d : Die) (p : Nat) : State :=
  let a := R.SPR_LS_NEXT d p
  if !s.flag a 8 then s.setFlag a 8 true
  else (s.setFlag a 8 false).setFld a 0 8 (if s.fld a 0 8 ≥ 159 then 0 else s.fld a 0 8 + 1)

/-- A passed test of a pair that has still to be trusted: at the last one it returns to service (R432). -/
def State.trustStep (s : State) (d : Die) (p : Nat) : State :=
  let u := s.supOf d p
  if u.trust = 0 then s
  else
    let s := s.setSup d p { u with trust := u.trust - 1 }
    if u.trust = 1 then (((s.unitReturn d 3 p).setFld (R.SPR_STAT d p) 0 3 0).setFld (R.SPR_STAT d p) 8 8 0).showPairs d else s

/-- LOCKSTEP_SELF_TEST: the millisecond's test of the comparator passes, which releases the mirror updates held from the pair, or its injected
mismatch goes unreported (R423, R426, R427). -/
def execLockstepSelfTest (d : Die) (p : Fin 2) (ok : Bool) (s : State) : Host.Outcome State Fault Refusal :=
  .next (if !s.pairClocked d p.val then s
    else if !ok then s.drawn.supVerdict d p.val true 2 s.freeNow.toNat
    else
      let i := p.val
      let s := (s.count (R.SPR_LS_PASS d i)).nextInjection d i
      let s := (s.setReg (R.SPR_PASS_S d i) (wd (s.now d).sec)).setReg (R.SPR_PASS_NS d i) (wd (s.now d).ns)
      let s := s.trustStep d i
      if s.fld (R.SPR_STAT d i) 4 2 = 0 then s
      else
        let s := if i = 0 then s.setInterp d { s.interpOf d with exposed := [] } else s
        if !s.linkUp then s
        else
          let s := s.mirrorApply i
          if s.inSync then s.setSync true else s)

/-! ## Heartbeats (R430) -/

/-- HEARTBEAT_SEND: a primary pair sends its heartbeat on class L0. -/
def execHeartbeatSend (d : Die) (p : Fin 2) (s : State) : Host.Outcome State Fault Refusal :=
  .next (if !s.linkUp ∨ !s.pairRuns d p.val ∨ s.fld (R.SPR_STAT d p.val) 4 2 = 0 ∨ s.primary ≠ d then s
    else s.dlySend d 0 [1, BitVec.ofNat 8 p.val])

/-- HEARTBEAT_LOSS: five heartbeats in a row of a primary pair are missing on the other die: PEER, and a takeover where it is possible
(R430, R431, R441, R522). -/
def execHeartbeatLoss (d : Die) (p : Fin 2) (s : State) : Host.Outcome State Fault Refusal :=
  let e := d.other
  .next (if !s.linkUp ∨ s.primary ≠ d ∨ !s.running e then s
    else
      let v := s.fld (R.SPR_STAT d p.val) 8 8
      let take := s.canTake d
      let s := ((s.setFlag (R.SPR_ROLES e) 2 true).raiseSup e 31).logEv e 0x623 3 3 (unitNum d 3 p.val) v
      if take then s.takeover d v none else s)

end Sys2Proof.Machine
end

