-- ==== Sys2Proof/Machine/Sup.lean ====
section
/-! DEFINITION. The A-class instruction set of the supervisors, their exceptions and debug control (R434 to R440, R442). -/

namespace Sys2Proof.Machine

/-! ## Exception causes (R440) -/

def sxILLEGAL : Nat := 1
def sxALIGN : Nat := 2
def sxBUS : Nat := 3
def sxMEMERR : Nat := 4
def sxSTACK : Nat := 5
def sxINT : Nat := 6

/-- What a part of an instruction gives: a value and the state after it, an exception with its detail and what stays done, or a stall on a
stream FIFO. -/
inductive SupRes (α : Type) where
  | ok (a : α) (s : State)
  | exc (cause detail : Nat) (s : State)
  | stall (s : State)
deriving DecidableEq, Repr

/-- The next part of an instruction. -/
def SupRes.andThen {α β : Type} (r : SupRes α) (f : α → State → SupRes β) : SupRes β :=
  match r with
  | .ok a s => f a s
  | .exc c n s => .exc c n s
  | .stall s => .stall s

/-! ## Registers of a core (R434) -/

/-- The five registers by number: 0 ACC, 1 X, 2 Y, 3 SP, 4 PC. -/
def supReg (d : Die) (p i : Nat) : Nat := R.SPR_ACC d p + 4 * i

def State.sreg (s : State) (d : Die) (p i : Nat) : Nat := (s.getReg (supReg d p i)).toNat
def State.setSreg (s : State) (d : Die) (p i v : Nat) : State := s.setReg (supReg d p i) (wd v)

/-- FLAGS: [0] C, [1] V, [2] Z, [3] N, [4] I. -/
def State.sflags (s : State) (d : Die) (p : Nat) : Nat := s.fld (R.SPR_FLAGS d p) 0 5
def State.setSflags (s : State) (d : Die) (p v : Nat) : State := s.setReg (R.SPR_FLAGS d p) (wd (v % 32))

/-! ## Memory as a supervisor addresses it (R435) -/

/-- The internal address of a supervisor address. -/
def supAddr (d : Die) (a : Nat) : Option Nat :=
  if a < 0x20_0000 then some (d.org + 0x0800_0000 + a)
  else if 0x1000_0000 ≤ a ∧ a < 0x1400_0000 then some (d.org + (a - 0x1000_0000))
  else if 0x1400_0000 ≤ a ∧ a < 0x1800_0000 then some (d.other.org + (a - 0x1400_0000))
  else if 0x2000_0000 ≤ a ∧ a < 0x2040_0000 then some (R.blk d 0 + (a - 0x2000_0000))
  else if 0x2400_0000 ≤ a ∧ a < 0x2440_0000 then some (R.blk d.other 0 + (a - 0x2400_0000))
  else if 0x2800_0000 ≤ a ∧ a < 0x2804_0000 then some (d.org + 0x0900_0000 + (a - 0x2800_0000))
  else if 0x3000_0000 ≤ a ∧ a < 0x3060_0000 then some (d.org + 0x1000_0000 + (a - 0x3000_0000))
  else none

/-- The exception a refused access raises: MEMERR for an uncorrectable error of supervisor memory, else BUS with its cause. -/
def supFault {α : Type} (a c : Nat) (s : State) : SupRes α :=
  if a < 0x20_0000 ∧ c = causeMEMORY then .exc sxMEMERR 0 s else .exc sxBUS c s

/-- The width of a supervisor's access of 1, 2 or 4 bytes. -/
def supWidth (a size : Nat) : Width :=
  if size = 4 then .w32 else if size = 2 then .w16 (decide (a / 2 % 2 = 1)) else .w8 ⟨a % 4, Nat.mod_lt _ (by decide)⟩

/-- A read of 1, 2 or 4 bytes; of a stream FIFO's data it may stall, and goes on with the value the stall ended with (R74). -/
def State.supGet (s : State) (d : Die) (p : Fin 2) (a size : Nat) : SupRes Nat :=
  let who : Requester := .sup d p
  let w := Tab.get (fun _ => ({} : AccWait)) s.accWait (waitKey who)
  let put (s : State) (w : AccWait) : State := { s with accWait := Tab.put (fun _ => {}) s.accWait (waitKey who) w }
  if a % size ≠ 0 then .exc sxALIGN 0 s
  else match supAddr d a with
    | none => .exc sxBUS causeNO_TARGET s
    | some x =>
      let x := x / 4 * 4
      if w.addr = x + 1 then
        if !w.done then .stall s
        else if w.cause ≠ 0 then .exc sxBUS w.cause (put s {}) else .ok (w.val % 0x1_0000_0000) (put s {})
      else match s.busRead who x (supWidth a size) with
        | (.ok (some ws), t) => .ok ((ws.headD 0).toNat / 2 ^ (8 * (a % 4)) % 2 ^ (8 * size)) t
        | (.ok none, t) => .stall (put t { addr := x + 1 })
        | (.error c, t) => supFault a c t

/-- A write of 1 or 4 bytes. -/
def State.supPut (s : State) (d : Die) (p : Fin 2) (a size v : Nat) : SupRes Unit :=
  if a % size ≠ 0 then .exc sxALIGN 0 s
  else match supAddr d a with
    | none => .exc sxBUS causeNO_TARGET s
    | some x => match s.busWrite (.sup d p) (x / 4 * 4) (supWidth a size) (wd (v * 2 ^ (8 * (a % 4)))) 0 with
      | (none, t) => .ok () t
      | (some c, _) => supFault a c s

/-! ## Instructions (R436) -/

/-- An instruction: opcode, mode, FIELD and its width, of a branch COND and DISP, and its length in bytes. -/
structure SupIns where
  op : Nat
  mode : Nat
  field : Nat
  width : Nat
  cond : Nat
  disp : Int
  len : Nat
deriving DecidableEq, Repr

/-- The instruction of one or two halfwords. -/
def supDecode (h0 h1 : Nat) : SupIns :=
  let op := h0 / 512 % 64
  if h0 < 0x8000 then
    { op := op, mode := h0 / 64 % 8, field := h0 % 64, width := 6, cond := h0 / 32 % 16, disp := signed 5 (h0 % 32), len := 2 }
  else
    { op := op, mode := h0 / 64 % 8, field := h0 % 64 * 0x1_0000 + h1, width := 22, cond := h0 / 32 % 16,
      disp := signed 21 (h0 % 32 * 0x1_0000 + h1), len := 4 }

/-- The instruction at PC fetched. -/
def State.supFetch (s : State) (d : Die) (p : Fin 2) : SupRes SupIns :=
  let pc := s.sreg d p.val 4
  (s.supGet d p pc 2).andThen fun h0 s =>
    if h0 < 0x8000 then .ok (supDecode h0 0) s
    else (s.supGet d p ((pc + 2) % 0x1_0000_0000) 2).andThen fun h1 s => .ok (supDecode h0 h1) s

/-- FIELD as an immediate value, and as a displacement in bytes. -/
def SupIns.imm (i : SupIns) : Nat := wrapInt 32 (signed i.width i.field)
def SupIns.offset (i : SupIns) : Int := signed i.width i.field * (if i.len = 2 then 4 else 1)

/-- The address of a memory operand (R437). -/
def State.supEa (s : State) (d : Die) (p : Nat) (i : SupIns) : Nat :=
  let base (r : Nat) : Nat := wrapInt 32 ((s.sreg d p r : Int) + i.offset)
  match i.mode with
  | 1 => if i.len = 2 then i.field * 4 else i.field
  | 2 => base 1
  | 3 => base 2
  | 4 => base 3
  | 5 => base 4
  | _ => s.sreg d p 1

/-- Whether an opcode takes modes 0 to 6, 1 to 6 or 1 to 5; the others are IMM with a FIELD of their own (R438). -/
def supModes (op : Nat) : Nat :=
  if op = 2 ∨ op = 4 ∨ op = 6 ∨ op = 0x10 ∨ op = 0x11 ∨ op = 0x1D then 1
  else if op = 0x21 ∨ op = 0x22 then 2
  else if op = 1 ∨ op = 3 ∨ op = 5 ∨ (8 ≤ op ∧ op ≤ 0xF) ∨ (0x12 ≤ op ∧ op ≤ 0x19) then 0
  else 3

/-- Whether an opcode exists. -/
def supKnown (op : Nat) : Bool := decide (op ≤ 0x1E) || (decide (0x20 ≤ op) && decide (op ≤ 0x27))

/-- Whether an instruction's form is legal: its mode, and every unused field 0 (R437, R438). -/
def SupIns.legal (i : SupIns) : Bool :=
  let rd := i.field / 8 % 8
  let rs := i.field % 8
  if i.op = 0x20 then decide (i.cond ≤ 13)
  else match supModes i.op with
    | 0 => decide (i.mode ≤ 5) || (decide (i.mode = 6) && decide (i.field = 0))
    | 1 => (decide (1 ≤ i.mode) && decide (i.mode ≤ 5)) || (decide (i.mode = 6) && decide (i.field = 0))
    | 2 => decide (1 ≤ i.mode) && decide (i.mode ≤ 5)
    | _ => decide (i.mode = 0) && (match i.op with
      | 7 => decide (i.len = 4) && decide (i.field < 0x1_0000)
      | 0x1A => decide (i.field < 64) && decide (rd < 4) && decide (rs < 4) && decide (rd ≠ rs)
      | 0x1B => decide (i.field < 16)
      | 0x1C => decide (i.field < 16)
      | 0x1E => decide (i.field < 64) && decide (i.field % 32 ≠ 0)
      | 0x25 => decide (i.field < 8)
      | _ => decide (i.field = 0))

/-- X advanced by an operand in mode (X)+ (R437). -/
def State.supStep (s : State) (d : Die) (p : Nat) (i : SupIns) (size : Nat) : State :=
  if i.mode = 6 then s.setSreg d p 1 (s.sreg d p 1 + size) else s

/-- The value of an operand of 1 or 4 bytes. -/
def State.supOperand (s : State) (d : Die) (p : Fin 2) (i : SupIns) (size : Nat) : SupRes Nat :=
  if i.mode = 0 then .ok i.imm s
  else (s.supGet d p (s.supEa d p.val i) size).andThen fun v s => .ok v (s.supStep d p.val i size)

/-! ## The stack (R439) -/

/-- Whether `k` words may be pushed, or popped. -/
def State.supRoom (s : State) (d : Die) (p k : Nat) (push : Bool) : Bool :=
  let sp := s.sreg d p 3
  let lo := (s.getReg (R.SPR_SPL d p)).toNat
  let hi := (s.getReg (R.SPR_SPH d p)).toNat
  decide (sp % 4 = 0) && (if push then decide (sp ≤ hi) && decide (lo + 4 * k ≤ sp) else decide (lo ≤ sp) && decide (sp + 4 * k ≤ hi))

/-- Words pushed in order. -/
def State.supPushAll (s : State) (d : Die) (p : Fin 2) : List Nat → SupRes Unit
  | [] => .ok () s
  | v :: t =>
    let sp := s.sreg d p.val 3 - 4
    (s.supPut d p sp 4 v).andThen fun _ s => (s.setSreg d p.val 3 sp).supPushAll d p t

/-- Words pushed within the stack window; a failure leaves nothing done. -/
def State.supPush (s : State) (d : Die) (p : Fin 2) (vs : List Nat) : SupRes Unit :=
  if !s.supRoom d p.val vs.length true then .exc sxSTACK 0 s
  else match s.supPushAll d p vs with
    | .exc c n _ => .exc c n s
    | r => r

/-- `n` words popped, the first popped first. -/
def State.supPopAll (s : State) (d : Die) (p : Fin 2) : Nat → SupRes (List Nat)
  | 0 => .ok [] s
  | n + 1 =>
    let sp := s.sreg d p.val 3
    (s.supGet d p sp 4).andThen fun v s =>
      ((s.setSreg d p.val 3 (sp + 4)).supPopAll d p n).andThen fun vs s => .ok (v :: vs) s

/-- `n` words popped within the stack window. -/
def State.supPop (s : State) (d : Die) (p : Fin 2) (n : Nat) : SupRes (List Nat) :=
  if !s.supRoom d p.val n false then .exc sxSTACK 1 s
  else match s.supPopAll d p n with
    | .exc c k t => .exc c k (t.setSreg d p.val 3 (s.sreg d p.val 3))
    | r => r

/-! ## Exceptions (R440) -/

/-- A double fault: the pair halts with verdict FAILED, VCAUSE 6 (R427, R440). -/
def State.supDouble (s : State) (d : Die) (p : Fin 2) : State := s.supVerdict d p.val false 6 0xFF

/-- Exception entry: PC and FLAGS pushed, I cleared, PC from the vector; or a double fault. -/
def State.supExcept (s : State) (d : Die) (p : Fin 2) (cause detail pc : Nat) : State :=
  let i := p.val
  let s := s.setReg (R.SPR_EXC d i) (wd (cause + (if cause = sxBUS then detail else 0) * 0x100))
  let s := s.setReg (R.SPR_EXC_PC d i) (wd pc)
  match s.supPush d p [pc, s.sflags d i] with
  | .ok _ s =>
    let s := s.setSflags d i (s.sflags d i % 16)
    match s.supGet d p (4 * cause) 4 with
    | .ok v s => if v = 0 ∨ v % 2 = 1 then s.supDouble d p else s.setSreg d i 4 v
    | .exc _ _ s => s.supDouble d p
    | .stall s => s.supDouble d p
  | .exc _ _ s => s.supDouble d p
  | .stall s => s.supDouble d p

/-! ## The operations (R438) -/

/-- What an instruction leaves: the state, with PC still to be moved on unless it has been set. -/
abbrev SupOp := State → Die → Fin 2 → SupIns → SupRes (Option Nat)

/-- A result written to a register, with Z and N from it. -/
def State.supSetZN (s : State) (d : Die) (p r v : Nat) : State :=
  (s.setSreg d p r v).setSflags d p (flagsZN 32 (v % 0x1_0000_0000) (s.sflags d p))

/-- A load of register `r`: 0 ACC, 1 X, 2 Y. -/
def supLoad (r : Nat) : SupOp := fun s d p i => (s.supOperand d p i 4).andThen fun v s => .ok none (s.supSetZN d p.val r v)

/-- A store of register `r`; the step of (X)+ comes first. -/
def supStore (r size : Nat) : SupOp := fun s d p i =>
  let a := s.supEa d p.val i
  let t := s.supStep d p.val i size
  match t.supPut d p a size (t.sreg d p.val r % 2 ^ (8 * size)) with
  | .ok _ t => .ok none t
  | .exc c n _ => .exc c n s
  | .stall _ => .stall s

/-- An operation of ACC or an index register with an operand that gives a result and FLAGS; `keep` discards the result. -/
def supAlu (r : Nat) (keep : Bool) (f : Nat → Nat → Nat → Nat × Nat) : SupOp := fun s d p i =>
  (s.supOperand d p i 4).andThen fun v s =>
    let o := f (s.sreg d p.val r) v (s.sflags d p.val)
    .ok none ((if keep then s else s.setSreg d p.val r o.1).setSflags d p.val o.2)

/-- A shift by the operand's low five bits; by 0 it leaves C as a free value (log entry 3). -/
def supShift (f : Nat → Nat → Nat → Nat × Nat) : SupOp := fun s d p i =>
  (s.supOperand d p i 4).andThen fun v s =>
    let o := f (s.sreg d p.val 0) (v % 32) (s.sflags d p.val)
    let s := s.setSreg d p.val 0 o.1
    if v % 32 ≠ 0 then .ok none (s.setSflags d p.val o.2)
    else .ok none (s.drawn.setSflags d p.val (o.2 / 2 * 2 + s.freeNow.toNat % 2))

/-- ADD.X, ADD.Y: Z and N only. -/
def supAddIx (r : Nat) : SupOp := fun s d p i =>
  (s.supOperand d p i 4).andThen fun v s => .ok none (s.supSetZN d p.val r ((s.sreg d p.val r + v) % 0x1_0000_0000))

/-- SETHI. -/
def supSethi : SupOp := fun s d p i => .ok none (s.setSreg d p.val 0 (i.field * 0x1_0000 + s.sreg d p.val 0 % 0x1_0000))

/-- GETB: a byte, zero-extended. -/
def supGetb : SupOp := fun s d p i => (s.supOperand d p i 1).andThen fun v s => .ok none (s.supSetZN d p.val 0 v)

/-- MOVR: a move into SP must give a multiple of 4 within the stack window. -/
def supMovr : SupOp := fun s d p i =>
  let rd := i.field / 8 % 8
  let v := s.sreg d p.val (i.field % 8)
  if rd ≠ 3 then .ok none (s.supSetZN d p.val rd v)
  else if v % 4 = 0 ∧ (s.getReg (R.SPR_SPL d p.val)).toNat ≤ v ∧ v ≤ (s.getReg (R.SPR_SPH d p.val)).toNat then .ok none (s.setSreg d p.val 3 v)
  else .exc sxSTACK 0 s

/-- SAVE: the selected registers pushed in the order ACC, X, Y, FLAGS. -/
def supSave : SupOp := fun s d p i =>
  let v (n : Nat) : Nat := if n = 3 then s.sflags d p.val else s.sreg d p.val n
  (s.supPush d p (((List.range 4).filter fun n => i.field.testBit n).map v)).andThen fun _ s => .ok none s

/-- RESTORE: the same set popped in reverse order. -/
def supRestore : SupOp := fun s d p i =>
  let set := ((List.range 4).filter fun n => i.field.testBit n).reverse
  (s.supPop d p set.length).andThen fun vs s =>
    .ok none ((List.zip set vs).foldl (fun s (e : Nat × Nat) => if e.1 = 3 then s.setSflags d p.val e.2 else s.setSreg d p.val e.1 e.2) s)

/-- XCHG: ACC and a word of supervisor memory exchanged. -/
def supXchg : SupOp := fun s d p i =>
  let a := s.supEa d p.val i
  if a % 4 ≠ 0 then .exc sxALIGN 0 s
  else if 0x20_0000 ≤ a then .exc sxBUS causeRULE s
  else (s.supGet d p a 4).andThen fun v t => match t.supPut d p a 4 (t.sreg d p.val 0) with
    | .ok _ t => .ok none ((t.supStep d p.val i 4).setSreg d p.val 0 v)
    | .exc c n _ => .exc c n s
    | .stall _ => .stall s

/-- FLG: the selected flags set or cleared. -/
def supFlg : SupOp := fun s d p i =>
  let m := i.field % 32
  let f := s.sflags d p.val
  .ok none (s.setSflags d p.val (if i.field.testBit 5 then f ||| m else f - (f &&& m)))

/-- Bcc: the target is the branch's own address plus twice DISP. -/
def supBcc : SupOp := fun s d p i =>
  if condHolds i.cond (s.sflags d p.val) then .ok (some (wrapInt 32 ((s.sreg d p.val 4 : Int) + 2 * i.disp))) s else .ok none s

/-- A target PC: one that is odd raises ALIGN. -/
def supTarget (a : Nat) (s : State) : SupRes (Option Nat) := if a % 2 = 1 then .exc sxALIGN 0 s else .ok (some a) s

/-- JUMP. -/
def supJump : SupOp := fun s d p i => supTarget (s.supEa d p.val i) s

/-- CALL: the next PC pushed. -/
def supCall : SupOp := fun s d p i =>
  let a := s.supEa d p.val i
  if a % 2 = 1 then .exc sxALIGN 0 s
  else (s.supPush d p [(s.sreg d p.val 4 + i.len) % 0x1_0000_0000]).andThen fun _ s => .ok (some a) s

/-- RET: PC popped. -/
def supRet : SupOp := fun s d p _ =>
  (s.supPop d p 1).andThen fun vs t => let a := vs.headD 0; if a % 2 = 1 then .exc sxALIGN 0 s else .ok (some a) t

/-- RETX: FLAGS popped, then PC. -/
def supRetx : SupOp := fun s d p _ =>
  (s.supPop d p 2).andThen fun vs t =>
    let a := vs.getD 1 0
    if a % 2 = 1 then .exc sxALIGN 0 s else .ok (some a) (t.setSflags d p.val (vs.headD 0))

/-- Whether a receiver 0 bit of the die is pending: DBL_PEND0 is not 0. -/
def State.supPend (s : State) (d : Die) : Bool := decide (s.getReg (R.DBL_STAT d 0) &&& s.getReg (R.DBL_MASK d 0) ≠ 0)

/-- Whether INT comes before the next instruction. -/
def State.supIntr (s : State) (d : Die) (p : Nat) : Bool := (s.sflags d p).testBit 4 && s.supPend d

/-- IDLE: a stall until the interrupt condition holds, whatever I is. -/
def supIdle : SupOp := fun s d p _ =>
  if s.supPend d then .ok none (s.setSup d p.val { s.supOf d p.val with idle := false })
  else .stall (s.setSup d p.val { s.supOf d p.val with idle := true })

/-- DBG: a debug halt where SPR_DBG_CTRL.EN allows it. -/
def supDbg : SupOp := fun s d p _ =>
  if s.flag (R.SPR_DBG_CTRL d p.val) 8 then .ok none (s.setFld (R.SPR_STAT d p.val) 0 3 1) else .exc sxILLEGAL 0 s

/-- NOP. -/
def supNop : SupOp := fun s _ _ _ => .ok none s

/-- The operation of an opcode; TRAP is an entry of its own. -/
def supRun (op : Nat) : SupOp :=
  match op with
  | 0x01 => supLoad 0
  | 0x02 => supStore 0 4
  | 0x03 => supLoad 1
  | 0x04 => supStore 1 4
  | 0x05 => supLoad 2
  | 0x06 => supStore 2 4
  | 0x07 => supSethi
  | 0x08 => supAlu 0 false fun a b f => aluAdd 32 a b false f
  | 0x09 => supAlu 0 false fun a b f => aluAdd 32 a b (flagC f) f
  | 0x0A => supAlu 0 false fun a b f => aluSub 32 a b false f
  | 0x0B => supAlu 0 false fun a b f => aluSub 32 a b (flagC f) f
  | 0x0C => supAlu 0 true fun a b f => aluSub 32 a b false f
  | 0x0D => supAlu 0 false fun a b f => aluLogic 32 (a &&& b) f
  | 0x0E => supAlu 0 false fun a b f => aluLogic 32 (a ||| b) f
  | 0x0F => supAlu 0 false fun a b f => aluLogic 32 (a ^^^ b) f
  | 0x10 => supGetb
  | 0x11 => supStore 0 1
  | 0x12 => supAlu 1 true fun a b f => aluSub 32 a b false f
  | 0x13 => supAlu 2 true fun a b f => aluSub 32 a b false f
  | 0x14 => supAddIx 1
  | 0x15 => supAddIx 2
  | 0x16 => supShift (aluShl 32)
  | 0x17 => supShift (aluShr 32)
  | 0x18 => supShift (aluSar 32)
  | 0x19 => supAlu 0 false (aluMul 32)
  | 0x1A => supMovr
  | 0x1B => supSave
  | 0x1C => supRestore
  | 0x1D => supXchg
  | 0x1E => supFlg
  | 0x20 => supBcc
  | 0x21 => supJump
  | 0x22 => supCall
  | 0x23 => supRet
  | 0x24 => supRetx
  | 0x26 => supIdle
  | 0x27 => supDbg
  | _ => supNop

/-! ## One instruction -/

/-- Whether a pair can execute: it runs, in service or not, or a debug halt has granted it one instruction (R442). -/
def State.supLive (s : State) (d : Die) (p : Nat) : Bool :=
  let st := s.fld (R.SPR_STAT d p) 0 3
  decide (2 ≤ (s.bootOf d).stage) && decide (s.power d < 4) &&
    (decide (st = 0) || decide (st = 4) || (decide (st = 1) && (s.supOf d p).step))

/-- An instruction has been executed: a step granted by debug control is used up. -/
def State.supDone (s : State) (d : Die) (p : Nat) : State :=
  if (s.supOf d p).step then s.setSup d p { s.supOf d p with step := false } else s

/-- An instruction performed and its exception taken. -/
def State.supPerform (s : State) (d : Die) (p : Fin 2) (i : SupIns) : State :=
  let pc := s.sreg d p.val 4
  let next := (pc + i.len) % 0x1_0000_0000
  if i.op = 0x25 then (s.supDone d p.val).supExcept d p (8 + i.field) 0 next
  else match supRun i.op s d p i with
    | .ok none t => (t.setSreg d p.val 4 next).supDone d p.val
    | .ok (some a) t => (t.setSreg d p.val 4 a).supDone d p.val
    | .exc c n t => (t.supDone d p.val).supExcept d p c n pc
    | .stall t => t

/-- The instruction at PC executed when it has the opcode of the command; a fetch that faults and an unknown opcode raise their exception
whatever the command; a pair that idles, stands before an interrupt or at another instruction does nothing (log entry 5). -/
def State.supIssue (s : State) (d : Die) (p : Fin 2) (op : Nat) : State :=
  let pc := s.sreg d p.val 4
  if !s.supLive d p.val ∨ s.supIntr d p.val ∨ (s.supOf d p.val).idle then s
  else match s.supFetch d p with
    | .exc c n t => (t.supDone d p.val).supExcept d p c n pc
    | .stall t => t
    | .ok i t =>
      if !supKnown i.op then (t.supDone d p.val).supExcept d p sxILLEGAL 0 pc
      else if i.op ≠ op then s
      else if !i.legal then (t.supDone d p.val).supExcept d p sxILLEGAL 0 pc
      else t.supPerform d p i

/-- SUP_INTERRUPT: INT before the next instruction (R440). -/
def execSupInterrupt (d : Die) (p : Fin 2) (s : State) : Host.Outcome State Fault Refusal :=
  .next (if !s.supLive d p.val ∨ !s.supIntr d p.val ∨ (s.supOf d p.val).idle then s else s.supExcept d p sxINT 0 (s.sreg d p.val 4))

/-- SUP_IDLE_WAKE: the interrupt condition ends the stall of IDLE, which completes (R438). -/
def execSupIdleWake (d : Die) (p : Fin 2) (s : State) : Host.Outcome State Fault Refusal :=
  .next (if !s.supLive d p.val ∨ !(s.supOf d p.val).idle ∨ !s.supPend d then s
    else
      let s := s.setSup d p.val { s.supOf d p.val with idle := false }
      match s.supFetch d p with
      | .ok i t => (t.setSreg d p.val 4 (s.sreg d p.val 4 + i.len)).supDone d p.val
      | .exc c n t => (t.supDone d p.val).supExcept d p c n (s.sreg d p.val 4)
      | .stall t => t)

/-! ## The instructions of the table (R438) -/

/-- SUP_NOP: NOP. -/
def execSupNop (d : Die) (p : Fin 2) (s : State) : Host.Outcome State Fault Refusal := .next (s.supIssue d p 0x00)

/-- SUP_GET_A: GET.A: ACC := op. -/
def execSupGetA (d : Die) (p : Fin 2) (s : State) : Host.Outcome State Fault Refusal := .next (s.supIssue d p 0x01)

/-- SUP_PUT_A: PUT.A: op := ACC. -/
def execSupPutA (d : Die) (p : Fin 2) (s : State) : Host.Outcome State Fault Refusal := .next (s.supIssue d p 0x02)

/-- SUP_GET_X: GET.X: X := op. -/
def execSupGetX (d : Die) (p : Fin 2) (s : State) : Host.Outcome State Fault Refusal := .next (s.supIssue d p 0x03)

/-- SUP_PUT_X: PUT.X: op := X. -/
def execSupPutX (d : Die) (p : Fin 2) (s : State) : Host.Outcome State Fault Refusal := .next (s.supIssue d p 0x04)

/-- SUP_GET_Y: GET.Y: Y := op. -/
def execSupGetY (d : Die) (p : Fin 2) (s : State) : Host.Outcome State Fault Refusal := .next (s.supIssue d p 0x05)

/-- SUP_PUT_Y: PUT.Y: op := Y. -/
def execSupPutY (d : Die) (p : Fin 2) (s : State) : Host.Outcome State Fault Refusal := .next (s.supIssue d p 0x06)

/-- SUP_SETHI: SETHI: the upper half of ACC. -/
def execSupSethi (d : Die) (p : Fin 2) (s : State) : Host.Outcome State Fault Refusal := .next (s.supIssue d p 0x07)

/-- SUP_ADD: ADD. -/
def execSupAdd (d : Die) (p : Fin 2) (s : State) : Host.Outcome State Fault Refusal := .next (s.supIssue d p 0x08)

/-- SUP_ADDC: ADDC. -/
def execSupAddc (d : Die) (p : Fin 2) (s : State) : Host.Outcome State Fault Refusal := .next (s.supIssue d p 0x09)

/-- SUP_SUB: SUB: C = borrow. -/
def execSupSub (d : Die) (p : Fin 2) (s : State) : Host.Outcome State Fault Refusal := .next (s.supIssue d p 0x0A)

/-- SUP_SUBB: SUBB. -/
def execSupSubb (d : Die) (p : Fin 2) (s : State) : Host.Outcome State Fault Refusal := .next (s.supIssue d p 0x0B)

/-- SUP_CMP: CMP: ACC − op, result discarded. -/
def execSupCmp (d : Die) (p : Fin 2) (s : State) : Host.Outcome State Fault Refusal := .next (s.supIssue d p 0x0C)

/-- SUP_AND: AND. -/
def execSupAnd (d : Die) (p : Fin 2) (s : State) : Host.Outcome State Fault Refusal := .next (s.supIssue d p 0x0D)

/-- SUP_OR: OR. -/
def execSupOr (d : Die) (p : Fin 2) (s : State) : Host.Outcome State Fault Refusal := .next (s.supIssue d p 0x0E)

/-- SUP_XOR: XOR. -/
def execSupXor (d : Die) (p : Fin 2) (s : State) : Host.Outcome State Fault Refusal := .next (s.supIssue d p 0x0F)

/-- SUP_GETB: GETB. -/
def execSupGetb (d : Die) (p : Fin 2) (s : State) : Host.Outcome State Fault Refusal := .next (s.supIssue d p 0x10)

/-- SUP_PUTB: PUTB. -/
def execSupPutb (d : Die) (p : Fin 2) (s : State) : Host.Outcome State Fault Refusal := .next (s.supIssue d p 0x11)

/-- SUP_CMP_X: CMP.X. -/
def execSupCmpX (d : Die) (p : Fin 2) (s : State) : Host.Outcome State Fault Refusal := .next (s.supIssue d p 0x12)

/-- SUP_CMP_Y: CMP.Y. -/
def execSupCmpY (d : Die) (p : Fin 2) (s : State) : Host.Outcome State Fault Refusal := .next (s.supIssue d p 0x13)

/-- SUP_ADD_X: ADD.X. -/
def execSupAddX (d : Die) (p : Fin 2) (s : State) : Host.Outcome State Fault Refusal := .next (s.supIssue d p 0x14)

/-- SUP_ADD_Y: ADD.Y. -/
def execSupAddY (d : Die) (p : Fin 2) (s : State) : Host.Outcome State Fault Refusal := .next (s.supIssue d p 0x15)

/-- SUP_SHL: SHL. -/
def execSupShl (d : Die) (p : Fin 2) (s : State) : Host.Outcome State Fault Refusal := .next (s.supIssue d p 0x16)

/-- SUP_SHR: SHR. -/
def execSupShr (d : Die) (p : Fin 2) (s : State) : Host.Outcome State Fault Refusal := .next (s.supIssue d p 0x17)

/-- SUP_SAR: SAR. -/
def execSupSar (d : Die) (p : Fin 2) (s : State) : Host.Outcome State Fault Refusal := .next (s.supIssue d p 0x18)

/-- SUP_MUL: MUL: low 32 bits of the product. -/
def execSupMul (d : Die) (p : Fin 2) (s : State) : Host.Outcome State Fault Refusal := .next (s.supIssue d p 0x19)

/-- SUP_MOVR: MOVR. -/
def execSupMovr (d : Die) (p : Fin 2) (s : State) : Host.Outcome State Fault Refusal := .next (s.supIssue d p 0x1A)

/-- SUP_SAVE: SAVE. -/
def execSupSave (d : Die) (p : Fin 2) (s : State) : Host.Outcome State Fault Refusal := .next (s.supIssue d p 0x1B)

/-- SUP_RESTORE: RESTORE. -/
def execSupRestore (d : Die) (p : Fin 2) (s : State) : Host.Outcome State Fault Refusal := .next (s.supIssue d p 0x1C)

/-- SUP_XCHG: XCHG. -/
def execSupXchg (d : Die) (p : Fin 2) (s : State) : Host.Outcome State Fault Refusal := .next (s.supIssue d p 0x1D)

/-- SUP_FLG: FLG. -/
def execSupFlg (d : Die) (p : Fin 2) (s : State) : Host.Outcome State Fault Refusal := .next (s.supIssue d p 0x1E)

/-- SUP_BCC: Bcc. -/
def execSupBcc (d : Die) (p : Fin 2) (s : State) : Host.Outcome State Fault Refusal := .next (s.supIssue d p 0x20)

/-- SUP_JUMP: JUMP. -/
def execSupJump (d : Die) (p : Fin 2) (s : State) : Host.Outcome State Fault Refusal := .next (s.supIssue d p 0x21)

/-- SUP_CALL: CALL. -/
def execSupCall (d : Die) (p : Fin 2) (s : State) : Host.Outcome State Fault Refusal := .next (s.supIssue d p 0x22)

/-- SUP_RET: RET. -/
def execSupRet (d : Die) (p : Fin 2) (s : State) : Host.Outcome State Fault Refusal := .next (s.supIssue d p 0x23)

/-- SUP_RETX: RETX. -/
def execSupRetx (d : Die) (p : Fin 2) (s : State) : Host.Outcome State Fault Refusal := .next (s.supIssue d p 0x24)

/-- SUP_TRAP: TRAP: exception 8 + FIELD, with the PC of the next instruction (R440). -/
def execSupTrap (d : Die) (p : Fin 2) (s : State) : Host.Outcome State Fault Refusal := .next (s.supIssue d p 0x25)

/-- SUP_IDLE: IDLE. -/
def execSupIdle (d : Die) (p : Fin 2) (s : State) : Host.Outcome State Fault Refusal := .next (s.supIssue d p 0x26)

/-- SUP_DBG: DBG. -/
def execSupDbg (d : Die) (p : Fin 2) (s : State) : Host.Outcome State Fault Refusal := .next (s.supIssue d p 0x27)

/-! ## Debug control from outside (R442) -/

/-- A write of SPR_DBG_CTRL of a pair that keeps EN and sets one of its action bits. -/
def State.dbgWrite (s : State) (who : Requester) (d : Die) (p : Fin 2) (b : Nat) : State :=
  let a := R.SPR_DBG_CTRL d p.val
  s.guardWrite who a .w32 (effHlt who d (0x802C + 0x100 * p.val) (setBits (s.getReg a) 0 3 (2 ^ b)))

/-- SPR_DBG_HALT: a pair out of service halts at the next boundary. -/
def execSprDbgHalt (who : Requester) (d : Die) (p : Fin 2) (s : State) : Host.Outcome State Fault Refusal := .next (s.dbgWrite who d p 0)

/-- SPR_DBG_STEP: a halted pair may execute one instruction. -/
def execSprDbgStep (who : Requester) (d : Die) (p : Fin 2) (s : State) : Host.Outcome State Fault Refusal := .next (s.dbgWrite who d p 1)

/-- SPR_DBG_RUN: a halted pair goes on. -/
def execSprDbgRun (who : Requester) (d : Die) (p : Fin 2) (s : State) : Host.Outcome State Fault Refusal := .next (s.dbgWrite who d p 2)

end Sys2Proof.Machine
end

