-- ==== Sys2Proof/Machine/Interp.lean ====
section
/-! DEFINITION. The Command Interpreter: packets and frames, the checks of a command, its queues, time-outs and the barrier (R125 to R130,
R133 to R146). -/

namespace Sys2Proof.Machine

/-! ## The opcodes (R147) -/

/-- What the reference tables say of an opcode: secure channels only, urgent, parameters in the staging area only, the number of parameter words where
it is fixed, the target classes. -/
structure CmdRow where
  sec : Bool := false
  urgent : Bool := false
  ind : Bool := false
  n : Option Nat := some 0
  classes : List Nat := [0]
deriving DecidableEq, Repr

/-- The reference tables. -/
def cmdRow (op : Nat) : Option CmdRow :=
  let die := [0, 1]
  let d1 := [1]
  let ports := [4, 5]
  let units := [2, 3, 4, 5, 6, 7, 8, 9, 10, 11, 12]
  match op with
  | 0x0100 => some { classes := die }
  | 0x0101 => some { classes := die }
  | 0x0102 => some { n := some 1, classes := die }
  | 0x0103 => some { sec := true, n := some 4, classes := die }
  | 0x0110 => some { n := some 1, classes := die }
  | 0x0111 => some { n := some 2, classes := die }
  | 0x0112 => some { n := some 2, classes := die }
  | 0x0200 => some { n := none }
  | 0x0201 => some { n := none }
  | 0x0202 => some { n := some 2 }
  | 0x0203 => some { n := some 2 }
  | 0x0204 => some { n := some 1 }
  | 0x0205 => some { sec := true, n := some 3 }
  | 0x0206 => some { n := some 1 }
  | 0x0207 => some { n := some 1 }
  | 0x0208 => some {}
  | 0x0300 => some { sec := true, ind := true, n := none }
  | 0x0301 => some { sec := true, n := some 1 }
  | 0x0302 => some { n := some 1 }
  | 0x0303 => some { sec := true, ind := true, n := none }
  | 0x0400 => some { urgent := true, n := some 1, classes := ports }
  | 0x0401 => some { n := some 1, classes := ports }
  | 0x0402 => some { n := some 2, classes := d1 }
  | 0x0403 => some { classes := ports }
  | 0x0404 => some { urgent := true, n := some 2, classes := d1 }
  | 0x0405 => some { n := some 1, classes := ports }
  | 0x0500 => some { classes := d1 }
  | 0x0501 => some { n := some 3, classes := d1 }
  | 0x0502 => some { n := some 2, classes := d1 }
  | 0x0503 => some { n := some 2, classes := ports }
  | 0x0600 => some { classes := units }
  | 0x0601 => some { sec := true, n := some 1, classes := units }
  | 0x0602 => some { n := some 1, classes := d1 }
  | 0x0700 => some { n := some 2, classes := d1 }
  | 0x0701 => some { n := some 2, classes := d1 }
  | 0x0702 => some { classes := d1 }
  | 0x0800 => some { sec := true, n := some 1 }
  | 0x0801 => some { classes := units }
  | 0x0900 => some { urgent := true, n := some 3, classes := [8] }
  | 0x0901 => some { n := some 1, classes := [8] }
  | 0x0902 => some { classes := [8] }
  | 0x0A00 => some { ind := true, n := none, classes := [5] }
  | 0x0A01 => some { n := some 1, classes := [5] }
  | 0x0A02 => some { n := some 1, classes := [5] }
  | 0x0A03 => some { classes := [5] }
  | _ => none

/-! ## Checks 5 to 14 (R138) -/

/-- Status and DETAIL of a command that is turned away. -/
abbrev Turned := Nat × Nat

/-- The first of a list of conditions that fails, with the status it gives. -/
def firstTurned : List (Bool × Turned) → Option Turned
  | [] => none
  | (bad, t) :: l => if bad then some t else firstTurned l

/-- Words of a buffer in the staging area of either die (R130, R131), or what is wrong with it, and what reading it leaves: die `i`'s interpreter
reads as a supervisor does, over the link in the other die, through a pool that answers (R28, R59, R64, R137). -/
def State.indWords (s : State) (i : Die) (ps : List Word) : Except Turned (List Word) × State :=
  let p (n : Nat) : Word := ps.getD n 0
  let a := (p 0).toNat + bits (p 1) 0 8 * 0x1_0000_0000
  let n := (p 2).toNat
  let d := dieOfAddr a
  let base := s.stagingBase d
  match firstTurned [
      (decide (ps.length ≠ 4), (stBAD_LENGTH, 9)),
      (decide (a % 4 ≠ 0) || decide (a < base) || decide (base + 0x10_0000 ≤ a), (stBAD_PARAM, 0)),
      (decide (bits (p 1) 8 24 ≠ 0), (stBAD_PARAM, 1)),
      (decide (n = 0) || decide (262_144 < n) || decide (base + 0x10_0000 < a + 4 * n), (stBAD_PARAM, 2)),
      (!s.running d || (decide (d ≠ i) && !s.linkUp) || decide (3 ≤ s.powerEff d), (stDOMAIN_OFF, 0))] with
  | some t => (.error t, s)
  | none =>
    match s.poolReadSpan d (if d = i then 13 else 10) (a % 0x0400_0000) (4 * n) (lineCount a (4 * n)) with
    | (.error _, t) => (.error (stBAD_CRC, 0), t)
    | (.ok bs, t) => (if wd (crc32c bs) ≠ p 3 then .error (stBAD_CRC, 0) else .ok (bytesWords bs), t)

/-- Whether the words of a command of variable length are as many as it says. -/
def lengthOk (op : Nat) (ps : List Word) : Bool :=
  let n := bits (ps.headD 0) 0 7
  let many := decide (1 ≤ n) && decide (n ≤ 64)
  match op with
  | 0x0200 => decide (1 ≤ ps.length) && (!many || (match takeItems n 1 (ps.drop 1) with
    | some (is, rest) => rest.isEmpty || is.any fun x => !x.known
    | none => false))
  | 0x0201 =>
    let n := (ps.headD 0).toNat
    decide (1 ≤ ps.length) && (decide (n = 0) || decide (64 < n) || decide (ps.length = n + 1))
  | 0x0300 => decide (2 ≤ ps.length) && decide (ps.length = 2 + ((ps.getD 1 0).toNat + 3) / 4)
  | 0x0303 => decide (1 ≤ ps.length) && (decide (1_048_560 < (ps.headD 0).toNat) || decide (ps.length = 1 + ((ps.headD 0).toNat + 3) / 4))
  | 0x0A00 =>
    let w (i : Nat) : Word := ps.getD i 0
    decide (ps.length = 15 + bits (w 1) 4 4 + 4 * bits (w 12) 0 7 + bits (w 12) 8 8 + bits (w 13) 0 13)
  | _ => true

/-- Check 8: the parameter words, from the packet or from the staging area, and what reading them leaves. -/
def State.checkLength (s : State) (i : Die) (r : CmdRow) (c : HostCmd) : Except Turned HostCmd × State :=
  let fit (c : HostCmd) : Except Turned HostCmd := match r.n with
    | some n => if c.params.length = n then .ok c else .error (stBAD_LENGTH, 5 + n)
    | none => if lengthOk c.op c.params then .ok c else .error (stBAD_LENGTH, 0)
  if c.flags.testBit 1 then match s.indWords i c.params with
    | (.error t, s) => (.error t, s)
    | (.ok ws, s) => (fit { c with params := ws }, s)
  else if r.ind then (.error (stBAD_LENGTH, 9), s)
  else (fit c, s)

/-- Check 9: whether TARGET names something of an allowed class (R127, R230). -/
def State.targetOk (s : State) (r : CmdRow) (c : HostCmd) : Bool :=
  decide (bits c.target 9 7 = 0) && r.classes.contains c.cls &&
  (if c.cls ≤ 1 then decide (c.index = 0)
   else if c.cls = 8 then decide (c.index = 0) && decide (c.tdie = .d0)
   else unitHere c.tdie c.cls c.index && (decide (c.cls ≠ 4) || s.portExists c.tdie c.unit))

/-- The register block whose power domain a command needs, if any (R548). -/
def HostCmd.block (c : HostCmd) : Option Nat :=
  match c.cls with
  | 0 => none
  | 1 => if c.op = 0x0110 then none else if c.op = 0x0404 then some 34 else if c.op = 0x0402 then some 35 else some 0
  | 2 => some 10
  | 4 => some 35
  | 5 => some 35
  | 6 => some 38
  | 7 => some 39
  | 8 => some 40
  | 9 => some 37
  | 11 => some 9
  | _ => some 0

/-- Check 10: link up, the die running and its domain powered. -/
def State.reaches (s : State) (i : Die) (c : HostCmd) : Bool :=
  decide (c.cls = 0) ||
  ((decide (c.tdie = i) || s.linkUp) &&
    (decide (c.op = 0x0110) || (s.running c.tdie && (match c.block with | some b => blockAnswers b (s.powerEff c.tdie) | none => true))))

/-- The word number of the first condition that holds. -/
def firstParam : List (Bool × Nat) → Option Nat
  | [] => none
  | (bad, n) :: l => if bad then some n else firstParam l

/-- Check 13: the number of the first parameter word that can be nothing valid whatever the state. -/
def paramBad (c : HostCmd) : Option Nat :=
  let p (n : Nat) : Nat := (c.par n).toNat
  match c.op with
  | 0x0102 => firstParam [(decide (4 ≤ p 0), 0)]
  | 0x0103 => firstParam [(decide (8 < p 0 % 16), 0), (decide (p 0 % 16 = 8) && decide (p 1 % 2 = 1), 1), (decide (1024 < bits (c.par 3) 0 11), 3)]
  | 0x0110 => firstParam [(decide (4 < p 0 % 16), 0)]
  | 0x0111 => firstParam [(decide (1 < p 1), 1)]
  | 0x0112 => firstParam [(decide (0x2_0000 ≤ p 0), 0), (decide (1 < p 1), 1)]
  | 0x0200 => if p 0 % 128 = 0 ∨ 64 < p 0 % 128 then some 0
    else (takeItems (p 0 % 128) 1 (c.params.drop 1)).bind fun x => (x.1.find? fun i => !i.known).map fun i => i.at_ - 1
  | 0x0201 => firstParam [(decide (p 0 = 0) || decide (64 < p 0), 0)]
  | 0x0202 => firstParam [(decide (48 ≤ p 1 % 64) && decide (p 1 % 64 ≠ 0x3F), 1)]
  | 0x0205 => firstParam [(decide (1 < p 0), 0), (decide (100 < bits (c.par 1) 12 8) || decide (100 < bits (c.par 1) 4 8), 1), (decide (50 < p 2 % 256), 2)]
  | 0x0303 => firstParam [(decide (1_048_560 < p 0), 0)]
  | 0x0400 => firstParam [(decide (1 < p 0), 0)]
  | 0x0401 => firstParam [(if c.cls = 4 then decide (3 < p 0) else decide (p 0 < 4) || decide (7 < p 0), 0)]
  | 0x0402 => firstParam [(decide (2 < p 0), 0), (decide (1 < p 1), 1)]
  | 0x0404 => firstParam [(decide (4096 ≤ p 0), 0), (decide (1 < p 1), 1)]
  | 0x0405 => firstParam [(decide (p 0 = 1) || decide (65_535 < p 0), 0)]
  | 0x0501 => firstParam [(decide (1_000_000_000 ≤ p 2), 2)]
  | 0x0502 => firstParam [(decide ((c.par 0).toInt < -500_000) || decide (500_000 < (c.par 0).toInt), 0)]
  | 0x0503 => firstParam [(decide (4 < p 0), 0), (decide (127 < p 1 % 256), 1)]
  | 0x0601 => firstParam [(decide (1 < p 0), 0)]
  | 0x0602 => firstParam [(decide (7 < p 0), 0)]
  | 0x0700 => firstParam [(decide (p 1 = 0) || decide (15 < p 1), 1)]
  | 0x0800 => firstParam [(decide (1 < p 0), 0)]
  | 0x0901 => firstParam [(decide (1 < p 0), 0)]
  | 0x0A02 => firstParam [(decide (4096 ≤ p 0), 0)]
  | _ => none

/-- Opcodes that may be evaluated dry (R126). -/
def dryOk (op : Nat) : Bool := op = 0x0200 || op = 0x0202 || op = 0x0205

/-- Checks 9 to 14 of a command whose parameter words are at hand, on the die of its interpreter: a unit fenced turns every command away, but that
HLT_SERVICE acts by the unit's state (R570), and one under test all but the two that test it and return it. -/
def State.checkRest (s : State) (i : Die) (r : CmdRow) (c : HostCmd) (out : Nat) : Except Turned HostCmd :=
  let u := s.hunit c.tdie c.cls c.unit
  match firstTurned [
      (!s.targetOk r c, (stBAD_PARAM, 0)),
      (!s.reaches i c, (stDOMAIN_OFF, 0)),
      (decide (2 ≤ c.cls) && decide (c.op ≠ opSERVICE) && decide (u.st = 4), (stFENCED, 0)),
      (decide (2 ≤ c.cls) && decide (c.op ≠ opTEST) && decide (c.op ≠ opSERVICE) && decide (u.st = 1), (stUNDER_TEST, 0))] with
  | some t => .error t
  | none => match paramBad c with
    | some n => .error (stBAD_PARAM, n)
    | none => if 8 ≤ out then .error (stNO_RESOURCE, 0) else .ok c

/-- Checks 5 to 14 of a command that has passed checks 1 to 4: the command with its parameter words, or how it is turned away, and what reading
the words has left. -/
def State.checkCmd (s : State) (i : Die) (c : HostCmd) (out : Nat) : Except Turned HostCmd × State :=
  match cmdRow c.op with
  | none => (.error (stBAD_OPCODE, 0), s)
  | some r =>
    if 4 ≤ c.flags ∨ (c.flags.testBit 0 ∧ !dryOk c.op) then (.error (stBAD_PARAM, 0), s)
    else if r.sec ∧ 8 ≤ c.ch then (.error (stDENIED, 0), s)
    else match s.checkLength i r c with
      | (.error t, s) => (.error t, s)
      | (.ok c, s) => (s.checkRest i r c out, s)

/-! ## Checks 1 to 4 (R133 to R135, R138) -/

/-- A reply to a packet that has not passed checks 1 to 4: it changes nothing of the channel. -/
def State.turnPacket (s : State) (d : Die) (ch op : Nat) (tag : Word) (seq status detail : Nat) : State :=
  let pkt := replyPacket status true false false op detail seq (s.cmdEpoch (s.interpDie d)) tag []
  (s.statusEvent d status).sendPacket d ch (s.chan d ch).gen (s.chan d ch).ib pkt

/-- An event of the CMD block of an interpreter's die. -/
def State.cmdEvent (s : State) (i : Die) (n : Nat) : State := s.event i (R.CMD_EVENT i) n dblCMD

/-- The latest reply of a channel sent again with DUP = 1, if one has been sent (R133). -/
def State.resend (s : State) (d : Die) (ch : Nat) : State :=
  let k := s.chan d ch
  match k.lastReply with
  | [] => s
  | w :: t => s.sendPacket d ch k.gen k.ib (sealPacket ((w ||| 0x4_0000) :: t.dropLast))

/-- Check 4: a duplicate, a sequence error, or the next SEQ. -/
def State.seqCheck (s : State) (d : Die) (ch seq : Nat) (crc : Word) : Option Bool :=
  let last := s.fld (R.CMD_CH_STAT d ch) 16 16
  if seq = (last + 1) % 65_536 then none
  else some (decide (seq = last) && decide (crc = (s.chan d ch).lastCrc))

/-- OPEN of a channel (R134, R153). -/
def State.openChan (s : State) (d : Die) (ch : Nat) : State :=
  let s := s.setFlag (R.CMD_CH_STAT d ch) 15 true
  if 32 ≤ ch then s.setFlag (R.CMD_IB_ALLOW_HI d (ch - 32)) 30 true else s

/-- A command that has passed checks 1 to 4: it takes its SEQ and is checked further, then it waits in its queue (R138, R139, R142). -/
def State.takeCmd (s : State) (d : Die) (ch : Nat) (ws : List Word) : State :=
  let i := s.interpDie d
  let w (n : Nat) : Word := ws.getD n 0
  let k := s.chan d ch
  let q := s.interpOf i
  let out := s.fld (R.CMD_CH_STAT d ch) 0 4
  let c : HostCmd :=
    { die := d, ch := ch, gen := k.gen, op := bits (w 0) 0 16, flags := bits (w 0) 16 8, tag := w 1, target := w 2, seq := bits (w 3) 0 16,
      params := (ws.drop 4).dropLast, acc := q.accepted, time := (s.now i).total.toNat, ib := k.ib, taker := i }
  let s := ((s.setFld (R.CMD_CH_STAT d ch) 16 16 c.seq).setFld (R.CMD_CH_STAT d ch) 0 4 (out + 1)).setReg (R.CMD_CH_TAG d ch) c.tag
  let s := (s.setChan d ch { k with lastCrc := ws.getLastD 0, lastReply := [] }).setInterp i { q with accepted := q.accepted + 1 }
  match s.checkCmd i c out with
  | (.error (st, n), s) => s.finish c st n []
  | (.ok c, s) =>
    let s := if c.op = 0x0100 then s.openChan d ch else s
    let q := s.interpOf i
    match cmdRow c.op with
    | some r => if r.urgent then s.setInterp i { q with urgent := q.urgent ++ [c] } else s.setInterp i { q with normal := q.normal ++ [c] }
    | none => s

/-- A whole packet on a channel: checks 2 to 4. -/
def State.takePacket (s : State) (d : Die) (ch : Nat) (ws : List Word) : State :=
  let i := s.interpDie d
  let w (n : Nat) : Word := ws.getD n 0
  let op := bits (w 0) 0 16
  let seq := bits (w 3) 0 16
  let crc := ws.getLastD 0
  let s := s.count (R.CMD_CNT_RX i)
  let turn (s : State) (st n : Nat) : State := s.turnPacket d ch op (w 1) seq st n
  if crc ≠ wd (crc32c (wordBytes ws.dropLast)) then turn s stBAD_CRC 0
  else if op = 0x0100 then s.takeCmd d ch ws
  else if bits (w 3) 16 16 ≠ s.cmdEpoch i ∨ !s.flag (R.CMD_CH_STAT d ch) 15 then
    turn ((s.count (R.CMD_CNT_EPOCH i)).cmdEvent i 2) stFENCED 0xFFFE
  else match s.seqCheck d ch seq crc with
    | none => s.takeCmd d ch ws
    | some true => (s.count (R.CMD_CNT_DUP i)).resend d ch
    | some false => turn ((s.count (R.CMD_CNT_SEQ i)).cmdEvent i 1) stBAD_PARAM 0xFFFF

/-- A word of a message that may be too short to hold it: a free value then. -/
def State.wordOr (s : State) (ws : List Word) (n : Nat) : Word := match ws[n]? with | some w => w | none => s.freeNow

/-- Check 1: a packet whose LEN cannot be, or that is not complete, answered with TAG and SEQ as received. -/
def State.badLen (s : State) (d : Die) (ch : Nat) (ws : List Word) : State :=
  let i := s.interpDie d
  let tag := s.wordOr ws 1
  let s := s.drawn
  let seq := bits (s.wordOr ws 3) 0 16
  (s.drawn.count (R.CMD_CNT_RX i)).turnPacket d ch (bits (ws.headD 0) 0 16) tag seq stBAD_LENGTH 0

/-- Whether the interpreter of a die's channels is at work: both that die's agent and it. -/
def State.interpRuns (s : State) (d : Die) : Bool := s.running d && s.running (s.interpDie d)

/-- MAILBOX_MESSAGE_TAKEN: the die's agent takes a message: it starts or goes on with a packet (R129, R174). -/
def execMailboxMessageTaken (d : Die) (c : Fin 32) (s : State) : Host.Outcome State Fault Refusal :=
  let st := R.MBX_CH_STAT d c
  .next (if !s.flag st 0 ∨ !s.interpRuns d then s
    else
      let k := s.chan d c
      let ws := (List.range k.msgCount).map fun n => s.getReg (R.MBX_IN d c n)
      let s := s.setFlag st 0 false
      let all := k.part ++ ws
      let len := bits (all.headD 0) 24 8
      if all = [] then s
      else if k.part = [] ∧ len < 5 then s.badLen d c ws
      else if all.length < len then s.setChan d c { k with part := all, partTime := s.lin d }
      else (s.setChan d c { k with part := [] }).takePacket d c (all.take len))

/-- PACKET_INCOMPLETE_TIMEOUT: 10 ms after its last message a packet is still incomplete: discarded and answered (R129). -/
def execPacketIncompleteTimeout (d : Die) (c : Fin 32) (s : State) : Host.Outcome State Fault Refusal :=
  let k := s.chan d c
  .next (if k.part = [] ∨ !s.interpRuns d then s else (s.setChan d c { k with part := [] }).badLen d c k.part)

/-! ## In-band frames (R144, R145) -/

/-- The entry of CMD_IB_ALLOW that holds a source address. -/
def State.ibEntry (s : State) (d : Die) (src : Nat) : Option Nat :=
  firstIdx 8 fun k => s.flag (R.CMD_IB_ALLOW_HI d k) 31 && decide (s.macReg (R.CMD_IB_ALLOW_LO d k) (R.CMD_IB_ALLOW_HI d k) = src)

/-- A frame dropped without a reply. -/
def State.ibDrop (s : State) (d : Die) : State := (s.count (R.CMD_CNT_IBDROP d)).cmdEvent d 3

/-- INBAND_COMMAND_FRAME: a frame that entered by `port` reaches the management port of a die (R144, R145, R223).  The rate is counted
over the milliseconds of the die's device time, each beginning with none (DESIGN CHOICE, log entry 93). -/
def execInbandCommandFrame (d : Die) (port : PortAt) (bytes : List Byte) (s : State) : Host.Outcome State Fault Refusal :=
  let o := etOff bytes + 2
  let p := bytes.drop (o + 4)
  let ws := bytesWords (p.take (p.length / 4 * 4))
  .next (if !s.interpRuns d ∨ !s.flag (R.CMD_IB_MAC_HI d) 31 ∨ macAt bytes 0 ≠ s.macReg (R.CMD_IB_MAC_LO d) (R.CMD_IB_MAC_HI d) ∨
      etype bytes ≠ 0x88B5 then s
    else match s.ibEntry d (macAt bytes 6) with
      | none => s.ibDrop d
      | some k =>
        let q := s.interpOf d
        let ms := s.lin d / 1_000_000
        let seen := if q.ibMs = ms then q.ibSeen else []
        if byteAt bytes o ≠ 1 ∨ byteAt bytes (o + 1) ≠ 1 ∨ beAt bytes (o + 2) 2 ≠ 0 then s.ibDrop d
        else if s.fld (R.CMD_IB_RATE d) 0 11 ≤ (seen.filter fun x => x = k).length then s.ibDrop d
        else
          let ch := 32 + k
          let s := s.setInterp d { q with ibMs := ms, ibSeen := k :: seen }
          let s := s.setChan d ch { s.chan d ch with ib := { die := port.die, port := port.port, src := macAt bytes 6 } }
          let len := bits (ws.headD 0) 24 8
          if len < 5 ∨ ws.length < len then s.badLen d ch ws else s.takePacket d ch (ws.take len))

/-! ## The queues (R140, R142) -/

/-- The commands of a queue that their interpreter may execute: while the link is down those of its own die's channels alone (R137). -/
def Interp.own (q : Interp) (i : Die) (link : Bool) : Interp :=
  if link then q
  else { q with urgent := q.urgent.filter fun c => decide (c.die = i), normal := q.normal.filter fun c => decide (c.die = i) }

/-- The command executed next: an urgent one, unless its channel has an earlier normal one waiting; else the oldest normal one. -/
def Interp.nextCmd (q : Interp) : Option HostCmd :=
  match q.urgent.find? fun u => !q.normal.any fun n => decide (n.die = u.die) && n.ch = u.ch && decide (n.acc < u.acc) with
  | some u => some u
  | none => q.normal.head?

/-- The interpreter of a die executes its next command when that has the opcode; a target no longer reachable ends it (R141). -/
def State.cmdRun (s : State) (d : Die) (op : Nat) (f : HostCmd → State → State) : State :=
  if !s.running d ∨ s.interpDie d ≠ d then s
  else
    let q := s.interpOf d
    match (q.own d s.linkUp).nextCmd with
    | none => s
    | some c =>
      if c.op ≠ op then s
      else
        let s := s.setInterp d { q with urgent := q.urgent.erase c, normal := q.normal.erase c }
        if !s.reaches d c then s.finish c stDOMAIN_OFF 0 [] else f c s

/-- An asynchronous command executed: accepted, then carried out. -/
def State.cmdStart (s : State) (d : Die) (op : Nat) (f : HostCmd → State → State) : State :=
  s.cmdRun d op fun c s => f c (s.accept c)

/-- The accepted command of a channel with a SEQ. -/
def State.asyncOf (s : State) (d : Die) (ch seq : Nat) : Option HostCmd :=
  s.asyncCmds.find? fun c => decide (c.die = d) && c.ch = ch && c.seq = seq

/-- COMMAND_TIMEOUT: the bound of an accepted command expires (R139); a claim that the master has refused ends with NO_RESOURCE (R270). -/
def execCommandTimeout (d : Die) (c : Fin 40) (seq : Nat) (s : State) : Host.Outcome State Fault Refusal :=
  .next (match s.asyncOf d c seq with
    | none => s
    | some k =>
      if k.op ≠ 0x0A01 then s.complete k stTIMEOUT 0 []
      else
        let nak := (s.ringOf k.tdie).nak
        let s := (s.setFlag (R.TFR_CLAIM k.tdie) 31 false).setRing k.tdie { s.ringOf k.tdie with nak := false }
        if nak then s.complete k stNO_RESOURCE 1 [] else s.complete k stTIMEOUT 0 [])

/-! ## Barrier (R143) -/

/-- The time triple of a command's acceptance. -/
def HostCmd.triple (c : HostCmd) : List Word := (timeOfFrac c.time 0).triple

/-- Doorbells kept for the receivers of a die set there (R179). -/
def State.dblCarry (s : State) (d : Die) : State :=
  (List.range 4).foldl (fun s r =>
    let m := Tab.get (fun _ => (0 : Word)) s.dblRemote (rcvKey d r)
    ({ s with dblRemote := Tab.put (fun _ => 0) s.dblRemote (rcvKey d r) 0 }).dblSet d r m) s

/-- Whether every command accepted before a barrier has sent its final reply; while the link is down a barrier covers the channels of its
interpreter's own die (R143). -/
def State.settled (s : State) (d : Die) (c : HostCmd) : Bool :=
  let q (d : Die) : List HostCmd := (s.interpOf d).urgent ++ (s.interpOf d).normal ++ (s.interpOf d).async
  if s.linkUp then !((q .d0 ++ q .d1).any fun x => decide (x.acc < c.acc))
  else !((q d).any fun x => decide (x.die = d) && decide (x.acc < c.acc))

/-- Whether the commands a barrier waits for have ended. -/
def State.barrierMet (s : State) (d : Die) (c : HostCmd) : Bool := !bit (c.par 0) 1 || s.settled d c

/-- DEV_BARRIER: other bits than [1:0] are refused by check 13. -/
def execDevBarrier (d : Die) (s : State) : Host.Outcome State Fault Refusal := .next (s.cmdStart d 0x0102 fun _ s => s)

/-- BARRIER_COMPLETE: the conditions of a barrier hold, the oldest such: earlier commands have ended, earlier doorbells have been carried over. -/
def execBarrierComplete (d : Die) (s : State) : Host.Outcome State Fault Refusal :=
  .next (match (s.interpOf d).async.find? fun c => c.op = 0x0102 && s.barrierMet d c with
    | none => s
    | some c =>
      if !s.linkUp then s.complete c stDOMAIN_OFF 0 []
      else (if bit (c.par 0) 0 then (s.dblCarry .d0).dblCarry .d1 else s).complete c stOK 0 c.triple)

end Sys2Proof.Machine
end

