-- ==== Sys2Proof/Machine/Commands.lean ====
section
/-! DEFINITION. The host's commands for the device, power, placement, images, ports, time, health, the log, resets and field I/O
(R143, R147 to R152). -/

namespace Sys2Proof.Machine

/-! ## Answers -/

/-- How a command is turned away once executed: status, DETAIL, reply words. -/
abbrev Refused := Nat × Nat × List Word

/-- A parameter refused. -/
def badWord (n : Nat) : Option Refused := some (stBAD_PARAM, n, [])

/-- The first refusal of a list of conditions. -/
def firstRefused : List (Bool × Refused) → Option Refused
  | [] => none
  | (bad, r) :: l => if bad then some r else firstRefused l

/-- A synchronous command answered: turned away, or executed with its reply words (R139). -/
def State.answerNow (s : State) (c : HostCmd) (bad : Option Refused) (t : State) (ws : List Word) : State :=
  match bad with
  | some (st, n, w) => s.finish c st n w
  | none => t.finish c stOK 0 ws

/-- An asynchronous command turned away at once, or accepted; `t` carries it on. -/
def State.acceptOr (s : State) (c : HostCmd) (bad : Option Refused) (t : State → State) : State :=
  match bad with
  | some (st, n, w) => s.finish c st n w
  | none => t (s.accept c)

/-- A rejection record whose demand and free amount are not stated: free values (R104). -/
def State.openRecord (s : State) (code : Nat) (d : Die) (idx : Nat) : List Word :=
  [wd (code + d.idx * 0x100 + idx * 0x1_0000), 0, s.freeNow, s.drawn.freeNow]

/-! ## Device and power (R135, R497, R511) -/

/-- DEV_HELLO: the channel was opened at its acceptance; identity, versions and the staging area (R131, R135). -/
def execDevHello (d : Die) (s : State) : Host.Outcome State Fault Refusal :=
  .next (s.cmdRun d 0x0100 fun c s =>
    let run := if s.flag (R.RST_STAT .d0) 7 then s.flash.copyB else s.flash.copyA
    let ready (e : Die) (n : Nat) : Nat := if s.running e then n else 0
    let base := s.stagingBase c.die
    s.finish c stOK 0 [wd (s.cmdEpoch d + c.ch * 0x1_0000 + ready .d0 0x100_0000 + ready .d1 0x200_0000), s.getReg (R.SYS_ID c.die),
      wd (undercoatVersion run), wd base, wd (base / 0x1_0000_0000 % 256 + 1024 * 0x1_0000)])

/-- DEV_STATUS. -/
def execDevStatus (d : Die) (s : State) : Host.Outcome State Fault Refusal :=
  .next (s.cmdRun d 0x0101 fun c s =>
    s.finish c stOK 0 [wd (s.power .d0 + s.power .d1 * 16 + if s.linkUp then 256 else 0), s.getReg (R.SYS_DLY_STAT c.die)])

/-- In-band settings of a die: an allowed source or the die's own address, and the rate; the channel of an entry stays open with its LAST_SEQ when
its source address changes (R144, R145, R153; DESIGN CHOICE, log entry 93). -/
def State.ibSet (s : State) (d : Die) (c : HostCmd) : State :=
  let k := bits (c.par 0) 0 4
  let hi := wd (bits (c.par 2) 0 16)
  let s := if k = 8 then ((s.setReg (R.CMD_IB_MAC_LO d) (c.par 1)).setReg (R.CMD_IB_MAC_HI d) hi).setFlag (R.CMD_IB_MAC_HI d) 31 (bit (c.par 0) 31)
    else
      let a := R.CMD_IB_ALLOW_HI d k
      let was := s.flag a 30
      (((s.setReg (R.CMD_IB_ALLOW_LO d k) (c.par 1)).setReg a hi).setFlag a 31 (bit (c.par 0) 31)).setFlag a 30 was
  if bits (c.par 3) 0 11 = 0 then s else s.setFld (R.CMD_IB_RATE d) 0 11 (bits (c.par 3) 0 11)

/-- DEV_IB_SET. -/
def execDevIbSet (d : Die) (s : State) : Host.Outcome State Fault Refusal :=
  .next (s.cmdRun d 0x0103 fun c s => (((s.dies c).foldl (fun s e => s.ibSet e c) s).cfgTouch).finish c stOK 0 [])

/-- PWR_STATE: accepted, then judged and begun (R497). -/
def execPwrState (d : Die) (s : State) : Host.Outcome State Fault Refusal := .next (s.cmdStart d 0x0110 fun c s => s.pwrGo c)

/-- The die whose pending proposal a PWR_MARGIN names. -/
def State.proposalDie (s : State) (c : HostCmd) : Option Die :=
  if c.par 0 = 0 then none else (s.dies c).find? fun e => wd (s.fld (R.PWR_PROP e) 16 16) = c.par 0

/-- A proposal declined, which rests its reason for 24 h, or approved, which moves VCORE there (R500, R511). -/
def State.marginAct (s : State) (e : Die) (c : HostCmd) : State :=
  let p := s.pwrOf e
  let mv := s.fld (R.PWR_PROP e) 0 10
  let reason := s.fld (R.PWR_PROP e) 12 4
  let s := s.setReg (R.PWR_PROP e) 0
  if !bit (c.par 1) 0 then
    (s.setPwr e { p with declined := (p.declined.filter fun x => x.1 ≠ reason) ++ [(reason, s.lin e + 86_400_000_000_000)] }).complete c stOK 0 [wd p.mv]
  else if p.mv = mv then (s.setFld (R.PWR_VCORE e) 16 10 mv).complete c stOK 0 [wd mv]
  else (s.setFld (R.PWR_VCORE e) 16 10 mv).setPwr e { p with margin := some c }

/-- PWR_MARGIN. -/
def execPwrMargin (d : Die) (s : State) : Host.Outcome State Fault Refusal :=
  .next (s.cmdRun d 0x0111 fun c s =>
    match s.proposalDie c with
    | none => s.finish c stBAD_PARAM 0 []
    | some e => (s.accept c).marginAct e c)

/-- POOL_RETAIN (R63, R65). -/
def execPoolRetain (d : Die) (s : State) : Host.Outcome State Fault Refusal := .next (s.cmdStart d 0x0112 fun c s => s.retainStep c)

/-! ## Placement (R87, R101 to R124) -/

/-- A placement command queued at the planner as an event of its acceptance's device time (R87, R116). -/
def State.planCmd (s : State) (d : Die) (op : Nat) : State := s.cmdStart d op fun c s => s.plan d (.command c)

/-- PLC_ADMIT (R101). -/
def execPlcAdmit (d : Die) (s : State) : Host.Outcome State Fault Refusal := .next (s.planCmd d 0x0200)

/-- PLC_RELEASE (R106). -/
def execPlcRelease (d : Die) (s : State) : Host.Outcome State Fault Refusal := .next (s.planCmd d 0x0201)

/-- PLC_MIGRATE (R109, R117). -/
def execPlcMigrate (d : Die) (s : State) : Host.Outcome State Fault Refusal := .next (s.planCmd d 0x0202)

/-- PLC_REPLACE (R115). -/
def execPlcReplace (d : Die) (s : State) : Host.Outcome State Fault Refusal := .next (s.planCmd d 0x0204)

/-- PLC_RESERVE (R95). -/
def execPlcReserve (d : Die) (s : State) : Host.Outcome State Fault Refusal := .next (s.planCmd d 0x0205)

/-- PLC_FORECAST (R122). -/
def execPlcForecast (d : Die) (s : State) : Host.Outcome State Fault Refusal := .next (s.planCmd d 0x0208)

/-- PLC_PIN (R105, R114, R117): a placement that is LIVE or PINNED takes the state asked for; a migration's outcome takes it at its end. -/
def execPlcPin (d : Die) (s : State) : Host.Outcome State Fault Refusal :=
  .next (s.cmdRun d 0x0203 fun c s =>
    let h := (c.par 0).toNat
    let i := s.intent h
    let pin := bit (c.par 1) 0
    let cur := i.cur.map fun p => if p.st = 4 ∨ p.st = 5 then { p with st := if pin then 5 else 4 } else p
    s.answerNow c (if s.handleHeld h then none else badWord 0)
      (((s.setIntent h { i with pinned := pin, pinFault := bit (c.par 1) 1, cur := cur }).cfgTouch).republish d) [])

/-- PLC_QUERY (R89, R117). -/
def execPlcQuery (d : Die) (s : State) : Host.Outcome State Fault Refusal :=
  .next (s.cmdRun d 0x0206 fun c s =>
    let h := (c.par 0).toNat
    s.answerNow c (if s.handleHeld h then none else badWord 0) s (s.qryWords h))

/-- Resource indexes of a budget (R104). -/
def budgetCount (code : Nat) (d : Die) : Option (Nat × Nat) :=
  match code with
  | 1 => some (d.idx * 24, 24)
  | 2 => some (0, 1)
  | 3 => some (0, 13)
  | 4 => some (0, 272)
  | 5 => some (0, 16)
  | 6 => some (0, 16)
  | 7 => some (0, 2)
  | 8 => some (0, 1)
  | 9 => some (0, 1)
  | 10 => some (0, 1)
  | 11 => some (0, 64)
  | 12 => some (0, 65_536)
  | _ => none

/-- The unit numbers of a die under budget 0x0B: CAN controller n, or 32 + n for STNn (R104). -/
def ownerIdx (d : Die) (idx : Nat) : Bool := if idx < 32 then decide (idx / 4 = d.idx) else decide ((idx - 32) / 16 = d.idx)

/-- The ledger figures of a resource: capacity, reserve, standing, committed and free (R94); those of the engine test and of deadlines are
not stated: free values. -/
def State.ledgerWords (s : State) (code : Nat) (d : Die) (idx : Nat) : List Word :=
  if code = 1 ∨ code = 12 then (List.range 5).map fun n => Config.freeValue (s.fresh + n)
  else
    let cap := s.capacity code d idx
    [wd cap, wd (s.reserveAmt code d + roundTo (cap * s.reservePct code d) 100), wd (s.standing code d idx), wd (s.committed code d idx),
      wd (s.freeOf code d idx false)]

/-- PLC_LEDGER (R94, R104). -/
def execPlcLedger (d : Die) (s : State) : Host.Outcome State Fault Refusal :=
  .next (s.cmdRun d 0x0207 fun c s =>
    let code := bits (c.par 0) 0 8
    let e := dieOf (bits (c.par 0) 8 1)
    let idx := bits (c.par 0) 16 16
    match budgetCount code e with
    | none => s.finish c stBAD_PARAM 0 []
    | some (lo, n) =>
      if idx < lo ∨ lo + n ≤ idx ∨ (code = 11 ∧ !ownerIdx e idx) ∨ bits (c.par 0) 9 7 ≠ 0 then s.finish c stBAD_PARAM 0 []
      else ({ s with fresh := s.fresh + 5 }).finish c stOK 0 (s.ledgerWords code e (if code = 1 then idx - lo else idx)))

/-! ## Images (R149, R150, R390) -/

/-- Whether the interpreter of a command reaches the flash, which is Die 0's. -/
def State.flashOff (s : State) (c : HostCmd) : Bool := !s.linkUp && decide (s.interpDie c.die ≠ .d0)

/-- Lowest free image number. -/
def State.freeImage (s : State) : Option Nat := (List.range' 1 255).find? fun n => !s.hasImage n

/-- What speaks against an IMG_INSTALL before its image is looked at. -/
def State.installBad (s : State) (c : HostCmd) : Option Refused :=
  firstRefused [(s.flashOff c, (stDOMAIN_OFF, 0, [])),
    (decide (255 < (c.par 0).toNat) || (decide (c.par 0 ≠ 0) && s.hasImage (c.par 0).toNat), (stBAD_PARAM, 0, []))]

/-- IMG_INSTALL: verified, then installed under the number asked for or the lowest free one (R390). -/
def State.installWork (s : State) (c : HostCmd) : State :=
  let bs := (wordBytes (c.params.drop 2)).take (c.par 1).toNat
  let n := if c.par 0 = 0 then s.freeImage.getD 0 else (c.par 0).toNat
  match s.installBad c with
  | some (st, k, ws) => s.complete c st k ws
  | none =>
    if !imageOk bs (c.par 1).toNat then s.complete c stDENIED 0 []
    else if n = 0 then s.complete c stNO_RESOURCE 1 []
    else if 16_777_216 < s.storeUsed + bs.length then s.complete c stNO_RESOURCE 0 []
    else (({ s with images := Tab.put (fun _ => []) s.images n bs }).logEv (s.interpDie c.die) 0x301 1 0 0 n).complete c stOK 0 [wd n]

/-- IMG_INSTALL. -/
def execImgInstall (d : Die) (s : State) : Host.Outcome State Fault Refusal :=
  .next (s.cmdRun d 0x0300 fun c s => s.acceptOr c (s.installBad c) id)

/-- What speaks against an IMG_REMOVE: no such image, or an intent that uses it. -/
def State.removeBad (s : State) (c : HostCmd) : Option Refused :=
  let n := (c.par 0).toNat
  firstRefused [(s.flashOff c, (stDOMAIN_OFF, 0, [])),
    (!s.hasImage n || s.heldIntents.any fun i => !i.isFlow && i.imageNo = n, (stBAD_PARAM, 0, []))]

/-- IMG_REMOVE. -/
def State.removeWork (s : State) (c : HostCmd) : State :=
  let n := (c.par 0).toNat
  match s.removeBad c with
  | some (st, k, ws) => s.complete c st k ws
  | none => (({ s with images := Tab.put (fun _ => []) s.images n [] }).logEv (s.interpDie c.die) 0x302 1 0 0 n).complete c stOK 0 []

/-- IMG_REMOVE. -/
def execImgRemove (d : Die) (s : State) : Host.Outcome State Fault Refusal :=
  .next (s.cmdRun d 0x0301 fun c s => s.acceptOr c (s.removeBad c) id)

/-- IMG_LIST: the images from a number on, up to 32. -/
def execImgList (d : Die) (s : State) : Host.Outcome State Fault Refusal :=
  .next (s.cmdRun d 0x0302 fun c s =>
    let l := ((List.range' 1 255).filter fun n => s.hasImage n && decide ((c.par 0).toNat ≤ n)).take 32
    s.answerNow c (if s.flashOff c then some (stDOMAIN_OFF, 0, []) else none) s
      (wd l.length :: l.flatMap fun n => [wd n, wd (imgVersion (s.image n))]))

/-- IMG_UNDERCOAT: the image verified and written to the copy that does not run, which the boot header then selects on trial (R149, R488). -/
def State.undercoatWork (s : State) (c : HostCmd) : State :=
  let bs := (wordBytes (c.params.drop 1)).take (c.par 0).toNat
  let b := !s.flag (R.RST_STAT .d0) 7
  if s.flashOff c then s.complete c stDOMAIN_OFF 0 []
  else if !undercoatOk bs (c.par 0).toNat then s.complete c stDENIED 0 []
  else
    let f := if b then { s.flash with copyB := bs } else { s.flash with copyA := bs }
    ({ s with flash := { f with bootB := b, trial := true, tried := false, wd := 0, fell := false } }).complete c stOK 0 [if b then 1 else 0]

/-- IMG_UNDERCOAT. -/
def execImgUndercoat (d : Die) (s : State) : Host.Outcome State Fault Refusal :=
  .next (s.cmdRun d 0x0303 fun c s => s.acceptOr c (if s.flashOff c then some (stDOMAIN_OFF, 0, []) else none) id)

/-! ## Ports (R20, R214, R221, R222, R229, R247) -/

/-- PORT_ADMIT: a port that goes down is flushed and its placements are handled as faults (R116, R222). -/
def State.portAdmit (s : State) (d : Die) (m : Nat) (up : Bool) : State :=
  let was := s.flag (R.SW_PORT_CFG d m) 31
  if was = up then s else
  let s := ((s.setFlag (R.SW_PORT_CFG d m) 31 up).setFlag (R.MAC_PORT_MODE d m) 9 up).cfgTouch
  if up then s.pgShow d else (s.portFlush d m).plan d (.portDown m)

/-- PORT_ADMIT. -/
def execPortAdmit (d : Die) (s : State) : Host.Outcome State Fault Refusal :=
  .next (s.cmdRun d 0x0400 fun c s => (s.portAdmit c.tdie c.mac (bit (c.par 0) 0)).finish c stOK 0 [])

/-- Line rate in Mb/s that a PORT_MODE mode reaches. -/
def modeRate (mode : Nat) : Nat :=
  match mode with
  | 1 => 10
  | 2 => 100
  | 4 => 10_000
  | 5 => 25_000
  | 6 => 25_000
  | 7 => 10_000
  | _ => 1_000

/-- What speaks against a PORT_MODE: a committed rate above the new line rate. -/
def State.modeBad (s : State) (c : HostCmd) : Option Refused :=
  let d := c.tdie
  let m := c.mac
  let r := modeRate (c.par 0).toNat
  firstRefused [(decide (r < s.fld (R.PLC_SWTX d m) 0 17), (stOVERCOMMIT, 0, s.openRecord 5 d m)),
    (decide (r < s.fld (R.PLC_SWRX d m) 0 17), (stOVERCOMMIT, 0, s.openRecord 6 d m))]

/-- PORT_MODE: the port goes down before it takes its new mode (R229). -/
def State.modeWork (s : State) (c : HostCmd) : State :=
  let d := c.tdie
  let m := c.mac
  match s.modeBad c with
  | some (st, k, ws) => s.drawn.drawn.complete c st k ws
  | none =>
    let s := s.macDown d m
    let s := (s.setFld (R.MAC_PORT_MODE d m) 0 3 ((c.par 0).toNat % 4)).setFld (R.MAC_PORT_MODE d m) 10 2 0
    s.cfgTouch.complete c stOK 0 []

/-- PORT_MODE. -/
def execPortMode (d : Die) (s : State) : Host.Outcome State Fault Refusal :=
  .next (s.cmdRun d 0x0401 fun c s => match s.modeBad c with
    | some (st, k, ws) => s.drawn.drawn.finish c st k ws
    | none => s.accept c)

/-- What speaks against a PORT_LANE: a placement on a port that would cease to exist (R20). -/
def State.laneBad (s : State) (c : HostCmd) : Option Refused :=
  let d := c.tdie
  let l := (c.par 0).toNat
  if c.par 1 = 0 then none
  else match [1, 2, 3].find? fun k => (s.holders d 4 (4 * l + k)).flows ≠ [] with
    | some k => some (stOVERCOMMIT, 0, s.openRecord 5 d (4 * l + k))
    | none => none

/-- PORT_LANE: the lane's ports go down, then it takes its mode (R20, R229). -/
def State.laneWork (s : State) (c : HostCmd) : State :=
  let d := c.tdie
  let l := (c.par 0).toNat
  match s.laneBad c with
  | some (st, k, ws) => s.drawn.drawn.complete c st k ws
  | none =>
    let s := (List.range 4).foldl (fun s k => s.macDown d (4 * l + k)) s
    ((s.setFlag (R.MAC_LANE d l) 0 (bit (c.par 1) 0)).cfgTouch).complete c stOK 0 []

/-- PORT_LANE. -/
def execPortLane (d : Die) (s : State) : Host.Outcome State Fault Refusal :=
  .next (s.cmdRun d 0x0402 fun c s => match s.laneBad c with
    | some (st, k, ws) => s.drawn.drawn.finish c st k ws
    | none => s.accept c)

/-- PORT_COUNTERS: the port's 20 counter registers in order, without clearing them. -/
def execPortCounters (d : Die) (s : State) : Host.Outcome State Fault Refusal :=
  .next (s.cmdRun d 0x0403 fun c s =>
    s.finish c stOK 0 ((List.range 20).map fun i => s.getReg (R.blk c.tdie 35 + 0x1000 + 0x100 * c.mac + 0x60 + 4 * i)))

/-- A stream entry's gate (R214, R215). -/
def State.sidGate (s : State) (d : Die) (n : Nat) (closed : Bool) : State :=
  let ws := Tab.get (fun _ => []) s.sid (sidKey d n)
  let w := setBits (ws.getD 0 0) 6 1 (if closed then 1 else 0)
  let ws := if ws = [] then (if w = 0 then [] else w :: List.replicate 7 0) else w :: ws.drop 1
  { s with sid := Tab.put (fun _ => []) s.sid (sidKey d n) ws }

/-- STREAM_GATE. -/
def execStreamGate (d : Die) (s : State) : Host.Outcome State Fault Refusal :=
  .next (s.cmdRun d 0x0404 fun c s => (s.sidGate c.tdie (c.par 0).toNat (bit (c.par 1) 0)).finish c stOK 0 [])

/-- PORT_SAMPLE: the count restarts (R221). -/
def execPortSample (d : Die) (s : State) : Host.Outcome State Fault Refusal :=
  .next (s.cmdRun d 0x0405 fun c s =>
    let k := swKey c.tdie c.mac
    let old := Tab.get (fun _ => (0, 0)) s.smp k
    (({ s with smp := Tab.put (fun _ => (0, 0)) s.smp k (0, old.2) }).setFld (R.SW_SMP c.tdie c.mac) 0 16 (c.par 0).toNat).finish c stOK 0 [])

/-! ## Time (R275, R293 to R296, R304 to R306) -/

/-- TIME_GET. -/
def execTimeGet (d : Die) (s : State) : Host.Outcome State Fault Refusal :=
  .next (s.cmdRun d 0x0500 fun c s =>
    (s.snapTake (.sup (s.interpDie c.die) 0) c.tdie).finish c stOK 0 ((s.now c.tdie).triple ++ [if s.flag (R.SYS_DLY_STAT c.tdie) 8 then 1 else 0]))

/-- Whether another source than the host steers a die. -/
def State.steered (s : State) (d : Die) : Bool := decide (s.fld (R.TB_STAT d) 0 3 ≠ 0)

/-- TIME_SET: a step to the triple given (R294, R296). -/
def execTimeSet (d : Die) (s : State) : Host.Outcome State Fault Refusal :=
  .next (s.cmdRun d 0x0501 fun c s =>
    let e := c.tdie
    let new : DevTime :=
      { sec := (c.par 0).toNat + bits (c.par 1) 0 16 * 0x1_0000_0000, ns := (c.par 2).toNat, frac := bits (c.par 1) 16 16 * 0x1_0000, slew := 0 }
    s.answerNow c (if s.steered e then badWord 0 else none) ((s.endHoldover e).stepTime e new) [])

/-- TIME_ADJ: the rate, and an offset added to the remaining slew (R291, R295). -/
def execTimeAdj (d : Die) (s : State) : Host.Outcome State Fault Refusal :=
  .next (s.cmdRun d 0x0502 fun c s =>
    let e := c.tdie
    s.answerNow c (if s.steered e then badWord 0 else none)
      (((s.setReg (R.TB_RATE e) (c.par 0)).endHoldover e).setSlew e ((s.now e).slew + (c.par 1).toInt * oneNs)) [])

/-- Roles that need a clock instance. -/
def clockRole (r : Nat) : Bool := r = 1 || r = 2 || r = 4

/-- What speaks against a TIME_ROLE: no clock instance on the port, a ring that steers the die, a fifth domain (R275, R304, R305). -/
def State.roleBad (s : State) (c : HostCmd) : Option Refused :=
  let d := c.tdie
  let m := c.mac
  let r := (c.par 0).toNat
  let dom := bits (c.par 1) 0 8
  let doms := (((List.range 14).filter fun k => k ≠ m && decide (s.fld (R.TB_PTC d k) 0 3 ≠ 0)).map fun k => s.fld (R.TB_PTC d k) 8 8).eraseDups
  firstRefused [
    (clockRole r && ((s.clockInst d m).isNone || s.fld (R.TB_STAT (if s.linkUp then .d0 else d)) 0 3 = 1), (stBAD_PARAM, 0, [])),
    (decide (r ≠ 0) && !doms.contains dom && decide (4 ≤ doms.length), (stBAD_PARAM, 1, []))]

/-- TIME_ROLE: the port's role; the first clock role makes its domain the steering one, the end of the last frees it (R305, R306). -/
def State.roleWork (s : State) (c : HostCmd) : State :=
  let r := (c.par 0).toNat
  let dom := bits (c.par 1) 0 8
  match s.roleBad c with
  | some (st, k, ws) => s.complete c st k ws
  | none =>
    let s := s.setReg (R.TB_PTC c.tdie c.mac) (wd (dom * 256 + r))
    let s := if clockRole r ∧ !s.steerSet then
        ({ s with steerSet := true }.setFld (R.TB_STAT .d0) 8 8 dom).setFld (R.TB_STAT .d1) 8 8 dom
      else s
    let held (e : Die) : Bool := (List.range 14).any fun k =>
      clockRole (s.fld (R.TB_PTC e k) 0 3) && decide (s.fld (R.TB_PTC e k) 8 8 = s.fld (R.TB_STAT e) 8 8)
    let s := { s with steerSet := s.steerSet && (held .d0 || held .d1) }
    s.clockRefresh.cfgTouch.complete c stOK 0 []

/-- TIME_ROLE. -/
def execTimeRole (d : Die) (s : State) : Host.Outcome State Fault Refusal :=
  .next (s.cmdRun d 0x0503 fun c s => s.acceptOr c (s.roleBad c) id)

/-! ## Health and test (R513, R514, R570) -/

/-- Whether a pair holds a primary role (R514). -/
def State.rolePair (s : State) (c : HostCmd) : Bool := decide (c.cls = 3) && decide (s.fld (R.SPR_STAT c.tdie c.unit) 4 2 ≠ 0)

/-- Whether another HLT_TEST or return test of a unit waits, or it is under test. -/
def State.testAhead (s : State) (c : HostCmd) : Bool :=
  decide ((s.hunit c.tdie c.cls c.unit).st = 1) || s.testingUnit c.tdie c.cls c.unit ||
  (s.waitingTests c.tdie).any fun q => decide (q ≠ c) && q.cls = c.cls && q.unit = c.unit

/-- HLT_TEST: it waits for its turn on its die, and starts at once where it is the first and no test runs (R514, R570). -/
def execHltTest (d : Die) (s : State) : Host.Outcome State Fault Refusal :=
  .next (s.cmdRun d 0x0600 fun c s =>
    if s.rolePair c then s.finish c stBAD_PARAM 0 []
    else
      let s := s.accept c
      if s.testAhead c then s.complete c stUNDER_TEST 0 [] else s)

/-- HLT_SERVICE: acted on by the unit's state; a unit in service is vacated first (R475, R513, R570). -/
def execHltService (d : Die) (s : State) : Host.Outcome State Fault Refusal :=
  .next (s.cmdRun d 0x0601 fun c s =>
    let u := s.hunit c.tdie c.cls c.unit
    let out := !bit (c.par 0) 0 && decide (u.st = 0)
    if out && s.rolePair c then s.finish c stBAD_PARAM 0 []
    else
      let s := s.accept c
      if out && !s.vacated c.tdie c.cls c.unit then s.plan c.tdie (.test c.cls c.unit) else s.serviceAct c)

/-- HLT_FREQ: certified and current frequency of a domain, and the pending proposal (R504). -/
def execHltFreq (d : Die) (s : State) : Host.Outcome State Fault Refusal :=
  .next (s.cmdRun d 0x0602 fun c s =>
    let a := R.CLK_DOM c.tdie (c.par 0).toNat
    s.finish c stOK 0 [wd (s.fld a 0 10), wd (s.fld a 16 10), wd (s.fld (R.PWR_PROP c.tdie) 16 16)])

/-! ## The event log (R524 to R528) -/

/-- The words of entry `n` of a die's log, from its primary copy, or from the mirror while that has failed. -/
def State.logEntry (s : State) (d : Die) (n : Nat) : List Word :=
  s.words (if (s.logOf d).primOk then logSlot d n else logMirSlot s d n) 4

/-- LOG_READ (R526, R528). -/
def execLogRead (d : Die) (s : State) : Host.Outcome State Fault Refusal :=
  .next (s.cmdRun d 0x0700 fun c s =>
    let e := c.tdie
    let m := 0x1_0000_0000
    let head := (s.getReg (R.LOG_HEAD e)).toNat
    let old := (s.getReg (R.LOG_OLDEST e)).toNat
    let first := (c.par 0).toNat
    let dist := (first + m - head) % m
    let held := (head + m - old) % m
    let back := (head + m - first) % m
    let start := if held < back then old else first
    let k := if dist = 0 then 0 else min (c.par 1).toNat (min held back)
    if !(s.logOf e).primOk ∧ !s.mirReach e then s.finish c stOK 0 [0, wd head]
    else s.answerNow c (if 0 < dist ∧ dist < 0x8000_0000 then badWord 0 else none) s
      ([wd k, wd (start + k)] ++ (List.range k).flatMap fun i => s.logEntry e ((start + i) % m)))

/-- LOG_MARK (R521, R524). -/
def execLogMark (d : Die) (s : State) : Host.Outcome State Fault Refusal :=
  .next (s.cmdRun d 0x0701 fun c s =>
    let e := c.tdie
    let s := s.logRefill e
    s.answerNow c (if (s.logOf e).allow = 0 then some (stNO_RESOURCE, 1, []) else none)
      (s.logRaw e 0x701 0 (bits (c.par 1) 0 16) (c.par 0)) [s.getReg (R.LOG_HEAD e)])

/-- LOG_LFR. -/
def execLogLfr (d : Die) (s : State) : Host.Outcome State Fault Refusal :=
  .next (s.cmdRun d 0x0702 fun c s => s.finish c stOK 0 ((List.range 16).map fun i => s.getReg (R.LOG_LFR c.tdie i)))

/-! ## Resets (R151, R490) -/

/-- RST_DEVICE: the reply goes first; the reset begins 100 µs after it has left. -/
def execRstDevice (d : Die) (s : State) : Host.Outcome State Fault Refusal :=
  .next (s.cmdRun d 0x0800 fun c s =>
    let s := s.finish c stOK 0 []
    { s with rst := { s.rst with asked := some (if bit (c.par 0) 0 then 2 else 1) } })

/-- Whether a LIVE or PINNED placement stands on a unit. -/
def State.livePlaced (s : State) (d : Die) (cls idx : Nat) : Bool :=
  let on (i : Intent) (p : Placement) : Bool :=
    match cls with
    | 2 => !i.isFlow && decide (p.die = d) && decide (p.ce = idx)
    | 4 => i.isFlow && (p.hops.contains (d.idx, idx) || decide ((p.die, p.ce) = (d, idx)))
    | 5 => i.isFlow && (p.hops.contains (d.idx, 12 + idx) || decide ((p.die, p.ce) = (d, 12 + idx)))
    | 6 => !i.isFlow && bit (i.recWord 5) (d.idx * 4 + idx)
    | 7 => !i.isFlow && bit (i.recWord 6) (d.idx * 16 + idx)
    | 9 => !i.isFlow && decide (p.die = d) && p.cmps.contains idx
    | 11 => !i.isFlow && decide (p.die = d) && p.sfqs.contains idx
    | _ => false
  s.heldIntents.any fun i => i.placements.any fun p => (p.st = 4 || p.st = 5) && on i p

/-- What speaks against a RST_UNIT: a class without a per-function reset, a LIVE or PINNED placement. -/
def State.resetBad (s : State) (c : HostCmd) : Option Refused :=
  firstRefused [(c.cls = 3 || c.cls = 10, (stBAD_PARAM, 0, [])), (s.livePlaced c.tdie c.cls c.unit, (stNO_RESOURCE, 0, []))]

/-- The per-function reset of a compare unit: disarmed, SEQ, MISSED, LOST and LATE cleared, target and period kept. -/
def State.cmpReset (s : State) (d : Die) (u : Nat) : State := ((s.setArmed d u false).setReg (R.TB_CMP_STAT d u) 0).fnReset d 9 u

/-- The per-function reset of the field I/O section: the link restarts with every output held. -/
def State.fioReset (s : State) : State :=
  let s := s.fioHoldAll.setFio { s.fio with dnSeq := 0, lastUp := none, badUp := 0 }
  ((s.setFlag fioStat 0 false).setFlag fioStat 5 false).fnReset .d0 8 0

/-- RST_UNIT by class (R245, R350, R383, R449, R490). -/
def State.resetWork (s : State) (c : HostCmd) : State :=
  let d := c.tdie
  let u := c.unit
  match s.resetBad c with
  | some (st, k, ws) => s.complete c st k ws
  | none =>
    let s := match c.cls with
      | 2 => s.ceReset d (ceIx u)
      | 4 => (s.macDown d u).fnReset d 4 u
      | 5 => (s.macDown d (12 + u)).fnReset d 5 u
      | 6 => s.canReset d u
      | 7 => s.stnReset d u
      | 8 => s.fioReset
      | 9 => s.cmpReset d u
      | 11 => s.sfqReset d u
      | _ => (s.chanRelease d u).fnReset d 12 u
    s.complete c stOK 0 []

/-- RST_UNIT. -/
def execRstUnit (d : Die) (s : State) : Host.Outcome State Fault Refusal :=
  .next (s.cmdRun d 0x0801 fun c s => s.acceptOr c (s.resetBad c) id)

/-! ## Field I/O (R152, R468, R470) -/

/-- FIO_OUT: the outputs named take their levels, held or released (R152). -/
def State.fioOut (s : State) (mask value : Nat) (hold : Bool) : State :=
  let s := s.setFld (R.FIO_OUT .d0) 0 8 ((s.fioCmd &&& (0xFF ^^^ mask)) ||| (value &&& mask))
  s.setFld (R.FIO_OUT .d0) 16 8 (if hold then s.fioHeld ||| mask else s.fioHeld &&& (0xFF ^^^ mask))

/-- FIO_OUT. -/
def execFioOut (d : Die) (s : State) : Host.Outcome State Fault Refusal :=
  .next (s.cmdRun d 0x0900 fun c s =>
    let s := s.fioOut (bits (c.par 0) 0 8) (bits (c.par 1) 0 8) (bit (c.par 2) 0)
    s.finish c stOK 0 [wd s.fioCmd])

/-- FIO_MODE: normal service only on a good link, in service and not under test (R470). -/
def execFioMode (d : Die) (s : State) : Host.Outcome State Fault Refusal :=
  .next (s.cmdRun d 0x0901 fun c s =>
    let bad := decide (c.par 0 = 0) && (!s.flag fioStat 0 || s.flag fioStat 2 || s.flag fioStat 3)
    s.answerNow c (if bad then badWord 0 else none) (s.setFlag fioStat 1 (bit (c.par 0) 0)) [])

/-- FIO_READ. -/
def execFioRead (d : Die) (s : State) : Host.Outcome State Fault Refusal :=
  .next (s.cmdRun d 0x0902 fun c s =>
    s.finish c stOK 0 [wd (s.fioIn + s.fioCmd * 0x1_0000 + if s.flag fioStat 4 then 0x8000_0000 else 0)])

end Sys2Proof.Machine
end

