-- ==== Sys2Proof/Machine/HostSerial.lean ====
section
/-! DEFINITION. The serial port H2: its frames, and its secure session (R160 to R166). -/

namespace Sys2Proof.Machine

/-! ## Frames (R160, R161) -/

/-- The two CRC bytes of a frame so far. -/
def frameCrc (l : List Byte) : List Byte := beBytes 2 (crc16 l)

/-- What the device sends after the host's bytes: wait bytes, the answer and the CRC over the whole frame. -/
def State.h2Send (s : State) (host : List Byte) (waits : Nat) (ans : List Byte) : State :=
  let out := List.replicate waits 0xFF ++ ans
  s.emit (.spi (out ++ frameCrc (host ++ out)))

/-- The status bytes: ACK, and NAK with a cause. -/
def h2Ack : Byte := 0xA5
def h2Nak (c : Nat) : Byte := BitVec.ofNat 8 (0x50 + c)

/-- Whether an instruction byte is a WRITE, and whether it is a READ, single or quad. -/
def isH2Write (b : Nat) : Bool := b = 0x02 || b = 0x12
def isH2Read (b : Nat) : Bool := b = 0x0B || b = 0x6C

/-- Bytes of a frame from the host with its CRC; none for an instruction that is not known. -/
def h2Length (l : List Byte) : Option Nat :=
  let b := byteAt l 0
  if isH2Write b then some (9 + 4 * byteAt l 6)
  else if isH2Read b then some 9
  else if b = 0x05 then some 1
  else if b = 0xA1 ∨ b = 0xA2 then some 19
  else if b = 0xA3 then some 3
  else if b = 0xA8 then some (29 + beAt l 1 2)
  else none

/-- The words of a WRITE frame. -/
def h2Data (f : List Byte) : List Word := (bytesWords (f.drop 7)).take (byteAt f 6)

/-- The words of a WRITE performed in order up to the first refused one: how many, and its cause. -/
def State.h2WriteWords (s : State) (who : Requester) (a : Nat) : List Word → Nat × Option Nat × State
  | [] => (0, none, s)
  | w :: t =>
    match s.busWrite who a .w32 w 0 with
    | (some c, u) => (0, some c, u.recordRefusal who a true c)
    | (none, u) =>
      let (n, c, v) := u.h2WriteWords who (a + 4) t
      (n + 1, c, v)

/-- `n` words read in order: all of them, or the cause of the first refused one. -/
def State.h2ReadWords (s : State) (who : Requester) (a : Nat) : Nat → Except Nat (List Word) × State
  | 0 => (.ok [], s)
  | n + 1 =>
    match s.busRead who a .w32 with
    | (.error c, u) => (.error c, u.recordRefusal who a false c)
    | (.ok ws, u) => match u.h2ReadWords who (a + 4) n with
      | (.error c, v) => (.error c, v)
      | (.ok t, v) => (.ok (ws.getD [] ++ t), v)

/-- The answer to a WRITE or READ frame, without its CRC and with at most `n` of its words performed: status, then the words done of a
WRITE or the data of a READ.  A frame inside a session that is neither is refused with RULE; its address and direction, which it does not
have, are recorded as a free value (DESIGN CHOICE, log entry 95). -/
def State.h2Body (s : State) (who : Requester) (f : List Byte) (n : Nat) : List Byte × State :=
  let a := beAt f 1 5
  let cnt := byteAt f 6
  if isH2Write (byteAt f 0) ∧ f.length = 7 + 4 * cnt then
    if cnt = 0 ∨ cnt > 64 then ([h2Nak causeRULE, 0], s.recordRefusal who a true causeRULE)
    else match s.h2WriteWords who a ((h2Data f).take n) with
      | (k, none, t) => ([h2Ack, BitVec.ofNat 8 k], t)
      | (k, some c, t) => ([h2Nak c, BitVec.ofNat 8 k], t)
  else if isH2Read (byteAt f 0) ∧ f.length = 7 then
    if cnt = 0 ∨ cnt > 64 then ([h2Nak causeRULE], s.recordRefusal who a false causeRULE)
    else match s.h2ReadWords who a (min cnt n) with
      | (.ok ws, t) => (h2Ack :: wordBytes ws, t)
      | (.error c, t) => ([h2Nak c], t)
  else ([h2Nak causeRULE], s.drawn.recordRefusal who s.freeNow.toNat (bit s.freeNow 0) causeRULE)

/-! ## The secure session (R163 to R166) -/

/-- The 68 bytes both sides derive: host key, device key, nonce part (R164). -/
def h2Keys (key nh nd : List Byte) : List Byte := Crypto.hkdf key (nh ++ nd) [0x53, 0x4C, 0x59, 0x2D, 0x48, 0x32] 68

/-- The GCM nonce at a counter, whose most significant byte goes first, as those of L and the counter on the wire do (DESIGN CHOICE,
log entry 95). -/
def h2Iv (ks : List Byte) (ctr : Nat) : List Byte := ks.drop 64 ++ beBytes 8 ctr

/-- The tag over the nonces at counter 0, under the key at offset `o` of the derived bytes. -/
def h2Proof (ks nh nd : List Byte) (o : Nat) : List Byte := Crypto.gcmTag ((ks.drop o).take 32) (h2Iv ks 0) (nh ++ nd) []

/-- OPEN: a nonce of the device, a free value, and its proof (R164 steps 1 to 3). -/
def State.h2Open (s : State) (nh : List Byte) : List Byte × State :=
  if s.h2.key = [] then ([h2Nak causeSECURITY], s)
  else
    let nd := leBytes 4 (Config.freeValue s.fresh).toNat ++ leBytes 4 (Config.freeValue (s.fresh + 1)).toNat ++
      leBytes 4 (Config.freeValue (s.fresh + 2)).toNat ++ leBytes 4 (Config.freeValue (s.fresh + 3)).toNat
    let s := { s with fresh := s.fresh + 4, h2 := { s.h2 with pend := some (nh, nd) } }
    ([h2Ack] ++ nd ++ h2Proof (h2Keys s.h2.key nh nd) nh nd 32, s)

/-- CONFIRM: the session opens when the host's tag matches; a tag that fails ends an open session (R164 step 4, R166), and so does a CONFIRM
that no OPEN precedes (DESIGN CHOICE, log entry 95). -/
def State.h2Confirm (s : State) (tag : List Byte) : List Byte × State :=
  match s.h2.pend with
  | none => ([h2Nak causeSECURITY], s.h2End)
  | some (nh, nd) =>
    let s := { s with h2 := { s.h2 with pend := none } }
    if tag = h2Proof (h2Keys s.h2.key nh nd) nh nd 0 then
      ([h2Ack], { s with h2 := { s.h2 with sess := some (nh, nd), hostCtr := 0, devCtr := 0 } })
    else ([h2Nak causeSECURITY], s.h2End)

/-- A SECURE frame not taken: recorded with a free value for address and direction, which the device cannot know, and the session ends. -/
def State.h2Insecure (s : State) : State :=
  ((s.drawn).recordRefusal .h2s s.freeNow.toNat (bit s.freeNow 0) causeSECURITY).h2End

/-- A SECURE frame, without its CRC, with at most `n` words of the inner frame performed (R165): the counter must rise and the tag,
over no additional data (DESIGN CHOICE, log entry 95), hold. -/
def State.h2Secure (s : State) (f : List Byte) (n : Nat) : List Byte × State :=
  match s.h2.sess with
  | none => ([h2Nak causeSECURITY], (s.drawn).recordRefusal .h2 s.freeNow.toNat (bit s.freeNow 0) causeSECURITY)
  | some (nh, nd) =>
    let ks := h2Keys s.h2.key nh nd
    let l := beAt f 1 2
    let ctr := beAt f 3 8
    let c := (f.drop 11).take l
    if ctr ≤ s.h2.hostCtr ∨ (f.drop (11 + l)).take 16 ≠ Crypto.gcmTag (ks.take 32) (h2Iv ks ctr) [] c then
      ([h2Nak causeSECURITY], s.h2Insecure)
    else
      let s := { s with h2 := { s.h2 with hostCtr := ctr, devCtr := s.h2.devCtr + 1 } }
      let (r, t) := s.h2Body .h2s (Crypto.gcmText (ks.take 32) (h2Iv ks ctr) c) n
      let kd := (ks.drop 32).take 32
      let iv := h2Iv ks s.h2.devCtr
      let e := Crypto.gcmText kd iv r
      ([h2Ack] ++ beBytes 2 e.length ++ beBytes 8 s.h2.devCtr ++ e ++ Crypto.gcmTag kd iv [] e, t)

/-- The H2 status byte of PORTSTAT. -/
def State.h2Status (s : State) : Byte :=
  BitVec.ofNat 8 ((if s.irqLow .d0 then 1 else 0) + (if s.h2.sess.isSome then 2 else 0) + (if s.flag (R.MBX_H2KEY_CTRL .d0) 8 then 4 else 0))

/-! ## One frame -/

/-- The answer to a complete frame whose CRC holds; at most `n` words are performed. -/
def State.h2Act (s : State) (f : List Byte) (n : Nat) : List Byte × State :=
  let b := byteAt f 0
  if isH2Write b ∨ isH2Read b then s.h2Body .h2 f n
  else if b = 0x05 then ([s.h2Status], s)
  else if b = 0xA1 then s.h2Open (f.drop 1)
  else if b = 0xA2 then s.h2Confirm (f.drop 1)
  else if b = 0xA3 then ([h2Ack], s.h2End)
  else if b = 0xA8 then s.h2Secure f n
  else ([h2Nak causeRULE], s)

/-- A frame as the host sent it: incomplete it is abandoned; with a failed CRC it is answered NAK CRC and performs nothing (R161). -/
def State.h2Frame (s : State) (bs : List Byte) (waits : Nat) : State :=
  let len := (h2Length bs).getD bs.length
  let l := bs.take len
  if bs.length < len ∨ bs = [] then s
  else if byteAt l 0 = 0x05 then s.h2Send l waits [s.h2Status]
  else
    let f := l.take (len - 2)
    if l.drop (len - 2) ≠ frameCrc f then
      let wr := isH2Write (byteAt f 0)
      let s := if wr ∨ isH2Read (byteAt f 0) then s.recordRefusal .h2 (beAt f 1 5) wr causeCRC
        else if byteAt f 0 = 0xA8 then s.drawn.recordRefusal .h2 s.freeNow.toNat (bit s.freeNow 0) causeCRC
        else s
      s.h2Send l waits (if wr then [h2Nak causeCRC, 0] else [h2Nak causeCRC])
    else
      let (r, t) := s.h2Act f 64
      t.h2Send l waits r

/-- A frame whose instruction byte is one that a row names. -/
def State.h2Row (s : State) (bs : List Byte) (waits : Nat) (p : Nat → Bool) : State := if p (byteAt bs 0) then s.h2Frame bs waits else s

/-- The instruction bytes of the rows but H2_WRITE, which takes an unknown one too. -/
def h2Other (b : Nat) : Bool := isH2Read b || b = 0x05 || b = 0xA1 || b = 0xA2 || b = 0xA3 || b = 0xA8

/-- H2_WRITE: a WRITE frame, or one of an unknown instruction, which is refused (R161). -/
def execH2Write (bs : List Byte) (waits : Nat) (s : State) : Host.Outcome State Fault Refusal :=
  .next (s.h2Row bs waits fun b => !h2Other b)

/-- H2_READ (R161). -/
def execH2Read (bs : List Byte) (waits : Nat) (s : State) : Host.Outcome State Fault Refusal := .next (s.h2Row bs waits isH2Read)

/-- H2_PORTSTAT (R161). -/
def execH2Portstat (bs : List Byte) (s : State) : Host.Outcome State Fault Refusal := .next (s.h2Row bs 0 fun b => b = 0x05)

/-- H2_OPEN (R164). -/
def execH2Open (bs : List Byte) (waits : Nat) (s : State) : Host.Outcome State Fault Refusal := .next (s.h2Row bs waits fun b => b = 0xA1)

/-- H2_CONFIRM (R164). -/
def execH2Confirm (bs : List Byte) (waits : Nat) (s : State) : Host.Outcome State Fault Refusal :=
  .next (s.h2Row bs waits fun b => b = 0xA2)

/-- H2_CLOSE (R166). -/
def execH2Close (bs : List Byte) (waits : Nat) (s : State) : Host.Outcome State Fault Refusal := .next (s.h2Row bs waits fun b => b = 0xA3)

/-- H2_SECURE (R165). -/
def execH2Secure (bs : List Byte) (waits : Nat) (s : State) : Host.Outcome State Fault Refusal :=
  .next (s.h2Row bs waits fun b => b = 0xA8)

/-- H2_FRAME_ABANDON: CS_N rises before the status byte; `n` words have been performed and stay so, and nothing is sent (R161). -/
def execH2FrameAbandon (bs : List Byte) (n : Nat) (s : State) : Host.Outcome State Fault Refusal :=
  let len := (h2Length bs).getD bs.length
  let f := bs.take (len - 2)
  let b := byteAt bs 0
  .next (if n = 0 ∨ bs.length < len ∨ (bs.take len).drop (len - 2) ≠ frameCrc f then s
    else if isH2Write b ∨ isH2Read b ∨ b = 0xA8 then (s.h2Act f n).2
    else s)

/-- H2_SESSION_TIMEOUT: 10 s have passed without a SECURE frame (R166). -/
def execH2SessionTimeout (s : State) : Host.Outcome State Fault Refusal := .next s.h2End

end Sys2Proof.Machine
end

