-- ==== Sys2Proof/Machine/RingCmds.lean ====
section
/-! DEFINITION. The ring's commands (R248, R265 to R270, R282, R288) and the completion of every asynchronous command (R139). -/

namespace Sys2Proof.Machine

/-! ## A schedule record checked (R265, R266) -/

/-- Length of a frame of a segment without its FCS field's wire overhead (R252). -/
def segBytes (r : List Word) (g : Nat) : Nat := (if g = 0 ∧ rcTime r then 318 else 62) + bits (rcSeg r g) 0 14

/-- T_min of R268 in 1/25 ns, for the most a Skim unit holds a frame in nanoseconds (R262). -/
def tMin25 (r : List Word) (hop : Nat) : Nat :=
  ((List.range (rcNseg r)).map fun g => (segBytes r g + 20) * 8).sum +
    25 * ((rcW r 10).toNat * hop + (rcW r 11).toNat + 2000)

/-- The ring-wide words of a record. -/
def headBad (r : List Word) (mode : Nat) : List (Bool × Nat) :=
  let w (i : Nat) : Word := rcW r i
  [ (decide (3 < rcRole r), 0),
    (decide (rcTopo r = 3) || bit (w 1) 3 || decide (bits (w 1) 10 6 ≠ 0) || decide (rcVer r = 0), 1),
    (decide (rcCycle r < 10_000) || decide (100_000_000 < rcCycle r) ||
      (decide (rcRole r = 1) && decide (25 * rcCycle r < tMin25 r (if mode = 5 then 320 else 450))), 2),
    (decide (rcCycle r ≤ (w 3).toNat), 3),
    (!bit (w 4) 0, 4),
    (decide (bits (w 5) 16 16 ≠ 0), 5),
    (bit (w 6) 23 || decide (8 < bits (w 6) 24 4) || decide (8 < bits (w 6) 28 4), 6),
    (decide ((w 7).toNat < 100) || decide (1_000_000_000 < (w 7).toNat), 7),
    (decide (bits (w 8) 0 8 < 2) || decide (bits (w 8) 8 8 = 0) || decide (bits (w 8) 0 8 ≤ bits (w 8) 8 8) ||
      decide (bits (w 8) 16 8 < 2) || decide (bits (w 8) 24 8 ≠ 0), 8),
    (decide (10_000 < bits (w 9) 0 16) || decide (bits (w 9) 16 16 < 10) || decide (10_000 < bits (w 9) 16 16), 9),
    (decide (64 < rcWins r) || bit (w 12) 7 || decide (254 < rcSpares r) || decide (bits (w 12) 16 16 ≠ 0), 12),
    (decide (4096 < rcPres r) || decide (bits (w 13) 13 19 ≠ 0), 13) ]

/-- A segment word (R252). -/
def segBad (r : List Word) (g : Nat) : Bool × Nat :=
  let n := bits (rcSeg r g) 0 14
  (decide (n < 2) || decide ((if g = 0 ∧ rcTime r then 8898 else 9154) < n) || decide (bits (rcSeg r g) 14 2 ≠ 0), 14 + g)

/-- Length of a window's buffer: one half for an output window, two for an input window (R258, R259). -/
def winSpan (r : List Word) (w : Nat) : Nat := (16 + ringWinLen r w + 63) / 64 * 64 * (if winOut r w then 1 else 2)

/-- Whether two windows of a record share a byte of a segment. -/
def winMeet (r : List Word) (v w : Nat) : Bool :=
  decide (winSeg r v = winSeg r w) && decide (winOff r v < winOff r w + ringWinLen r w) && decide (winOff r w < winOff r v + ringWinLen r v)

/-- Whether a buffer lies in the pool of the pair's die, clear of banks in retention or out of service. -/
def State.winBankBad (s : State) (d : Die) (r : List Word) (w : Nat) : Bool :=
  let a := winBuf r w % 0x80_0000_0000
  let b0 := bankOf a
  let b1 := bankOf (a + winSpan r w - 1)
  decide (0x0400_0000 < a + winSpan r w) ||
    (List.range' b0 (b1 + 1 - b0)).any fun b => s.groupOff d (b / 16) || s.bankOos d b

/-- The four words of a window (R255, R265, R266). -/
def State.winBad (s : State) (d : Die) (r : List Word) (w : Nat) : List (Bool × Nat) :=
  let n := 14 + rcNseg r + 4 * w
  let w0 := rcWin r w 0
  let w1 := rcWin r w 1
  [ (decide (rcNseg r ≤ winSeg r w) || bit w0 7 || decide (bits w0 16 16 ≠ 0) || (bit w0 6 && decide (rcSpares r ≤ bits w0 8 8)), n),
    (decide (ringWinLen r w < if winTag r w then 5 else 1) || decide (8192 < ringWinLen r w) || decide (bits w1 14 2 ≠ 0) || decide (bits w1 30 2 ≠ 0) ||
      decide (bits (rcSeg r (winSeg r w)) 0 14 < winOff r w + ringWinLen r w) || (List.range w).any (fun v => winMeet r v w), n + 1),
    (decide ((rcWin r w 2).toNat % 64 ≠ 0) || s.winBankBad d r w, n + 2),
    (decide (winBuf r w / 0x80_0000_0000 ≠ d.idx) || decide (bits (rcWin r w 3) 8 24 ≠ 0), n + 3) ]

/-- The first word of a record that R265 or R266 forbids. -/
def State.recordBad (s : State) (d : Die) (r : List Word) (mode : Nat) : Option Nat :=
  let sp := 14 + rcNseg r + 4 * rcWins r
  firstParam (headBad r mode ++ (List.range (rcNseg r)).map (fun g => segBad r g) ++
    (List.range (rcWins r)).flatMap (fun w => s.winBad d r w) ++
    (List.range (rcSpares r)).map (fun k => (decide (bits (rcW r (sp + k)) 12 20 ≠ 0), sp + k)) ++
    (List.range (rcPres r)).map (fun k =>
      (decide (rcNseg r ≤ bits (rcPresence r k) 12 4) || decide (bits (rcPresence r k) 30 2 ≠ 0), sp + rcSpares r + k)))

/-- Free PORT_TX or PORT_RX of a switch port for a ring; at port 15 no more than the free DUOLAY amount (R266). -/
def State.ringFree (s : State) (d : Die) (e : Nat) : Nat :=
  let f := min (s.freeOf 5 d e false) (s.freeOf 6 d e false)
  if e = 15 then min f (min (s.freeOf 7 .d0 0 false) (s.freeOf 7 .d0 1 false)) else f

/-- What speaks against a record (R248, R265, R266); the share of the record loaded before is not counted. -/
def State.schedBad (s : State) (c : HostCmd) : Option Refused :=
  let d := c.tdie
  let r := c.params
  let x := s.ringOf d
  match s.pairMode d with
  | none => Machine.badWord 0
  | some mode =>
    if x.cur ≠ [] ∧ bits (rcW x.cur 0) 0 16 ≠ bits (rcW r 0) 0 16 then Machine.badWord 0
    else match s.recordBad d r mode with
      | some n => Machine.badWord n
      | none =>
        let t := s.ringCharge d x.booked false
        match (ringPorts d r).find? fun p => t.ringFree p.1 p.2 < ringShare r with
        | none => none
        | some p => some (stOVERCOMMIT, 0, [wd (5 + p.1.idx * 0x100 + p.2 * 0x1_0000), 0, wd (ringShare r), wd (t.ringFree p.1 p.2)])

/-! ## RING_SCHED -/

/-- A record loaded: pending until a frame carries its SCHED_VER (R266, R267); the targeted uplink is the down port (R248). -/
def State.schedWork (s : State) (c : HostCmd) : State :=
  let d := c.tdie
  let r := c.params
  match s.schedBad c with
  | some (st, n, ws) => s.complete c st n ws
  | none =>
    let s := (s.ringCharge d (s.ringOf d).booked false).ringCharge d r true
    let x := s.ringOf d
    let s := s.setRing d { x with pend := r, pendAt := s.lin d, pendDn := c.unit % 2, dn := if x.cur = [] then c.unit % 2 else x.dn }
    (s.setFlag (R.TFR_STAT d) 5 true).complete c stOK 0 []

/-- RING_SCHED. -/
def execRingSched (d : Die) (s : State) : Host.Outcome State Fault Refusal :=
  .next (s.cmdRun d 0x0A00 fun c s => s.acceptOr c (s.schedBad c) id)

/-! ## RING_CLAIM (R269, R270) -/

/-- The late-comer's record: the current one before its admission, else the pending one. -/
def State.claimRecord (s : State) (d : Die) : Option (List Word) :=
  let x := s.ringOf d
  if rcLate x.cur ∧ s.fld (R.TFR_STAT d) 11 2 = 3 then some x.cur else if rcLate x.pend then some x.pend else none

/-- First window of a spare entry. -/
def firstSpareWin (r : List Word) (k : Nat) : Option Nat :=
  firstIdx (rcWins r) fun w => bit (rcWin r w 0) 6 && decide (bits (rcWin r w 0) 8 8 = k)

/-- What speaks against a claim: no late-comer's record, no window of that spare entry, a claim in progress. -/
def State.claimBad (s : State) (c : HostCmd) : Option Refused :=
  let d := c.tdie
  let k := (c.par 0).toNat
  match s.claimRecord d with
  | none => Machine.badWord 0
  | some r => if rcSpares r ≤ k ∨ (firstSpareWin r k).isNone ∨ s.flag (R.TFR_CLAIM d) 31 then Machine.badWord 0 else none

/-- The claim begins: the device writes it into the next idle claim field. -/
def State.claimBegin (s : State) (c : HostCmd) : State :=
  let d := c.tdie
  let k := (c.par 0).toNat
  let r := (s.claimRecord d).getD []
  (s.setReg (R.TFR_CLAIM d) (wd (0x8000_0000 + k * 0x10_0000 + rcSpare r k))).setRing d { s.ringOf d with nak := false }

/-- RING_CLAIM. -/
def execRingClaim (d : Die) (s : State) : Host.Outcome State Fault Refusal :=
  .next (s.cmdRun d 0x0A01 fun c s => s.acceptOr c (s.claimBad c) fun s => s.claimBegin c)

/-- The claim's end: the device has its epoch, and inserts and captures. -/
def State.claimWork (s : State) (c : HostCmd) : State :=
  let d := c.tdie
  let r := (s.ringOf d).cur
  if s.flag (R.TFR_CLAIM d) 31 ∨ s.fld (R.TFR_CLAIM d) 28 3 ≠ 4 ∨ (s.fld (R.TFR_STAT d) 11 2 = 3 ∧ (s.ringOf d).unfence.isNone) then s
  else match firstSpareWin r (c.par 0).toNat with
    | some w => s.complete c stOK 0 [wd (winOff r w), wd (ringWinLen r w)]
    | none => s

/-! ## RING_READMIT, RING_STATUS (R282, R288) -/

/-- What speaks against a RING_READMIT. -/
def State.readmitBad (s : State) (c : HostCmd) : Option Refused :=
  let d := c.tdie
  let x := s.ringOf d
  let a := (c.par 0).toNat
  if !s.acting d ∨ (x.member a).1 ≠ 2 ∨ !(x.cand.any fun k => k.1 = a) then Machine.badWord 0 else none

/-- The candidate admitted: its epoch advances, and the admission is announced with its UID. -/
def State.readmitWork (s : State) (c : HostCmd) : State :=
  let d := c.tdie
  let a := (c.par 0).toNat
  match s.readmitBad c with
  | some (st, n, ws) => s.complete c st n ws
  | none =>
    let x := s.ringOf d
    let uid := ((x.cand.find? fun k => k.1 = a).getD (0, 0)).2
    let ep := nextEpoch (x.member a).2
    let x := x.setMember a 1 ep
    let s := s.setRing d { x with cand := x.cand.filter fun k => k.1 ≠ a, ann := x.ann ++ [(a, uid, 4)] }
    (s.showDead d a false).complete c stOK 0 [wd ep]

/-- RING_READMIT. -/
def execRingReadmit (d : Die) (s : State) : Host.Outcome State Fault Refusal :=
  .next (s.cmdRun d 0x0A02 fun c s => s.acceptOr c (s.readmitBad c) id)

/-- RING_STATUS. -/
def execRingStatus (d : Die) (s : State) : Host.Outcome State Fault Refusal :=
  .next (s.cmdRun d 0x0A03 fun c s =>
    let e := c.tdie
    s.finish c stOK 0 [s.getReg (R.TFR_STAT e), s.getReg (R.TFR_EPOCH e), s.getReg (R.TFR_CYCLE e), s.getReg (R.TFR_OFFSET e)])

/-! ## ASYNC_COMMAND_COMPLETE (R139) -/

/-- The work of an accepted command at its completion; those whose end another event brings (the planner's, a test's, a migration's, a ramp's,
the barrier's) are left to it. -/
def State.asyncWork (s : State) (c : HostCmd) : State :=
  match c.op with
  | 0x0300 => s.installWork c
  | 0x0301 => s.removeWork c
  | 0x0303 => s.undercoatWork c
  | 0x0401 => s.modeWork c
  | 0x0402 => s.laneWork c
  | 0x0503 => s.roleWork c
  | 0x0601 => s.serviceAct c
  | 0x0801 => s.resetWork c
  | 0x0A00 => s.schedWork c
  | 0x0A01 => s.claimWork c
  | 0x0A02 => s.readmitWork c
  | _ => s

/-- ASYNC_COMMAND_COMPLETE: the accepted command of a channel with this SEQ ends. -/
def execAsyncCommandComplete (d : Die) (c : Fin 40) (seq : Nat) (s : State) : Host.Outcome State Fault Refusal :=
  .next (match s.asyncOf d c seq with
    | none => s
    | some k => s.asyncWork k)

end Sys2Proof.Machine
end

