-- ==== Sys2Proof/Machine/All.lean ====
section
/-! DEFINITION. Every family of meanings, gathered for the dispatch. -/
end

