-- ==== Sys2Proof/Machine/Dispatch.lean ====
section
/-! DEFINITION. The command dispatch: one arm per constructor. -/

namespace Sys2Proof.Machine

/-- The effect of a command on everything but the queue. -/
def exec (i : Instr) (s : State) : Host.Outcome State Fault Refusal :=
  match i with
  | .duolayTransferRx d cls seq payload corr uncorr => Sys2Proof.Machine.execDuolayTransferRx d cls seq payload corr uncorr s
  | .laneFail d lane retx => Sys2Proof.Machine.execLaneFail d lane retx s
  | .linkAckTimeout d retx => Sys2Proof.Machine.execLinkAckTimeout d retx s
  | .laneReturn d lane => Sys2Proof.Machine.execLaneReturn d lane s
  | .duolayLinkTrained => Sys2Proof.Machine.execDuolayLinkTrained s
  | .die1TrainTimeout => Sys2Proof.Machine.execDie1TrainTimeout s
  | .poolAccess d bank reqs flips => Sys2Proof.Machine.execPoolAccess d bank reqs flips s
  | .eccWriteBack d bank => Sys2Proof.Machine.execEccWriteBack d bank s
  | .scrubLine d bank => Sys2Proof.Machine.execScrubLine d bank s
  | .scrubForced d bank => Sys2Proof.Machine.execScrubForced d bank s
  | .bankRetire d bank => Sys2Proof.Machine.execBankRetire d bank s
  | .retentionEntered d g => Sys2Proof.Machine.execRetentionEntered d g s
  | .retentionWakeDone d g => Sys2Proof.Machine.execRetentionWakeDone d g s
  | .priorityScrubPass d g => Sys2Proof.Machine.execPriorityScrubPass d g s
  | .sfqUnitIn d n bs epoch endMark => Sys2Proof.Machine.execSfqUnitIn d n bs epoch endMark s
  | .sfqIdleClose d n => Sys2Proof.Machine.execSfqIdleClose d n s
  | .sfqFlush who d n v => Sys2Proof.Machine.execSfqFlush who d n v s
  | .sfqClose who d n v => Sys2Proof.Machine.execSfqClose who d n v s
  | .sfqReset who d n v => Sys2Proof.Machine.execSfqReset who d n v s
  | .sfqConfigWrite who d n v => Sys2Proof.Machine.execSfqConfigWrite who d n v s
  | .sfqReadLo who d n => Sys2Proof.Machine.execSfqReadLo who d n s
  | .sfqReadPair who d n => Sys2Proof.Machine.execSfqReadPair who d n s
  | .sfqStalledReadDone d n => Sys2Proof.Machine.execSfqStalledReadDone d n s
  | .sfqReadTimeout d n => Sys2Proof.Machine.execSfqReadTimeout d n s
  | .sfqDrainWrite d n => Sys2Proof.Machine.execSfqDrainWrite d n s
  | .sfqRptrWrite who d n v => Sys2Proof.Machine.execSfqRptrWrite who d n v s
  | .plannerEvent d => Sys2Proof.Machine.execPlannerEvent d s
  | .forecastTimer d => Sys2Proof.Machine.execForecastTimer d s
  | .placementLive h => Sys2Proof.Machine.execPlacementLive h s
  | .flowLive h => Sys2Proof.Machine.execFlowLive h s
  | .releaseDrainStart h => Sys2Proof.Machine.execReleaseDrainStart h s
  | .placementReleased h => Sys2Proof.Machine.execPlacementReleased h s
  | .migrationCodeLoaded h => Sys2Proof.Machine.execMigrationCodeLoaded h s
  | .migrationContextCopy h => Sys2Proof.Machine.execMigrationContextCopy h s
  | .migrationCompare h => Sys2Proof.Machine.execMigrationCompare h s
  | .shadowExtend h => Sys2Proof.Machine.execShadowExtend h s
  | .migrationAbandon h => Sys2Proof.Machine.execMigrationAbandon h s
  | .migrationSwitchOver h => Sys2Proof.Machine.execMigrationSwitchOver h s
  | .flowPathSwitch h => Sys2Proof.Machine.execFlowPathSwitch h s
  | .flowHoldRelease h => Sys2Proof.Machine.execFlowHoldRelease h s
  | .plcQueryWindow who d v => Sys2Proof.Machine.execPlcQueryWindow who d v s
  | .mailboxGo who d c v => Sys2Proof.Machine.execMailboxGo who d c v s
  | .mailboxMessageTaken d c => Sys2Proof.Machine.execMailboxMessageTaken d c s
  | .packetIncompleteTimeout d c => Sys2Proof.Machine.execPacketIncompleteTimeout d c s
  | .inbandCommandFrame d port bytes => Sys2Proof.Machine.execInbandCommandFrame d port bytes s
  | .commandTimeout d c seq => Sys2Proof.Machine.execCommandTimeout d c seq s
  | .devHello d => Sys2Proof.Machine.execDevHello d s
  | .devStatus d => Sys2Proof.Machine.execDevStatus d s
  | .devBarrier d => Sys2Proof.Machine.execDevBarrier d s
  | .barrierComplete d => Sys2Proof.Machine.execBarrierComplete d s
  | .devIbSet d => Sys2Proof.Machine.execDevIbSet d s
  | .pwrState d => Sys2Proof.Machine.execPwrState d s
  | .pwrMargin d => Sys2Proof.Machine.execPwrMargin d s
  | .poolRetain d => Sys2Proof.Machine.execPoolRetain d s
  | .plcAdmit d => Sys2Proof.Machine.execPlcAdmit d s
  | .plcRelease d => Sys2Proof.Machine.execPlcRelease d s
  | .plcMigrate d => Sys2Proof.Machine.execPlcMigrate d s
  | .plcPin d => Sys2Proof.Machine.execPlcPin d s
  | .plcReplace d => Sys2Proof.Machine.execPlcReplace d s
  | .plcReserve d => Sys2Proof.Machine.execPlcReserve d s
  | .plcQuery d => Sys2Proof.Machine.execPlcQuery d s
  | .plcLedger d => Sys2Proof.Machine.execPlcLedger d s
  | .plcForecast d => Sys2Proof.Machine.execPlcForecast d s
  | .imgInstall d => Sys2Proof.Machine.execImgInstall d s
  | .imgRemove d => Sys2Proof.Machine.execImgRemove d s
  | .imgList d => Sys2Proof.Machine.execImgList d s
  | .imgUndercoat d => Sys2Proof.Machine.execImgUndercoat d s
  | .portAdmit d => Sys2Proof.Machine.execPortAdmit d s
  | .portMode d => Sys2Proof.Machine.execPortMode d s
  | .portLane d => Sys2Proof.Machine.execPortLane d s
  | .portCounters d => Sys2Proof.Machine.execPortCounters d s
  | .streamGate d => Sys2Proof.Machine.execStreamGate d s
  | .portSample d => Sys2Proof.Machine.execPortSample d s
  | .timeGet d => Sys2Proof.Machine.execTimeGet d s
  | .timeSet d => Sys2Proof.Machine.execTimeSet d s
  | .timeAdj d => Sys2Proof.Machine.execTimeAdj d s
  | .timeRole d => Sys2Proof.Machine.execTimeRole d s
  | .hltTest d => Sys2Proof.Machine.execHltTest d s
  | .hltService d => Sys2Proof.Machine.execHltService d s
  | .hltFreq d => Sys2Proof.Machine.execHltFreq d s
  | .logRead d => Sys2Proof.Machine.execLogRead d s
  | .logMark d => Sys2Proof.Machine.execLogMark d s
  | .logLfr d => Sys2Proof.Machine.execLogLfr d s
  | .rstDevice d => Sys2Proof.Machine.execRstDevice d s
  | .rstUnit d => Sys2Proof.Machine.execRstUnit d s
  | .fioOut d => Sys2Proof.Machine.execFioOut d s
  | .fioMode d => Sys2Proof.Machine.execFioMode d s
  | .fioRead d => Sys2Proof.Machine.execFioRead d s
  | .ringSched d => Sys2Proof.Machine.execRingSched d s
  | .ringClaim d => Sys2Proof.Machine.execRingClaim d s
  | .ringReadmit d => Sys2Proof.Machine.execRingReadmit d s
  | .ringStatus d => Sys2Proof.Machine.execRingStatus d s
  | .mbxClaim who d c => Sys2Proof.Machine.execMbxClaim who d c s
  | .mbxRelease who d c => Sys2Proof.Machine.execMbxRelease who d c s
  | .mbxOutAck who d c => Sys2Proof.Machine.execMbxOutAck who d c s
  | .h2KeyCommit who d => Sys2Proof.Machine.execH2KeyCommit who d s
  | .dblSetWrite who d r v => Sys2Proof.Machine.execDblSetWrite who d r v s
  | .doorbellRemote d r => Sys2Proof.Machine.execDoorbellRemote d r s
  | .msixUnmask d fn vec ctl => Sys2Proof.Machine.execMsixUnmask d fn vec ctl s
  | .functionLevelReset d fn => Sys2Proof.Machine.execFunctionLevelReset d fn s
  | .pciePerst d => Sys2Proof.Machine.execPciePerst d s
  | .hostPoolTlp d fn off rd wr isWr => Sys2Proof.Machine.execHostPoolTlp d fn off rd wr isWr s
  | .registerWrite who a w v hi => Sys2Proof.Machine.execRegisterWrite who a w v hi s
  | .counterReadClear who a w => Sys2Proof.Machine.execCounterReadClear who a w s
  | .pairLoRead who a w => Sys2Proof.Machine.execPairLoRead who a w s
  | .h2Write bs waits => Sys2Proof.Machine.execH2Write bs waits s
  | .h2Read bs waits => Sys2Proof.Machine.execH2Read bs waits s
  | .h2Portstat bs => Sys2Proof.Machine.execH2Portstat bs s
  | .h2Open bs waits => Sys2Proof.Machine.execH2Open bs waits s
  | .h2Confirm bs waits => Sys2Proof.Machine.execH2Confirm bs waits s
  | .h2Close bs waits => Sys2Proof.Machine.execH2Close bs waits s
  | .h2Secure bs waits => Sys2Proof.Machine.execH2Secure bs waits s
  | .h2FrameAbandon bs n => Sys2Proof.Machine.execH2FrameAbandon bs n s
  | .h2SessionTimeout => Sys2Proof.Machine.execH2SessionTimeout s
  | .h3DataLRead => Sys2Proof.Machine.execH3DataLRead s
  | .h3DataHWrite v => Sys2Proof.Machine.execH3DataHWrite v s
  | .frameRx d m bytes pcsErr age => Sys2Proof.Machine.execFrameRx d m bytes pcsErr age s
  | .pauseFrameRx d m quanta => Sys2Proof.Machine.execPauseFrameRx d m quanta s
  | .pauseExpire d m => Sys2Proof.Machine.execPauseExpire d m s
  | .pauseWatchdogTrip d m => Sys2Proof.Machine.execPauseWatchdogTrip d m s
  | .pauseWatchdogClear d m => Sys2Proof.Machine.execPauseWatchdogClear d m s
  | .pauseRefresh d m => Sys2Proof.Machine.execPauseRefresh d m s
  | .egressTransmit d e => Sys2Proof.Machine.execEgressTransmit d e s
  | .rsqTimeout d x => Sys2Proof.Machine.execRsqTimeout d x s
  | .addressAgeOut d n => Sys2Proof.Machine.execAddressAgeOut d n s
  | .pgBucketReturn d g b => Sys2Proof.Machine.execPgBucketReturn d g b s
  | .redDecay d e t => Sys2Proof.Machine.execRedDecay d e t s
  | .cbRecoveryReset d n => Sys2Proof.Machine.execCbRecoveryReset d n s
  | .gateEntryAdvance d j => Sys2Proof.Machine.execGateEntryAdvance d j s
  | .gclChange who d j v => Sys2Proof.Machine.execGclChange who d j v s
  | .gclActivate d j => Sys2Proof.Machine.execGclActivate d j s
  | .sidRead who d => Sys2Proof.Machine.execSidRead who d s
  | .sidWrite who d => Sys2Proof.Machine.execSidWrite who d s
  | .vlanRead who d => Sys2Proof.Machine.execVlanRead who d s
  | .vlanWrite who d => Sys2Proof.Machine.execVlanWrite who d s
  | .flowTableSelect who d v => Sys2Proof.Machine.execFlowTableSelect who d v s
  | .macLinkUp d m speed half => Sys2Proof.Machine.execMacLinkUp d m speed half s
  | .macLinkLoss d m => Sys2Proof.Machine.execMacLinkLoss d m s
  | .mdioGo who d v => Sys2Proof.Machine.execMdioGo who d v s
  | .mdioDone d data => Sys2Proof.Machine.execMdioDone d data s
  | .cycleFrameRx d up bytes age res => Sys2Proof.Machine.execCycleFrameRx d up bytes age res s
  | .skimPrefetch d => Sys2Proof.Machine.execSkimPrefetch d s
  | .masterCycleStart d => Sys2Proof.Machine.execMasterCycleStart d s
  | .guardHoldStart d up => Sys2Proof.Machine.execGuardHoldStart d up s
  | .pdelayExchange d up => Sys2Proof.Machine.execPdelayExchange d up s
  | .pdelayMessageRx d up delay => Sys2Proof.Machine.execPdelayMessageRx d up delay s
  | .rateWindowUpdate d => Sys2Proof.Machine.execRateWindowUpdate d s
  | .refSuspect d e => Sys2Proof.Machine.execRefSuspect d e s
  | .ringLoss d => Sys2Proof.Machine.execRingLoss d s
  | .addressDead d a => Sys2Proof.Machine.execAddressDead d a s
  | .dualModeExit d => Sys2Proof.Machine.execDualModeExit d s
  | .standbyTakeover d => Sys2Proof.Machine.execStandbyTakeover d s
  | .compareFire d u => Sys2Proof.Machine.execCompareFire d u s
  | .trigPulseEnd d n => Sys2Proof.Machine.execTrigPulseEnd d n s
  | .slewDone d => Sys2Proof.Machine.execSlewDone d s
  | .tbRateWrite who d v => Sys2Proof.Machine.execTbRateWrite who d v s
  | .tbSlewWrite who d v => Sys2Proof.Machine.execTbSlewWrite who d v s
  | .tbStepGo who d v => Sys2Proof.Machine.execTbStepGo who d v s
  | .holdover d => Sys2Proof.Machine.execHoldover d s
  | .slaveTimeMessage off ppb => Sys2Proof.Machine.execSlaveTimeMessage off ppb s
  | .slaveLock => Sys2Proof.Machine.execSlaveLock s
  | .cmpTargetCommit who d u lo hi => Sys2Proof.Machine.execCmpTargetCommit who d u lo hi s
  | .cmpArm who d u v => Sys2Proof.Machine.execCmpArm who d u v s
  | .cmpDisarm who d u v => Sys2Proof.Machine.execCmpDisarm who d u v s
  | .trigConfig who d n v => Sys2Proof.Machine.execTrigConfig who d n v s
  | .captureEdge d c rise => Sys2Proof.Machine.execCaptureEdge d c rise s
  | .captureConfig who d c v => Sys2Proof.Machine.execCaptureConfig who d c v s
  | .captureOwnerRead who d c w => Sys2Proof.Machine.execCaptureOwnerRead who d c w s
  | .tbSnapshot who d v => Sys2Proof.Machine.execTbSnapshot who d v s
  | .canModeInit who d c => Sys2Proof.Machine.execCanModeInit who d c s
  | .canModeNormal who d c => Sys2Proof.Machine.execCanModeNormal who d c s
  | .canModeListen who d c => Sys2Proof.Machine.execCanModeListen who d c s
  | .canModeLoopback who d c => Sys2Proof.Machine.execCanModeLoopback who d c s
  | .canModeSleep who d c => Sys2Proof.Machine.execCanModeSleep who d c s
  | .canSleepEnter d c => Sys2Proof.Machine.execCanSleepEnter d c s
  | .canBusIntegrated d c => Sys2Proof.Machine.execCanBusIntegrated d c s
  | .canSrst who d c => Sys2Proof.Machine.execCanSrst who d c s
  | .canRecover who d c => Sys2Proof.Machine.execCanRecover who d c s
  | .canBoffDelay d c => Sys2Proof.Machine.execCanBoffDelay d c s
  | .canRecovered d c => Sys2Proof.Machine.execCanRecovered d c s
  | .canTxReq who d c n oneshot => Sys2Proof.Machine.execCanTxReq who d c n oneshot s
  | .canTxAbort who d c n => Sys2Proof.Machine.execCanTxAbort who d c n s
  | .canTxFrameStart d c => Sys2Proof.Machine.execCanTxFrameStart d c s
  | .canTxComplete d c e => Sys2Proof.Machine.execCanTxComplete d c e s
  | .canFrameRx d c frame age edge => Sys2Proof.Machine.execCanFrameRx d c frame age edge s
  | .canBusError d c code dataPhase heavy edge => Sys2Proof.Machine.execCanBusError d c code dataPhase heavy edge s
  | .canAbrStart who d c v => Sys2Proof.Machine.execCanAbrStart who d c v s
  | .canAbrTimeout d c => Sys2Proof.Machine.execCanAbrTimeout d c s
  | .canWake d c frame age => Sys2Proof.Machine.execCanWake d c frame age s
  | .canWindowRead who d c q w => Sys2Proof.Machine.execCanWindowRead who d c q w s
  | .canQueueSkip who d c q => Sys2Proof.Machine.execCanQueueSkip who d c q s
  | .canQueueFlush who d c q => Sys2Proof.Machine.execCanQueueFlush who d c q s
  | .canParityError d c => Sys2Proof.Machine.execCanParityError d c s
  | .ceDispatch d k flips => Sys2Proof.Machine.execCeDispatch d k flips s
  | .ceCycleAbort d k n => Sys2Proof.Machine.execCeCycleAbort d k n s
  | .ceLineFill d k n => Sys2Proof.Machine.execCeLineFill d k n s
  | .cePostedWrite d k n => Sys2Proof.Machine.execCePostedWrite d k n s
  | .ceWaitEnd d k n => Sys2Proof.Machine.execCeWaitEnd d k n s
  | .cycleCommit d k n => Sys2Proof.Machine.execCycleCommit d k n s
  | .ceMov d k => Sys2Proof.Machine.execCeMov d k s
  | .ceMovz d k => Sys2Proof.Machine.execCeMovz d k s
  | .ceMovs d k => Sys2Proof.Machine.execCeMovs d k s
  | .ceAdr d k => Sys2Proof.Machine.execCeAdr d k s
  | .ceClr d k => Sys2Proof.Machine.execCeClr d k s
  | .ceXch d k => Sys2Proof.Machine.execCeXch d k s
  | .ceMovm d k => Sys2Proof.Machine.execCeMovm d k s
  | .cePush d k => Sys2Proof.Machine.execCePush d k s
  | .cePop d k => Sys2Proof.Machine.execCePop d k s
  | .ceAdd d k => Sys2Proof.Machine.execCeAdd d k s
  | .ceAddc d k => Sys2Proof.Machine.execCeAddc d k s
  | .ceSub d k => Sys2Proof.Machine.execCeSub d k s
  | .ceSubc d k => Sys2Proof.Machine.execCeSubc d k s
  | .ceMul d k => Sys2Proof.Machine.execCeMul d k s
  | .ceMulhu d k => Sys2Proof.Machine.execCeMulhu d k s
  | .ceMulhs d k => Sys2Proof.Machine.execCeMulhs d k s
  | .ceDivu d k => Sys2Proof.Machine.execCeDivu d k s
  | .ceDivs d k => Sys2Proof.Machine.execCeDivs d k s
  | .ceRemu d k => Sys2Proof.Machine.execCeRemu d k s
  | .ceRems d k => Sys2Proof.Machine.execCeRems d k s
  | .ceNeg d k => Sys2Proof.Machine.execCeNeg d k s
  | .ceCmp d k => Sys2Proof.Machine.execCeCmp d k s
  | .ceAnd d k => Sys2Proof.Machine.execCeAnd d k s
  | .ceOr d k => Sys2Proof.Machine.execCeOr d k s
  | .ceXor d k => Sys2Proof.Machine.execCeXor d k s
  | .ceAndn d k => Sys2Proof.Machine.execCeAndn d k s
  | .ceNot d k => Sys2Proof.Machine.execCeNot d k s
  | .ceTst d k => Sys2Proof.Machine.execCeTst d k s
  | .ceShl d k => Sys2Proof.Machine.execCeShl d k s
  | .ceShr d k => Sys2Proof.Machine.execCeShr d k s
  | .ceSar d k => Sys2Proof.Machine.execCeSar d k s
  | .ceRol d k => Sys2Proof.Machine.execCeRol d k s
  | .ceRor d k => Sys2Proof.Machine.execCeRor d k s
  | .ceBtst d k => Sys2Proof.Machine.execCeBtst d k s
  | .ceBset d k => Sys2Proof.Machine.execCeBset d k s
  | .ceBclr d k => Sys2Proof.Machine.execCeBclr d k s
  | .ceBchg d k => Sys2Proof.Machine.execCeBchg d k s
  | .ceFfs d k => Sys2Proof.Machine.execCeFfs d k s
  | .ceBswap d k => Sys2Proof.Machine.execCeBswap d k s
  | .ceCrcc d k => Sys2Proof.Machine.execCeCrcc d k s
  | .ceCrce d k => Sys2Proof.Machine.execCeCrce d k s
  | .ceBcc d k => Sys2Proof.Machine.execCeBcc d k s
  | .ceBsr d k => Sys2Proof.Machine.execCeBsr d k s
  | .ceJmp d k => Sys2Proof.Machine.execCeJmp d k s
  | .ceCall d k => Sys2Proof.Machine.execCeCall d k s
  | .ceRet d k => Sys2Proof.Machine.execCeRet d k s
  | .ceRete d k => Sys2Proof.Machine.execCeRete d k s
  | .ceLoop d k => Sys2Proof.Machine.execCeLoop d k s
  | .ceTrap d k => Sys2Proof.Machine.execCeTrap d k s
  | .ceNop d k => Sys2Proof.Machine.execCeNop d k s
  | .ceEnd d k => Sys2Proof.Machine.execCeEnd d k s
  | .ceWait d k => Sys2Proof.Machine.execCeWait d k s
  | .ceQget d k => Sys2Proof.Machine.execCeQget d k s
  | .ceQput d k => Sys2Proof.Machine.execCeQput d k s
  | .ceMapf d k => Sys2Proof.Machine.execCeMapf d k s
  | .ceMapg d k => Sys2Proof.Machine.execCeMapg d k s
  | .ceUnmap d k => Sys2Proof.Machine.execCeUnmap d k s
  | .ceFlush d k => Sys2Proof.Machine.execCeFlush d k s
  | .ceHalt who d k => Sys2Proof.Machine.execCeHalt who d k s
  | .ceRun who d k => Sys2Proof.Machine.execCeRun who d k s
  | .ceStep who d k => Sys2Proof.Machine.execCeStep who d k s
  | .ceSrst who d k => Sys2Proof.Machine.execCeSrst who d k s
  | .lockstepSelfTest d p ok => Sys2Proof.Machine.execLockstepSelfTest d p ok s
  | .lockstepMismatch d p finding pos => Sys2Proof.Machine.execLockstepMismatch d p finding pos s
  | .mirrorUpdateRx d p => Sys2Proof.Machine.execMirrorUpdateRx d p s
  | .heartbeatSend d p => Sys2Proof.Machine.execHeartbeatSend d p s
  | .heartbeatLoss d p => Sys2Proof.Machine.execHeartbeatLoss d p s
  | .supInterrupt d p => Sys2Proof.Machine.execSupInterrupt d p s
  | .supIdleWake d p => Sys2Proof.Machine.execSupIdleWake d p s
  | .supNop d p => Sys2Proof.Machine.execSupNop d p s
  | .supGetA d p => Sys2Proof.Machine.execSupGetA d p s
  | .supPutA d p => Sys2Proof.Machine.execSupPutA d p s
  | .supGetX d p => Sys2Proof.Machine.execSupGetX d p s
  | .supPutX d p => Sys2Proof.Machine.execSupPutX d p s
  | .supGetY d p => Sys2Proof.Machine.execSupGetY d p s
  | .supPutY d p => Sys2Proof.Machine.execSupPutY d p s
  | .supSethi d p => Sys2Proof.Machine.execSupSethi d p s
  | .supAdd d p => Sys2Proof.Machine.execSupAdd d p s
  | .supAddc d p => Sys2Proof.Machine.execSupAddc d p s
  | .supSub d p => Sys2Proof.Machine.execSupSub d p s
  | .supSubb d p => Sys2Proof.Machine.execSupSubb d p s
  | .supCmp d p => Sys2Proof.Machine.execSupCmp d p s
  | .supAnd d p => Sys2Proof.Machine.execSupAnd d p s
  | .supOr d p => Sys2Proof.Machine.execSupOr d p s
  | .supXor d p => Sys2Proof.Machine.execSupXor d p s
  | .supGetb d p => Sys2Proof.Machine.execSupGetb d p s
  | .supPutb d p => Sys2Proof.Machine.execSupPutb d p s
  | .supCmpX d p => Sys2Proof.Machine.execSupCmpX d p s
  | .supCmpY d p => Sys2Proof.Machine.execSupCmpY d p s
  | .supAddX d p => Sys2Proof.Machine.execSupAddX d p s
  | .supAddY d p => Sys2Proof.Machine.execSupAddY d p s
  | .supShl d p => Sys2Proof.Machine.execSupShl d p s
  | .supShr d p => Sys2Proof.Machine.execSupShr d p s
  | .supSar d p => Sys2Proof.Machine.execSupSar d p s
  | .supMul d p => Sys2Proof.Machine.execSupMul d p s
  | .supMovr d p => Sys2Proof.Machine.execSupMovr d p s
  | .supSave d p => Sys2Proof.Machine.execSupSave d p s
  | .supRestore d p => Sys2Proof.Machine.execSupRestore d p s
  | .supXchg d p => Sys2Proof.Machine.execSupXchg d p s
  | .supFlg d p => Sys2Proof.Machine.execSupFlg d p s
  | .supBcc d p => Sys2Proof.Machine.execSupBcc d p s
  | .supJump d p => Sys2Proof.Machine.execSupJump d p s
  | .supCall d p => Sys2Proof.Machine.execSupCall d p s
  | .supRet d p => Sys2Proof.Machine.execSupRet d p s
  | .supRetx d p => Sys2Proof.Machine.execSupRetx d p s
  | .supTrap d p => Sys2Proof.Machine.execSupTrap d p s
  | .supIdle d p => Sys2Proof.Machine.execSupIdle d p s
  | .supDbg d p => Sys2Proof.Machine.execSupDbg d p s
  | .sprDbgHalt who d p => Sys2Proof.Machine.execSprDbgHalt who d p s
  | .sprDbgStep who d p => Sys2Proof.Machine.execSprDbgStep who d p s
  | .sprDbgRun who d p => Sys2Proof.Machine.execSprDbgRun who d p s
  | .stnRun who d n => Sys2Proof.Machine.execStnRun who d n s
  | .stnStop who d n => Sys2Proof.Machine.execStnStop who d n s
  | .stnSrst who d n => Sys2Proof.Machine.execStnSrst who d n s
  | .stnGuardFire d n => Sys2Proof.Machine.execStnGuardFire d n s
  | .stnParityError d n => Sys2Proof.Machine.execStnParityError d n s
  | .stnWaitEnd d n => Sys2Proof.Machine.execStnWaitEnd d n s
  | .stnWaitpTimeout d n => Sys2Proof.Machine.execStnWaitpTimeout d n s
  | .stnDelay d n => Sys2Proof.Machine.execStnDelay d n s
  | .stnIn d n => Sys2Proof.Machine.execStnIn d n s
  | .stnOut d n => Sys2Proof.Machine.execStnOut d n s
  | .stnSet d n => Sys2Proof.Machine.execStnSet d n s
  | .stnWaitp d n => Sys2Proof.Machine.execStnWaitp d n s
  | .stnJcmp d n => Sys2Proof.Machine.execStnJcmp d n s
  | .stnJcond d n lvl => Sys2Proof.Machine.execStnJcond d n lvl s
  | .stnLdcnt d n => Sys2Proof.Machine.execStnLdcnt d n s
  | .stnDjnz d n => Sys2Proof.Machine.execStnDjnz d n s
  | .stnPush d n => Sys2Proof.Machine.execStnPush d n s
  | .stnClose d n => Sys2Proof.Machine.execStnClose d n s
  | .stnPull d n => Sys2Proof.Machine.execStnPull d n s
  | .stnFlag d n => Sys2Proof.Machine.execStnFlag d n s
  | .stnLdsr d n => Sys2Proof.Machine.execStnLdsr d n s
  | .stnNop d n => Sys2Proof.Machine.execStnNop d n s
  | .stnHalt d n => Sys2Proof.Machine.execStnHalt d n s
  | .stnTxdataWrite who d n v => Sys2Proof.Machine.execStnTxdataWrite who d n v s
  | .stnFlagSetWrite who d v => Sys2Proof.Machine.execStnFlagSetWrite who d v s
  | .stnFlagClrWrite who d v => Sys2Proof.Machine.execStnFlagClrWrite who d v s
  | .pinCfgWrite who d k v => Sys2Proof.Machine.execPinCfgWrite who d k v s
  | .pinHandoverDone d k => Sys2Proof.Machine.execPinHandoverDone d k s
  | .fioRefresh => Sys2Proof.Machine.execFioRefresh s
  | .fioDownlinkRx frame => Sys2Proof.Machine.execFioDownlinkRx frame s
  | .fioUplinkTimer => Sys2Proof.Machine.execFioUplinkTimer s
  | .fioUplinkRx frame => Sys2Proof.Machine.execFioUplinkRx frame s
  | .fioUplinkMissing => Sys2Proof.Machine.execFioUplinkMissing s
  | .fioOvercurrent k => Sys2Proof.Machine.execFioOvercurrent k s
  | .fioInputChange k level => Sys2Proof.Machine.execFioInputChange k level s
  | .fioWireBreak k => Sys2Proof.Machine.execFioWireBreak k s
  | .fioSupplyFault => Sys2Proof.Machine.execFioSupplyFault s
  | .fioOvertemp => Sys2Proof.Machine.execFioOvertemp s
  | .fioOutWr who d v => Sys2Proof.Machine.execFioOutWr who d v s
  | .fioOwnWrite who d k v => Sys2Proof.Machine.execFioOwnWrite who d k v s
  | .powerOnReset => Sys2Proof.Machine.execPowerOnReset s
  | .resetNAssert => Sys2Proof.Machine.execResetNAssert s
  | .resetRelease => Sys2Proof.Machine.execResetRelease s
  | .testenHigh => Sys2Proof.Machine.execTestenHigh s
  | .watchdogExpiry d => Sys2Proof.Machine.execWatchdogExpiry d s
  | .watchdogKick who d v => Sys2Proof.Machine.execWatchdogKick who d v s
  | .resetBistDone d ok0 ok1 => Sys2Proof.Machine.execResetBistDone d ok0 ok1 s
  | .undercoatVerified okA okB => Sys2Proof.Machine.execUndercoatVerified okA okB s
  | .die1ImageTransfer ok => Sys2Proof.Machine.execDie1ImageTransfer ok s
  | .undercoatStart d => Sys2Proof.Machine.execUndercoatStart d s
  | .configRestore d bad failed => Sys2Proof.Machine.execConfigRestore d bad failed s
  | .intentRestore d journals => Sys2Proof.Machine.execIntentRestore d journals s
  | .readyRaise d => Sys2Proof.Machine.execReadyRaise d s
  | .configCommit => Sys2Proof.Machine.execConfigCommit s
  | .pwrTransitionDone d => Sys2Proof.Machine.execPwrTransitionDone d s
  | .pmbusPoll d mv ma temp status ok => Sys2Proof.Machine.execPmbusPoll d mv ma temp status ok s
  | .vcoreStep d ok => Sys2Proof.Machine.execVcoreStep d ok s
  | .refLoss d => Sys2Proof.Machine.execRefLoss d s
  | .refReturn d => Sys2Proof.Machine.execRefReturn d s
  | .pwrfailAssert => Sys2Proof.Machine.execPwrfailAssert s
  | .snapshotSealed => Sys2Proof.Machine.execSnapshotSealed s
  | .pwrfailRelease => Sys2Proof.Machine.execPwrfailRelease s
  | .pathDelayReading d dom ps again => Sys2Proof.Machine.execPathDelayReading d dom ps again s
  | .ringOscReading d dom loss => Sys2Proof.Machine.execRingOscReading d dom loss s
  | .eyeMonitorReading d lane height width => Sys2Proof.Machine.execEyeMonitorReading d lane height width s
  | .driverCalReading d bank code => Sys2Proof.Machine.execDriverCalReading d bank code s
  | .tempReading d t16 => Sys2Proof.Machine.execTempReading d t16 s
  | .backgroundTestStart d cls idx => Sys2Proof.Machine.execBackgroundTestStart d cls idx s
  | .testStart d cls idx => Sys2Proof.Machine.execTestStart d cls idx s
  | .bistComplete d detail weak margin badBanks => Sys2Proof.Machine.execBistComplete d detail weak margin badBanks s
  | .testQueueAbort d => Sys2Proof.Machine.execTestQueueAbort d s
  | .ageingRecordWrite => Sys2Proof.Machine.execAgeingRecordWrite s
  | .logScrub d primBad mirBad => Sys2Proof.Machine.execLogScrub d primBad mirBad s
  | .logSuppressSummary d => Sys2Proof.Machine.execLogSuppressSummary d s
  | .logStreamPage d fails => Sys2Proof.Machine.execLogStreamPage d fails s
  | .counterCheckpoint => Sys2Proof.Machine.execCounterCheckpoint s
  | .logLfrClear who d v => Sys2Proof.Machine.execLogLfrClear who d v s
  | .hltUnitSelect who d v => Sys2Proof.Machine.execHltUnitSelect who d v s
  | .deviceResetStart => Sys2Proof.Machine.execDeviceResetStart s
  | .resetSourceGone src => Sys2Proof.Machine.execResetSourceGone src s
  | .pllUnlock d pll => Sys2Proof.Machine.execPllUnlock d pll s
  | .stencilTick d n lvl => Sys2Proof.Machine.execStencilTick d n lvl s
  | .stnGuardClear d n => Sys2Proof.Machine.execStnGuardClear d n s
  | .fioSupplyRestored => Sys2Proof.Machine.execFioSupplyRestored s
  | .fioWireRestored k => Sys2Proof.Machine.execFioWireRestored k s
  | .fioTempRestored => Sys2Proof.Machine.execFioTempRestored s
  | .asyncCommandComplete d c seq => Sys2Proof.Machine.execAsyncCommandComplete d c seq s

end Sys2Proof.Machine
end

