-- ==== Sys2Proof/Safety.lean ====
section
/-! DEFINITION. What counts as a safe run, in the terms the statements use: which accesses a state accepts, what a command leaves alone, and
the canonical form that every step keeps. -/

namespace Sys2Proof.Machine

/-- Checks 1 to 6 of R546 pass for a 32-bit write of a register, and R404 and R407 do not refuse an engine: what is left is the register's own
rule. -/
abbrev State.accepts (s : State) (who : Requester) (a : Nat) : Prop := s.regCheck who a .w32 true = none ∧ s.engineRefuses who a = false

/-- Checks 1 to 6 of R546 pass for a 32-bit read of a register. -/
abbrev State.acceptsRead (s : State) (who : Requester) (a : Nat) : Prop := s.regCheck who a .w32 false = none

/-- The requester is an engine that runs a slot in SHADOW: what it writes goes to the compare (R338, R444). -/
def State.inShadow (s : State) (who : Requester) : Bool :=
  match who with
  | .ce d k => (match s.runSlot d k with
    | some n => s.slotShadow d k n
    | none => false)
  | _ => false

/-- A command answers a next state, of which `P` holds. -/
def Does (c : Instr) (s : State) (P : State → Prop) : Prop := ∃ t, exec c s = .next t ∧ P t

/-- Every byte of memory reads in `t` as in `s`. -/
def State.keepsMem (s t : State) : Prop := ∀ a, t.byte a = s.byte a

/-- Every register but those of `l` reads in `t` as in `s`. -/
def State.keepsRegs (s t : State) (l : List Nat) : Prop := ∀ a, a ∉ l → t.getReg a = s.getReg a

/-- Block number of a register address (R538). -/
def blkOf (a : Nat) : Nat := a / 0x1_0000 % 0x1_0000

/-- Every register outside the blocks of `l` reads in `t` as in `s`. -/
def State.keepsBlocks (s t : State) (l : List Nat) : Prop := ∀ a, blkOf a ∉ l → t.getReg a = s.getReg a

/-- The state with a command taken from the queues of a die's interpreter (R142). -/
def State.taken (s : State) (d : Die) (c : HostCmd) : State :=
  s.setInterp d { s.interpOf d with urgent := (s.interpOf d).urgent.erase c, normal := (s.interpOf d).normal.erase c }

/-- The interpreter of a die is at work, a command is its next one, and what the command names can be reached (R137, R138, R142). -/
abbrev State.ready (s : State) (d : Die) (c : HostCmd) : Prop :=
  s.running d = true ∧ s.interpDie d = d ∧ ((s.interpOf d).own d s.linkUp).nextCmd = some c ∧ (s.taken d c).reaches d c = true

/-- An engine runs a cycle, waits for nothing, and stands at instruction `i`, whose word 0 is `w0` (R355). -/
abbrev State.ceStands (s : State) (d : Die) (k : Fin 24) (i : Ins) (w0 : Nat) : Prop :=
  s.ceReady d k = true ∧ (s.ceFetchIns d k).1.toOption = some (i, w0)

/-- The context that instruction starts with, and its PC. -/
def State.ceCx (s : State) (d : Die) (k : Fin 24) : Cx := (s.ceFetchIns d k).2.cx d k
def State.cePc (s : State) (d : Die) (k : Fin 24) : Nat := s.fld (R.CE_PC d k) 0 16

/-- The value that S1 gives at a size, and the operand that D names. -/
def Cx.val1 (x : Cx) (i : Ins) (n : Nat) : CeRes (Nat × Opnd) :=
  let (o1, _, od, x) := x.operands i
  (x.get o1 n).bind fun a x => .ok (a, od) x

/-- The values that S1 and S2 give at their sizes, and the operand that D names. -/
def Cx.val2 (x : Cx) (i : Ins) (n m : Nat) : CeRes (Nat × Nat × Opnd) :=
  let (o1, o2, od, x) := x.operands i
  (x.get o1 n).bind fun a x => (x.get o2 m).bind fun b x => .ok (a, b, od) x

/-- An instruction with `n` cycles besides those of its operands stays within the limit, and the PC behind it within 64 KiB (R365, R355). -/
abbrev Cx.fits (x : Cx) (d : Die) (k : Fin 24) (n next : Nat) : Prop := x.pre.ceBeyond d k (x.cost + n) = false ∧ next < 0x1_0000

/-- The state behind an instruction that completes: its results stand, and the engine arrives at the next PC. -/
def Cx.ends (x : Cx) (d : Die) (k : Fin 24) (n next : Nat) : State := ((x.spend n).commit next).ceGo d k

/-- The state behind an instruction that raises an exception. -/
def State.ceRaise (s : State) (d : Die) (k : Fin 24) (cause detail addr pc w0 : Nat) : State :=
  (s.ceExcept d k cause detail addr pc w0).ceGo d k

/-- The register file and the memory are in canonical form: keys strictly rising, no entry equal to what an unlisted one reads as. -/
def State.canonical (s : State) : Prop := Tab.wf resetWord s.regs = true ∧ Tab.wf memDefault s.mem = true

/-- No step stops: every command is answered by a next state. -/
def State.runs (s : State) : Prop := ∃ t, step s = .next t

/-! ## What an instruction of an engine leaves (R369, R371) -/

/-- The engine stands at an instruction with opcode `op`; its operands give `a` (S1) and `b` (S2) at its size and name `od` as D; `old` is the
word that a bit-field D lies in, and `x` the context behind these reads. -/
def State.ceReads (s : State) (d : Die) (k : Fin 24) (op : Nat) (i : Ins) (a b : Nat) (od : Opnd) (old : Nat) (x : Cx) : Prop :=
  (∃ w0, s.ceStands d k i w0) ∧ i.op = op ∧ ∃ y, (s.ceCx d k).val2 i i.size i.size = .ok (a, b, od) y ∧ y.getOld od = .ok old x

/-- The same for an instruction that reads S1 alone, at `n` bytes. -/
def State.ceReads1 (s : State) (d : Die) (k : Fin 24) (op : Nat) (i : Ins) (n a : Nat) (od : Opnd) (x : Cx) : Prop :=
  (∃ w0, s.ceStands d k i w0) ∧ i.op = op ∧ (s.ceCx d k).val1 i n = .ok (a, od) x

/-- The instruction completes with FLAGS `fl`, `n` cycles besides those of its operands, and the engine goes on at `next`. -/
def CeEnds (c : Instr) (s : State) (d : Die) (k : Fin 24) (x : Cx) (fl n next : Nat) : Prop :=
  x.fits d k n next → Does c s fun t => t = ({ x with fl := fl }).ends d k n next

/-- The instruction writes `r` of `size` bytes to D and completes with FLAGS `fl` and `n` cycles behind itself. -/
def CeWrites (c : Instr) (s : State) (d : Die) (k : Fin 24) (i : Ins) (od : Opnd) (old : Nat) (x : Cx) (size r fl n : Nat) : Prop :=
  ∀ y, x.put od size r old = .ok () y → CeEnds c s d k y fl n (i.next (s.cePc d k))

/-- The engine stands at an instruction with opcode `op`. -/
def State.ceAt (s : State) (d : Die) (k : Fin 24) (op : Nat) (i : Ins) : Prop := (∃ w0, s.ceStands d k i w0) ∧ i.op = op

/-- The instruction stalls: the engine waits for `kind`, at `line` and `off`, with `mask`, and its CYC_USED has advanced by `n`. -/
def CeStalls (c : Instr) (s : State) (d : Die) (k : Fin 24) (x : Cx) (kind mask n : Nat) : Prop :=
  x.pre.ceBeyond d k x.cost = false → Does c s fun t =>
    (t.ceOf d k).stall = kind ∧ (t.ceOf d k).mask = mask ∧ (t.ceOf d k).log = x.done ∧
    t.flag (R.CE_STAT d k) 3 = decide (kind = 5) ∧
    t.getReg (R.CE_CYC_USED d k) = wd (min ((x.s.getReg (R.CE_CYC_USED d k)).toNat + n) 0xFFFF_FFFF) ∧
    x.s.keepsMem t ∧ x.s.keepsRegs t [R.CE_STAT d k, R.CE_CYC_USED d k]

/-! ## What an instruction of a supervisor leaves (R436 to R440) -/

/-- A supervisor pair executes and stands at a legal instruction `i` with opcode `op`, before no interrupt; `t` is the state behind its fetch. -/
def State.supAt (s : State) (d : Die) (p : Fin 2) (op : Nat) (i : SupIns) (t : State) : Prop :=
  s.supLive d p.val = true ∧ s.supIntr d p.val = false ∧ (s.supOf d p).idle = false ∧ s.supFetch d p = .ok i t ∧ i.op = op ∧
    supKnown op = true ∧ i.legal = true

/-- The instruction completes with its results in `u`, and PC at `next`. -/
def SupEnds (c : Instr) (s : State) (d : Die) (p : Fin 2) (u : State) (next : Nat) : Prop :=
  Does c s fun z => z = (u.setSreg d p.val 4 next).supDone d p.val

/-- The PC behind an instruction fetched from `t`. -/
def State.supNext (t : State) (d : Die) (p : Fin 2) (i : SupIns) : Nat := (t.sreg d p.val 4 + i.len) % 0x1_0000_0000

/-- The state behind an instruction that raises an exception: its entry, with the PC to be pushed. -/
def State.supRaise (t : State) (d : Die) (p : Fin 2) (cause detail pc : Nat) : State := (t.supDone d p.val).supExcept d p cause detail pc

/-! ## What a checked write answers (R546) -/

/-- A write completes and is answered so; `P` holds of the state behind it. -/
def Accepted (c : Instr) (s : State) (who : Requester) (a : Nat) (P : State → Prop) : Prop :=
  Does c s fun t => t.out.head? = some (.answer who a .done) ∧ P t

/-- A write is refused with a cause, which is all it does. -/
def RefusedWith (c : Instr) (s : State) (who : Requester) (a cause : Nat) : Prop := Does c s fun t => t = s.refuse who a true cause

/-- A counter register of 32 bits has advanced by `n`, or stands at its maximum (R11). -/
def State.counted (s t : State) (a n : Nat) : Prop := (t.getReg a).toNat = min ((s.getReg a).toNat + n) 0xFFFF_FFFF

/-- The requester can write, is not an engine whose writes go to a compare, and its write passes the checks. -/
abbrev State.writes (s : State) (who : Requester) (a : Nat) : Prop := s.accepts who a ∧ s.inShadow who = false

/-! ## What waits in a stream FIFO (R72) -/

/-- Everything in a stream FIFO, its open word and its open packet too, carries the epoch that it accepts from its source. -/
def State.sfqCurrent (s : State) (d : Die) (n : Nat) : Prop :=
  let q := s.sfqOf d n
  (∀ e ∈ q.entries, e.epoch = s.sfqAccepted d n) ∧ (q.lanes ≠ [] → q.laneEpoch = s.sfqAccepted d n) ∧
    ∀ p, q.pkt = some p → p.epoch = s.sfqAccepted d n

/-! ## Programs of a stencil (R448 to R451) -/

/-- A stencil is clocked and runs, has no instruction in progress, and its current step is one of opcode `op`. -/
abbrev State.stnStands (s : State) (d : Die) (n op : Nat) : Prop :=
  s.unitsRun d = true ∧ s.stnRuns d n = true ∧ (s.stnOf d n).busy = false ∧ stnOp (s.stnWord d n) = op

/-- A stencil is clocked, runs and has an instruction of opcode `op` in progress. -/
abbrev State.stnInside (s : State) (d : Die) (n op : Nat) : Prop :=
  s.unitsRun d = true ∧ s.stnRuns d n = true ∧ (s.stnOf d n).busy = true ∧ stnOp (s.stnWord d n) = op

/-- A stencil stands at the start of step `pc`; of the registers only STN_STAT and those of `l` have changed. -/
def State.stnAtStep (s t : State) (d : Die) (n pc : Nat) (l : List Nat) : Prop :=
  t.stnPc d n = pc % 32 ∧ t.stnRuns d n = true ∧ t.flag (R.STN_STAT d n) 5 = false ∧ (t.stnOf d n).busy = false ∧
    s.keepsRegs t (R.STN_STAT d n :: l) ∧ s.keepsMem t

/-! ## Replies of the interpreter (R132, R133, R139) -/

/-- A command is the last one of its channel, which has kept its owner since. -/
abbrev State.latest (s : State) (c : HostCmd) : Prop :=
  c.ch < 40 ∧ s.fld (R.CMD_CH_STAT c.die c.ch) 16 16 = c.seq ∧ (s.chan c.die c.ch).gen = c.gen

/-- The latest reply of a command's channel in `t`: its status, FINAL and ASYNC, DETAIL and words. -/
def State.replied (s t : State) (c : HostCmd) (status : Nat) (final async : Bool) (detail : Nat) (ws : List Word) : Prop :=
  (t.chan c.die c.ch).lastReply = replyPacket status final async false c.op detail c.seq (s.cmdEpoch (s.interpDie c.die)) c.tag ws

/-- A command is answered ACCEPTED and kept until its completion. -/
def State.acceptedCmd (s t : State) (c : HostCmd) : Prop := s.replied t c stACCEPTED false false 0 [] ∧ c ∈ t.asyncCmds

/-- A command of an opcode is the next one of the interpreter of `d`, and the last one of its channel. -/
abbrev State.front (s : State) (d : Die) (k : HostCmd) (op : Nat) : Prop := s.ready d k ∧ s.latest k ∧ k.op = op

/-- The command's reply is a status with FINAL and ASYNC, DETAIL and words; `P` holds of the state behind it. -/
def Replies (c : Instr) (s : State) (k : HostCmd) (status : Nat) (final async : Bool) (detail : Nat) (ws : List Word) (P : State → Prop) : Prop :=
  Does c s fun t => s.replied t k status final async detail ws ∧ P t

/-- Every byte of memory reads as before, if the command came by a mailbox channel: an in-band channel's reply is stored as a frame (R223). -/
abbrev State.keepsMemFor (s : State) (k : HostCmd) (t : State) : Prop := k.ch < 32 → s.keepsMem t

/-- A query: answered OK with its words; by a mailbox channel's reply only registers of commands, mailboxes and doorbells may change. -/
def Answers (c : Instr) (s : State) (k : HostCmd) (ws : List Word) : Prop :=
  Replies c s k stOK true false 0 ws fun t => k.ch < 32 → s.keepsMem t ∧ s.keepsBlocks t [4, 5, 6]

/-- A command with an effect: answered OK with its words, with `P` behind it. -/
def Carries (c : Instr) (s : State) (k : HostCmd) (ws : List Word) (P : State → Prop) : Prop := Replies c s k stOK true false 0 ws P

/-- A command turned away when it is executed: status and DETAIL, no words, with no other effect than a query has. -/
def Turns (c : Instr) (s : State) (k : HostCmd) (status detail : Nat) : Prop :=
  Replies c s k status true false detail [] fun t => k.ch < 32 → s.keepsMem t ∧ s.keepsBlocks t [4, 5, 6]

/-- A command accepted, which its completion answers later. -/
def Accepts (c : Instr) (s : State) (k : HostCmd) (P : State → Prop) : Prop := Does c s fun t => s.acceptedCmd t k ∧ P t

/-- An accepted command ended: its final reply, after which it is no longer outstanding. -/
def Ends (c : Instr) (s : State) (k : HostCmd) (status detail : Nat) (ws : List Word) (P : State → Prop) : Prop :=
  Replies c s k status true true detail ws fun t => k ∉ t.asyncCmds ∧ P t

/-! ## What every step keeps -/

/-- The sizes of the fixed buffers: the ring's down port is one of two, a CAN controller has two queues and three buffers. -/
def State.sized (s : State) : Prop :=
  (∀ d, (s.ringOf d).dn < 2 ∧ (s.ringOf d).pendDn < 2) ∧ ∀ d c, (s.canOf d c).qs.length = 2 ∧ (s.canOf d c).retries.length = 3

/-- The invariant of the block. -/
def State.inv (s : State) : Prop := s.canonical ∧ s.sized

end Sys2Proof.Machine
end

