-- ==== Sys2Proof/Certificates/Slice0/Obligations.lean ====
section
/-! DEFINITION. The statements for the provers, in the order of the command table's families. -/

open Sys2Proof Sys2Proof.Machine

/-! ## Communication engines (R353 to R384) -/

/-- R371: ADD, ADDC, SUB, SUBC, NEG and CMP at the operand size, with Z, N, C (carry or borrow) and V (signed overflow). R371: the products and quotients, with C = 0 and V = 0 but for the overflow of DIVS; a zero divisor raises DIVZ and writes nothing. -/
def Obligations.EngineArithmetic : Prop :=
  (∀ (d : Die) (k : Fin 24) (s : State) (i : Ins) (a b : Nat) (od : Opnd) (old : Nat) (x : Cx),
    let w := 8 * i.size
    let c := if flagC x.fl then 1 else 0
    (s.ceReads d k 0x10 i a b od old x → CeWrites (.ceAdd d k) s d k i od old x i.size ((a + b) % 2 ^ w)
      (flagsZNCV w ((a + b) % 2 ^ w) (decide (2 ^ w ≤ a + b)) (outside w (signed w a + signed w b)) x.fl) 1) ∧
    (s.ceReads d k 0x11 i a b od old x → CeWrites (.ceAddc d k) s d k i od old x i.size ((a + b + c) % 2 ^ w)
      (flagsZNCV w ((a + b + c) % 2 ^ w) (decide (2 ^ w ≤ a + b + c)) (outside w (signed w a + signed w b + (c : Nat))) x.fl) 1) ∧
    (s.ceReads d k 0x12 i a b od old x → CeWrites (.ceSub d k) s d k i od old x i.size (wrapInt w ((a : Int) - (b : Nat)))
      (flagsZNCV w (wrapInt w ((a : Int) - (b : Nat))) (decide (a < b)) (outside w (signed w a - signed w b)) x.fl) 1) ∧
    (s.ceReads d k 0x13 i a b od old x → CeWrites (.ceSubc d k) s d k i od old x i.size (wrapInt w ((a : Int) - (b + c : Nat)))
      (flagsZNCV w (wrapInt w ((a : Int) - (b + c : Nat))) (decide (a < b + c)) (outside w (signed w a - signed w b - (c : Nat))) x.fl) 1) ∧
    (s.ceReads d k 0x1B i a b od old x → CeWrites (.ceNeg d k) s d k i od old x i.size (wrapInt w (-(a : Int)))
      (flagsZNCV w (wrapInt w (-(a : Int))) (decide (0 < a)) (outside w (signed w 0 - signed w a)) x.fl) 1) ∧
    ((∃ w0, s.ceStands d k i w0) → i.op = 0x1C → (s.ceCx d k).val2 i i.size i.size = .ok (a, b, od) x →
      CeEnds (.ceCmp d k) s d k x (flagsZNCV w (wrapInt w ((a : Int) - (b : Nat))) (decide (a < b)) (outside w (signed w a - signed w b)) x.fl)
        1 (i.next (s.cePc d k)))) ∧
  (∀ (d : Die) (k : Fin 24) (s : State) (i : Ins) (a b : Nat) (od : Opnd) (old : Nat) (x : Cx),
    let w := 8 * i.size
    let plain (r : Nat) : Nat := flagsZNCV w r false false x.fl
    let puts (c : Instr) (r fl n : Nat) : Prop := CeWrites c s d k i od old x i.size r fl n
    let q := (signed w a).tdiv (signed w b)
    let r := (signed w a).tmod (signed w b)
    (s.ceReads d k 0x14 i a b od old x → puts (.ceMul d k) (a * b % 2 ^ w) (plain (a * b % 2 ^ w)) 3) ∧
    (s.ceReads d k 0x15 i a b od old x → puts (.ceMulhu d k) (a * b / 2 ^ w % 2 ^ w) (plain (a * b / 2 ^ w % 2 ^ w)) 3) ∧
    (s.ceReads d k 0x16 i a b od old x →
      puts (.ceMulhs d k) (wrapInt w (signed w a * signed w b / (2 ^ w : Nat))) (plain (wrapInt w (signed w a * signed w b / (2 ^ w : Nat)))) 3) ∧
    (s.ceReads d k 0x17 i a b od old x → b ≠ 0 → puts (.ceDivu d k) (a / b) (plain (a / b)) (2 + w)) ∧
    (s.ceReads d k 0x18 i a b od old x → b ≠ 0 →
      puts (.ceDivs d k) (wrapInt w q) (flagsZNCV w (wrapInt w q) false (outside w q) x.fl) (2 + w)) ∧
    (s.ceReads d k 0x19 i a b od old x → b ≠ 0 → puts (.ceRemu d k) (a % b) (plain (a % b)) (2 + w)) ∧
    (s.ceReads d k 0x1A i a b od old x → b ≠ 0 → puts (.ceRems d k) (wrapInt w r) (plain (wrapInt w r)) (2 + w)) ∧
    (∀ op c, (op, c) ∈ [(0x17, Instr.ceDivu d k), (0x18, .ceDivs d k), (0x19, .ceRemu d k), (0x1A, .ceRems d k)] →
      s.ceReads d k op i a 0 od old x → ∀ w0, s.ceStands d k i w0 → Does c s fun t => t = x.pre.ceRaise d k 8 0 0 ((s.ceCx d k).s.fld (R.CE_PC d k) 0 16) w0))

/-- R371: the logic operations, TST, and the shifts and rotates with C the last bit shifted out. -/
def Obligations.EngineLogicAndShifts : Prop :=
  ∀ (d : Die) (k : Fin 24) (s : State) (i : Ins) (a b : Nat) (od : Opnd) (old : Nat) (x : Cx),
    let w := 8 * i.size
    let puts (c : Instr) (r : Nat) (cf : Bool) : Prop := CeWrites c s d k i od old x i.size r (flagsZNCV w r cf false x.fl) 1
    let n := b % 32
    let m := b % w
    let rol := if m = 0 then a else (a * 2 ^ m + a / 2 ^ (w - m)) % 2 ^ w
    let ror := if m = 0 then a else (a / 2 ^ m + a * 2 ^ (w - m)) % 2 ^ w
    (s.ceReads d k 0x20 i a b od old x → puts (.ceAnd d k) (a &&& b) false) ∧
    (s.ceReads d k 0x21 i a b od old x → puts (.ceOr d k) (a ||| b) false) ∧
    (s.ceReads d k 0x22 i a b od old x → puts (.ceXor d k) (a ^^^ b) false) ∧
    (s.ceReads d k 0x23 i a b od old x → puts (.ceAndn d k) (a &&& (b ^^^ (2 ^ w - 1))) false) ∧
    (s.ceReads d k 0x24 i a b od old x → puts (.ceNot d k) (a ^^^ (2 ^ w - 1)) false) ∧
    ((∃ w0, s.ceStands d k i w0) → i.op = 0x25 → (s.ceCx d k).val2 i i.size i.size = .ok (a, b, od) x →
      CeEnds (.ceTst d k) s d k x (flagsZNCV w a false false x.fl) 1 (i.next (s.cePc d k))) ∧
    (s.ceReads d k 0x26 i a b od old x →
      puts (.ceShl d k) (a * 2 ^ n % 2 ^ w) (decide (n ≠ 0) && decide (n ≤ w) && a.testBit (w - n))) ∧
    (s.ceReads d k 0x27 i a b od old x → puts (.ceShr d k) (a / 2 ^ n) (decide (n ≠ 0) && a.testBit (n - 1))) ∧
    (s.ceReads d k 0x28 i a b od old x →
      puts (.ceSar d k) (wrapInt w (signed w a / (2 ^ n : Nat))) (decide (n ≠ 0) && a.testBit (min (n - 1) (w - 1)))) ∧
    (s.ceReads d k 0x29 i a b od old x → puts (.ceRol d k) rol (decide (m ≠ 0) && rol.testBit 0)) ∧
    (s.ceReads d k 0x2A i a b od old x → puts (.ceRor d k) ror (decide (m ≠ 0) && ror.testBit (w - 1)))

/-- R370, R371: the moves; D of MOVZ, MOVS and ADR is a word, and XCH writes both operands once both are read. R371: the bit operations with T, FFS, BSWAP, and the two CRC steps over the bytes of S2. -/
def Obligations.EngineMovesBitsAndChecks : Prop :=
  (∀ (d : Die) (k : Fin 24) (s : State) (i : Ins) (a b : Nat) (od : Opnd) (old : Nat) (x : Cx),
    (s.ceReads d k 0x01 i a b od old x → CeWrites (.ceMov d k) s d k i od old x i.size a x.fl 1) ∧
    (∀ y, s.ceReads1 d k 0x02 i i.size a od y → y.getOld od = .ok old x → CeWrites (.ceMovz d k) s d k i od old x 4 a x.fl 1) ∧
    (∀ y, s.ceReads1 d k 0x03 i i.size a od y → y.getOld od = .ok old x →
      CeWrites (.ceMovs d k) s d k i od old x 4 (wrapInt 32 (signed (8 * i.size) a)) x.fl 1) ∧
    (∀ o1 o2 y p, s.ceAt d k 0x04 i → (s.ceCx d k).operands i = (o1, o2, od, y) → o1 = .mem p → y.getOld od = .ok old x →
      CeWrites (.ceAdr d k) s d k i od old x 4 (match p with | .loc n => n | .win _ n => n) x.fl 1) ∧
    (∀ o1 o2 y, s.ceAt d k 0x05 i → (s.ceCx d k).operands i = (o1, o2, od, y) → y.getOld od = .ok old x →
      CeWrites (.ceClr d k) s d k i od old x i.size 0 x.fl 1) ∧
    (∀ o1 o2 y u v z, s.ceAt d k 0x06 i → (s.ceCx d k).operands i = (o1, o2, od, y) → y.getBoth o1 i.size = .ok u z →
      z.getBoth od i.size = .ok v x → ∀ y₁ y₂, x.put od i.size u.1 v.2 = .ok () y₁ → y₁.put o1 i.size v.1 u.2 = .ok () y₂ →
      CeEnds (.ceXch d k) s d k y₂ y₂.fl 1 (i.next (s.cePc d k)))) ∧
  (∀ (d : Die) (k : Fin 24) (s : State) (i : Ins) (a b : Nat) (od : Opnd) (old : Nat) (x : Cx),
    let w := 8 * i.size
    ((∃ w0, s.ceStands d k i w0) → i.op = 0x30 → (s.ceCx d k).val2 i i.size i.size = .ok (a, b, od) x →
      CeEnds (.ceBtst d k) s d k x (flagsT (a.testBit (b % w)) x.fl) 1 (i.next (s.cePc d k))) ∧
    (∀ y v, s.ceReads1 d k 0x31 i i.size a od y → y.getBoth od i.size = .ok v x →
      CeWrites (.ceBset d k) s d k i od v.2 x i.size (if v.1.testBit (a % w) then v.1 else v.1 + 2 ^ (a % w)) (flagsT (v.1.testBit (a % w)) x.fl) 1) ∧
    (∀ y v, s.ceReads1 d k 0x32 i i.size a od y → y.getBoth od i.size = .ok v x →
      CeWrites (.ceBclr d k) s d k i od v.2 x i.size (if v.1.testBit (a % w) then v.1 - 2 ^ (a % w) else v.1) (flagsT (v.1.testBit (a % w)) x.fl) 1) ∧
    (∀ y v, s.ceReads1 d k 0x33 i i.size a od y → y.getBoth od i.size = .ok v x →
      CeWrites (.ceBchg d k) s d k i od v.2 x i.size (if v.1.testBit (a % w) then v.1 - 2 ^ (a % w) else v.1 + 2 ^ (a % w))
        (flagsT (v.1.testBit (a % w)) x.fl) 1) ∧
    (s.ceReads d k 0x35 i a b od old x →
      CeWrites (.ceFfs d k) s d k i od old x i.size (lowBit a 0 w) (flagsZ (decide (a = 0)) x.fl) 1) ∧
    (s.ceReads d k 0x36 i a b od old x →
      CeWrites (.ceBswap d k) s d k i od old x i.size (ofLe (leBytes i.size a).reverse) (flagsZN w (ofLe (leBytes i.size a).reverse) x.fl) 1) ∧
    (∀ poly op c, (poly, op, c) ∈ [(0x82F6_3B78, 0x37, Instr.ceCrcc d k), (0xEDB8_8320, 0x38, .ceCrce d k)] → s.ceAt d k op i →
      ∀ y, (s.ceCx d k).val2 i 4 i.size = .ok (a, b, od) y → y.getOld od = .ok old x →
      CeWrites c s d k i od old x 4 (crcRun poly a (leBytes i.size b)) x.fl 1))

/-- The results and carries of `aluAdd`, `aluSub`, the shifts and the rotates are those of words of the operand's width: overflow when the
signs of the operands force another sign than the result has (R371). -/
def Obligations.EngineArithmeticIsThatOfWords : Prop :=
  ∀ (w : Nat), w ∈ [8, 16, 32] → ∀ (a b : BitVec w) (c : Bool) (fl n : Nat), n < 32 →
    let cb : BitVec w := if c then 1 else 0
    let add := aluAdd w a.toNat b.toNat c fl
    let sub := aluSub w a.toNat b.toNat c fl
    add.1 = (a + b + cb).toNat ∧ flagV add.2 = (a.msb == b.msb && (a + b + cb).msb != a.msb) ∧
    flagN add.2 = (a + b + cb).msb ∧ flagZ add.2 = (a + b + cb == 0) ∧ flagT add.2 = flagT fl ∧
    sub.1 = (a - b - cb).toNat ∧ flagV sub.2 = (a.msb != b.msb && (a - b - cb).msb != a.msb) ∧
    flagN sub.2 = (a - b - cb).msb ∧ flagZ sub.2 = (a - b - cb == 0) ∧ flagT sub.2 = flagT fl ∧
    (aluShl w a.toNat n fl).1 = (a <<< n).toNat ∧ (aluShr w a.toNat n fl).1 = (a >>> n).toNat ∧
    (aluSar w a.toNat n fl).1 = (a.sshiftRight n).toNat ∧
    (aluRol w a.toNat n fl).1 = (a.rotateLeft n).toNat ∧ (aluRor w a.toNat n fl).1 = (a.rotateRight n).toNat ∧
    (aluMulhs w a.toNat b.toNat fl).1 = ((a.signExtend (2 * w) * b.signExtend (2 * w)) >>> w).toNat % 2 ^ w ∧
    (b ≠ 0 → (aluDivs w a.toNat b.toNat fl).1 = (a.sdiv b).toNat ∧ (aluRems w a.toNat b.toNat fl).1 = (a.srem b).toNat)

/-- R373, R374, R382: branches, calls and returns, the stack instructions, LOOP, TRAP and NOP. R374: a push writes at SP − 4 and then sets SP := SP − 4, a pop reads at SP and then sets SP := SP + 4, each within the stack window only;
otherwise STACK is raised with nothing done. -/
def Obligations.EngineControlFlow : Prop :=
  (∀ (d : Die) (k : Fin 24) (s : State) (i : Ins),
    let x := s.ceCx d k
    let pc := s.cePc d k
    let target := wrapInt 32 ((pc : Int) + 4 * i.disp)
    (∀ v od x y, s.ceReads1 d k 0x08 i 4 v od x → x.push v = .ok () y → CeEnds (.cePush d k) s d k y y.fl 1 (i.next pc)) ∧
    (∀ o1 o2 od old v y x₁ x₂, s.ceAt d k 0x09 i → x.operands i = (o1, o2, od, y) → y.pop = .ok v x₁ → x₁.getOld od = .ok old x₂ →
      CeWrites (.cePop d k) s d k i od old x₂ 4 v x₂.fl 1) ∧
    (s.ceAt d k 0x40 i → condHolds i.cond x.fl = true → CeEnds (.ceBcc d k) s d k x x.fl 2 target) ∧
    (s.ceAt d k 0x40 i → condHolds i.cond x.fl = false → CeEnds (.ceBcc d k) s d k x x.fl 1 (i.next pc)) ∧
    (∀ y, s.ceAt d k 0x41 i → x.push (pc + 4) = .ok () y → CeEnds (.ceBsr d k) s d k y y.fl 3 target) ∧
    (∀ v od y, s.ceReads1 d k 0x42 i 4 v od y → CeEnds (.ceJmp d k) s d k y y.fl 2 v) ∧
    (∀ v od x₁ y, s.ceReads1 d k 0x43 i 4 v od x₁ → x₁.push (i.next pc) = .ok () y → CeEnds (.ceCall d k) s d k y y.fl 3 v) ∧
    (∀ v y, s.ceAt d k 0x44 i → x.pop = .ok v y → CeEnds (.ceRet d k) s d k y y.fl 3 v) ∧
    (∀ cw f v y₁ y₂ y₃, s.ceAt d k 0x45 i → x.s.ceNested d k = false → x.canPop 3 = true → x.pop = .ok cw y₁ → y₁.pop = .ok f y₂ →
      y₂.pop = .ok v y₃ → CeEnds (.ceRete d k) s d k y₃ (f % 32) 5 v) ∧
    (s.ceAt d k 0x45 i → x.s.ceNested d k = true →
      CeEnds (.ceRete d k) s d k
        { x with s := x.s.setFlag (R.CE_STAT d k) 2 false, sp := (x.s.getReg (R.CE_FS d k 3)).toNat } (x.s.fld (R.CE_FS d k 1) 0 5) 5
        (x.s.fld (R.CE_FS d k 0) 0 16)) ∧
    (∀ o1 o2 od v y x₁ x₂, s.ceAt d k 0x46 i → x.operands i = (o1, o2, od, y) → y.getBoth od i.size = .ok v x₁ →
      let r := wrapInt (8 * i.size) ((v.1 : Int) - 1)
      x₁.put od i.size r v.2 = .ok () x₂ →
      (r ≠ 0 → CeEnds (.ceLoop d k) s d k x₂ x₂.fl 2 target) ∧ (r = 0 → CeEnds (.ceLoop d k) s d k x₂ x₂.fl 1 (i.next pc))) ∧
    (∀ w0, s.ceStands d k i w0 → i.op = 0x47 →
      Does (.ceTrap d k) s fun t => t = x.s.ceRaise d k (16 + i.cond) 0 0 (x.s.fld (R.CE_PC d k) 0 16 + 4) w0) ∧
    (s.ceAt d k 0x48 i → CeEnds (.ceNop d k) s d k x x.fl 1 (i.next pc))) ∧
  (∀ (x : Cx) (v : Nat),
    let lo := (x.s.getReg (R.CE_SP_LO x.d x.k)).toNat
    let hi := (x.s.getReg (R.CE_SP_HI x.d x.k)).toNat
    let at_ (a : Nat) : Nat := ceMemAddr x.d x.k a
    0x1_0000 ≤ lo → hi ≤ 0x3_0000 →
    (x.sp % 4 = 0 → x.sp ≤ hi → lo + 4 ≤ x.sp → v < 0x1_0000_0000 → ∃ y, x.push v = .ok () y ∧ y.sp = x.sp - 4 ∧ y.b = x.b ∧ y.fl = x.fl ∧
      y.s.word (at_ (x.sp - 4)) = wd v ∧ y.s.regs = x.s.regs ∧
      ∀ a, (a < at_ (x.sp - 4) ∨ at_ x.sp ≤ a) → y.s.byte a = x.s.byte a) ∧
    (¬(x.sp % 4 = 0 ∧ x.sp ≤ hi ∧ lo + 4 ≤ x.sp) → x.push v = .exc 9 0 0 x.pre) ∧
    (x.sp % 4 = 0 → lo ≤ x.sp → x.sp + 4 ≤ hi → x.log = [] → x.s.localEcc (at_ x.sp) = 0 →
      ∃ y, x.pop = .ok (x.s.word (at_ x.sp)).toNat y ∧ y.sp = x.sp + 4 ∧ y.b = x.b ∧ y.fl = x.fl ∧ y.s = x.s) ∧
    (¬(x.sp % 4 = 0 ∧ lo ≤ x.sp ∧ x.sp + 4 ≤ hi) → x.pop = .exc 9 1 0 x.pre))

/-- R358, R360, R364, R371, R372: the instructions of the windows and the waits. -/
def Obligations.EngineWindowsAndWaits : Prop :=
  ∀ (d : Die) (k : Fin 24) (s : State) (i : Ins),
    let x := s.ceCx d k
    let pc := s.cePc d k
    (∀ src dst o2 y n x₁ bs x₂ x₃, s.ceAt d k 0x07 i → x.operands i = (.mem src, o2, .mem dst, y) → y.get o2 4 = .ok n x₁ → n < 0x1_0000 →
      x₁.rangeFault src n false = none → x₁.rangeFault dst n true = none → readParts src (movmParts n) [] x₁ = .ok bs x₂ →
      ¬((x₂.keyOf src).1 = (x₂.keyOf dst).1 ∧ (x₂.keyOf src).2 < (x₂.keyOf dst).2 ∧ (x₂.keyOf dst).2 < (x₂.keyOf src).2 + n) →
      writeParts dst bs (movmParts n) x₂ = .ok () x₃ → CeEnds (.ceMovm d k) s d k x₃ x₃.fl (2 + 2 * ((n + 3) / 4)) (i.next pc)) ∧
    (∀ src dst o2 y n x₁ bs x₂ x₃, s.ceAt d k 0x07 i → x.operands i = (.mem src, o2, .mem dst, y) → y.get o2 4 = .ok n x₁ → n < 0x1_0000 →
      x₁.rangeFault src n false = none → x₁.rangeFault dst n true = none → readParts src (movmParts n) [] x₁ = .ok bs x₂ →
      (x₂.keyOf src).1 = (x₂.keyOf dst).1 → (x₂.keyOf src).2 < (x₂.keyOf dst).2 → (x₂.keyOf dst).2 < (x₂.keyOf src).2 + n →
      writeParts dst (repeatPattern ((x₂.keyOf dst).2 - (x₂.keyOf src).2) bs) (movmParts n) x₂ = .ok () x₃ →
      CeEnds (.ceMovm d k) s d k x₃ x₃.fl (2 + 2 * ((n + 3) / 4)) (i.next pc)) ∧
    (∀ v od y, s.ceReads1 d k 0x50 i 4 v od y → CeStalls (.ceEnd d k) s d k (y.spend 4) 7 v (y.cost + 4)) ∧
    (∀ m od y, s.ceReads1 d k 0x51 i i.size m od y → y.s.fld (R.CE_EVT d k) 0 8 &&& (m % 256) ≠ 0 →
      CeEnds (.ceWait d k) s d k y y.fl 1 (i.next pc)) ∧
    (∀ m od y, s.ceReads1 d k 0x51 i i.size m od y → y.s.fld (R.CE_EVT d k) 0 8 &&& (m % 256) = 0 →
      CeStalls (.ceWait d k) s d k y 5 (m % 256) 0) ∧
    (∀ o1 o2 od y a ws t u, s.ceAt d k 0x54 i → x.s.flag (R.CE_STAT d k) 5 = false → x.operands i = (o1, o2, od, y) → y.workAt o1 32 = .ok a →
      y.s.workWords d k a 8 = (.ok ws, t) → (t.ceOf d k).taken.find? (fun u => u.2.1 = bits (ws.getD 1 0) 0 18) = some u →
      let line := bits (ws.getD 1 0) 0 18
      let t' := (t.winDrop d k i.w (some line)).winMap d k i.w (wd (0x8040_0000 + u.1 % 2 * 0x10_0000 + line)) u.2.2
      CeEnds (.ceMapf d k) s d k { y with s := t', pre := t } y.fl 6 (i.next pc)) ∧
    (∀ g n od y, s.ceAt d k 0x55 i → x.s.flag (R.CE_STAT d k) 5 = false → x.val2 i i.size i.size = .ok (g, n, od) y →
      let slot := y.s.ceSlot d k
      let w0 := y.s.getReg (R.CE_GRANT_W0 d k slot (g % 8))
      let lines := y.s.fld (R.CE_GRANT_W1 d k slot (g % 8)) 0 20
      let n := n % 0x10_0000
      bit w0 31 = true → n < lines →
      let map := wd (0x8000_0000 + bits w0 20 2 * 0x10_0000 + (bits w0 0 20 + n) % 0x10_0000)
      CeEnds (.ceMapg d k) s d k { y with s := (y.s.winDrop d k i.w none).winMap d k i.w map ((lines - n) * 64) } y.fl 3 (i.next pc)) ∧
    (s.ceAt d k 0x56 i → x.s.flag (R.CE_STAT d k) 5 = false →
      CeEnds (.ceUnmap d k) s d k { x with s := x.s.winDrop d k i.w none } x.fl 2 (i.next pc)) ∧
    (s.ceAt d k 0x57 i → (x.s.ceOf d k).posted = [] → x.s.flag (R.CE_STAT d k) 5 = false → CeEnds (.ceFlush d k) s d k x x.fl 1 (i.next pc)) ∧
    (s.ceAt d k 0x57 i → (x.s.ceOf d k).posted ≠ [] → CeStalls (.ceFlush d k) s d k x 6 0 0) ∧
    (∀ op c, (op, c) ∈ [(0x54, Instr.ceMapf d k), (0x55, .ceMapg d k), (0x56, .ceUnmap d k)] → ∀ w0, s.ceStands d k i w0 → i.op = op →
      x.s.flag (R.CE_STAT d k) 5 = true →
      Does c s fun t => t = (x.s.setFlag (R.CE_STAT d k) 5 false).ceRaise d k 6 1 0 (x.s.fld (R.CE_PC d k) 0 16) w0)

/-- R371, R408 to R413: QGET takes a descriptor into working memory or leaves T = 0, QPUT is accepted with T = 1 or refused with T = 0, and a queue
number that is not bound raises QUEUE. -/
def Obligations.EngineQueues : Prop :=
  ∀ (d : Die) (k : Fin 24) (s : State) (i : Ins) (q : Nat) (n : Intent) (p : Placement),
    let pc := s.cePc d k
    (∀ o1 o2 od y x₁ a, s.ceAt d k 0x52 i → (s.ceCx d k).operands i = (o1, o2, od, y) → y.get o1 i.size = .ok q x₁ →
      x₁.s.slotIntent d k (x₁.s.ceSlot d k) = some (n, p) → queueBound n (q % 32) = true → x₁.workAt od 32 = .ok a →
      (∀ ws t, x₁.s.queueTake d k n (q % 32) = (some ws, t) →
        CeEnds (.ceQget d k) s d k { x₁ with s := t.setWorkWords d k a ws } (flagsT true x₁.fl) 12 (i.next pc)) ∧
      (∀ t, x₁.s.queueTake d k n (q % 32) = (none, t) → CeEnds (.ceQget d k) s d k { x₁ with s := t } (flagsT false x₁.fl) 12 (i.next pc))) ∧
    (∀ o1 o2 od y x₁ a ws t, s.ceAt d k 0x53 i → (s.ceCx d k).operands i = (o1, o2, od, y) → y.get o1 i.size = .ok q x₁ →
      x₁.s.slotIntent d k (x₁.s.ceSlot d k) = some (n, p) → queueBound n (q % 32) = true → x₁.workAt o2 32 = .ok a →
      x₁.s.workWords d k a 8 = (.ok ws, t) →
      let slot := x₁.s.ceSlot d k
      let keep := t.recordOutput d k slot (q % 32) (t.putRecord d k (q % 32) ws)
      let ends (u : State) (b : Bool) : Prop := CeEnds (.ceQput d k) s d k { x₁ with s := u, pre := t } (flagsT b x₁.fl) 12 (i.next pc)
      let epoch := t.fld (R.CE_SLOT_W6 d k slot) 0 16
      (q % 32 ≠ 1 → q % 32 ≠ 3 → ends t false) ∧
      (q % 32 = 1 → t.ceShadow d k = true → ends keep true) ∧
      (q % 32 = 1 → t.ceShadow d k = false → p.tags ≤ (t.iqOf n.handle).used → ends t false) ∧
      (q % 32 = 1 → t.ceShadow d k = false → (t.iqOf n.handle).used < p.tags → ends (keep.txAccept d k n epoch ws) true) ∧
      (q % 32 = 3 → t.flowBetween n.handle (ws.getD 0 0).toNat = true → t.ceShadow d k = false → epoch ≠ n.epoch →
        ends (t.fenceDiscard d 2 k 1) true) ∧
      (q % 32 = 3 → t.flowBetween n.handle (ws.getD 0 0).toNat = true → t.ceShadow d k = false → epoch = n.epoch →
        match keep.signal d n.handle p.tags (ws.getD 0 0).toNat ws with
        | none => ends t false
        | some u => ends u true)) ∧
    (∀ op c, (op, c) ∈ [(0x52, Instr.ceQget d k), (0x53, .ceQput d k)] → ∀ w0, s.ceStands d k i w0 → i.op = op →
      ∀ o1 o2 od y x₁, (s.ceCx d k).operands i = (o1, o2, od, y) → y.get o1 i.size = .ok q x₁ →
      x₁.s.slotIntent d k (x₁.s.ceSlot d k) = some (n, p) → queueBound n (q % 32) = false →
      Does c s fun t => t = x₁.pre.ceRaise d k 10 (q % 32) 0 ((s.ceCx d k).s.fld (R.CE_PC d k) 0 16) w0)

/-- R363: the pending slot that an engine dispatches is the one with the earliest deadline, on a tie the lowest; none where no slot is pending. R363: CE_DISPATCH on an idle engine with a pending slot clears the pending bit and sets the registers of R363's table. -/
def Obligations.DispatchTakesTheEarliestDeadline : Prop :=
  (∀ (d : Die) (k : Fin 24) (s : State),
    let pending (n : Nat) : Prop := n < 63 ∧ s.flag (pendReg d k n) (n % 32) = true
    let deadline (n : Nat) : Nat := Tab.get (fun _ => 0) s.ceDeadline (slotKey d k n)
    (∀ n, s.cePick d k = some n → pending n ∧ ∀ m, pending m → deadline n < deadline m ∨ (deadline n = deadline m ∧ n ≤ m)) ∧
    (s.cePick d k = none ↔ ∀ n, ¬ pending n)) ∧
  (∀ (d : Die) (k : Fin 24) (flips : List (Nat × Bool)) (s : State) (n : Nat),
    let u := s.ceStrike d k flips
    u.ceState d k = 0 → u.cePick d k = some n →
    Does (.ceDispatch d k flips) s fun t => ∃ v, t = v.ceGo d k ∧
      v.flag (pendReg d k n) (n % 32) = false ∧ v.ceState d k = 1 ∧ v.ceLive d k = true ∧ v.ceSlot d k = n ∧ v.ceNested d k = false ∧
      v.fld (R.CE_PC d k) 0 16 = s.fld (R.CE_SLOT_W0 d k n) 0 16 ∧ v.getReg (R.CE_FLAGS d k) = 0 ∧
      (v.getReg (R.CE_B d k 0)).toNat = n ∧ (∀ j, 1 ≤ j → j < 8 → v.getReg (R.CE_B d k j) = 0) ∧
      v.getReg (R.CE_SP d k) = s.getReg (R.CE_SP_HI d k) ∧ v.getReg (R.CE_CYC_USED d k) = 0 ∧
      v.winOk d k 0 = true ∧ v.winWr d k 0 = true ∧ v.winLine d k 0 = s.fld (R.CE_SLOT_W2 d k n) 0 20 ∧
      v.winDie d k 0 = dieOf (s.fld (R.CE_SLOT_W2 d k n) 20 1) ∧ v.winLen d k 0 = s.fld (R.CE_SLOT_W3 d k n) 0 21 ∧
      v.winOk d k 1 = false ∧ v.winOk d k 2 = false ∧ (v.ceOf d k).posted = [] ∧ (v.ceOf d k).stall = 0 ∧
      v.getReg (R.CE_CNT_CYCLES d k) = wd (min ((s.getReg (R.CE_CNT_CYCLES d k)).toNat + 1) 0xFFFF_FFFF) ∧ s.keepsMem v)

/-- R365: an abort ends the cycle: nothing runs or waits, FAULT_NESTED and WERR are clear, no write is left posted, ABORTS and CE_CNT_ABORT advance. R359, R360, R364, R365, R371: what ends a stall or a cycle: the limit, a line that arrives, a posted write performed, an event of WAIT, and the
commit behind END with the slot's record. -/
def Obligations.EngineCycleEvents : Prop :=
  (∀ (d : Die) (k : Fin 24) (s : State),
    let t := s.ceAbort d k
    t.ceLive d k = false ∧ t.ceNested d k = false ∧ t.flag (R.CE_STAT d k) 5 = false ∧ (t.ceOf d k).posted = [] ∧ (t.ceOf d k).stall = 0 ∧
    (t.ceOf d k).taken = [] ∧ (t.ceOf d k).halt = false ∧ (t.ceState d k = 0 ∨ t.ceState d k = 2) ∧
    ((s.ceOf d k).posted = [] →
      t.ceState d k = (if (s.ceOf d k).halt then 2 else 0) ∧
      t.fld (R.CE_SLOT_W26 d k (s.ceSlot d k)) 0 16 = min (s.fld (R.CE_SLOT_W26 d k (s.ceSlot d k)) 0 16 + 1) 0xFFFF ∧
      t.getReg (R.CE_CNT_ABORT d k) = wd (min ((s.getReg (R.CE_CNT_ABORT d k)).toNat + 1) 0xFFFF_FFFF) ∧ s.keepsMem t)) ∧
  (∀ (d : Die) (k : Fin 24) (n : Nat) (s : State),
    let c := s.ceOf d k
    let u := s.ceStalled d k n
    (s.ceState d k = 1 → s.ceLive d k = true → s.ceLimit d k ≠ 0 → s.ceLimit d k ≤ s.ceUsed d k + n →
      Does (.ceCycleAbort d k n) s fun t => t = (if c.stall = 0 then s.ceSpend d k n else u).ceAbort d k) ∧
    (s.ceState d k = 1 → 1 ≤ c.stall → c.stall ≤ 3 → u.ceAtLimit d k = true → Does (.ceLineFill d k n) s fun t => t = u.ceAbort d k) ∧
    (∀ v, s.ceState d k = 1 → 1 ≤ c.stall → c.stall ≤ 3 → u.ceAtLimit d k = false → u.ceFetch d k (c.stall - 1) c.line = (none, v) →
      Does (.ceLineFill d k n) s fun t => t = v.ceResume d k ∧ (c.bufs.length = 3 → ((v.ceOf d k).bufs.getD (c.stall - 1) (0, [])).1 = c.line + 1)) ∧
    (∀ v cause, s.ceState d k = 1 → 1 ≤ c.stall → c.stall ≤ 3 → u.ceAtLimit d k = false → u.ceFetch d k (c.stall - 1) c.line = (some cause, v) →
      let w0 := ofLe (v.load (v.ceCodeAddr d k (u.fld (R.CE_PC d k) 0 16)) 4)
      Does (.ceLineFill d k n) s fun t =>
        t = (if cause = 8 then v.ceRaise d k 6 0 c.off (u.fld (R.CE_PC d k) 0 16) w0 else v.ceRaise d k 7 cause c.off (u.fld (R.CE_PC d k) 0 16) w0)) ∧
    (∀ p rest, c.posted = p :: rest → c.stall ≠ 6 ∨ rest ≠ [] →
      Does (.cePostedWrite d k n) s fun t => t = s.cePostOne d k ∧ (t.ceOf d k).posted = rest) ∧
    (∀ p, c.posted = [p] → c.stall = 6 →
      let v := (s.cePostOne d k).ceStalled d k n
      Does (.cePostedWrite d k n) s fun t => t = if v.ceAtLimit d k then v.ceAbort d k else v.ceResume d k) ∧
    (s.ceState d k = 1 → c.stall = 5 → s.fld (R.CE_EVT d k) 0 8 &&& c.mask ≠ 0 →
      Does (.ceWaitEnd d k n) s fun t => t = if u.ceAtLimit d k then u.ceAbort d k else u.ceResume d k) ∧
    (s.ceState d k = 1 → c.stall = 7 → c.posted = [] → u.ceLimit d k = 0 ∨ u.ceUsed d k ≤ u.ceLimit d k → u.flag (R.CE_STAT d k) 5 = false → c.lost = false →
      ∀ v, (match u.slotIntent d k (u.ceSlot d k) with
        | none => v = u
        | some (i, p) => u.ceHeader d k i p (wd c.mask) = (true, v)) →
      Does (.cycleCommit d k n) s fun t => t.ceLive d k = false ∧ t.ceNested d k = false ∧ (t.ceOf d k).stall = 0 ∧
        t.getReg (R.CE_SLOT_W27 d k (v.ceSlot d k)) = wd c.mask ∧
        t.getReg (R.CE_SLOT_W24 d k (v.ceSlot d k)) = wd (min ((v.getReg (R.CE_SLOT_W24 d k (v.ceSlot d k))).toNat + 1) 0xFFFF_FFFF) ∧
        (t.getReg (R.CE_SLOT_W25 d k (v.ceSlot d k))).toNat = max (v.getReg (R.CE_SLOT_W25 d k (v.ceSlot d k))).toNat (v.ceUsed d k)) ∧
    (s.ceState d k = 1 → c.stall = 7 → c.posted = [] → u.ceLimit d k = 0 ∨ u.ceUsed d k ≤ u.ceLimit d k → u.flag (R.CE_STAT d k) 5 = true →
      let pc := u.fld (R.CE_PC d k) 0 16
      Does (.cycleCommit d k n) s fun t =>
        t = (u.setFlag (R.CE_STAT d k) 5 false).ceRaise d k 6 1 0 pc (ofLe (u.load (u.ceCodeAddr d k pc) 4))))

/-- R376 to R378: a normal exception entry pushes PC, FLAGS and the cause word, clears T, counts in CE_CNT_EXC, takes 6 cycles and goes to the vector;
a vector of 0 aborts the cycle with the cause word kept. R379: where the stack has no room for the frame, the fault stack takes it: FS0 to FS7, FAULT_NESTED, SP at SP_HI and PC at the FAULT vector. R380: an exception while FAULT_NESTED = 1 halts the engine with the second cause and NESTED, keeps FS0 to FS7, and makes a unit fault of it. -/
def Obligations.EngineExceptionsAndNesting : Prop :=
  (∀ (d : Die) (k : Fin 24) (s : State) (cause detail addr pc w0 : Nat),
    let t := s.ceExcept d k cause detail addr pc w0
    let at_ := s.ceCodeAddr d k (4 * cause)
    let v := ofLe (s.load at_ 4)
    let cw := cause + detail % 256 * 256
    let sp := (s.getReg (R.CE_SP d k)).toNat
    let stack (a : Nat) : Nat := ceMemAddr d k a
    let fl := s.fld (R.CE_FLAGS d k) 0 5
    s.ceNested d k = false → 4 * cause + 4 ≤ s.ceClen d k → s.localEcc at_ = 0 → pc < 0x1_0000 → cause < 32 →
    (v ≠ 0 → sp % 4 = 0 → sp ≤ (s.getReg (R.CE_SP_HI d k)).toNat → (s.getReg (R.CE_SP_LO d k)).toNat + 12 ≤ sp →
      0x1_0000 ≤ (s.getReg (R.CE_SP_LO d k)).toNat → (s.getReg (R.CE_SP_HI d k)).toNat ≤ 0x3_0000 →
      s.ceLimit d k = 0 ∨ s.ceUsed d k + 6 ≤ s.ceLimit d k →
      t.fld (R.CE_PC d k) 0 16 = v % 0x1_0000 ∧ (t.getReg (R.CE_SP d k)).toNat = sp - 12 ∧
      t.word (stack (sp - 12)) = wd cw ∧ t.word (stack (sp - 8)) = wd fl ∧ t.word (stack (sp - 4)) = wd pc ∧
      t.getReg (R.CE_FLAGS d k) = wd (flagsT false fl) ∧ t.getReg (R.CE_FADDR d k) = wd addr ∧ t.getReg (R.CE_FCAUSE d k) = wd cw ∧
      t.getReg (R.CE_CNT_EXC d k) = wd (min ((s.getReg (R.CE_CNT_EXC d k)).toNat + 1) 0xFFFF_FFFF) ∧
      t.getReg (R.CE_CYC_USED d k) = wd (min (s.ceUsed d k + 6) 0xFFFF_FFFF) ∧
      (∀ a, (a < stack (sp - 12) ∨ stack sp ≤ a) → t.byte a = s.byte a) ∧
      s.keepsRegs t [R.CE_STAT d k, R.CE_PC d k, R.CE_SP d k, R.CE_FLAGS d k, R.CE_FADDR d k, R.CE_FCAUSE d k, R.CE_CNT_EXC d k, R.CE_CYC_USED d k]) ∧
    (v = 0 → (s.ceOf d k).posted = [] → t.ceLive d k = false ∧ t.getReg (R.CE_FCAUSE d k) = wd cw ∧
      t.getReg (R.CE_CNT_ABORT d k) = wd (min ((s.getReg (R.CE_CNT_ABORT d k)).toNat + 1) 0xFFFF_FFFF))) ∧
  (∀ (d : Die) (k : Fin 24) (s : State) (cause detail addr pc w0 : Nat),
    let t := s.ceExcept d k cause detail addr pc w0
    let code (a : Nat) : Nat := s.ceCodeAddr d k a
    let sp := (s.getReg (R.CE_SP d k)).toNat
    s.ceNested d k = false → 4 * cause + 4 ≤ s.ceClen d k → 52 ≤ s.ceClen d k → s.localEcc (code (4 * cause)) = 0 → s.localEcc (code 48) = 0 →
    ofLe (s.load (code (4 * cause)) 4) ≠ 0 → ofLe (s.load (code 48) 4) ≠ 0 →
    ¬(sp % 4 = 0 ∧ sp ≤ (s.getReg (R.CE_SP_HI d k)).toNat ∧ (s.getReg (R.CE_SP_LO d k)).toNat + 12 ≤ sp) →
    s.ceLimit d k = 0 ∨ s.ceUsed d k + 4 ≤ s.ceLimit d k →
    t.getReg (R.CE_FS d k 0) = wd pc ∧ t.getReg (R.CE_FS d k 1) = s.getReg (R.CE_FLAGS d k) ∧
    t.getReg (R.CE_FS d k 2) = wd (cause + detail % 256 * 256) ∧ t.getReg (R.CE_FS d k 3) = s.getReg (R.CE_SP d k) ∧
    t.getReg (R.CE_FS d k 4) = wd addr ∧ t.getReg (R.CE_FS d k 5) = wd w0 ∧ t.getReg (R.CE_FS d k 6) = wd (s.ceSlot d k) ∧
    t.getReg (R.CE_FS d k 7) = s.getReg (R.CE_CYC_USED d k) ∧ t.ceNested d k = true ∧
    t.getReg (R.CE_SP d k) = s.getReg (R.CE_SP_HI d k) ∧ t.fld (R.CE_PC d k) 0 16 = ofLe (s.load (code 48) 4) % 0x1_0000 ∧
    t.getReg (R.CE_CYC_USED d k) = wd (min (s.ceUsed d k + 4) 0xFFFF_FFFF) ∧ s.keepsMem t) ∧
  (∀ (d : Die) (k : Fin 24) (s : State) (cause detail addr pc w0 : Nat),
    let t := s.ceExcept d k cause detail addr pc w0
    s.ceNested d k = true → (s.hunit d 2 k).st ≠ 4 →
    t.getReg (R.CE_HALT_CAUSE d k) = wd (cause + 0x100) ∧ t.ceState d k = 2 ∧ (∀ j, j < 8 → t.getReg (R.CE_FS d k j) = s.getReg (R.CE_FS d k j)) ∧
    t.getReg (R.CE_PC d k) = s.getReg (R.CE_PC d k) ∧ (t.hunit d 2 k).st = 4)

/-- R383, R384: HALT, RUN, STEP and SRST written to CE_CTRL by a supervisor. -/
def Obligations.EngineHaltRunStepReset : Prop :=
  ∀ (d e : Die) (k : Fin 24) (p : Fin 2) (s : State),
    let who := Requester.sup e p
    let nested := s.flag (R.CE_HALT_CAUSE d k) 8
    s.accepts who (R.CE_CTRL d k) →
    (s.ceState d k = 0 → s.ceLive d k = false →
      Does (.ceHalt who d k) s fun t => t.ceState d k = 2 ∧ t.getReg (R.CE_HALT_CAUSE d k) = 0x200 ∧ s.keepsMem t) ∧
    (s.ceState d k = 1 → s.ceLive d k = true → (s.ceOf d k).stall = 0 → s.ceAtLimit d k = false →
      Does (.ceHalt who d k) s fun t => t.ceState d k = 2 ∧ t.getReg (R.CE_HALT_CAUSE d k) = 0x200 ∧ t.ceLive d k = true ∧ (t.ceOf d k).lost = true ∧
        t.getReg (R.CE_PC d k) = s.getReg (R.CE_PC d k) ∧ s.keepsMem t) ∧
    (s.ceState d k = 1 → s.ceLive d k = true → (s.ceOf d k).stall ≠ 0 →
      Does (.ceHalt who d k) s fun t => t.ceState d k = 1 ∧ (t.ceOf d k).halt = true) ∧
    (s.ceState d k = 2 → nested = false → s.ceLive d k = false →
      Does (.ceRun who d k) s fun t => t.ceState d k = 0 ∧ t.getReg (R.CE_HALT_CAUSE d k) = 0 ∧ s.keepsMem t ∧
        s.keepsRegs t [R.CE_STAT d k, R.CE_HALT_CAUSE d k]) ∧
    (s.ceState d k = 2 → nested = false → s.ceLive d k = true →
      Does (.ceRun who d k) s fun t => ∃ v, t = (v.ceGo d k).emit (.answer who (R.CE_CTRL d k) .done) ∧ v.ceState d k = 1 ∧
        v.getReg (R.CE_HALT_CAUSE d k) = 0 ∧ s.keepsMem v ∧ s.keepsRegs v [R.CE_STAT d k, R.CE_HALT_CAUSE d k]) ∧
    (s.ceState d k = 2 → nested = false → s.ceLive d k = true →
      Does (.ceStep who d k) s fun t => ∃ v, t = (v.ceResume d k).emit (.answer who (R.CE_CTRL d k) .done) ∧ v.ceState d k = 1 ∧
        (v.ceOf d k).halt = true ∧ s.keepsMem v ∧ s.keepsRegs v [R.CE_STAT d k]) ∧
    (s.ceState d k = 2 → nested = true → ∀ c, c = Instr.ceRun who d k ∨ c = .ceStep who d k →
      Does c s fun t => t = s.emit (.answer who (R.CE_CTRL d k) (.refused 7 none))) ∧
    Does (.ceSrst who d k) s fun t =>
      t.getReg (R.CE_PEND_LO d k) = 0 ∧ t.getReg (R.CE_PEND_HI d k) = 0 ∧ t.getReg (R.CE_PC d k) = 0 ∧ t.getReg (R.CE_FLAGS d k) = 0 ∧
      (∀ j, j < 8 → t.getReg (R.CE_B d k j) = 0 ∧ t.getReg (R.CE_FS d k j) = 0) ∧ (∀ j, j < 3 → t.winOk d k j = false) ∧
      (∀ n, n < 63 → t.slotValid d k n = false) ∧ t.ceLive d k = false ∧ t.ceNested d k = false ∧ (t.ceOf d k).posted = [] ∧
      t.ceState d k = (if s.ceState d k = 3 then 3 else 0) ∧
      t.getReg (R.CE_SP_LO d k) = s.getReg (R.CE_SP_LO d k) ∧ t.getReg (R.CE_SP_HI d k) = s.getReg (R.CE_SP_HI d k) ∧
      (∀ a, a < 0x3_0000 → t.byte (ceMemAddr d k a) = s.byte (ceMemAddr d k a))

/-- R369, R371: what an instruction leaves alone that writes a register: every other register than the engine's B0 to B7, SP, FLAGS, PC, CE_STAT and cycle
count, every byte of memory, and all state beside the engine's own.  `v` is the state before the engine arrives at the next instruction. -/
def Obligations.EngineRegisterFormFrame : Prop :=
  ∀ (x y : Cx) (od : Opnd) (size r old fl n next : Nat),
    let d := x.d
    let k := x.k
    (∃ j, od = .base j) ∨ od = .sp → x.put od size r old = .ok () y →
    ∃ v, ({ y with fl := fl }).ends d k n next = v.ceGo d k ∧ x.s.keepsMem v ∧
      x.s.keepsRegs v ((List.range 8).map (R.CE_B d k) ++ [R.CE_SP d k, R.CE_FLAGS d k, R.CE_PC d k, R.CE_STAT d k, R.CE_CYC_USED d k]) ∧
      v.fld (R.CE_FLAGS d k) 0 5 = fl % 32 ∧ v.fld (R.CE_PC d k) 0 16 = next % 0x1_0000 ∧
      v.getReg (R.CE_CYC_USED d k) = wd (min ((x.s.getReg (R.CE_CYC_USED d k)).toNat + (x.cost + n)) 0xFFFF_FFFF) ∧
      (∀ j, od = .base j → j < 8 → x.b.length = 8 → v.getReg (R.CE_B d k j) = wd (signExt (8 * size) r)) ∧
      (∀ j, od ≠ .base j → j < 8 → v.getReg (R.CE_B d k j) = wd (x.bn j)) ∧
      v.getReg (R.CE_SP d k) = (if od = .sp then wd (signExt (8 * size) r) else wd x.sp) ∧
      { v with regs := x.s.regs, ce := x.s.ce } = x.s

/-! ## Supervisors (R419 to R442) -/

/-- R437, R438: an instruction with a word operand, in any of its modes, leaves its result in ACC, X or Y and its flags in FLAGS; the comparisons leave
the flags only. R438: the shifts of ACC by the operand's low five bits; by 0 the spec states no C, which is the state's next free value (log entry 75). R437, R438: the stores of ACC, X and Y, the byte forms, XCHG, SETHI, MOVR, FLG and NOP. -/
def Obligations.SupervisorArithmeticAndMoves : Prop :=
  (∀ (d : Die) (p : Fin 2) (s t u : State) (i : SupIns) (op v : Nat), s.supAt d p op i t → t.supOperand d p i 4 = .ok v u →
    let next := t.supNext d p i
    let reg (r : Nat) : Nat := u.sreg d p r
    let fl := u.sflags d p
    let c := if flagC fl then 1 else 0
    let gets (c : Instr) (r x f : Nat) : Prop := SupEnds c s d p ((u.setSreg d p r x).setSflags d p f) next
    let flags (c : Instr) (f : Nat) : Prop := SupEnds c s d p (u.setSflags d p f) next
    let sub (a b : Nat) : Nat := flagsZNCV 32 (wrapInt 32 ((a : Int) - (b : Nat))) (decide (a < b)) (outside 32 (signed 32 a - signed 32 b)) fl
    let add (a b k : Nat) : Nat := flagsZNCV 32 ((a + b + k) % 2 ^ 32) (decide (2 ^ 32 ≤ a + b + k)) (outside 32 (signed 32 a + signed 32 b + (k : Nat))) fl
    let plain (r : Nat) : Nat := flagsZNCV 32 r false false fl
    (op = 0x01 → gets (.supGetA d p) 0 v (flagsZN 32 (v % 2 ^ 32) fl)) ∧ (op = 0x03 → gets (.supGetX d p) 1 v (flagsZN 32 (v % 2 ^ 32) fl)) ∧
    (op = 0x05 → gets (.supGetY d p) 2 v (flagsZN 32 (v % 2 ^ 32) fl)) ∧
    (op = 0x08 → gets (.supAdd d p) 0 ((reg 0 + v) % 2 ^ 32) (add (reg 0) v 0)) ∧
    (op = 0x09 → gets (.supAddc d p) 0 ((reg 0 + v + c) % 2 ^ 32) (add (reg 0) v c)) ∧
    (op = 0x0A → gets (.supSub d p) 0 (wrapInt 32 ((reg 0 : Int) - (v : Nat))) (sub (reg 0) v)) ∧
    (op = 0x0B → gets (.supSubb d p) 0 (wrapInt 32 ((reg 0 : Int) - (v + c : Nat)))
      (flagsZNCV 32 (wrapInt 32 ((reg 0 : Int) - (v + c : Nat))) (decide (reg 0 < v + c)) (outside 32 (signed 32 (reg 0) - signed 32 v - (c : Nat))) fl)) ∧
    (op = 0x0C → flags (.supCmp d p) (sub (reg 0) v)) ∧ (op = 0x12 → flags (.supCmpX d p) (sub (reg 1) v)) ∧
    (op = 0x13 → flags (.supCmpY d p) (sub (reg 2) v)) ∧
    (op = 0x0D → gets (.supAnd d p) 0 (reg 0 &&& v) (plain (reg 0 &&& v))) ∧ (op = 0x0E → gets (.supOr d p) 0 (reg 0 ||| v) (plain (reg 0 ||| v))) ∧
    (op = 0x0F → gets (.supXor d p) 0 (reg 0 ^^^ v) (plain (reg 0 ^^^ v))) ∧
    (op = 0x19 → gets (.supMul d p) 0 (reg 0 * v % 2 ^ 32) (plain (reg 0 * v % 2 ^ 32))) ∧
    (op = 0x14 → gets (.supAddX d p) 1 ((reg 1 + v) % 2 ^ 32) (flagsZN 32 ((reg 1 + v) % 2 ^ 32) fl)) ∧
    (op = 0x15 → gets (.supAddY d p) 2 ((reg 2 + v) % 2 ^ 32) (flagsZN 32 ((reg 2 + v) % 2 ^ 32) fl))) ∧
  (∀ (d : Die) (p : Fin 2) (s t u : State) (i : SupIns) (op v : Nat), s.supAt d p op i t → t.supOperand d p i 4 = .ok v u →
    let next := t.supNext d p i
    let a := u.sreg d p 0
    let n := v % 32
    let fl := u.sflags d p
    let gets (c : Instr) (r : Nat) (cf : Bool) : Prop := SupEnds c s d p ((u.setSreg d p 0 r).setSflags d p (flagsZNCV 32 r cf false fl)) next
    (op = 0x16 → n ≠ 0 → gets (.supShl d p) (a * 2 ^ n % 2 ^ 32) (a.testBit (32 - n))) ∧
    (op = 0x17 → n ≠ 0 → gets (.supShr d p) (a / 2 ^ n) (a.testBit (n - 1))) ∧
    (op = 0x18 → n ≠ 0 → gets (.supSar d p) (wrapInt 32 (signed 32 a / (2 ^ n : Nat))) (a.testBit (n - 1))) ∧
    (∀ c, (op, c) ∈ [(0x16, Instr.supShl d p), (0x17, .supShr d p), (0x18, .supSar d p)] → n = 0 →
      SupEnds c s d p ((u.setSreg d p 0 a).drawn.setSflags d p (flagsZNCV 32 a (decide (u.freeNow.toNat % 2 = 1)) false fl)) next)) ∧
  (∀ (d : Die) (p : Fin 2) (s t u : State) (i : SupIns) (op v : Nat), s.supAt d p op i t →
    let next := t.supNext d p i
    let ea := t.supEa d p i
    let reg (r : Nat) : Nat := t.sreg d p r
    let rd := i.field / 8 % 8
    (∀ r c, (op, r, c) ∈ [(0x02, 0, Instr.supPutA d p), (0x04, 1, .supPutX d p), (0x06, 2, .supPutY d p)] →
      (t.supStep d p i 4).supPut d p ea 4 ((t.supStep d p i 4).sreg d p r) = .ok () u → SupEnds c s d p u next) ∧
    (op = 0x11 → (t.supStep d p i 1).supPut d p ea 1 (reg 0 % 256) = .ok () u → SupEnds (.supPutb d p) s d p u next) ∧
    (op = 0x10 → t.supOperand d p i 1 = .ok v u →
      SupEnds (.supGetb d p) s d p ((u.setSreg d p 0 v).setSflags d p (flagsZN 32 (v % 2 ^ 32) (u.sflags d p))) next) ∧
    (op = 0x1D → ea % 4 = 0 → ea < 0x20_0000 → ∀ w, t.supGet d p ea 4 = .ok v w → w.supPut d p ea 4 (w.sreg d p 0) = .ok () u →
      SupEnds (.supXchg d p) s d p ((u.supStep d p i 4).setSreg d p 0 v) next) ∧
    (op = 0x1D → ea % 4 = 0 → 0x20_0000 ≤ ea → Does (.supXchg d p) s fun z => z = t.supRaise d p 3 7 (t.sreg d p 4)) ∧
    (op = 0x07 → SupEnds (.supSethi d p) s d p (t.setSreg d p 0 (i.field * 0x1_0000 + reg 0 % 0x1_0000)) next) ∧
    (op = 0x1A → rd ≠ 3 →
      let m := reg (i.field % 8)
      SupEnds (.supMovr d p) s d p ((t.setSreg d p rd m).setSflags d p (flagsZN 32 (m % 2 ^ 32) (t.sflags d p))) next) ∧
    (op = 0x1A → rd = 3 →
      let m := reg (i.field % 8)
      let ok := m % 4 = 0 ∧ (t.getReg (R.SPR_SPL d p)).toNat ≤ m ∧ m ≤ (t.getReg (R.SPR_SPH d p)).toNat
      (ok → SupEnds (.supMovr d p) s d p (t.setSreg d p 3 m) next) ∧
      (¬ok → Does (.supMovr d p) s fun z => z = t.supRaise d p 5 0 (t.sreg d p 4))) ∧
    (op = 0x1E → i.field.testBit 5 = true → SupEnds (.supFlg d p) s d p (t.setSflags d p (t.sflags d p ||| i.field % 32)) next) ∧
    (op = 0x1E → i.field.testBit 5 = false →
      SupEnds (.supFlg d p) s d p (t.setSflags d p (t.sflags d p &&& (31 ^^^ i.field % 32))) next) ∧
    (op = 0x00 → SupEnds (.supNop d p) s d p t next))

/-- R438 to R440: branches, jumps, calls and returns, SAVE and RESTORE, IDLE, DBG and TRAP. -/
def Obligations.SupervisorControlFlow : Prop :=
  ∀ (d : Die) (p : Fin 2) (s t u : State) (i : SupIns) (op : Nat), s.supAt d p op i t →
    let pc := t.sreg d p 4
    let next := t.supNext d p i
    let ea := t.supEa d p i
    let value (n : Nat) : Nat := if n = 3 then t.sflags d p else t.sreg d p n
    let set := (List.range 4).filter fun n => i.field.testBit n
    (op = 0x20 → condHolds i.cond (t.sflags d p) = true → SupEnds (.supBcc d p) s d p t (wrapInt 32 ((pc : Int) + 2 * i.disp))) ∧
    (op = 0x20 → condHolds i.cond (t.sflags d p) = false → SupEnds (.supBcc d p) s d p t next) ∧
    (op = 0x21 → ea % 2 = 0 → SupEnds (.supJump d p) s d p t ea) ∧
    (op = 0x22 → ea % 2 = 0 → t.supPush d p [next] = .ok () u → SupEnds (.supCall d p) s d p u ea) ∧
    (∀ c, (op, c) ∈ [(0x21, Instr.supJump d p), (0x22, .supCall d p)] → ea % 2 = 1 → Does c s fun z => z = t.supRaise d p 2 0 pc) ∧
    (∀ a, op = 0x23 → t.supPop d p 1 = .ok [a] u → a % 2 = 0 → SupEnds (.supRet d p) s d p u a) ∧
    (∀ f a, op = 0x24 → t.supPop d p 2 = .ok [f, a] u → a % 2 = 0 → SupEnds (.supRetx d p) s d p (u.setSflags d p f) a) ∧
    (op = 0x1B → t.supPush d p (set.map value) = .ok () u → SupEnds (.supSave d p) s d p u next) ∧
    (∀ vs, op = 0x1C → t.supPop d p set.length = .ok vs u → SupEnds (.supRestore d p) s d p
      ((List.zip set.reverse vs).foldl (fun s (e : Nat × Nat) => if e.1 = 3 then s.setSflags d p e.2 else s.setSreg d p e.1 e.2) u) next) ∧
    (op = 0x26 → t.supPend d = true → SupEnds (.supIdle d p) s d p (t.setSup d p { t.supOf d p with idle := false }) next) ∧
    (op = 0x26 → t.supPend d = false → Does (.supIdle d p) s fun z => z = t.setSup d p { t.supOf d p with idle := true }) ∧
    (op = 0x27 → t.flag (R.SPR_DBG_CTRL d p) 8 = true → SupEnds (.supDbg d p) s d p (t.setFld (R.SPR_STAT d p) 0 3 1) next) ∧
    (op = 0x27 → t.flag (R.SPR_DBG_CTRL d p) 8 = false → Does (.supDbg d p) s fun z => z = t.supRaise d p 1 0 pc) ∧
    (op = 0x25 → Does (.supTrap d p) s fun z => z = t.supRaise d p (8 + i.field) 0 next)

/-- R440: exception entry pushes PC, then FLAGS, clears I and loads PC from the vector; SPR_EXC keeps the cause, and for BUS the cause code. R439: SAVE, CALL and exception entry push within the stack window only: the words stand below the old SP, the last one lowest; a push without
room raises STACK with nothing done. -/
def Obligations.SupervisorExceptionsAndStack : Prop :=
  (∀ (d : Die) (p : Fin 2) (s t u : State) (cause detail pc v : Nat),
    let s₁ := (s.setReg (R.SPR_EXC d p) (wd (cause + (if cause = 3 then detail else 0) * 0x100))).setReg (R.SPR_EXC_PC d p) (wd pc)
    s₁.supPush d p [pc, s.sflags d p] = .ok () t → (t.setSflags d p (t.sflags d p % 16)).supGet d p (4 * cause) 4 = .ok v u →
    (v ≠ 0 → v % 2 = 0 → v < 0x1_0000_0000 →
      let z := s.supExcept d p cause detail pc
      z = u.setSreg d p 4 v ∧ z.sreg d p 4 = v) ∧
    (v = 0 ∨ v % 2 = 1 → s.supExcept d p cause detail pc = u.supVerdict d p false 6 0xFF)) ∧
  (∀ (d : Die) (p : Fin 2) (s : State) (a b : Nat),
    let sp := s.sreg d p 3
    let lo := (s.getReg (R.SPR_SPL d p)).toNat
    let hi := (s.getReg (R.SPR_SPH d p)).toNat
    let mem (x : Nat) : Nat := d.org + 0x0800_0000 + x
    (¬(sp % 4 = 0 ∧ sp ≤ hi ∧ lo + 8 ≤ sp) → s.supPush d p [a, b] = .exc 5 0 s) ∧
    (sp % 4 = 0 → sp ≤ hi → lo + 8 ≤ sp → hi ≤ 0x20_0000 → a < 0x1_0000_0000 → b < 0x1_0000_0000 →
      ∃ t, s.supPush d p [a, b] = .ok () t ∧ t.sreg d p 3 = sp - 8 ∧ t.word (mem (sp - 4)) = wd a ∧ t.word (mem (sp - 8)) = wd b ∧
        (∀ x, (x < mem (sp - 8) ∨ mem sp ≤ x) → t.byte x = s.byte x)) ∧
    (∀ n, ¬(sp % 4 = 0 ∧ lo ≤ sp ∧ sp + 4 * n ≤ hi) → s.supPop d p n = .exc 5 1 s))

/-- R440, R438, R442: INT before an instruction, the wake from IDLE, and the debug control that a host or the pair's own die has over a pair. -/
def Obligations.SupervisorInterruptsAndDebug : Prop :=
  ∀ (d : Die) (p : Fin 2) (who : Requester) (s t : State) (i : SupIns),
    let st := R.SPR_STAT d p
    let ctl := R.SPR_DBG_CTRL d p
    let may := s.accepts who ctl ∧ s.pairDebug who d p = true
    (s.supLive d p = true → s.supIntr d p = true → (s.supOf d p).idle = false → Does (.supInterrupt d p) s fun z => z = s.supExcept d p 6 0 (s.sreg d p 4)) ∧
    (s.supLive d p = true → (s.supOf d p).idle = true → s.supPend d = true → (s.setSup d p { s.supOf d p with idle := false }).supFetch d p = .ok i t →
      Does (.supIdleWake d p) s fun z => z = (t.setSreg d p 4 (s.sreg d p 4 + i.len)).supDone d p) ∧
    (may → s.fld st 0 3 = 4 → Does (.sprDbgHalt who d p) s fun z => z.fld st 0 3 = 1 ∧ s.keepsRegs z [st, ctl] ∧ s.keepsMem z) ∧
    (may → s.fld st 0 3 = 1 → Does (.sprDbgStep who d p) s fun z => (z.supOf d p).step = true ∧ z.fld st 0 3 = 1 ∧ s.keepsRegs z [st, ctl] ∧ s.keepsMem z) ∧
    (may → s.fld st 0 3 = 1 → Does (.sprDbgRun who d p) s fun z => z.fld st 0 3 = 4 ∧ s.keepsRegs z [st, ctl] ∧ s.keepsMem z) ∧
    (∀ c, c ∈ [Instr.sprDbgHalt who d p, .sprDbgStep who d p, .sprDbgRun who d p] → s.accepts who ctl → s.pairDebug who d p = false →
      Does c s fun z => z = s.refuse who ctl true causeRULE)

/-- R426, R427, R428: a pair's self-test that passes steps through the positions and rails; a finding gives the pair its final verdict. -/
def Obligations.LockstepTestsAndVerdicts : Prop :=
  ∀ (d : Die) (p : Fin 2) (pos : Nat) (s : State),
    let i := p.val
    let st := R.SPR_STAT d i
    let nx := R.SPR_LS_NEXT d i
    let verdict (c : Instr) (v cause at_ : Nat) : Prop := Does c s fun t =>
      t.fld st 0 3 = v ∧ t.fld st 8 8 = cause ∧ t.getReg (R.SPR_FAULT_S d i) = wd (s.now d).sec ∧ t.getReg (R.SPR_FAULT_NS d i) = wd (s.now d).ns ∧
      t.getReg (R.SPR_FAULT_POS d i) = wd (at_ % 256) ∧ t.flag (R.DBL_STAT d 0) 30 = true ∧
      (s.linkUp = true → s.fld (R.RST_STAT d.other) 0 2 ≠ 0 → t.flag (R.DBL_STAT d.other 0) 31 = true) ∧ t.supLive d i = false
    s.pairClocked d i = true →
    ((s.supOf d i).trust = 0 → Does (.lockstepSelfTest d p true) s fun t =>
      s.counted t (R.SPR_LS_PASS d i) 1 ∧ t.flag nx 8 = !s.flag nx 8 ∧
      t.fld nx 0 8 = (if s.flag nx 8 then (if 159 ≤ s.fld nx 0 8 then 0 else s.fld nx 0 8 + 1) else s.fld nx 0 8) ∧
      t.getReg (R.SPR_PASS_S d i) = wd (s.now d).sec ∧ t.getReg (R.SPR_PASS_NS d i) = wd (s.now d).ns ∧ s.keepsMem t ∧
      s.keepsRegs t [R.SPR_LS_PASS d i, nx, R.SPR_PASS_S d i, R.SPR_PASS_NS d i, R.CMD_STAT d, R.SYS_DLY_STAT .d0, R.SYS_DLY_STAT .d1]) ∧
    ((s.supOf d i).trust = 0 → s.fld st 4 2 ≠ 0 → s.linkUp = true → (s.mirrorOf i).held ≠ [] → Does (.lockstepSelfTest d p true) s fun t =>
      (t.mirrorOf i).applied = (s.mirrorOf i).held.getLast? ∧ (t.mirrorOf i).held = []) ∧
    ((s.supOf d i).trust = 1 → Does (.lockstepSelfTest d p true) s fun t =>
      t.fld st 0 3 = 0 ∧ t.fld st 8 8 = 0 ∧ (t.hunit d 3 i).st = 0 ∧ (t.supOf d i).trust = 0) ∧
    (s.fld st 4 2 = 0 → s.pairRuns d (1 - i) = true → s.fld (R.RST_STAT d) 0 2 ≠ 0 →
      verdict (.lockstepMismatch d p .mismatch pos) 2 1 pos ∧ verdict (.lockstepMismatch d p .elsewhere pos) 3 3 pos ∧
      verdict (.lockstepMismatch d p .rail pos) 3 4 pos ∧ verdict (.lockstepMismatch d p .parity pos) 3 5 0xFF ∧
      verdict (.lockstepMismatch d p .missed pos) 3 2 s.freeNow.toNat ∧ verdict (.lockstepSelfTest d p false) 3 2 s.freeNow.toNat)

/-- R423, R430, R431: the mirror of a role holds what its pair sends, a primary pair's heartbeat goes out on class L0, and the roles move to the other
die where it can take them. -/
def Obligations.PrimaryRolesMirrorAndMove : Prop :=
  ∀ (d : Die) (p : Fin 2) (pos : Nat) (s : State),
    let e := d.other
    (s.linkUp = true → s.primary = e → s.pairRuns d p.val = true → s.pairRuns e p.val = true → Does (.mirrorUpdateRx d p) s fun t =>
      (t.mirrorOf p.val).held = (s.mirrorOf p.val).held ++ [s.roleCopy p.val] ∧ (t.mirrorOf p.val).applied = (s.mirrorOf p.val).applied ∧
      { t with mirror := s.mirror } = s) ∧
    (s.linkUp = true → s.primary = d → s.pairRuns d p.val = true → s.fld (R.SPR_STAT d p.val) 4 2 ≠ 0 → Does (.heartbeatSend d p) s fun t =>
      (∃ n, t.out = .duolay d 0 n [1, BitVec.ofNat 8 p.val] :: s.out) ∧ { t with out := s.out, dlyTx := s.dlyTx, dlyBuf := s.dlyBuf, dlyUse := s.dlyUse } = s) ∧
    (s.linkUp = true → s.primary = d → s.running e = true → Does (.heartbeatLoss d p) s fun t =>
      t.flag (R.SPR_ROLES e) 2 = true ∧ t.flag (R.DBL_STAT e 0) 31 = true ∧ t.primary = (if s.canTake d then e else d)) ∧
    (s.pairClocked d p.val = true → s.fld (R.SPR_STAT d p.val) 4 2 ≠ 0 → s.canTake d = true → Does (.lockstepMismatch d p .mismatch pos) s fun t =>
      t.primary = e ∧ t.fld (R.SPR_STAT d p.val) 0 3 = 2)

/-! ## The Duolay link (R29 to R40, R47) -/

/-- R31: a class's transfers are delivered once and in order; one behind a gap is held, one that cannot be corrected is sent again. R34, R36, R39, R40: a lane that fails leaves the link degraded or takes it down, an unacknowledged sender takes it down, and lanes that return and
the first training bring it up; a die that does not train is reported absent. -/
def Obligations.DuolayDeliveryLanesAndLink : Prop :=
  (∀ (d : Die) (cls : Fin 4) (seq corr : Nat) (payload : List Byte) (s : State),
    let x := s.dlyOf d
    let k := x.nextSeq.getD cls.val 0
    let acked (t : State) (n : Nat) : Prop := t.dlyWait d.other = (s.dlyWait d.other).filter fun y => !(y.1 = cls.val && y.2.1 = n)
    s.rxLanes d ≠ 0 → s.linkUp = true → x.nextSeq.length = 4 →
    Does (.duolayTransferRx d cls seq payload corr true) s (fun t =>
      s.counted t (R.SYS_DLY_UNCORR d) 1 ∧ s.counted t (R.SYS_DLY_CORR d) corr ∧ s.counted t (R.SYS_DLY_RETRY d.other) 1 ∧
      (t.dlyOf d).nextSeq = x.nextSeq ∧ (t.dlyOf d).held = x.held ∧ t.dlyWait d.other = s.dlyWait d.other ∧
      ∀ b, (cls.val, seq, b) ∈ s.dlyWait d.other → .duolay d.other cls.val seq b ∈ t.out) ∧
    (seq < k → Does (.duolayTransferRx d cls seq payload corr false) s fun t =>
      s.counted t (R.SYS_DLY_CORR d) corr ∧ s.keepsRegs t [R.SYS_DLY_CORR d] ∧ acked t seq ∧
      { t with regs := s.regs, dlyBuf := s.dlyBuf } = s) ∧
    (k < seq → (∀ h ∈ x.held, h.1 = cls.val → h.2.1 ≠ k ∧ h.2.1 ≠ seq) → Does (.duolayTransferRx d cls seq payload corr false) s fun t =>
      t.dlyOf d = { x with held := x.held ++ [(cls.val, seq, payload)] } ∧ s.counted t (R.SYS_DLY_CORR d) corr ∧
      s.keepsRegs t [R.SYS_DLY_CORR d] ∧ acked t seq ∧ { t with regs := s.regs, dly := s.dly, dlyBuf := s.dlyBuf } = s) ∧
    ((∀ h ∈ x.held, h.1 ≠ cls.val) → Does (.duolayTransferRx d cls k payload corr false) s fun t =>
      ∃ u : State, u.dlyOf d = { x with nextSeq := x.nextSeq.set cls.val (k + 1) } ∧ s.counted u (R.SYS_DLY_CORR d) corr ∧
        s.keepsRegs u [R.SYS_DLY_CORR d] ∧ acked u k ∧ { u with regs := s.regs, dly := s.dly, dlyBuf := s.dlyBuf } = s ∧
        t = (if cls.val = 1 then (u.dlyDeliver d payload).raiseSup d 27 else u.dlyDeliver d payload))) ∧
  (∀ (d : Die) (lane : Fin 2) (retx : Nat) (s : State),
    let e := d.other
    let l := lane.val
    let st := R.SYS_DLY_STAT
    let down (t : State) : Prop := t.linkUp = false ∧ ∀ x, t.fld (st x) 4 2 = 2 ∧ t.flag (R.SYS_DIE x) 2 = true ∧
      t.fld (R.SYS_DLY_DOWNCNT x) 0 16 = min (s.fld (R.SYS_DLY_DOWNCNT x) 0 16 + 1) 65535 ∧ t.flag (R.SYS_DLY_EVENT x) 1 = true
    (s.linkUp = true → s.flag (st d) (2 + l) = true → s.flag (st d) (3 - l) = true → Does (.laneFail d lane retx) s fun t =>
      t.flag (st d) (2 + l) = false ∧ t.flag (st e) l = false ∧ t.fld (st d) 4 2 = 1 ∧ t.fld (st e) 4 2 = 1 ∧
      t.flag (R.SYS_DLY_EVENT d) 0 = true ∧ t.flag (R.SYS_DLY_EVENT e) 0 = true ∧ s.counted t (R.SYS_DLY_RETRY e) retx ∧
      ∀ y ∈ (s.dlyWait e).take retx, .duolay e y.1 y.2.1 y.2.2 ∈ t.out) ∧
    (s.linkUp = false → s.flag (st d) (2 + l) = true → Does (.laneFail d lane retx) s fun t =>
      t.linkUp = false ∧ t.flag (st d) (2 + l) = false ∧ t.flag (st e) l = false ∧ t.flag (R.SYS_DLY_EVENT d) 0 = true ∧
      ∀ x, t.fld (st x) 4 2 = s.fld (st x) 4 2) ∧
    (s.linkUp = true → s.flag (st d) (2 + l) = true → s.flag (st d) (3 - l) = false → Does (.laneFail d lane retx) s fun t =>
      down t ∧ t.rxLanes d = 0 ∧ t.rxLanes e = s.rxLanes e ∧ s.counted t (R.SYS_DLY_RETRY e) retx) ∧
    (s.linkUp = true → Does (.linkAckTimeout d retx) s fun t =>
      down t ∧ (∀ x, t.fld (st x) 0 4 = 0) ∧ s.counted t (R.SYS_DLY_RETRY d) retx) ∧
    (s.fld (st .d0) 4 2 = 2 → s.flag (st d) (2 + l) = false → s.rxLanes e ≠ 0 → Does (.laneReturn d lane) s fun t =>
      t.linkUp = true ∧ t.flag (st d) (2 + l) = true ∧ t.flag (st e) l = true ∧
      ∀ x, t.fld (st x) 16 16 = (s.fld (st x) 16 16 + 1) % 65536 ∧ t.flag (R.SYS_DIE x) 2 = false ∧
        t.fld (st x) 4 2 = (if t.fld (st x) 0 4 = 15 then 0 else 1)) ∧
    (s.linkUp = true → s.flag (st d) (2 + l) = false → s.flag (st d) (3 - l) = true → s.rxLanes e = 3 → Does (.laneReturn d lane) s fun t =>
      t.rxLanes d = 3 ∧ t.flag (st e) l = true ∧ t.fld (st d) 4 2 = 0 ∧ t.fld (st e) 4 2 = 0 ∧ s.keepsRegs t [st d, st e] ∧ { t with regs := s.regs } = s) ∧
    (s.fld (st .d0) 4 2 = 3 → s.rst.kind = 0 → Does .duolayLinkTrained s fun t =>
      t.linkUp = true ∧ ∀ x, t.fld (st x) 0 6 = 15 ∧ t.fld (st x) 16 16 = s.fld (st x) 16 16 ∧ t.flag (R.SYS_DIE x) 2 = false) ∧
    (s.linkUp = false → (s.bootOf .d1).stage < 3 → Does .die1TrainTimeout s fun t =>
      t.rst.absent = true ∧ t.flag (R.DBL_READY_INFO .d0) 2 = true ∧ t.flag (R.DBL_READY_INFO .d1) 2 = true ∧
      s.keepsRegs t [R.DBL_READY_INFO .d0, R.DBL_READY_INFO .d1] ∧ s.keepsMem t))

/-! ## Stencils and pins (R443 to R460) -/

/-- R448, R450, R451, R453, R454: what each instruction of a stencil's program does, or begins, at the step the program stands at. -/
def Obligations.StencilPrograms : Prop :=
  ∀ (d : Die) (n : Fin 16) (lvl : Bool) (s : State),
    let i := n.val
    let w := s.stnWord d i
    let pc := s.stnPc d i
    let x := s.stnOf d i
    let sr := (s.getReg (R.STN_SR d i)).toNat
    let cnt := s.fld (R.STN_CNT d i) 0 16
    let flags := s.fld (R.STN_FLAG_SET d) 0 16
    let onto (c : Instr) (pc : Nat) (l : List Nat) (P : State → Prop) : Prop := Does c s fun t => s.stnAtStep t d i pc l ∧ P t
    let begins (c : Instr) (left sub : Nat) : Prop := Does c s fun t => t = s.setStn d i { x with busy := true, left := left, sub := sub }
    let waits (c : Instr) (left : Nat) : Prop := Does c s fun t => t.stnOf d i = { x with busy := true, left := left, sub := 0 } ∧
      t.flag (R.STN_STAT d i) 5 = true ∧ t.stnPc d i = pc ∧ s.keepsRegs t [R.STN_STAT d i] ∧ s.keepsMem t
    (s.stnStands d i 0 → begins (.stnDelay d n) (max 1 (stnImm w)) 0) ∧
    (s.stnStands d i 1 → begins (.stnIn d n) (stnImm w % 64) (stnY w + 1)) ∧
    (s.stnStands d i 2 → begins (.stnOut d n) (stnImm w % 64 + 1) 1) ∧
    (s.stnStands d i 3 → begins (.stnSet d n) 1 0) ∧
    (s.stnStands d i 4 → waits (.stnWaitp d n) (stnImm w)) ∧
    (s.stnStands d i 11 → waits (.stnPull d n) 0) ∧
    (s.stnStands d i 12 → 2 ≤ stnX w → waits (.stnFlag d n) 0) ∧
    (s.stnStands d i 12 → stnX w < 2 → Does (.stnFlag d n) s fun t =>
      t.fld (R.STN_FLAG_SET d) 0 16 = (if stnX w = 1 then flags ||| 2 ^ (stnImm w % 16) else flags &&& (0xFFFF ^^^ 2 ^ (stnImm w % 16))) ∧
      t.fld (R.STN_FLAG_CLR d) 0 16 = t.fld (R.STN_FLAG_SET d) 0 16 ∧ t.stnPc d i = (pc + 1) % 32) ∧
    (s.stnStands d i 5 →
      let same := sr % 2 ^ (stnImm w % 64) = (s.getReg (R.STN_CMP d i)).toNat % 2 ^ (stnImm w % 64)
      onto (.stnJcmp d n) (if same ↔ stnY w % 2 = 0 then stnTgt w else pc + 1) [] fun _ => True) ∧
    (s.stnStands d i 6 →
      let inp := lvl || decide (s.fld (R.STN_PINS d i) 0 6 = 0x3F)
      let full := match s.stnFifo d i with | some q => s.flag (R.SFQ_STAT d q) 9 | none => true
      let bit := flags.testBit (stnImm w % 16)
      let hold := [true, inp, !inp, full, !full, !s.flag (R.STN_STAT d i) 4, decide (cnt = 0), decide (cnt ≠ 0), bit, !bit,
        lvl == s.flag (R.STN_CFG d i) 1].getD (stnY w) (lvl == s.flag (R.STN_CFG d i) 1)
      onto (.stnJcond d n lvl) (if hold then stnTgt w else pc + 1) [R.PIN_CFG d (s.stnCondPin d i)] fun _ => True) ∧
    (s.stnStands d i 7 → onto (.stnLdcnt d n) (pc + 1) [R.STN_CNT d i] fun t => t.getReg (R.STN_CNT d i) = wd (stnImm w)) ∧
    (s.stnStands d i 8 → onto (.stnDjnz d n) (if (cnt + 65535) % 65536 ≠ 0 then stnTgt w else pc + 1) [R.STN_CNT d i] fun t =>
      t.getReg (R.STN_CNT d i) = wd ((cnt + 65535) % 65536)) ∧
    (s.stnStands d i 9 → s.stnFifo d i = none → s.flag (R.STN_CFG d i) 28 = false →
      onto (.stnPush d n) (pc + 1) [R.STN_CNT_NOFIFO d i, R.STN_EVENT d i] fun t => s.counted t (R.STN_CNT_NOFIFO d i) 1 ∧ t.flag (R.STN_EVENT d i) 3 = true) ∧
    (∀ q, s.stnStands d i 9 → s.stnFifo d i = some q →
      let wide := s.flag (R.SFQ_CTRL d q) 3
      let byte1 := stnX w / 4 % 2 = 1
      let unit := if stnX w % 2 = 0 then sr else if wide then sr / 2 ^ 16 else sr / 2 ^ 24
      Does (.stnPush d n) s fun t =>
        t = (s.sfqTake d q (leBytes (if wide ∧ ¬byte1 then 2 else 1) unit) (s.fld (R.STN_OWNER d i) 16 16) (decide (stnX w / 2 % 2 = 1))).stnNext d i) ∧
    (∀ q, s.stnStands d i 10 → s.stnFifo d i = some q → Does (.stnClose d n) s fun t => t = (s.sfqEnd d q true).stnNext d i) ∧
    (s.stnStands d i 10 → s.stnFifo d i = none → s.flag (R.STN_CFG d i) 28 = false →
      onto (.stnClose d n) (pc + 1) [R.STN_CNT_NOFIFO d i, R.STN_EVENT d i] fun t => s.counted t (R.STN_CNT_NOFIFO d i) 1 ∧ t.flag (R.STN_EVENT d i) 3 = true) ∧
    (s.stnStands d i 13 → onto (.stnLdsr d n) (pc + 1) [R.STN_SR d i] fun t =>
      t.getReg (R.STN_SR d i) = (if stnX w % 2 = 1 then wd (stnImm w * 2 ^ 16 + sr % 2 ^ 16) else wd (sr / 2 ^ 16 * 2 ^ 16 + stnImm w))) ∧
    (s.stnStands d i 14 → onto (.stnNop d n) (pc + 1) [] fun _ => True) ∧
    (s.stnStands d i 15 → s.flag (R.STN_CFG d i) 28 = false → Does (.stnHalt d n) s fun t =>
      t.stnState d i = 2 ∧ t.flag (R.STN_EVENT d i) 1 = true ∧ t.flag (R.STN_RUNNING d) i = false ∧ t.flag (R.STN_CTRL d i) 0 = false ∧
      t.stnPc d i = pc ∧ (t.stnOf d i).drv = none ∧ s.keepsMem t)

/-- R446, R447, R450, R451: what a tick does to the instruction in progress, and how the waits end. -/
def Obligations.StencilTicksAndWaits : Prop :=
  ∀ (d : Die) (n : Fin 16) (lvl : Bool) (s : State),
    let i := n.val
    let w := s.stnWord d i
    let pc := s.stnPc d i
    let x := s.stnOf d i
    let sr := (s.getReg (R.STN_SR d i)).toNat
    let inPin := s.fld (R.STN_PINS d i) 0 6
    let one := if lvl ∨ inPin = 0x3F then 1 else 0
    let tick := Instr.stencilTick d n lvl
    let onto (c : Instr) (pc : Nat) (l : List Nat) (P : State → Prop) : Prop := Does c s fun t => s.stnAtStep t d i pc l ∧ P t
    let stays (P : State → Prop) (l : List Nat) : Prop := Does tick s fun t =>
      t.stnPc d i = pc ∧ t.stnRuns d i = true ∧ (t.stnOf d i).busy = true ∧ s.keepsRegs t l ∧ P t
    let sampled (t : State) : Prop := t.getReg (R.STN_SR d i) = (if stnX w % 2 = 0 then wd (sr / 2 + one * 2 ^ 31) else wd (sr * 2 + one))
    let period := if s.stnRuns d i then x.div else s.stnD d i
    (s.unitsRun d = true → x.acc < period → Does tick s fun t => (t.stnOf d i).acc < 256 ∧ (t.stnOf d i).div = s.stnD d i ∧
      ∃ k, x.acc + 256 * k = (t.stnOf d i).acc + period) ∧
    (s.stnInside d i 0 → x.left ≤ 1 → onto tick (pc + 1) [] fun _ => True) ∧
    (s.stnInside d i 0 → 1 < x.left → stays (fun t => (t.stnOf d i).left = x.left - 1) []) ∧
    (s.stnInside d i 1 → 1 < x.sub → stays (fun t => (t.stnOf d i).left = x.left ∧ (t.stnOf d i).sub = x.sub - 1) []) ∧
    (s.stnInside d i 1 → x.sub ≤ 1 → x.left ≤ 1 → onto tick (pc + 1) [R.STN_SR d i, R.PIN_CFG d inPin] sampled) ∧
    (s.stnInside d i 1 → x.sub ≤ 1 → 1 < x.left → stays (fun t => sampled t ∧ (t.stnOf d i).left = x.left - 1 ∧ (t.stnOf d i).sub = stnY w + 1)
      [R.STN_SR d i, R.PIN_CFG d inPin]) ∧
    (s.stnInside d i 2 → 1 < x.sub → stays (fun t => (t.stnOf d i).left = x.left ∧ (t.stnOf d i).sub = x.sub - 1) []) ∧
    (s.stnInside d i 2 → x.sub ≤ 1 → x.left ≤ 1 → onto tick (pc + 1) [] fun _ => True) ∧
    (s.stnInside d i 2 → x.sub ≤ 1 → 1 < x.left → Does tick s fun t =>
      t.getReg (R.STN_SR d i) = (if stnX w % 2 = 1 then wd (sr * 2) else wd (sr / 2)) ∧
      (t.stnOf d i).drv = some (if stnX w % 2 = 1 then sr.testBit 31 else sr.testBit 0, true) ∧ (t.stnOf d i).left = x.left - 1 ∧
      (t.stnOf d i).sub = stnY w + 1 ∧ t.stnPc d i = pc) ∧
    (s.stnInside d i 3 → Does tick s fun t =>
      (t.stnOf d i).drv = some (decide (stnX w % 2 = 1), decide (stnX w / 2 % 2 = 1)) ∧ t.stnPc d i = (pc + 1) % 32 ∧ (t.stnOf d i).busy = false) ∧
    (∀ k, s.stnInside d i 3 → s.stnOutPin d i = some k → s.flag (R.PIN_CFG d k) 25 = false → s.padIsHeld d k = false → Does tick s fun t =>
      t.flag (R.PIN_CFG d k) 26 = decide (stnX w / 2 % 2 = 1) ∧ t.flag (R.PIN_CFG d k) 27 = false ∧
      t.padLevel d k = (if stnX w / 2 % 2 = 1 then decide (stnX w % 2 = 1) else s.padLevel d k)) ∧
    (s.stnInside d i 4 → stays (fun t => (t.stnOf d i).left = x.left - 1) []) ∧
    (s.stnInside d i 4 → stnImm w ≠ 0 → x.left = 0 → onto (.stnWaitpTimeout d n) (stnTgt w) [] fun _ => True) ∧
    (s.stnInside d i 4 →
      let pin := if stnX w / 2 % 2 = 1 then s.fld (R.STN_PINS d i) 16 6 else inPin
      if pin = 0x3F ∧ stnX w / 2 % 2 = 0 ∧ stnX w % 2 = 0 then Does (.stnWaitEnd d n) s fun t => t = s
      else onto (.stnWaitEnd d n) (pc + 1) [R.PIN_CFG d pin] fun t => (t.stnOf d i).acc = (if stnX w / 4 % 2 = 1 then (x.div + 1) / 2 else 0) ∧
        (pin < 48 → t.flag (R.PIN_CFG d pin) 24 = decide (stnX w % 2 = 1))) ∧
    (s.stnInside d i 11 → s.flag (R.STN_STAT d i) 4 = true → onto (.stnWaitEnd d n) (pc + 1) [R.STN_SR d i] fun t =>
      t.getReg (R.STN_SR d i) = s.getReg (R.STN_TXDATA d i) ∧ t.flag (R.STN_STAT d i) 4 = false) ∧
    (s.stnInside d i 12 → ((s.fld (R.STN_FLAG_SET d) 0 16).testBit (stnImm w % 16) ↔ stnX w = 2) → onto (.stnWaitEnd d n) (pc + 1) [] fun _ => True)

/-- R443, R445, R448, R449, R452, R454, R455, R458: running, stopping and resetting a stencil, its guard, the shared flags, and a pin's handover. -/
def Obligations.StencilControlAndPins : Prop :=
  ∀ (who : Requester) (d : Die) (n : Fin 16) (k : Fin 48) (v : Word) (s : State),
    let i := n.val
    let ctl := R.STN_CTRL d i
    let st := R.STN_STAT d i
    let pin := R.PIN_CFG d k.val
    let own (a : Nat) : Prop := s.writes who a ∧ s.fld (R.STN_OWNER d i) 0 8 = who.unitOwner d
    let flags := s.fld (R.STN_FLAG_SET d) 0 16
    let cfg := (s.getReg pin &&& ~~~(0x00033FF7 : Word)) ||| (v &&& 0x00033FF7)
    let change := bits (s.getReg pin) 0 3 ≠ bits cfg 0 3 ∨ bits (s.getReg pin) 4 4 ≠ bits cfg 4 4
    (own ctl → s.stnState d i ≠ 3 → (s.fld (R.STN_PINS d i) 8 6 = 0x3F ∨ ∃ p, s.stnOutPin d i = some p) → Accepted (.stnRun who d n) s who ctl fun t =>
      t.stnState d i = 1 ∧ t.stnPc d i = 0 ∧ t.flag (R.STN_RUNNING d) i = true ∧ t.flag ctl 0 = true ∧ (t.stnOf d i).busy = false) ∧
    (own ctl → s.stnState d i = 3 → RefusedWith (.stnRun who d n) s who ctl causeRULE) ∧
    (own ctl → s.stnRuns d i = true → Accepted (.stnStop who d n) s who ctl fun t =>
      t.stnState d i = 0 ∧ t.stnPc d i = s.stnPc d i ∧ t.flag (R.STN_RUNNING d) i = false ∧ t.flag ctl 0 = false ∧ (t.stnOf d i).drv = none) ∧
    (own ctl → Accepted (.stnSrst who d n) s who ctl fun t =>
      t.stnState d i = 0 ∧ t.stnPc d i = 0 ∧ t.getReg (R.STN_SR d i) = 0 ∧ t.getReg (R.STN_CNT d i) = 0 ∧ t.getReg (R.STN_EVENT d i) = 0 ∧
      t.flag st 4 = false ∧ ∀ j : Fin 32, t.getReg (R.STN_PROG d i j.val) = s.getReg (R.STN_PROG d i j.val)) ∧
    (s.unitsRun d = true → s.stnRuns d i = true → s.flag (R.STN_CFG d i) 0 = true → s.flag st 6 = false →
      s.fld (R.STN_PINS d i) 16 6 < 48 → Does (.stnGuardFire d n) s fun t =>
      t.getReg (R.STN_SR d i) = 0 ∧ t.stnPc d i = s.fld (R.STN_CFG d i) 16 5 ∧ t.flag st 6 = true ∧ t.stnRuns d i = true ∧ (t.stnOf d i).busy = false ∧
      t.flag (R.STN_EVENT d i) 0 = true ∧ s.counted t (R.STN_CNT_GUARD d i) 1) ∧
    (Does (.stnGuardClear d n) s fun t => t.flag st 6 = false ∧ t.stnPc d i = s.stnPc d i ∧ t.stnState d i = s.stnState d i ∧
      s.keepsRegs t [st, R.PIN_CFG d (s.fld (R.STN_PINS d i) 16 6)]) ∧
    (s.stnRuns d i = true → (s.hunit d 7 i).st ≠ 4 → Does (.stnParityError d n) s fun t =>
      t.stnState d i = 3 ∧ t.fld st 16 4 = 1 ∧ t.flag (R.STN_EVENT d i) 2 = true ∧ t.flag (R.STN_RUNNING d) i = false ∧ (t.hunit d 7 i).st = 4) ∧
    (own (R.STN_TXDATA d i) → s.flag st 4 = false → Accepted (.stnTxdataWrite who d n v) s who (R.STN_TXDATA d i) fun t =>
      t.getReg (R.STN_TXDATA d i) = v ∧ t.flag st 4 = true ∧ s.keepsRegs t [R.STN_TXDATA d i, st] ∧ s.keepsMem t) ∧
    (own (R.STN_TXDATA d i) → s.flag st 4 = true → RefusedWith (.stnTxdataWrite who d n v) s who (R.STN_TXDATA d i) causeRULE) ∧
    (s.writes who (R.STN_FLAG_SET d) → s.stnFlagWriter who d = true → Accepted (.stnFlagSetWrite who d v) s who (R.STN_FLAG_SET d) fun t =>
      t.fld (R.STN_FLAG_SET d) 0 16 = flags ||| bits v 0 16 ∧ t.fld (R.STN_FLAG_CLR d) 0 16 = flags ||| bits v 0 16 ∧ s.keepsMem t ∧
      ∀ j : Fin 24, s.fld (R.STN_WATCH d j.val) 0 16 &&& (flags ^^^ (flags ||| bits v 0 16)) ≠ 0 → t.flag (R.CE_EVT d j.val) 4 = true) ∧
    (s.writes who (R.STN_FLAG_CLR d) → s.stnFlagWriter who d = true → Accepted (.stnFlagClrWrite who d v) s who (R.STN_FLAG_CLR d) fun t =>
      t.fld (R.STN_FLAG_SET d) 0 16 = flags &&& (0xFFFF ^^^ bits v 0 16) ∧ t.fld (R.STN_FLAG_CLR d) 0 16 = flags &&& (0xFFFF ^^^ bits v 0 16) ∧ s.keepsMem t) ∧
    (s.writes who pin → (∀ e j, who ≠ .ce e j) → bits v 0 3 ≤ 2 → (bit v 10 && bit v 11) = false → s.flag pin 25 = false →
      (change → (∀ w ∈ [s.getReg pin, cfg], bits w 0 3 = 2 → s.stnRuns d (bits w 4 4) = false) ∧
        (bits cfg 0 3 = 2 → s.fld (R.STN_OWNER d (bits cfg 4 4)) 0 8 = 0x20 ∨ s.stnState d (bits cfg 4 4) = 0)) →
      Accepted (.pinCfgWrite who d k v) s who pin fun t =>
        (t.getReg pin &&& 0x00033FF7) = (v &&& 0x00033FF7) ∧ (change → t.flag pin 25 = true) ∧ t.flag (R.RST_CFG_STAT .d0) 0 = true) ∧
    (s.writes who pin → (∀ e j, who ≠ .ce e j) → 2 < bits v 0 3 → RefusedWith (.pinCfgWrite who d k v) s who pin causeRULE) ∧
    (s.flag pin 25 = true → s.padIsHeld d k = false → Does (.pinHandoverDone d k) s fun t => t.flag pin 25 = false ∧
      (let (lvl, oe, safe) := s.padAsks d k.val
       t.padLevel d k = (if oe then lvl else s.padLevel d k) ∧ t.flag pin 26 = oe ∧ t.flag pin 27 = safe) ∧ s.keepsRegs t [pin] ∧ s.keepsMem t) ∧
    (s.padIsHeld d k = true → Does (.pinHandoverDone d k) s fun t => t = s)

/-! ## Stream FIFOs (R67 to R83) -/

/-- R69 to R72, R81: units are packed into entries of eight bytes, a full FIFO drops and counts, a stale epoch is discarded, and a packet's length word is
reserved when it opens and made ready when it closes. -/
def Obligations.StreamFifosPackUnits : Prop :=
  ∀ (d : Die) (n : Fin 32) (bs : List Byte) (b : Byte) (epoch : Nat) (s : State),
    let i := n.val
    let q := s.sfqOf d i
    let st := R.SFQ_STAT d i
    let src := s.sfqSource d i
    let on := s.unitsRun d = true ∧ s.flag (R.SFQ_CTRL d i) 0 = true
    let live := on ∧ epoch = s.sfqAccepted d i ∧ s.sfqCurrent d i ∧ q.skip = false
    let lanesEpoch := if q.lanes = [] then epoch else q.laneEpoch
    let slot : SfqEntry := { word := 0, valid := 8, epoch := epoch, first := false, last := false, len := true, ready := false }
    let part : SfqEntry :=
      { word := ofLe q.lanes, valid := q.lanes.length, epoch := q.laneEpoch, first := q.firstNext, last := true, len := false, ready := true,
        brk := true }
    (live → s.flag (R.SFQ_CTRL d i) 2 = false → q.pkt = none → q.entries.length < 64 → q.lanes.length < 7 → Does (.sfqUnitIn d n [b] epoch false) s fun t =>
      t.sfqOf d i = { q with lanes := q.lanes ++ [b], laneEpoch := lanesEpoch } ∧ s.keepsMem t) ∧
    (live → s.flag (R.SFQ_CTRL d i) 2 = false → q.pkt = none → q.entries.length < 64 → q.lanes.length = 7 → Does (.sfqUnitIn d n [b] epoch false) s fun t =>
      (t.sfqOf d i).entries = q.entries ++
        [{ word := ofLe (q.lanes ++ [b]), valid := 8, epoch := q.laneEpoch, first := q.firstNext, last := false, len := false, ready := true }] ∧
      (t.sfqOf d i).lanes = [] ∧ (t.sfqOf d i).firstNext = false ∧ t.fld st 0 7 = q.entries.length + 1 ∧ t.flag (R.SFQ_NONEMPTY d) i = true) ∧
    (live → s.flag (R.SFQ_CTRL d i) 2 = true → q.pkt = none → q.lanes = [] → q.entries.length < 63 → Does (.sfqUnitIn d n [b] epoch false) s fun t =>
      (t.sfqOf d i).pkt = some { bytes := 1, trunc := false, epoch := epoch } ∧ (t.sfqOf d i).entries = q.entries ++ [slot] ∧ (t.sfqOf d i).lanes = [b] ∧
      t.flag st 8 = true) ∧
    (live → 64 ≤ q.entries.length → Does (.sfqUnitIn d n bs epoch false) s fun t =>
      t.flag st 10 = true ∧ t.flag (R.SFQ_OVF_SUM d) i = true ∧ s.counted t (R.SFQ_OVF_CNT d i) bs.length ∧ (t.sfqOf d i).entries = q.entries ∧
      (t.sfqOf d i).lanes = q.lanes ∧ (t.sfqOf d i).pkt = q.pkt.map fun p => { p with trunc := true }) ∧
    (on → epoch ≠ s.sfqAccepted d i → (s.hunit d src.1 src.2).fenceSec = some (s.now d).sec →
      Does (.sfqUnitIn d n bs epoch false) s fun t =>
        t.sfqOf d i = q ∧ s.counted t (R.HLT_CNT_FENCED d) 1 ∧ t.flag (R.HLT_EVENT d) 10 = true ∧ s.keepsMem t) ∧
    (s.unitsRun d = true → s.fld (R.SFQ_IDLE d i) 0 16 ≠ 0 → q.pkt = none → q.skip = false → q.lanes ≠ [] → q.entries.length < 64 → Does (.sfqIdleClose d n) s fun t =>
      t.sfqOf d i = { q with entries := q.entries ++ [part], lanes := [], firstNext := false }) ∧
    (∀ p, s.unitsRun d = true → s.fld (R.SFQ_IDLE d i) 0 16 ≠ 0 → q.pkt = some p → q.lanes = [] → Does (.sfqIdleClose d n) s fun t =>
      t.sfqOf d i = { q with pkt := none, skip := false, seq := (q.seq + 1) % 0x1_0000, entries := fillLen (p.bytes % 2 ^ 24 + (if p.trunc then 2 ^ 24 else 0) +
        2 ^ 25 + q.seq * 2 ^ 32 + p.epoch * 2 ^ 48) (brkLast q.entries) } ∧ t.flag st 8 = false)

/-- R70, R73 to R77, R79 to R82, R85: what the owner of a stream FIFO writes and reads, a read that stalls, and the drain into the pool. -/
def Obligations.StreamFifoReadsAndDrains : Prop :=
  ∀ (who : Requester) (d : Die) (n : Fin 32) (v : Word) (s : State),
    let i := n.val
    let q := s.sfqOf d i
    let ctl := R.SFQ_CTRL d i
    let lo := R.SFQ_RDATA_LO d i
    let mine := s.fld (R.SFQ_OWNER d i) 0 8 = who.unitOwner d
    let fit := mine ∧ (bit v 2 = true → bit v 1 = true) ∧ bits v 4 5 ≤ 19 ∧ bits v 16 3 = 0
    let runs := bit v 0 = true ∧ s.flag ctl 0 = true
    let current := s.sfqCurrent d i
    let port := who ≠ .h2 ∧ who ≠ .h2s ∧ who ≠ .h3
    let tag (e : SfqEntry) : Word := wd (e.epoch * 2 ^ 16 + (if e.first then 32 else 0) + (if e.last then 16 else 0) + e.valid)
    (s.accepts who ctl → fit → runs → q.lanes ≠ [] → q.entries.length < 64 → Accepted (.sfqFlush who d n v) s who ctl fun t =>
      t.getReg ctl = wd (bits v 0 9) ∧ (t.sfqOf d i).lanes = [] ∧ (t.sfqOf d i).firstNext = true ∧ (t.sfqOf d i).entries = q.entries ++
        [{ word := ofLe q.lanes, valid := q.lanes.length, epoch := q.laneEpoch, first := q.firstNext, last := true, len := false,
            ready := true, brk := true }]) ∧
    (∀ p, s.accepts who ctl → fit → runs → q.lanes = [] → q.pkt = some p → Accepted (.sfqClose who d n v) s who ctl fun t =>
      t.getReg ctl = wd (bits v 0 9) ∧ (t.sfqOf d i).pkt = none ∧ (t.sfqOf d i).seq = (q.seq + 1) % 0x1_0000 ∧ (t.sfqOf d i).entries =
        fillLen (p.bytes % 2 ^ 24 + (if p.trunc then 2 ^ 24 else 0) + q.seq * 2 ^ 32 + p.epoch * 2 ^ 48) (brkLast q.entries)) ∧
    (s.accepts who ctl → fit → Accepted (.sfqReset who d n v) s who ctl fun t =>
      let u := t.sfqOf d i
      u.entries = [] ∧ u.lanes = [] ∧ u.pkt = none ∧ u.stalled = [] ∧ u.seq = q.seq ∧ t.getReg (R.SFQ_WPTR d i) = 0 ∧ t.getReg (R.SFQ_RPTR d i) = 0 ∧
      t.getReg ctl = wd (bits v 0 9)) ∧
    (s.accepts who ctl → fit → runs → Accepted (.sfqConfigWrite who d n v) s who ctl fun t =>
      t.getReg ctl = wd (bits v 0 9) ∧ s.keepsRegs t [ctl] ∧ s.keepsMem t ∧ t.sfqOf d i = q) ∧
    (s.accepts who ctl → mine → bit v 2 = true → bit v 1 = false → RefusedWith (.sfqConfigWrite who d n v) s who ctl causeRULE) ∧
    (s.accepts who ctl → ¬mine → RefusedWith (.sfqConfigWrite who d n v) s who ctl causeRULE) ∧
    (∀ e es, mine → port → current → q.stalled = [] → q.entries = e :: es →
      let left (t : State) : Prop := (t.sfqOf d i).entries = es ∧ t.getReg (R.SFQ_RDATA_HI d i) = wd (e.word / 2 ^ 32) ∧
        t.getReg (R.SFQ_TAG d i) = tag e ∧ s.keepsMem t
      (s.acceptsRead who lo → Does (.sfqReadLo who d n) s fun t => t.out = .answer who lo (.data [wd e.word]) :: s.out ∧ left t) ∧
      (s.regCheck who lo .w64 false = none → Does (.sfqReadPair who d n) s fun t =>
        t.out = .answer who lo (.data [wd e.word, wd (e.word / 2 ^ 32)]) :: s.out ∧ left t)) ∧
    (s.acceptsRead who lo → mine → port → current → (q.entries = [] ∧ s.flag ctl 0 = true ∨ q.stalled ≠ []) → Does (.sfqReadLo who d n) s fun t =>
      t.out = .answer who lo .stalled :: s.out ∧ (t.sfqOf d i).entries = q.entries ∧
      (t.sfqOf d i).stalled = (if q.stalled.any (fun r => r.1 = who) then q.stalled else q.stalled ++ [(who, false)])) ∧
    (s.acceptsRead who lo → mine → port → current → q.stalled = [] → q.entries = [] → s.flag ctl 0 = false → Does (.sfqReadLo who d n) s fun t =>
      t = s.refuse who lo false causeRULE) ∧
    (∀ (w : Requester) (wide : Bool) e es rest, q.stalled = (w, wide) :: rest → current → q.entries = e :: es → Does (.sfqStalledReadDone d n) s fun t =>
      t.out = .answer w lo (.data (if wide then [wd e.word, wd (e.word / 2 ^ 32)] else [wd e.word])) :: s.out ∧ (t.sfqOf d i).stalled = rest ∧
      (t.sfqOf d i).entries = es ∧ t.getReg (R.SFQ_TAG d i) = tag e) ∧
    (∀ (w : Requester) (wide : Bool) rest, q.stalled = (w, wide) :: rest → Does (.sfqReadTimeout d n) s fun t =>
      t.out.head? = some (.answer w lo (.refused causeTIMEOUT (cplOf w false causeTIMEOUT))) ∧ (t.sfqOf d i).stalled = rest ∧ (t.sfqOf d i).entries = q.entries ∧
      s.counted t (R.SFQ_TMO_CNT d i) 1 ∧ t.flag (R.SFQ_STAT d i) 12 = true) ∧
    (s.unitsRun d = true → s.flag ctl 1 = true → q.stopped = false → current → (∀ e ∈ q.entries, e.len = false) →
      let size := s.sfqBuf d i
      let part := drainTake size q.drainPos (s.fld (R.SFQ_RPTR d i) 0 20) q.entries
      let pos := (q.drainPos + 8 * part.length) % size
      let write := s.poolWrite d 11 (s.fld (R.SFQ_BUF_BASE d i) 6 20 * 64 + q.drainPos) ((part.flatMap fun e => leBytes 8 e.word).map some)
      part ≠ [] → ((q.drainPos + 8 * part.length) % 64 = 0 ∨ ∃ e ∈ part, e.brk = true) →
      (write.1 = .ok () → Does (.sfqDrainWrite d n) s fun t =>
        (t.sfqOf d i).entries = q.entries.drop part.length ∧ (t.sfqOf d i).drainPos = pos ∧ t.getReg (R.SFQ_WPTR d i) = wd pos ∧ t.mem = write.2.mem) ∧
      (∀ c, write.1 = .error c → Does (.sfqDrainWrite d n) s fun t =>
        (t.sfqOf d i).entries = q.entries ∧ (t.sfqOf d i).stopped = true ∧ t.flag (R.SFQ_STAT d i) 11 = true ∧ t.mem = s.mem)) ∧
    (s.accepts who (R.SFQ_RPTR d i) → mine → Accepted (.sfqRptrWrite who d n v) s who (R.SFQ_RPTR d i) fun t =>
      t.getReg (R.SFQ_RPTR d i) = wd (bits v 3 17 * 8) ∧ s.keepsRegs t [R.SFQ_RPTR d i] ∧ s.keepsMem t)

/-! ## The shared pool (R49 to R66) -/

/-- R50, R53, R57 to R60, R62 to R65: an access of a bank, its error correction, scrubbing and retention. -/
def Obligations.PoolAccessesAndUpkeep : Prop :=
  ∀ (d : Die) (bank : Fin 272) (g : Fin 17) (r : PoolReq) (s : State),
    let b := bank.val
    let alone := s.waiting d b = [] ∧ s.holdOf d b = {} ∧ s.groupOff d (b / 16) = false
    let a := s.scrubAddr d b
    let pos (t : State) : Nat := Tab.get (fun _ => 0) t.scrubPos (bankKey d b)
    let word (x : Nat) : Nat := wordNo d x
    let bit (t : List (Nat × Nat)) : Bool := (Tab.get (fun _ => 0) t d.idx).testBit g.val
    (alone → s.bankRefusal d r.port r.addr = none → r.isWr = false → (∀ j, s.eccAt (word (r.addr / 8 * 8) + j) = 0) →
      Does (.poolAccess d bank [r] []) s fun t =>
        t.out = .pool d r.port r.addr (.data (bytesWords (s.load (d.org + r.addr) r.rd))) :: s.out ∧ t.mem = s.mem ∧ t.waiting d b = [] ∧
        s.keepsRegs t [R.POOL_PORT_UTIL d r.port]) ∧
    (alone → s.bankRefusal d r.port r.addr = none → r.isWr = true → (∀ j, s.eccAt (word (r.addr / 8 * 8) + j) = 0) →
      Does (.poolAccess d bank [r] []) s fun t =>
        t.out = .pool d r.port r.addr .done :: s.out ∧ t.waiting d b = [] ∧ s.keepsRegs t [R.POOL_PORT_UTIL d r.port] ∧
        (∀ j x, r.wr[j]? = some (some x) → t.byte (d.org + r.addr + j) = x) ∧
        (∀ y, (∀ j x, r.wr[j]? = some (some x) → y ≠ d.org + r.addr + j) → t.byte y = s.byte y)) ∧
    (∀ r', alone → b < 240 → rrDist (Tab.get (fun _ => 0) s.bankPtr (bankKey d b)) r.port < rrDist (Tab.get (fun _ => 0) s.bankPtr (bankKey d b)) r'.port →
      Does (.poolAccess d bank [r', r] []) s fun t => t.waiting d b = [r'] ∧ s.counted t (R.POOL_CONFLICT d) 1) ∧
    (∀ r', alone → 240 ≤ b → r.isWr = true → r'.isWr = true → sameWord r r' = true →
      rrDist (Tab.get (fun _ => 0) s.bankPtr (bankKey d b)) r.port < rrDist (Tab.get (fun _ => 0) s.bankPtr (bankKey d b)) r'.port →
      Does (.poolAccess d bank [r', r] []) s fun t => t.waiting d b = [] ∧ (t.holdOf d b).held = some r' ∧ s.counted t (R.POOL_CONFLICT d) 1) ∧
    (∀ r', s.waiting d b = [] → s.holdOf d b = { held := some r' } → s.groupOff d (b / 16) = false → b < 240 → r.port ≠ r'.port →
      Does (.poolAccess d bank [r] []) s fun t => t.waiting d b = [r] ∧ (t.holdOf d b).held = none) ∧
    (s.waiting d b = [] → s.groupOff d (b / 16) = true → bankOf r.addr = b → Does (.poolAccess d bank [r] []) s fun t =>
      t.out = .pool d r.port r.addr (.refused causeMEMORY) :: s.out ∧ s.counted t (R.POOL_RET_ERR d) 1 ∧ t.mem = s.mem) ∧
    (∀ w, s.groupOff d (b / 16) = false → s.powerEff d < 3 → s.wbOf d b = w + 1 → Does (.eccWriteBack d bank) s fun t =>
      t.wbOf d b = 0 ∧ t.eccAt w = (if s.eccAt w = 1 then 0 else s.eccAt w) ∧ (∀ x, x ≠ w → t.eccAt x = s.eccAt x) ∧
      { t with ecc := s.ecc, bankWb := s.bankWb } = s) ∧
    (s.groupOff d (b / 16) = false → (∀ j < 8, s.eccAt (word (a + 8 * j)) = 0) → Does (.scrubLine d bank) s fun t =>
      pos t = (pos s + 1) % bankLines b ∧ s.keepsRegs t [R.POOL_SCRUB d] ∧ { t with regs := s.regs, scrubPos := s.scrubPos, scrubDone := s.scrubDone } = s) ∧
    (∀ j < 8, s.groupOff d (b / 16) = false → s.eccAt (word (a + 8 * j)) = 1 → (∀ i < 8, i ≠ j → s.eccAt (word (a + 8 * i)) = 0) →
      (Tab.get (fun _ => []) s.corr (bankKey d (bankOf (a + 8 * j)))).length < 64 → s.wbOf d (bankOf (a + 8 * j)) = 0 → Does (.scrubLine d bank) s fun t =>
        s.counted t (R.POOL_ECC_CORR d) 1 ∧ t.getReg (R.POOL_CE_ADDR d) = wd (0xC000_0000 + (a + 8 * j) / 8 * 8 % 0x400_0000) ∧
        t.wbOf d (bankOf (a + 8 * j)) = word (a + 8 * j) + 1 ∧ pos t = (pos s + 1) % bankLines b) ∧
    (s.groupOff d (b / 16) = false → Does (.scrubForced d bank) s fun t =>
      s.counted t (R.POOL_SCRUB_STEAL d) 1 ∧ pos t = (pos s + 1) % bankLines b ∧
      (∀ j < 8, t.eccAt (word (a + 8 * j)) = 0 ∨ (s.eccAt (word (a + 8 * j)) ≠ 1 ∧ t.eccAt (word (a + 8 * j)) = s.eccAt (word (a + 8 * j))))) ∧
    (bit s.retEnter = true → s.asyncCmds = [] → Does (.retentionEntered d g) s fun t =>
      t.flag (R.POOL_RET_STAT d) g.val = true ∧ bit t.retEnter = false ∧ s.keepsRegs t [R.POOL_RET_STAT d] ∧
      { t with regs := s.regs, retEnter := s.retEnter } = s) ∧
    (s.flag (R.POOL_RET_WAKE d) g.val = true → s.asyncCmds = [] → Does (.retentionWakeDone d g) s fun t =>
      t.flag (R.POOL_RET_STAT d) g.val = false ∧ t.flag (R.POOL_RET_WAKE d) g.val = false ∧ bit t.retPrio = true ∧
      s.keepsRegs t [R.POOL_RET_STAT d, R.POOL_RET_WAKE d] ∧ { t with regs := s.regs, retPrio := s.retPrio } = s) ∧
    (bit s.retPrio = true → s.groupOff d g.val = false → Does (.priorityScrubPass d g) s fun t =>
      bit t.retPrio = false ∧ ∀ j l i, j < 16 → l < bankLines (16 * g.val + j) → i < 8 →
        let x := word (bankBase (16 * g.val + j) + l * 64 + i * 8)
        s.eccAt x = 1 → t.eccAt x = 0)

/-! ## Placement (R86 to R124) -/

/-- R87, R116, R122 to R124: a planner takes the event of the lowest rank, of equal ranks the earliest and then Die 0's; the hour's forecast is queued
once; and the query window shows an intent. -/
def Obligations.PlannerServesEventsByRank : Prop :=
  ∀ (who : Requester) (d : Die) (v : Word) (s : State),
    let q := s.planEvents d
    let win := [R.PLC_QRY_STAT d, R.PLC_QRY_LOC d, R.PLC_QRY_CTX d, R.PLC_QRY_CYCLE d, R.PLC_QRY_EPOCH d]
    (q ≠ [] → Does (.plannerEvent d) s fun t => ∃ e ∈ q, t = ((s.setPlanEvents d (q.erase e)).doEvent d e).publish d ∧
      ∀ f ∈ q, e.kind.rank ≤ f.kind.rank ∧ (e.kind.rank = f.kind.rank → e.time ≤ f.time ∧ (e.time = f.time → e.die.idx ≤ f.die.idx))) ∧
    (∀ e, q = [e] → e.kind = .forecast → s.plannedDies d = [d] → Does (.plannerEvent d) s fun t =>
      let u := s.setPlanEvents d []
      t.getReg (R.PLC_FCST_DAYS d) = wd (u.forecastDay d) ∧ t.getReg (R.PLC_FCST_BASE d) = wd (s.now d).sec ∧ t.planEvents d = [] ∧
      t.fld (R.PLC_STAT d) 16 16 = (s.fld (R.PLC_STAT d) 16 16 + 1) % 65536 ∧ s.keepsMem t) ∧
    ((q.any fun e => e.kind = .forecast) = false → (q.any fun e => e.kind = .rebalance) = false → Does (.forecastTimer d) s fun t =>
      t.planEvents d = q ++ [⟨s.lin d, d, .forecast⟩, ⟨s.lin d, d, .rebalance⟩] ∧ s.keepsRegs t [R.PLC_STAT d] ∧ { t with regs := s.regs, planQ := s.planQ } = s) ∧
    ((q.any fun e => e.kind = .forecast) = true → (q.any fun e => e.kind = .rebalance) = true → Does (.forecastTimer d) s fun t => t = s) ∧
    (s.accepts who (R.PLC_QRY_HANDLE d) → Accepted (.plcQueryWindow who d v) s who (R.PLC_QRY_HANDLE d) fun t =>
      t.getReg (R.PLC_QRY_HANDLE d) = v ∧ win.map (fun a => t.getReg a) = s.qryWords v.toNat ∧ s.keepsRegs t (R.PLC_QRY_HANDLE d :: win) ∧
      ((s.intent v.toNat).handle ≠ v.toNat → win.map (fun a => t.getReg a) = [0, wd 0x7F3F, 0, 0, 0]))

/-- R103, R105, R106, R113: how an instance or a flow becomes LIVE or PINNED, drains and is released, and how a flow changes its path. -/
def Obligations.PlacementsLiveAndAreReleased : Prop :=
  ∀ (h : Nat) (p q : Placement) (s : State),
    let i := s.intent h
    let live := if i.pinned then 5 else 4
    (s.handleHeld h = true → i.isFlow = false → i.cur = some p → p.st = 2 → s.running p.die = true → Does (.placementLive h) s fun t =>
      (t.intent h).cur = some { p with st := live } ∧ (t.intent h).tgt = i.tgt ∧ t.flag (R.PLC_EVENT p.die) 0 = true ∧
      (i.replaced = true → t.flag (R.PLC_EVENT p.die) 3 = true) ∧ s.keepsMem t) ∧
    (s.handleHeld h = true → i.isFlow = true → i.cur = some p → p.st = 2 → s.running p.die = true → Does (.flowLive h) s fun t =>
      (t.intent h).cur = some { p with st := live } ∧ t.flag (R.PLC_EVENT p.die) 0 = true ∧ (i.replaced = true → t.flag (R.PLC_EVENT p.die) 3 = true)) ∧
    (i.cur = some p → i.releasing = true → (p.st = 4 ∨ p.st = 5) → Does (.releaseDrainStart h) s fun t =>
      t.intent h = { i with held := false, releasing := false, cur := some { p with st := 6 } } ∧
      (∀ u ∈ p.cmps, t.flag (R.TB_CMP_CTRL p.die u) 0 = false ∧ t.flag (R.TB_CMP_STAT p.die u) 0 = false) ∧
      { t with regs := s.regs, intents := s.intents } = s) ∧
    (i.tgt = some q → q.st = 6 → i.isFlow = false → s.runSlot q.die q.ce ≠ some q.slot → Does (.placementReleased h) s fun t =>
      (t.intent h).tgt = none ∧ (t.intent h).cur = i.cur) ∧
    (i.tgt = none → i.cur = some p → p.st = 6 → i.isFlow = false → (s.iqOf h).used = 0 → s.runSlot p.die p.ce ≠ some p.slot →
      Does (.placementReleased h) s fun t => (t.intent h).cur = none ∧ (t.intent h).held = false ∧ (t.intent h).cause = 1) ∧
    (i.tgt = none → i.cur = some p → p.st = 6 → i.isFlow = true → s.flowQueued h p.hops = false → Does (.placementReleased h) s fun t =>
      (t.intent h).cur = none ∧ (t.intent h).held = false ∧ (t.intent h).cause = 1) ∧
    (s.handleHeld h = true → i.isFlow = true → i.tgt = some q → i.cur = some p → q.st = 2 → Does (.flowPathSwitch h) s fun t =>
      t.intent h = { i with cur := some { q with st := live }, tgt := some { p with st := 6 }, stage := 1 } ∧ s.keepsMem t) ∧
    (i.isFlow = true → i.tgt = some q → i.stage = 1 → s.flowQueued h q.hops = false → Tab.get (fun _ => []) s.flowHold (intentKey h) = [] →
      Does (.flowHoldRelease h) s fun t => t.intent h = { i with tgt := none, stage := 0 } ∧ s.keepsMem t)

/-- R109 to R112, R416: the steps of a migration, from the target's code to the switch-over, or its end at a mismatch or after four shadow cycles. -/
def Obligations.MigrationsStepByStep : Prop :=
  ∀ (h : Nat) (p q : Placement) (s : State),
    let i := s.intent h
    let live := if i.pinned then 5 else 4
    let mig (st stage : Nat) : Prop := i.isFlow = false ∧ i.tgt = some q ∧ i.cur = some p ∧ q.st = st ∧ i.stage = stage
    let clean (j : Intent) : Prop := j.outCur = [] ∧ j.outTgt = [] ∧ j.repCur = false ∧ j.repTgt = false
    (mig 2 0 → q.ce < 24 → q.slot < 63 → q.cmps.headD 0 < 64 → q.epoch < 65536 → Does (.migrationCodeLoaded h) s fun t =>
      t.intent h = { i with stage := 1, repCur := false } ∧
      t.getReg (R.CE_SLOT_W0 q.die q.ce q.slot) = wd (0x8000_0000 + imgEntry (s.image i.imageNo)) ∧ t.slotShadow q.die q.ce q.slot = true) ∧
    let read := s.scanLines (dieOfAddr p.ctx) 13 (p.ctx % 2 ^ 39) (p.ctxLen / 64)
    (mig 2 1 → i.repCur = true → read.1 = true → Does (.migrationContextCopy h) s fun t => t = read.2) ∧
    (mig 2 1 → i.repCur = true → read.1 = false → Does (.migrationContextCopy h) s fun t =>
      let j := t.intent h
      j.stage = 2 ∧ j.shadows = 1 ∧ j.cur = some p ∧ j.tgt = some { q with st := 3, commit := p.commit, lost := p.lost } ∧ clean j ∧
      ∀ n < p.ctxLen, t.byte (q.ctx + n) = read.2.byte (p.ctx + n)) ∧
    (mig 3 2 → i.repTgt = true → i.repCur = true → i.nocmp = false → outsMatch i.outCur i.outTgt = true → Does (.migrationCompare h) s fun t =>
      t.intent h = { i with stage := 4 } ∧ { t with intents := s.intents } = s) ∧
    (mig 3 2 → i.repTgt = true → i.nocmp = true → i.tgtLate = false → Does (.migrationCompare h) s fun t =>
      t.intent h = { i with stage := 4 } ∧ { t with intents := s.intents } = s) ∧
    (mig 3 2 → i.repTgt = true → i.repCur = true → i.nocmp = false → outsMatch i.outCur i.outTgt = false → Does (.migrationCompare h) s fun t =>
      let j := t.intent h
      j.tgt = none ∧ j.cur = some p ∧ j.cause = 4 ∧ j.stage = 0 ∧ j.barred = i.barred ++ [(q.die.idx * 24 + q.ce, s.lin q.die + 10_000_000_000)] ∧
      t.flag (R.PLC_EVENT q.die) 2 = true) ∧
    (mig 3 2 → i.shadows < 4 → Does (.shadowExtend h) s fun t =>
      (t.intent h).shadows = i.shadows + 1 ∧ (t.intent h).stage = 2 ∧ clean (t.intent h) ∧ { t with intents := s.intents } = s) ∧
    (mig 3 2 → 4 ≤ i.shadows → Does (.migrationAbandon h) s fun t =>
      (t.intent h).tgt = none ∧ (t.intent h).cur = some p ∧ (t.intent h).stage = 0 ∧ t.flag (R.PLC_EVENT q.die) 2 = true) ∧
    (mig 3 4 → i.handle = h → h / 2 ^ 30 % 4 = 0 → Does (.migrationSwitchOver h) s fun t =>
      let j := t.intent h
      j.cur = some { q with st := live } ∧ j.tgt = some { p with st := 6 } ∧ j.epoch = q.epoch ∧ j.stage = 0 ∧ j.migCmd = none)

/-! ## Host ports, mailboxes and doorbells (R158 to R182) -/

/-- R155, R163, R172 to R176, R178 to R180, R182: the mailbox registers of an owner, the doorbells, the MSI-X vectors and the reset of a function. -/
def Obligations.MailboxesAndDoorbells : Prop :=
  ∀ (who : Requester) (d : Die) (c : Fin 32) (r : Fin 4) (fn : Fin 2) (vec : Fin 32) (v : Word) (s : State),
    let i := c.val
    let st := R.MBX_CH_STAT d i
    let open_ := (8 ≤ i ∨ who.secure = true) ∧ who.owner ≠ 0
    let owned := open_ ∧ s.fld st 29 3 = who.owner
    let go := R.MBX_GO d i
    let claim := R.MBX_CH_CLAIM d i
    let ack := R.MBX_OUT_ACK d i
    let dbl := R.DBL_STAT d r.val
    let fnKey := d.idx * 2 + fn.val
    let held := Tab.get (fun _ => (0 : Word)) s.dblRemote (rcvKey d r.val)
    let reset (c : Instr) (fns : List Nat) : Prop := Does c s fun t => ∀ f ∈ fns, t.getReg (R.DBL_MASK d (f + 1)) = 0 ∧
      t.pciHeader d (Fin.ofNat 2 f) = ⟨0x1E9B, 0x4896 + f % 2, if f % 2 = 0 then 0x02_8000 else 0x08_8000, s.fld (R.SYS_VER d) 0 8⟩ ∧
      Tab.get (fun _ => 0) t.msixCtl (d.idx * 2 + f) = 0 ∧ Tab.get (fun _ => (0 : Word)) t.msixPba (d.idx * 2 + f) = 0 ∧
      ∀ n : Fin 32, t.fld (R.MBX_CH_STAT d n.val) 29 3 ≠ (if f = 0 then Requester.pf0 d else .pf1 d).owner
    (s.accepts who go → owned → s.flag st 0 = false → bit v 31 = true → 8 ≤ bits v 0 5 → bits v 0 5 ≤ 16 →
      Accepted (.mailboxGo who d c v) s who go fun t =>
        t.flag st 0 = true ∧ (t.chan d i).msgCount = bits v 0 5 ∧ (s.fld (R.RST_STAT d) 0 2 ≠ 0 → t.flag (R.DBL_STAT d 0) 24 = true) ∧ s.keepsMem t) ∧
    (s.accepts who go → owned → (s.flag st 0 = true ∨ (bit v 31 = true ∧ (bits v 0 5 < 8 ∨ 16 < bits v 0 5))) →
      RefusedWith (.mailboxGo who d c v) s who go causeRULE) ∧
    (s.accepts who claim → open_ → s.fld st 29 3 = 0 → Accepted (.mbxClaim who d c) s who claim fun t =>
      t.fld st 29 3 = who.owner ∧ s.keepsRegs t [st] ∧ { t with regs := s.regs, out := s.out } = s) ∧
    (s.accepts who claim → open_ → s.fld st 29 3 ≠ 0 → Accepted (.mbxClaim who d c) s who claim fun t => { t with out := s.out } = s) ∧
    (s.accepts who claim → owned → Accepted (.mbxRelease who d c) s who claim fun t =>
      t.fld st 29 3 = 0 ∧ t.flag st 0 = false ∧ t.flag st 8 = false ∧ t.fld (R.CMD_CH_STAT d i) 0 16 = 0 ∧
      t.chan d i = { gen := (s.chan d i).gen + 1 } ∧ s.keepsRegs t [st, R.MBX_CH_DROP d i, R.CMD_CH_STAT d i] ∧ s.keepsMem t) ∧
    (s.accepts who claim → open_ → s.fld st 29 3 ≠ who.owner → RefusedWith (.mbxRelease who d c) s who claim causeRULE) ∧
    (s.accepts who ack → owned → s.flag st 8 = true → (s.chan d i).replies = [] → Accepted (.mbxOutAck who d c) s who ack fun t =>
      t.flag st 8 = false ∧ s.keepsRegs t [st] ∧ s.keepsMem t) ∧
    (∀ x xs, s.accepts who ack → owned → s.flag st 8 = true → (s.chan d i).replies = [x :: xs] → xs.length < 16 →
      Accepted (.mbxOutAck who d c) s who ack fun t =>
        t.flag st 8 = true ∧ t.fld st 16 5 = xs.length + 1 ∧ (t.chan d i).replies = [] ∧
        ∀ n w, (x :: xs)[n]? = some w → t.getReg (R.MBX_OUT d i n) = w) ∧
    (s.accepts who (R.MBX_H2KEY_CTRL d) → keyAnswers who d = true → Accepted (.h2KeyCommit who d) s who (R.MBX_H2KEY_CTRL d) fun t =>
      t.h2.sess = none ∧ t.h2.key = ((List.range 8).flatMap fun n => leBytes 4 (s.getReg (R.MBX_H2KEY .d0 n)).toNat) ∧
      t.flag (R.MBX_H2KEY_CTRL .d0) 8 = true) ∧
    (s.accepts who (R.DBL_SET d r.val) → (if who.isSup d then r.val = 0 else who.die = d ∧ who.receiver = some r.val) → v ≠ 0 →
      Accepted (.dblSetWrite who d r v) s who (R.DBL_SET d r.val) fun t =>
        (if s.fld (R.RST_STAT d) 0 2 = 0 then t.getReg dbl = s.getReg dbl else t.getReg dbl = s.getReg dbl ||| v ∧
          t.getReg (R.DBL_TIME_S d r.val) = wd (s.now d).sec ∧ t.getReg (R.DBL_TIME_NS d r.val) = wd (s.now d).ns) ∧
        s.keepsRegs t [dbl, R.DBL_TIME_S d r.val, R.DBL_TIME_NS d r.val] ∧ s.keepsMem t) ∧
    (s.linkUp = true → Does (.doorbellRemote d r) s fun t =>
      t.getReg dbl = (if s.fld (R.RST_STAT d) 0 2 = 0 then s.getReg dbl else s.getReg dbl ||| held) ∧ Tab.get (fun _ => (0 : Word)) t.dblRemote (rcvKey d r.val) = 0 ∧
      s.keepsRegs t [dbl, R.DBL_TIME_S d r.val, R.DBL_TIME_NS d r.val] ∧ s.keepsMem t) ∧
    (s.linkUp = false → Does (.doorbellRemote d r) s fun t => t = s) ∧
    (∀ b f, Does (.msixUnmask d fn (some vec) ⟨b, f⟩) s fun t => (Tab.get (fun _ => ({} : MsixVec)) t.msix (vecKey d fn.val vec.val)).masked = false ∧
      s.keepsRegs t [] ∧ s.keepsMem t) ∧
    (Tab.get (fun _ => 0) s.msixCtl fnKey = 1 → bit (Tab.get (fun _ => (0 : Word)) s.msixPba fnKey) vec.val = true →
      s.flag (R.DBL_STAT d (fn.val + 1)) vec.val = true → s.flag (R.DBL_MASK d (fn.val + 1)) vec.val = true →
      ∀ b f, Does (.msixUnmask d fn (some vec) ⟨b, f⟩) s fun t => t.out = .msix d fn.val vec.val :: s.out ∧
        bit (Tab.get (fun _ => (0 : Word)) t.msixPba fnKey) vec.val = false) ∧
    (∀ b f, Does (.msixUnmask d fn none ⟨b, f⟩) s fun t => Tab.get (fun _ => 0) t.msixCtl fnKey = (if b then 1 else 0) + (if f then 2 else 0) ∧
      (f = true → t.out = s.out ∧ t.msixPba = s.msixPba) ∧ s.keepsRegs t [] ∧ s.keepsMem t) ∧
    reset (.functionLevelReset d (some fn)) [fn.val] ∧ reset (.functionLevelReset d none) [0, 1] ∧ reset (.pciePerst d) [0, 1]

/-- R129, R133 to R135, R139 to R145: messages become packets, packets commands of a queue, and accepted commands end by their bound or their
completion. -/
def Obligations.PacketsBecomeCommands : Prop :=
  ∀ (d f : Die) (c : Fin 32) (port : Fin 14) (bytes : List Byte) (seq : Nat) (s : State),
    let i := c.val
    let st := R.MBX_CH_STAT d i
    let k := s.chan d i
    let e := s.interpDie d
    let ws := (List.range k.msgCount).map fun n => s.getReg (R.MBX_IN d i n)
    let len := bits (ws.headD 0) 24 8
    let pkt := ws.take len
    let w (n : Nat) : Word := pkt.getD n 0
    let whole := s.flag st 0 = true ∧ s.running d = true ∧ s.running e = true ∧ k.part = [] ∧ 5 ≤ len ∧ len ≤ ws.length
    let good := pkt.getLastD 0 = wd (crc32c (wordBytes pkt.dropLast))
    let last := s.fld (R.CMD_CH_STAT d i) 16 16
    let mine := s.running d = true ∧ s.running e = true ∧ s.flag (R.CMD_IB_MAC_HI d) 31 = true ∧
      macAt bytes 0 = s.macReg (R.CMD_IB_MAC_LO d) (R.CMD_IB_MAC_HI d) ∧ etype bytes = 0x88B5
    (s.flag st 0 = true → s.running d = true → s.running e = true → k.part = [] → ws ≠ [] → 5 ≤ len → ws.length < len →
      Does (.mailboxMessageTaken d c) s fun t =>
        t.flag st 0 = false ∧ (t.chan d i).part = ws ∧ (t.chan d i).partTime = s.lin d ∧ s.keepsRegs t [st] ∧ s.keepsMem t) ∧
    (whole → ¬good → Does (.mailboxMessageTaken d c) s fun t =>
      t.flag st 0 = false ∧ s.counted t (R.CMD_CNT_RX e) 1 ∧ s.counted t (R.CMD_CNT_CRC e) 1 ∧ t.flag (R.CMD_EVENT e) 0 = true ∧
      t.fld (R.CMD_CH_STAT d i) 16 16 = last) ∧
    (whole → good → bits (w 0) 0 16 ≠ 0x0100 → bits (w 3) 16 16 ≠ s.cmdEpoch e → Does (.mailboxMessageTaken d c) s fun t =>
      s.counted t (R.CMD_CNT_EPOCH e) 1 ∧ t.flag (R.CMD_EVENT e) 2 = true ∧ t.fld (R.CMD_CH_STAT d i) 16 16 = last) ∧
    (whole → good → bits (w 0) 0 16 ≠ 0x0100 → bits (w 3) 16 16 = s.cmdEpoch e → s.flag (R.CMD_CH_STAT d i) 15 = true →
      bits (w 3) 0 16 ≠ (last + 1) % 65536 → bits (w 3) 0 16 ≠ last → Does (.mailboxMessageTaken d c) s fun t =>
        s.counted t (R.CMD_CNT_SEQ e) 1 ∧ t.flag (R.CMD_EVENT e) 1 = true ∧ t.fld (R.CMD_CH_STAT d i) 16 16 = last) ∧
    (whole → good → bits (w 0) 0 16 ≠ 0x0100 → bits (w 3) 16 16 = s.cmdEpoch e → s.flag (R.CMD_CH_STAT d i) 15 = true →
      bits (w 3) 0 16 = (last + 1) % 65536 → Does (.mailboxMessageTaken d c) s fun t =>
        t.flag st 0 = false ∧ s.counted t (R.CMD_CNT_RX e) 1 ∧ t.fld (R.CMD_CH_STAT d i) 16 16 = (last + 1) % 65536 ∧
        t.getReg (R.CMD_CH_TAG d i) = w 1 ∧ (t.chan d i).lastCrc = pkt.getLastD 0) ∧
    (k.part ≠ [] → s.running d = true → s.running e = true → Does (.packetIncompleteTimeout d c) s fun t =>
      (t.chan d i).part = [] ∧ s.counted t (R.CMD_CNT_RX e) 1 ∧ t.fresh = s.fresh + 2) ∧
    (mine → s.ibEntry d (macAt bytes 6) = none → Does (.inbandCommandFrame d ⟨f, port⟩ bytes) s fun t =>
      s.counted t (R.CMD_CNT_IBDROP d) 1 ∧ t.flag (R.CMD_EVENT d) 3 = true ∧ s.keepsMem t) ∧
    (∀ n, mine → s.ibEntry d (macAt bytes 6) = some n → etOff bytes = 12 → byteAt bytes 14 = 1 → byteAt bytes 15 = 1 → beAt bytes 16 2 = 0 →
      (s.interpOf d).ibMs ≠ s.lin d / 1_000_000 → 0 < s.fld (R.CMD_IB_RATE d) 0 11 →
      let p := bytes.drop 18
      let xs := bytesWords (p.take (p.length / 4 * 4))
      5 ≤ bits (xs.headD 0) 24 8 → bits (xs.headD 0) 24 8 ≤ xs.length → Does (.inbandCommandFrame d ⟨f, port⟩ bytes) s fun t =>
        ∃ u : State, t = u.takePacket d (32 + n) (xs.take (bits (xs.headD 0) 24 8)) ∧ (u.chan d (32 + n)).ib = { die := f, port := port.val, src := macAt bytes 6 } ∧ s.keepsMem u ∧
          s.keepsRegs u [R.CMD_STAT d] ∧ (u.interpOf d).ibSeen = [n]) ∧
    (∀ b, macAt b 0 ≠ s.macReg (R.CMD_IB_MAC_LO d) (R.CMD_IB_MAC_HI d) →
      Does (.inbandCommandFrame d ⟨f, port⟩ b) s fun t => t = s) ∧
    (∀ (ch : Fin 40) (x : HostCmd), s.asyncOf d ch.val seq = some x → x.op ≠ 0x0A01 → s.latest x → Does (.commandTimeout d ch seq) s fun t =>
      s.replied t x stTIMEOUT true true 0 [] ∧ x ∉ t.asyncCmds ∧ s.counted t (R.CMD_CNT_TMO (s.interpDie x.die)) 1) ∧
    (∀ x, (s.interpOf d).async.find? (fun x => x.op = 0x0102 && (!bit (x.par 0) 1 || s.settled d x)) = some x → bit (x.par 0) 0 = false →
      s.linkUp = true → s.latest x → Does (.barrierComplete d) s fun t =>
        s.replied t x stOK true true 0 x.triple ∧ x ∉ t.asyncCmds ∧ s.keepsMemFor x t)

/-! ## The host's commands (R143, R147 to R152) -/

/-- R143, R147, R149, R150, R152: the queries of the host, each answered OK with the words its row names, which is all they do. -/
def Obligations.HostQueriesAreAnswered : Prop :=
  ∀ (d : Die) (c : HostCmd) (s : State),
    let e := c.tdie
    let ask (cmd : Instr) (op : Nat) (ws : List Word) : Prop := s.front d c op → Answers cmd s c ws
    let handle := (c.par 0).toNat
    let run := if s.flag (R.RST_STAT .d0) 7 then s.flash.copyB else s.flash.copyA
    let base := s.stagingBase c.die
    let ready (e : Die) (n : Nat) : Nat := if s.running e then n else 0
    let head := (s.getReg (R.LOG_HEAD e)).toNat
    let old := (s.getReg (R.LOG_OLDEST e)).toNat
    let first := (c.par 0).toNat
    ask (.devHello d) 0x0100 [wd (s.cmdEpoch d + c.ch * 2 ^ 16 + ready .d0 (2 ^ 24) + ready .d1 (2 ^ 25)), s.getReg (R.SYS_ID c.die),
      wd (undercoatVersion run), wd base, wd (base / 2 ^ 32 % 256 + 1024 * 2 ^ 16)] ∧
    ask (.devStatus d) 0x0101 [wd (s.power .d0 + s.power .d1 * 16 + if s.linkUp then 256 else 0), s.getReg (R.SYS_DLY_STAT c.die)] ∧
    (s.handleHeld handle = true → ask (.plcQuery d) 0x0206 (s.qryWords handle)) ∧
    (s.handleHeld handle = false → s.front d c 0x0206 → Turns (.plcQuery d) s c stBAD_PARAM 0) ∧
    (∀ (f : Die) (m : Fin 16), c.par 0 = wd (5 + f.idx * 2 ^ 8 + m.val * 2 ^ 16) → ask (.plcLedger d) 0x0207 (s.ledgerWords 5 f m.val)) ∧
    (bits (c.par 0) 0 8 = 0 ∨ 12 < bits (c.par 0) 0 8 → s.front d c 0x0207 → Turns (.plcLedger d) s c stBAD_PARAM 0) ∧
    (s.flashOff c = false →
      let l := ((List.range' 1 255).filter fun n => s.hasImage n && decide (first ≤ n)).take 32
      ask (.imgList d) 0x0302 (wd l.length :: l.flatMap fun n => [wd n, wd (imgVersion (s.image n))])) ∧
    (s.flashOff c = true → s.front d c 0x0302 → Turns (.imgList d) s c stDOMAIN_OFF 0) ∧
    ask (.portCounters d) 0x0403 ((List.range 20).map fun i => s.getReg (R.blk e 35 + 0x1000 + 0x100 * c.mac + 0x60 + 4 * i)) ∧
    ask (.timeGet d) 0x0500 ((s.now e).triple ++ [if s.flag (R.SYS_DLY_STAT e) 8 then 1 else 0]) ∧
    ask (.hltFreq d) 0x0602 [wd (s.fld (R.CLK_DOM e first) 0 10), wd (s.fld (R.CLK_DOM e first) 16 10), wd (s.fld (R.PWR_PROP e) 16 16)] ∧
    ((s.logOf e).primOk = true → old ≤ first → first < head → head - first ≤ 16384 → (c.par 1).toNat ≤ head - first →
      let k := (c.par 1).toNat
      ask (.logRead d) 0x0700 ([wd k, wd (first + k)] ++ (List.range k).flatMap fun i => s.words (logSlot e (first + i)) 4)) ∧
    ((s.logOf e).primOk = true → old ≤ first → first = head → ask (.logRead d) 0x0700 [0, wd first]) ∧
    ((s.logOf e).primOk = true → head < first → first - head < 2 ^ 31 → s.front d c 0x0700 → Turns (.logRead d) s c stBAD_PARAM 0) ∧
    ask (.logLfr d) 0x0702 ((List.range 16).map fun i => s.getReg (R.LOG_LFR e i)) ∧
    ask (.fioRead d) 0x0902 [wd (s.fld (R.FIO_IN .d0) 0 16 + s.fld (R.FIO_OUT .d0) 0 8 * 2 ^ 16 + if s.flag (R.FIO_STAT .d0) 4 then 2 ^ 31 else 0)] ∧
    ask (.ringStatus d) 0x0A03 ([R.TFR_STAT e, R.TFR_EPOCH e, R.TFR_CYCLE e, R.TFR_OFFSET e].map fun a => s.getReg a)

/-- R105, R143 to R145, R152, R214, R221, R222, R291, R294 to R296, R521, R524: the host's commands that set something and are answered at once. -/
def Obligations.HostSettingsTakeEffect : Prop :=
  ∀ (d : Die) (c : HostCmd) (s : State),
    let e := c.tdie
    let m := c.mac
    let p (n : Nat) : Nat := (c.par n).toNat
    let port := c.cls = 4 ∨ c.cls = 5
    let i := s.intent (p 0)
    let log := ((s.logRefill e).logOf e).allow
    let head := s.getReg (R.LOG_HEAD e)
    let mask := bits (c.par 0) 0 8
    let value := bits (c.par 1) 0 8
    (s.front d c 0x0103 → bits (c.par 0) 0 4 = 8 → Carries (.devIbSet d) s c [] fun t => ∀ f ∈ s.dies c,
      t.getReg (R.CMD_IB_MAC_LO f) = c.par 1 ∧ t.fld (R.CMD_IB_MAC_HI f) 0 16 = bits (c.par 2) 0 16 ∧ t.flag (R.CMD_IB_MAC_HI f) 31 = bit (c.par 0) 31 ∧
      (bits (c.par 3) 0 11 ≠ 0 → t.fld (R.CMD_IB_RATE f) 0 11 = bits (c.par 3) 0 11)) ∧
    (∀ k : Fin 8, s.front d c 0x0103 → bits (c.par 0) 0 4 = k.val → Carries (.devIbSet d) s c [] fun t => ∀ f ∈ s.dies c,
      t.getReg (R.CMD_IB_ALLOW_LO f k.val) = c.par 1 ∧ t.fld (R.CMD_IB_ALLOW_HI f k.val) 0 16 = bits (c.par 2) 0 16 ∧
      t.flag (R.CMD_IB_ALLOW_HI f k.val) 31 = bit (c.par 0) 31 ∧ t.flag (R.CMD_IB_ALLOW_HI f k.val) 30 = s.flag (R.CMD_IB_ALLOW_HI f k.val) 30) ∧
    (s.front d c 0x0203 → s.handleHeld (p 0) = true → Carries (.plcPin d) s c [] fun t =>
      let st := if bit (c.par 1) 0 then 5 else 4
      t.intent (p 0) = { i with pinned := bit (c.par 1) 0, pinFault := bit (c.par 1) 1,
                                cur := i.cur.map fun q => if q.st = 4 ∨ q.st = 5 then { q with st := st } else q } ∧ s.keepsMemFor c t) ∧
    (s.front d c 0x0203 → s.handleHeld (p 0) = false → Turns (.plcPin d) s c stBAD_PARAM 0) ∧
    (s.front d c 0x0400 → port → s.flag (R.SW_PORT_CFG e m) 31 ≠ bit (c.par 0) 0 → Carries (.portAdmit d) s c [] fun t =>
      t.flag (R.SW_PORT_CFG e m) 31 = bit (c.par 0) 0 ∧ t.flag (R.MAC_PORT_MODE e m) 9 = bit (c.par 0) 0 ∧
      (bit (c.par 0) 0 = false → (c.ch < 32 → ∀ tc : Fin 8, t.queue e m tc.val = []) ∧
        t.planEvents (s.plannerOf e) = s.planEvents (s.plannerOf e) ++ [⟨s.lin e, e, .portDown m⟩])) ∧
    (s.front d c 0x0400 → port → s.flag (R.SW_PORT_CFG e m) 31 = bit (c.par 0) 0 → Answers (.portAdmit d) s c []) ∧
    (s.front d c 0x0404 → p 0 < 4096 → Carries (.streamGate d) s c [] fun t =>
      bit (t.sidWord e (p 0) 0) 6 = bit (c.par 1) 0 ∧ (∀ k, k ≠ 6 → bit (t.sidWord e (p 0) 0) k = bit (s.sidWord e (p 0) 0) k) ∧
      ∀ n w, n ≠ p 0 → t.sidWord e n w = s.sidWord e n w) ∧
    (s.front d c 0x0405 → port → Carries (.portSample d) s c [] fun t => t.fld (R.SW_SMP e m) 0 16 = p 0 % 65536 ∧
      (Tab.get (fun _ => (0, 0)) t.smp (swKey e m)).1 = 0) ∧
    (s.front d c 0x0501 → s.steered e = false → Carries (.timeSet d) s c [] fun t =>
      t.now e = { sec := p 0 + bits (c.par 1) 0 16 * 2 ^ 32, ns := p 2, frac := bits (c.par 1) 16 16 * 2 ^ 16, slew := 0 } ∧
      t.flag (R.TB_STAT e) 3 = false ∧ s.counted t (R.TB_CNT_STEP e) 1 ∧ t.flag (R.TB_EVENT e) 0 = true) ∧
    (s.front d c 0x0502 → s.steered e = false → Carries (.timeAdj d) s c [] fun t =>
      t.getReg (R.TB_RATE e) = c.par 0 ∧ t.now e = { s.now e with slew := (s.now e).slew + (c.par 1).toInt * 2 ^ 32 } ∧ t.flag (R.TB_STAT e) 3 = false ∧
      s.keepsMemFor c t) ∧
    (s.front d c 0x0501 → s.steered e = true → Turns (.timeSet d) s c stBAD_PARAM 0) ∧
    (s.front d c 0x0502 → s.steered e = true → Turns (.timeAdj d) s c stBAD_PARAM 0) ∧
    (s.front d c 0x0701 → 0 < log → (s.logOf e).primOk = true → Carries (.logMark d) s c [head] fun t =>
      t.getReg (R.LOG_HEAD e) = head + 1 ∧ t.words (logSlot e head.toNat) 4 =
        [wd (s.now e).sec, wd ((s.now e).ns + e.idx * 2 ^ 30), wd (0x701 + bits (c.par 1) 0 16 * 2 ^ 16), c.par 0]) ∧
    (s.front d c 0x0701 → log = 0 → Turns (.logMark d) s c stNO_RESOURCE 1) ∧
    (s.front d c 0x0800 → Carries (.rstDevice d) s c [] fun t => t.rst = { s.rst with asked := some (if bit (c.par 0) 0 then 2 else 1) } ∧ s.keepsMemFor c t) ∧
    (s.front d c 0x0900 →
      let out := (s.fioCmd &&& (0xFF ^^^ mask)) ||| (value &&& mask)
      Carries (.fioOut d) s c [wd out] fun t => t.fioCmd = out ∧
        t.fioHeld = (if bit (c.par 2) 0 then s.fioHeld ||| mask else s.fioHeld &&& (0xFF ^^^ mask)) ∧ s.keepsMemFor c t) ∧
    (s.front d c 0x0901 → (c.par 0 = 0 → s.flag fioStat 0 = true ∧ s.flag fioStat 2 = false ∧ s.flag fioStat 3 = false) →
      Carries (.fioMode d) s c [] fun t => t.flag fioStat 1 = bit (c.par 0) 0 ∧ s.keepsMemFor c t) ∧
    (s.front d c 0x0901 → c.par 0 = 0 → s.flag fioStat 0 = false → Turns (.fioMode d) s c stBAD_PARAM 0)

/-- R87, R95, R101, R106, R109, R115, R117, R122, R139, R151, R266, R269, R282, R497, R514: the host's commands that are accepted first: what each starts, and
how it is turned away. -/
def Obligations.HostCommandsAreAccepted : Prop :=
  ∀ (d : Die) (c : HostCmd) (s : State),
    let e := c.tdie
    let u := c.unit
    let p (n : Nat) : Nat := (c.par n).toNat
    let planner := s.plannerOf d
    let plans (cmd : Instr) (op : Nat) : Prop := s.front d c op → Accepts cmd s c fun t =>
      t.planEvents planner = s.planEvents planner ++ [⟨s.lin d, d, .command c⟩] ∧ t.intents = s.intents ∧ s.keepsMemFor c t
    let judged (cmd : Instr) (op : Nat) (bad : Option (Nat × Nat × List Word)) : Prop := s.front d c op → match bad with
      | some (st, n, ws) => Replies cmd s c st true false n ws fun t => s.keepsMemFor c t
      | none => Accepts cmd s c fun t => s.keepsMemFor c t
    let dies := s.dies c
    let goal := c.pwrTarget
    let idle := dies.all fun f => !s.flag (R.PWR_STAT f) 7
    let refused := dies.any fun f => s.pwrRefuses f (decide (c.cls = 0)) goal
    let st := (s.hunit e c.cls u).st
    let others := (s.waitingTests e).filter fun q => q.cls = c.cls && q.unit = u
    plans (.plcAdmit d) 0x0200 ∧ plans (.plcRelease d) 0x0201 ∧ plans (.plcMigrate d) 0x0202 ∧ plans (.plcReplace d) 0x0204 ∧
    plans (.plcReserve d) 0x0205 ∧ plans (.plcForecast d) 0x0208 ∧
    (s.front d c 0x0102 → Accepts (.devBarrier d) s c fun t => c.ch < 32 → s.keepsMem t ∧ s.keepsBlocks t [4, 5, 6]) ∧
    judged (.imgInstall d) 0x0300 (s.installBad c) ∧ judged (.imgRemove d) 0x0301 (s.removeBad c) ∧
    judged (.imgUndercoat d) 0x0303 (if s.flashOff c then some (stDOMAIN_OFF, 0, []) else none) ∧
    judged (.portMode d) 0x0401 (s.modeBad c) ∧ judged (.portLane d) 0x0402 (s.laneBad c) ∧
    judged (.timeRole d) 0x0503 (s.roleBad c) ∧ judged (.rstUnit d) 0x0801 (s.resetBad c) ∧
    judged (.ringSched d) 0x0A00 (s.schedBad c) ∧ judged (.ringReadmit d) 0x0A02 (s.readmitBad c) ∧
    (∀ r, s.front d c 0x0A01 → s.claimRecord e = some r → p 0 < rcSpares r → firstSpareWin r (p 0) ≠ none → s.flag (R.TFR_CLAIM e) 31 = false →
      Accepts (.ringClaim d) s c fun t =>
        t.flag (R.TFR_CLAIM e) 31 = true ∧ t.getReg (R.TFR_CLAIM e) = wd (2 ^ 31 + p 0 * 2 ^ 20 + rcSpare r (p 0)) ∧ s.keepsMemFor c t) ∧
    (s.front d c 0x0A01 → s.claimRecord e = none ∨ s.flag (R.TFR_CLAIM e) 31 = true → Turns (.ringClaim d) s c stBAD_PARAM 0) ∧
    (s.front d c 0x0110 → idle = true → refused = true → Replies (.pwrState d) s c stBAD_PARAM true true 0 [] fun t => c ∉ t.asyncCmds ∧ s.keepsMemFor c t) ∧
    (s.front d c 0x0110 → idle = true → refused = false → (dies.all fun f => s.power f = goal) = true →
      Replies (.pwrState d) s c stOK true true 0 [wd goal] fun t => c ∉ t.asyncCmds ∧ s.keepsMemFor c t) ∧
    (s.front d c 0x0110 → idle = true → refused = false → goal < 2 → (dies.all fun f => s.power f = goal) = false → Accepts (.pwrState d) s c fun t =>
      ∀ f ∈ dies, s.power f ≠ goal → s.power f < 3 →
        t.flag (R.PWR_STAT f) 7 = true ∧ t.fld (R.PWR_STAT f) 8 3 = goal ∧ t.power f = s.power f ∧ (t.pwrOf f).cmds = [c]) ∧
    (s.front d c 0x0110 → idle = false → Accepts (.pwrState d) s c fun t => ∃ f ∈ dies, s.flag (R.PWR_STAT f) 7 = true ∧
      (t.pwrOf f).wait = (s.pwrOf f).wait ++ [c]) ∧
    (s.front d c 0x0111 → s.proposalDie c = none → Turns (.pwrMargin d) s c stBAD_PARAM 0) ∧
    (∀ f, s.front d c 0x0111 → s.proposalDie c = some f → bit (c.par 1) 0 = true → (s.pwrOf f).mv ≠ s.fld (R.PWR_PROP f) 0 10 →
      Accepts (.pwrMargin d) s c fun t => t.fld (R.PWR_VCORE f) 16 10 = s.fld (R.PWR_PROP f) 0 10 ∧ t.getReg (R.PWR_PROP f) = 0 ∧
        (t.pwrOf f).margin = some c ∧ s.keepsMemFor c t) ∧
    (∀ f, s.front d c 0x0111 → s.proposalDie c = some f → bit (c.par 1) 0 = false →
      Replies (.pwrMargin d) s c stOK true true 0 [wd (s.pwrOf f).mv] fun t => c ∉ t.asyncCmds ∧ t.getReg (R.PWR_PROP f) = 0 ∧
        (s.fld (R.PWR_PROP f) 12 4, s.lin f + 86_400_000_000_000) ∈ (t.pwrOf f).declined ∧ s.keepsMemFor c t) ∧
    (s.front d c 0x0112 → ((s.dies c).all fun f => (retainGroups c).all fun g => s.groupDone f (bit (c.par 1) 0) g) = true →
      Replies (.poolRetain d) s c stOK true true 0 [] fun t => c ∉ t.asyncCmds ∧ s.keepsMemFor c t) ∧
    (∀ g : Fin 17, s.front d c 0x0112 → s.dies c = [e] → retainGroups c = [g.val] → s.groupDone e (bit (c.par 1) 0) g.val = false →
      s.groupMoving e g.val = false → (bit (c.par 1) 0 = true → s.retainBlock e g.val = none) → Accepts (.poolRetain d) s c fun t => t.groupMoving e g.val = true) ∧
    (s.front d c 0x0600 → s.rolePair c = true → Turns (.hltTest d) s c stBAD_PARAM 0) ∧
    (s.front d c 0x0600 → s.rolePair c = false → st ≠ 1 → s.testingUnit e c.cls u = false → others = [] →
      Accepts (.hltTest d) s c fun t => c ∈ t.waitingTests e ∧ s.keepsMemFor c t) ∧
    (s.front d c 0x0600 → s.rolePair c = false → st = 1 → Replies (.hltTest d) s c stUNDER_TEST true true 0 [] fun t => c ∉ t.asyncCmds ∧ s.keepsMemFor c t) ∧
    (s.front d c 0x0601 → bit (c.par 0) 0 = false → st = 0 → s.rolePair c = false → s.vacated e c.cls u = false → Accepts (.hltService d) s c fun t =>
      t.planEvents (s.plannerOf e) = s.planEvents (s.plannerOf e) ++ [⟨s.lin e, e, .test c.cls u⟩] ∧ s.keepsMemFor c t) ∧
    (s.front d c 0x0601 → bit (c.par 0) 0 = true → st = 0 →
      Replies (.hltService d) s c stOK true true 0 [0, 0] fun t => c ∉ t.asyncCmds ∧ s.keepsMemFor c t) ∧
    (s.front d c 0x0601 → bit (c.par 0) 0 = false → st = 0 → s.rolePair c = true → Turns (.hltService d) s c stBAD_PARAM 0)

/-- R139, R149, R229, R305, R390, R490, R513, R266, R270, R282: how an accepted command ends with its work done. -/
def Obligations.AcceptedCommandsComplete : Prop :=
  ∀ (d : Die) (ch : Fin 40) (seq : Nat) (c : HostCmd) (s : State),
    let cmd := Instr.asyncCommandComplete d ch seq
    let e := c.tdie
    let u := c.unit
    let m := c.mac
    let p (n : Nat) : Nat := (c.par n).toNat
    let due (op : Nat) : Prop := s.asyncOf d ch.val seq = some c ∧ s.latest c ∧ c.op = op
    let img := (wordBytes (c.params.drop 2)).take (p 1)
    let n := if c.par 0 = 0 then s.freeImage.getD 0 else p 0
    let uc := (wordBytes (c.params.drop 1)).take (p 0)
    let runsB := s.flag (R.RST_STAT .d0) 7
    let r := s.ringOf e
    let clock := p 0 = 1 ∨ p 0 = 2 ∨ p 0 = 4
    (s.asyncOf d ch.val seq = none → Does cmd s fun t => t = s) ∧
    (due 0x0300 → s.installBad c = none → imageOk img (p 1) = true → n ≠ 0 → s.storeUsed + img.length ≤ 16_777_216 →
      Ends cmd s c stOK 0 [wd n] fun t => t.image n = img ∧ ∀ k, k ≠ n → t.image k = s.image k) ∧
    (due 0x0300 → s.installBad c = none → imageOk img (p 1) = false → Ends cmd s c stDENIED 0 [] fun t => t.images = s.images ∧ s.keepsMemFor c t) ∧
    (due 0x0300 → s.installBad c = none → imageOk img (p 1) = true → n ≠ 0 → 16_777_216 < s.storeUsed + img.length →
      Ends cmd s c stNO_RESOURCE 0 [] fun t => t.images = s.images) ∧
    (due 0x0301 → s.removeBad c = none → Ends cmd s c stOK 0 [] fun t => t.hasImage (p 0) = false ∧ ∀ k, k ≠ p 0 → t.image k = s.image k) ∧
    (due 0x0303 → s.flashOff c = false → undercoatOk uc (p 0) = true → Ends cmd s c stOK 0 [if runsB then 0 else 1] fun t =>
      (if runsB then t.flash.copyA = uc ∧ t.flash.copyB = s.flash.copyB else t.flash.copyB = uc ∧ t.flash.copyA = s.flash.copyA) ∧
      t.flash.bootB = !runsB ∧ t.flash.trial = true) ∧
    (due 0x0303 → s.flashOff c = false → undercoatOk uc (p 0) = false → Ends cmd s c stDENIED 0 [] fun t => t.flash = s.flash) ∧
    (due 0x0401 → c.cls = 4 ∨ c.cls = 5 → s.modeBad c = none → Ends cmd s c stOK 0 [] fun t =>
      t.fld (R.MAC_PORT_MODE e m) 0 3 = p 0 % 4 ∧ t.fld (R.MAC_PORT_MODE e m) 10 2 = 0 ∧ t.flag (R.MAC_PORT_MODE e m) 8 = false) ∧
    (due 0x0402 → p 0 < 3 → s.laneBad c = none → Ends cmd s c stOK 0 [] fun t => t.flag (R.MAC_LANE e (p 0)) 0 = bit (c.par 1) 0 ∧
      ∀ k : Fin 4, t.flag (R.MAC_PORT_MODE e (4 * p 0 + k.val)) 8 = false) ∧
    (due 0x0503 → c.cls = 4 ∨ c.cls = 5 → s.roleBad c = none → p 0 < 5 → Ends cmd s c stOK 0 [] fun t =>
      t.getReg (R.TB_PTC e m) = wd (bits (c.par 1) 0 8 * 256 + p 0) ∧
      (clock → s.steerSet = false → t.steerSet = true ∧ ∀ f : Die, t.fld (R.TB_STAT f) 8 8 = bits (c.par 1) 0 8)) ∧
    (due 0x0601 → bit (c.par 0) 0 = false → (s.hunit e c.cls u).st = 0 → c.cls ≠ 3 → s.vacated e c.cls u = true → Ends cmd s c stOK 0 [0, 0] fun t =>
      (t.hunit e c.cls u).st = 2) ∧
    (due 0x0801 → c.cls = 9 → u < 64 → s.resetBad c = none → Ends cmd s c stOK 0 [] fun t =>
      t.getReg (R.TB_CMP_STAT e u) = 0 ∧ t.flag (R.TB_CMP_CTRL e u) 0 = false ∧ t.getReg (R.TB_CMP_PERIOD e u) = s.getReg (R.TB_CMP_PERIOD e u) ∧
      t.cmpTgt e u = s.cmpTgt e u) ∧
    (due 0x0801 → c.cls = 8 → s.resetBad c = none → Ends cmd s c stOK 0 [] fun t => t.fioCmd = 0 ∧ t.fioHeld = 0xFF ∧ t.flag fioStat 0 = false ∧
      t.flag fioStat 5 = false ∧ t.fio = { s.fio with dnSeq := 0, lastUp := none, badUp := 0 }) ∧
    (due 0x0A00 → s.schedBad c = none → Ends cmd s c stOK 0 [] fun t =>
      t.ringOf e = { r with pend := c.params, pendAt := s.lin e, pendDn := u, dn := if r.cur = [] then u else r.dn } ∧
      t.flag (R.TFR_STAT e) 5 = true) ∧
    (∀ w, due 0x0A01 → s.flag (R.TFR_CLAIM e) 31 = false → s.fld (R.TFR_CLAIM e) 28 3 = 4 → s.fld (R.TFR_STAT e) 11 2 ≠ 3 →
      firstSpareWin r.cur (p 0) = some w → Ends cmd s c stOK 0 [wd (winOff r.cur w), wd (ringWinLen r.cur w)] fun t => s.keepsMemFor c t) ∧
    (due 0x0A02 → s.readmitBad c = none → Ends cmd s c stOK 0 [wd (nextEpoch (r.member (p 0)).2)] fun t =>
      (t.ringOf e).member (p 0) = (1, nextEpoch (r.member (p 0)).2) ∧ (∀ k ∈ (t.ringOf e).cand, k.1 ≠ p 0))

/-! ## The time base (R289 to R322) -/

/-- R290, R291, R294 to R297, R299, R300, R321: what steers device time, the step, holdover, slaving and the snapshot. -/
def Obligations.DeviceTimeIsSteered : Prop :=
  ∀ (who : Requester) (d : Die) (v : Word) (off ppb : Int) (s : State),
    let now := s.now d
    let wrap : Int := 2 ^ 80 * 1_000_000_000
    let base := incOf (s.rate d)
    let stat := R.TB_STAT d
    let src := s.fld stat 0 3
    let ns := s.fld (R.TB_STEP_NS d) 0 30
    let step := R.TB_STEP_CTRL d
    let stepped (t : State) : Prop := (t.now d).slew = 0 ∧ t.flag stat 3 = false ∧ s.counted t (R.TB_CNT_STEP d) 1 ∧ t.flag (R.TB_EVENT d) 0 = true
    let slave := s.linkUp = true ∧ s.fld (R.TB_STAT .d1) 0 3 = 3
    let slaved := s.flag (R.SYS_DLY_STAT .d1) 8
    (now.slew ≠ 0 → now.slew.natAbs ≤ (incOf (s.rate d + s.slewRate d) - base).natAbs → Does (.slewDone d) s fun t =>
      (t.now d).slew = 0 ∧ (t.now d).total = (now.total + base + now.slew) % wrap ∧ { t with time := s.time } = s) ∧
    (s.accepts who (R.TB_RATE d) → s.steers who d = true → -500_000 ≤ v.toInt → v.toInt ≤ 500_000 →
      Accepted (.tbRateWrite who d v) s who (R.TB_RATE d) fun t =>
        t.getReg (R.TB_RATE d) = v ∧ t.flag stat 3 = false ∧ t.time = s.time ∧ s.keepsRegs t [R.TB_RATE d, stat] ∧ s.keepsMem t) ∧
    (s.accepts who (R.TB_RATE d) → (s.steers who d = false ∨ v.toInt < -500_000 ∨ 500_000 < v.toInt) →
      RefusedWith (.tbRateWrite who d v) s who (R.TB_RATE d) causeRULE) ∧
    (s.accepts who (R.TB_SLEW d) → s.steers who d = true → Accepted (.tbSlewWrite who d v) s who (R.TB_SLEW d) fun t =>
      t.now d = { now with slew := now.slew + v.toInt * 2 ^ 32 } ∧ t.flag stat 3 = false ∧ s.keepsRegs t [stat] ∧ s.keepsMem t) ∧
    (s.accepts who (R.TB_SLEW d) → s.steers who d = false → RefusedWith (.tbSlewWrite who d v) s who (R.TB_SLEW d) causeRULE) ∧
    (s.accepts who step → s.steers who d = true → bit v 0 = true → bit v 1 = false → ns < 1_000_000_000 → Accepted (.tbStepGo who d v) s who step fun t =>
      stepped t ∧ t.now d = { sec := (s.getReg (R.TB_STEP_S d)).toNat + s.fld (R.TB_STEP_SH d) 0 16 * 2 ^ 32, ns := ns,
                              frac := s.fld (R.TB_STEP_SH d) 16 16 * 2 ^ 16, slew := 0 }) ∧
    (s.accepts who step → s.steers who d = true → bit v 0 = true → bit v 1 = true → Accepted (.tbStepGo who d v) s who step fun t =>
      stepped t ∧ (t.now d).total = (now.total + (s.nextInc d).1 + (if s.flag (R.TB_STEP_NS d) 31 then -(ns : Int) else ns) * 2 ^ 32) % wrap) ∧
    (s.accepts who step → (s.steers who d = false ∨ (bit v 0 = true ∧ bit v 1 = false ∧ 1_000_000_000 ≤ ns)) →
      RefusedWith (.tbStepGo who d v) s who step causeRULE) ∧
    (src = 1 ∨ src = 2 → Does (.holdover d) s fun t =>
      t.flag stat 3 = true ∧ t.now d = { now with slew := 0 } ∧ t.flag (R.TB_EVENT d) 2 = true ∧ t.getReg (R.TB_RATE d) = s.getReg (R.TB_RATE d)) ∧
    (src ≠ 1 → src ≠ 2 → Does (.holdover d) s fun t => t = s) ∧
    (slave → off.natAbs ≤ 64 → Does (.slaveTimeMessage off ppb) s fun t =>
      t.getReg (R.TB_SLV_OFF .d1) = wdInt off ∧ t.getReg (R.TB_RATE .d1) = wdInt (s.rate .d1 - ppb) ∧
      t.now .d1 = { s.now .d1 with slew := -off * 2 ^ 28 } ∧ t.slvRun = (if off.natAbs ≤ 32 then s.slvRun + 1 else 0) ∧
      s.keepsRegs t [R.TB_SLV_OFF .d1, R.TB_RATE .d1] ∧ s.keepsMem t) ∧
    (slave → slaved = true → 64 < off.natAbs → Does (.slaveTimeMessage off ppb) s fun t =>
      (∀ e : Die, t.flag (R.SYS_DLY_STAT e) 8 = false ∧ t.flag (R.TB_STAT e) 4 = false ∧ t.flag (R.TB_EVENT e) 4 = true) ∧ t.slvRun = 0) ∧
    (slave → 16_000 < off.natAbs → Does (.slaveTimeMessage off ppb) s fun t =>
      (t.now .d1).total = ((s.now .d1).total + (s.nextInc .d1).1 - off * 2 ^ 28) % wrap ∧ (t.now .d1).slew = 0 ∧ s.counted t (R.TB_CNT_STEP .d1) 1) ∧
    (¬slave → Does (.slaveTimeMessage off ppb) s fun t => t = s) ∧
    (1000 ≤ s.slvRun → s.linkUp = true → slaved = false → Does .slaveLock s fun t =>
      (∀ e : Die, t.flag (R.SYS_DLY_STAT e) 8 = true ∧ t.flag (R.TB_STAT e) 4 = true ∧ t.flag (R.TB_EVENT e) 3 = true) ∧ t.time = s.time ∧ s.keepsMem t) ∧
    (s.slvRun < 1000 → Does .slaveLock s fun t => t = s) ∧
    (s.accepts who (R.TB_SNAP_CTRL d) → bit v 0 = true → Accepted (.tbSnapshot who d v) s who (R.TB_SNAP_CTRL d) fun t =>
      [0x64, 0x68, 0x6C].map (t.tbView who d) = now.triple.map some ∧ t.tbView who d 0x70 = some (wd now.lin) ∧
      t.tbView who d 0x74 = some (wd (now.lin / 2 ^ 32)) ∧ s.keepsRegs t [] ∧ t.time = s.time ∧ s.keepsMem t)

/-- R308 to R320, R362: compare units arm, fire, advance and disarm; trigger outputs follow them; capture units take the time of an edge. -/
def Obligations.CompareTriggerAndCapture : Prop :=
  ∀ (who : Requester) (d : Die) (u : Fin 64) (n : Fin 16) (c : Fin 32) (lo : Option Word) (hi v : Word) (rise : Bool) (s : State),
    let i := u.val
    let lin := s.lin d
    let tgt := s.cmpTgt d i
    let stat := R.TB_CMP_STAT d i
    let ctrl := R.TB_CMP_CTRL d i
    let per := (s.getReg (R.TB_CMP_PERIOD d i)).toNat
    let own := s.cmpOwner d i
    let mine := own = who.unitOwner d
    let due := s.cmpArmed d i = true ∧ tgt ≤ lin ∧ lin < tgt + 2 ^ 62
    let k := (lin - tgt) / per + 1
    let new := (lo.getD (s.cmpU d i).lo).toNat + hi.toNat * 2 ^ 32
    let old := (s.cmpU d i).written
    let hiReg := R.TB_CMP_TGT_HI d i
    let far (x : Nat) : Prop := 2 ^ 62 < sdiff x lin ∨ sdiff x lin ≤ -2 ^ 62
    let near (x : Nat) : Prop := 0 < sdiff x lin ∧ sdiff x lin ≤ 2 ^ 62
    let trig := R.TB_TRIG_CFG d n.val
    let me := who.unitOwner d
    let from_ := bits v 16 6
    let cap := R.TB_CAP_STAT d c.val
    let cfg := s.getReg (R.TB_CAP_CFG d c.val)
    let held := Tab.get (fun _ => false) s.capLvl (d.idx * 32 + c.val)
    let edge := held ≠ rise ∧ (if rise then bit cfg 8 else bit cfg 9) = true
    let capV (t : State) : Nat := t.getPair (R.TB_CAP_LO d c.val) (R.TB_CAP_HI d c.val)
    let capLo := R.TB_CAP_LO d c.val
    let capOwn := s.fld (R.TB_CAP_OWNER d c.val) 0 8
    (due → Does (.compareFire d u) s fun t =>
      t.fld stat 16 16 = (s.fld stat 16 16 + 1) % 65536 ∧ t.time = s.time ∧ s.keepsMem t ∧
      (per = 0 → t.cmpArmed d i = false ∧ t.flag ctrl 0 = false) ∧
      (per ≠ 0 → t.cmpArmed d i = true ∧ t.cmpTgt d i = (tgt + k * per) % 2 ^ 64 ∧ t.fld stat 8 8 = min (s.fld stat 8 8 + (k - 1)) 255) ∧
      (s.flag ctrl 2 = true → own < 24 → t.flag (R.CE_EVT d own) 0 = true) ∧
      (∀ slot, s.flag ctrl 1 = true → own < 24 → s.slotOfCmp d own i = some slot → s.flag (pendReg d own slot) (slot % 32) = false →
        t.flag (pendReg d own slot) (slot % 32) = true ∧
        Tab.get (fun _ => 0) t.ceDeadline (slotKey d own slot) = (lin + (s.getReg (R.CE_SLOT_W5 d own slot)).toNat) % 2 ^ 64) ∧
      (∀ slot, s.flag ctrl 1 = true → own < 24 → s.slotOfCmp d own i = some slot → s.flag (pendReg d own slot) (slot % 32) = true →
        s.counted t (R.CE_CNT_OVERRUN d own) 1) ∧
      (s.flag ctrl 1 = true → own < 24 → s.slotOfCmp d own i = none → s.counted t (R.CE_CNT_NOSLOT d own) 1) ∧
      (s.cmpShadow d i = false → s.flag trig 15 = true → s.fld trig 16 6 = i →
        t.flag trig 0 = (if s.flag trig 13 then !s.flag trig 0 else !s.flag trig 14))) ∧
    (s.cmpArmed d i = false ∨ lin < tgt ∧ tgt ≤ lin + 2 ^ 62 → Does (.compareFire d u) s fun t => t = s) ∧
    (lo = none → s.accepts who hiReg → mine → s.cmpArmed d i = false → Accepted (.cmpTargetCommit who d u lo hi) s who hiReg fun t =>
      t.cmpTgt d i = new ∧ (t.cmpU d i).written = new ∧ t.cmpArmed d i = false ∧ s.keepsRegs t [R.TB_CMP_TGT_LO d i, hiReg] ∧ s.keepsMem t) ∧
    (lo = none → s.accepts who hiReg → mine → s.cmpArmed d i = true → near new → Accepted (.cmpTargetCommit who d u lo hi) s who hiReg fun t =>
      t.cmpTgt d i = new ∧ t.cmpArmed d i = true ∧ t.flag stat 1 = s.flag stat 1 ∧ s.keepsMem t) ∧
    (lo = none → s.accepts who hiReg → mine → s.cmpArmed d i = true → far new → RefusedWith (.cmpTargetCommit who d u lo hi) s who hiReg causeRULE) ∧
    (∀ l, lo = some l → s.regCheck who (R.TB_CMP_TGT_LO d i) .w64 true = none → s.engineRefuses who (R.TB_CMP_TGT_LO d i) = false → mine →
      s.cmpArmed d i = false → Accepted (.cmpTargetCommit who d u lo hi) s who (R.TB_CMP_TGT_LO d i) fun t =>
        t.cmpTgt d i = new ∧ (t.cmpU d i).written = new ∧ s.keepsMem t) ∧
    (s.accepts who ctrl → mine → s.cmpArmed d i = false → old < 2 ^ 64 → near old → Accepted (.cmpArm who d u v) s who ctrl fun t =>
      t.cmpArmed d i = true ∧ t.flag ctrl 0 = true ∧ t.fld ctrl 1 3 = bits v 1 3 ∧ t.cmpTgt d i = old ∧ t.flag stat 1 = s.flag stat 1 ∧ s.keepsMem t) ∧
    (s.accepts who ctrl → mine → s.cmpArmed d i = false → sdiff old lin ≤ 0 → -2 ^ 62 < sdiff old lin → Accepted (.cmpArm who d u v) s who ctrl fun t =>
      t.cmpArmed d i = true ∧ t.flag stat 1 = true ∧ t.flag (R.TB_EVENT d) 5 = true) ∧
    (s.accepts who ctrl → mine → s.cmpArmed d i = false → far old → RefusedWith (.cmpArm who d u v) s who ctrl causeRULE) ∧
    (s.accepts who ctrl → mine → Accepted (.cmpDisarm who d u v) s who ctrl fun t =>
      t.cmpArmed d i = false ∧ t.flag ctrl 0 = false ∧ t.fld ctrl 1 3 = bits v 1 3 ∧ t.cmpTgt d i = tgt ∧ s.keepsRegs t [stat, ctrl] ∧ s.keepsMem t) ∧
    (s.accepts who ctrl → ¬mine → RefusedWith (.cmpDisarm who d u v) s who ctrl causeRULE ∧ RefusedWith (.cmpArm who d u v) s who ctrl causeRULE) ∧
    (Tab.get (fun _ => false) s.trigRun (d.idx * 16 + n.val) = true → Does (.trigPulseEnd d n) s fun t =>
      t.flag trig 0 = s.flag trig 14 ∧ Tab.get (fun _ => false) t.trigRun (d.idx * 16 + n.val) = false ∧ s.keepsRegs t [trig] ∧ s.keepsMem t) ∧
    (Tab.get (fun _ => false) s.trigRun (d.idx * 16 + n.val) = false → Does (.trigPulseEnd d n) s fun t => t = s) ∧
    (s.accepts who trig → bit v 15 = true → me = s.cmpOwner d from_ → s.fld trig 24 8 = 0xFF → Accepted (.trigConfig who d n v) s who trig fun t =>
      t.fld trig 24 8 = me ∧ t.fld trig 13 3 = bits v 13 3 ∧ t.fld trig 16 6 = from_ ∧ t.flag trig 0 = bit v 14 ∧ s.keepsRegs t [trig] ∧ s.keepsMem t) ∧
    (s.accepts who trig → bit v 15 = true → me ≠ s.cmpOwner d from_ → RefusedWith (.trigConfig who d n v) s who trig causeRULE) ∧
    (s.accepts who trig → bit v 15 = false → s.fld trig 24 8 = me → Accepted (.trigConfig who d n v) s who trig fun t =>
      t.fld trig 24 8 = 0xFF ∧ t.flag trig 15 = false ∧ t.flag trig 0 = bit v 14 ∧ s.keepsRegs t [trig] ∧ s.keepsMem t) ∧
    (edge → s.flag cap 0 = false → Does (.captureEdge d c rise) s fun t =>
      capV t = lin ∧ t.flag cap 0 = true ∧ t.flag cap 1 = rise ∧ t.fld cap 16 16 = (s.fld cap 16 16 + 1) % 65536 ∧ t.fld cap 8 8 = s.fld cap 8 8 ∧
      (bit cfg 11 = true → capOwn < 24 → t.flag (R.CE_EVT d capOwn) 0 = true) ∧ s.keepsMem t) ∧
    (edge → s.flag cap 0 = true → Does (.captureEdge d c rise) s fun t =>
      t.fld cap 8 8 = min (s.fld cap 8 8 + 1) 255 ∧ t.flag (R.TB_EVENT d) 7 = true ∧ t.flag cap 0 = true ∧ s.keepsMem t ∧
      (if bit cfg 10 then capV t = lin ∧ t.fld cap 16 16 = (s.fld cap 16 16 + 1) % 65536 else capV t = capV s ∧ t.fld cap 16 16 = s.fld cap 16 16)) ∧
    (held = rise → Does (.captureEdge d c rise) s fun t => t = s) ∧
    (s.accepts who (R.TB_CAP_CFG d c.val) → capOwn = me → Accepted (.captureConfig who d c v) s who (R.TB_CAP_CFG d c.val) fun t =>
      t.getReg (R.TB_CAP_CFG d c.val) = wd (bits v 0 6 + bits v 8 8 * 256) ∧ s.keepsRegs t [R.TB_CAP_CFG d c.val] ∧ s.keepsMem t) ∧
    (s.accepts who (R.TB_CAP_CFG d c.val) → capOwn ≠ me → RefusedWith (.captureConfig who d c v) s who (R.TB_CAP_CFG d c.val) causeRULE) ∧
    (s.acceptsRead who capLo → Does (.captureOwnerRead who d c .w32) s fun t =>
      t.out = .answer who capLo (.data [wd (capV s)]) :: s.out ∧ t.tbView who d (0x1904 + 0x20 * c.val) = some (wd (capV s / 2 ^ 32)) ∧
      t.flag cap 0 = (if capOwn = me then false else s.flag cap 0) ∧ s.keepsRegs t [cap] ∧ s.keepsMem t) ∧
    (s.regCheck who capLo .w64 false = none → Does (.captureOwnerRead who d c .w64) s fun t =>
      t.out = .answer who capLo (.data [wd (capV s), wd (capV s / 2 ^ 32)]) :: s.out ∧ t.flag cap 0 = (if capOwn = me then false else s.flag cap 0))

/-! ## Field I/O (R461 to R477) -/

/-- R462 to R466, R469 to R474, R477: frames of the isolation link and both its sides: what goes out, what a good or a bad frame does, the third bad one,
and the events of the field side. -/
def Obligations.FieldLinkRunsAndTrips : Prop :=
  ∀ (fr : List Byte) (k : Fin 8) (n : Fin 16) (level : Bool) (s : State),
    let f := s.fio
    let seq := fioSeq fr
    let out := byteAt fr 1
    let goodDn := fioGood 0xA fr = true ∧ f.lastDn ≠ some seq
    let goodUp := fioGood 0x5 fr = true ∧ f.lastUp ≠ some seq ∧ f.test = 0
    let badUp := (fioGood 0x5 fr = false ∨ f.lastUp = some seq) ∧ f.test = 0
    let up (t : State) (err : Bool) : Prop := t.fio.upSeq = (f.upSeq + 1) % 16 ∧ s.keepsRegs t [] ∧ s.keepsMem t ∧ ∃ u, t.out = .fio false u :: s.out ∧
      fioGood 0x5 u = true ∧ fioSeq u = f.upSeq % 16 ∧ byteAt u 1 + byteAt u 2 * 256 = f.inputs % 65536 ∧ byteAt u 3 = t.fio.applied % 256 ∧
      (byteAt u 4).testBit 1 = err ∧ (byteAt u 4).testBit 2 = t.fio.tripped ∧
      (byteAt u 4).testBit 0 = (f.supply || f.hot || decide (t.fio.shut ≠ 0) || decide (t.fio.broken ≠ 0))
    let lost (c : Instr) : Prop := Does c s fun t => up t true ∧ t.fio.badDn = f.badDn + 1 ∧ t.fio.goodDn = 0 ∧
      (if 2 ≤ f.badDn then t.fio.tripped = true ∧ t.fio.outs = 0 else t.fio.tripped = f.tripped ∧ t.fio.outs = f.outs)
    let missed (c : Instr) : Prop := Does c s fun t => s.counted t (R.FIO_CNT_UP_ERR .d0) 1 ∧ t.flag fioStat 0 = false ∧ t.fio.badUp = f.badUp + 1 ∧
      (f.badUp < 2 → { t with regs := s.regs, fio := s.fio } = s ∧ s.keepsRegs t [R.FIO_CNT_UP_ERR .d0, fioStat] ∧ s.keepsMem t) ∧
      (2 ≤ f.badUp → f.trip = false → t.fio.trip = true ∧ t.fioCmd = 0 ∧ t.fioHeld = 0xFF ∧ t.flag fioStat 5 = false ∧ t.flag fioStat 1 = true ∧
        t.flag (R.FIO_EVENT .d0) 1 = true ∧ s.counted t (R.FIO_CNT_TRIP .d0) 1 ∧ t.flag fioStat 4 = true)
    let field (c : Instr) (g : Fio) : Prop := Does c s fun t => t = { s with fio := g }
    (3 ≤ s.power .d0 → Does .fioRefresh s fun t => t = s) ∧
    (s.power .d0 < 3 → f.test = 0 → Does .fioRefresh s fun t =>
      t.fio = { f with dnSeq := (f.dnSeq + 1) % 16, dnOut := s.fioCmd } ∧ { t with fio := s.fio, out := s.out } = s ∧ ∃ u, t.out = .fio true u :: s.out ∧
        fioGood 0xA u = true ∧ fioSeq u = f.dnSeq % 16 ∧ byteAt u 1 = s.fioCmd ∧ (byteAt u 2).testBit 0 = s.flag fioStat 1 ∧
        byteAt u 3 = bits (s.getReg (R.FIO_CFG .d0)) 8 8 ∧ byteAt u 4 + byteAt u 5 * 256 = s.fld (R.FIO_WB_EN .d0) 0 16) ∧
    (s.power .d0 < 3 → f.test = 1 → Does .fioRefresh s fun t => t.fio.test = 2 ∧ ∃ u, t.out = .fio true u :: s.out ∧ fioGood 0xA u = false) ∧
    (goodDn → Does (.fioDownlinkRx fr) s fun t => up t false ∧ t.fio.lastDn = some seq ∧ t.fio.badDn = 0 ∧ t.fio.goodDn = f.goodDn + 1 ∧
      t.fio.cosMode = decide (byteAt fr 2 % 2 = 1) ∧
      (if f.tripped = true ∧ f.goodDn < 2 then t.fio.tripped = true ∧ t.fio.outs = 0 ∧ t.fio.shut = f.shut
       else t.fio.tripped = false ∧ t.fio.outs = out ∧ t.fio.shut = f.shut &&& out)) ∧
    (¬(fioGood 0xA fr = true ∧ f.lastDn ≠ some seq) → lost (.fioDownlinkRx fr)) ∧ lost .fioUplinkTimer ∧
    (goodUp → (byteAt fr 4).testBit 2 = false → s.flag fioStat 1 = false → Does (.fioUplinkRx fr) s fun t =>
      t.fioIn = byteAt fr 1 + byteAt fr 2 * 256 ∧ t.fld (R.FIO_OUT .d0) 8 8 = byteAt fr 3 ∧ t.flag fioStat 0 = true ∧ t.flag fioStat 5 = true ∧
      t.fio = { f with lastUp := some seq, badUp := 0, fieldFault := (byteAt fr 4).testBit 0, trip := false } ∧
      s.counted t (R.FIO_CNT_DN_ERR .d0) (if (byteAt fr 4).testBit 1 then 1 else 0) ∧
      s.counted t (R.FIO_CNT_SEQ_GAP .d0) (match f.lastUp with | some p => if (p + 1) % 16 = seq then 0 else 1 | none => 0) ∧
      t.flag fioStat 4 = ((byteAt fr 4).testBit 0 || f.testFail) ∧
      (s.flag fioStat 4 = false → ((byteAt fr 4).testBit 0 || f.testFail) = true →
        s.counted t (R.FIO_CNT_FAULT .d0) 1 ∧ t.flag (R.FIO_EVENT .d0) 0 = true ∧ t.getReg (R.FIO_FAULT_S .d0) = wd (s.now .d0).sec)) ∧
    (goodUp → (byteAt fr 4).testBit 2 = false → s.flag fioStat 1 = true → Does (.fioUplinkRx fr) s fun t =>
      t.fioIn = byteAt fr 1 + byteAt fr 2 * 256 ∧ ∀ j : Fin 16, t.flag (R.FIO_COS .d0) j.val =
        (s.flag (R.FIO_COS .d0) j.val || (s.fioIn.testBit j.val != (byteAt fr 1 + byteAt fr 2 * 256).testBit j.val))) ∧
    (goodUp → (byteAt fr 4).testBit 2 = true → f.trip = false → Does (.fioUplinkRx fr) s fun t =>
      t.fio.trip = true ∧ t.fioCmd = 0 ∧ t.fioHeld = 0xFF ∧ t.flag fioStat 5 = false ∧ t.fioIn = s.fioIn) ∧
    (badUp → missed (.fioUplinkRx fr)) ∧ (f.test = 0 → missed .fioUplinkMissing) ∧
    (f.test = 6 → fioGood 0x5 fr = true → f.lastUp ≠ some seq → Does (.fioUplinkRx fr) s fun t =>
      t.fio.test = 0 ∧ t.fio.testRes = some (f.testOk && decide (byteAt fr 3 = f.dnOut))) ∧
    (f.applied.testBit k.val = true → field (.fioOvercurrent k) { f with shut := f.shut ||| 2 ^ k.val }) ∧
    (f.applied.testBit k.val = false → Does (.fioOvercurrent k) s fun t => t = s) ∧
    Does (.fioInputChange n level) s (fun t => { t with fio := s.fio } = s ∧ t.fio = { f with inputs := t.fio.inputs } ∧
      ∀ j : Fin 16, t.fio.inputs.testBit j.val = (if j = n then level else f.inputs.testBit j.val)) ∧
    (f.cosMode = false → f.wbEn.testBit n.val = true → field (.fioWireBreak n) { f with broken := f.broken ||| 2 ^ n.val }) ∧
    (f.cosMode = true ∨ f.wbEn.testBit n.val = false → Does (.fioWireBreak n) s fun t => t = s) ∧
    Does (.fioWireRestored n) s (fun t => { t with fio := s.fio } = s ∧ t.fio = { f with broken := t.fio.broken } ∧
      ∀ j : Fin 16, t.fio.broken.testBit j.val = (f.broken.testBit j.val && decide (j ≠ n))) ∧
    field .fioSupplyFault { f with supply := true } ∧ field .fioSupplyRestored { f with supply := false } ∧
    field .fioOvertemp { f with hot := true } ∧ field .fioTempRestored { f with hot := false }

/-- R152, R467, R468: who writes the outputs and names their owners. -/
def Obligations.FieldOutputsFollowTheirOwners : Prop :=
  ∀ (who : Requester) (e d : Die) (p : Fin 2) (ce : Fin 24) (k : Fin 8) (v : Word) (slot : Nat) (s : State),
    let a := R.FIO_OUT_WR d
    let own := R.FIO_OWN d k.val
    let driven (t : State) : Prop := { t with regs := s.regs, out := s.out, intents := s.intents } = s ∧ s.keepsRegs t [R.FIO_OUT .d0] ∧ s.keepsMem t ∧
      t.fioHeld = s.fioHeld ∧
      ∀ j : Fin 8, t.fioCmd.testBit j.val = (if bit v j.val && !s.fioHeld.testBit j.val then bit v (8 + j.val) else s.fioCmd.testBit j.val)
    let engine := s.accepts (.ce e ce) a ∧ s.runSlot e ce = some slot
    let owns := ∀ j : Fin 8, bit v j.val = true → s.fioOwns e ce slot j.val = true
    let host := match who with | .ce _ _ => False | _ => True
    (s.accepts (.sup e p) a → Accepted (.fioOutWr (.sup e p) d v) s (.sup e p) a driven) ∧
    (engine → owns → s.slotShadow e ce slot = false → s.slotStale e ce slot = false → Accepted (.fioOutWr (.ce e ce) d v) s (.ce e ce) a driven) ∧
    (engine → ¬owns → RefusedWith (.fioOutWr (.ce e ce) d v) s (.ce e ce) a causeRULE) ∧
    (engine → owns → s.slotShadow e ce slot = true → Accepted (.fioOutWr (.ce e ce) d v) s (.ce e ce) a fun t =>
      s.keepsRegs t [] ∧ s.keepsMem t) ∧
    (host → (match who with | .sup _ _ => False | _ => True) → s.accepts who a → RefusedWith (.fioOutWr who d v) s who a causeRULE) ∧
    (host → s.accepts who own → s.fioHeld.testBit k.val = true → (v = 0 ∨ s.handleHeld v.toNat = true) → Accepted (.fioOwnWrite who d k v) s who own fun t =>
      t.getReg (R.FIO_OWN .d0 k.val) = v ∧ s.keepsRegs t [R.FIO_OWN .d0 k.val] ∧ s.keepsMem t) ∧
    (host → s.accepts who own → (s.fioHeld.testBit k.val = false ∨ (v ≠ 0 ∧ s.handleHeld v.toNat = false)) →
      RefusedWith (.fioOwnWrite who d k v) s who own causeRULE) ∧
    (s.accepts (.ce e ce) own → RefusedWith (.fioOwnWrite (.ce e ce) d k v) s (.ce e ce) own causeRULE)

/-! ## Resets, start-up and power (R478 to R504) -/

/-- R478 to R483, R487, R533, R560: the sources of a reset, which request starts, is absorbed or deferred, what a reset of one die leaves, and the
snapshot of power loss. -/
def Obligations.ResetsByKindAndPrecedence : Prop :=
  ∀ (who : Requester) (d : Die) (p : Fin 2) (v : Word) (s : State),
    let r := s.rst
    let free := r.kind = 0 ∧ r.snap = none
    let wide (t : State) (kind cause : Nat) : Prop := t.rst.kind = kind ∧ ∀ e : Die, (t.bootOf e).stage = 0 ∧ t.getReg (R.RST_CAUSE e) = wd (0x100 + cause) ∧
      t.running e = false ∧ (∀ k : Fin 24, t.ceOf e k = {}) ∧
      ∀ a b off, dieOfAddr a = e → blockOf a = some (b, off) → b = 9 ∨ (b ∈ [34, 36, 39] ∧ 0x100 ≤ off) → t.getReg a = resetWord a
    let kick := R.RST_WD_KICK d
    (r.kind < 3 → Does .powerOnReset s fun t => wide t 3 1 ∧ t.rst.rails = true) ∧
    (r.kind < 3 → Does .testenHigh s fun t => wide t 3 9 ∧ t.rst.testen = true) ∧
    (free → Does .resetNAssert s fun t => wide t (if s.flag (R.RST_CFG .d0) 0 then 1 else 2) 2 ∧ t.rst.pin = true) ∧
    (r.kind ≠ 0 → Does .resetNAssert s fun t => t = { s with rst := { r with pin := true } }) ∧
    (r.kind = 0 → r.snap ≠ none → Does .resetNAssert s fun t =>
      t.rst.kind = 0 ∧ t.rst.deferred = r.deferred ++ [⟨2, if s.flag (R.RST_CFG .d0) 0 then 1 else 2, 2⟩] ∧ ∀ e : Die, t.bootOf e = s.bootOf e) ∧
    (free → (s.bootOf d).stage ≠ 0 → Does (.watchdogExpiry d) s fun t =>
      (t.bootOf d).stage = 1 ∧ t.rst.kind = 0 ∧ t.getReg (R.RST_CAUSE d) = wd 3 ∧ t.running d = false ∧ t.bootOf d.other = s.bootOf d.other ∧
      t.now d = { s.now d with slew := 0 } ∧ (∀ k : Fin 24, t.ceOf d k = {}) ∧
      (∀ a, d.org + 0x0800_0000 ≤ a → a < d.org + 0x0900_0000 → t.byte a = memDefault a) ∧
      (∀ a ∈ [R.RST_CFG d, R.PWR_PMB_CFG d, R.TB_RATE d], t.getReg a = s.getReg a) ∧
      ∀ a b off, dieOfAddr a = d → blockOf a = some (b, off) → b = 5 ∨ b = 9 ∨ (b ∈ [34, 36, 39] ∧ 0x100 ≤ off) → t.getReg a = resetWord a) ∧
    ((s.bootOf d).stage = 0 → Does (.watchdogExpiry d) s fun t => t = s) ∧
    (s.accepts (.sup d p) kick → bit v 0 = true → Accepted (.watchdogKick (.sup d p) d v) s (.sup d p) kick fun t =>
      t.fld (R.RST_WD_LEFT d) 0 16 = s.fld (R.RST_WD_TMO d) 0 16 ∧ s.keepsRegs t [R.RST_WD_LEFT d] ∧ s.keepsMem t) ∧
    (s.accepts who kick → who.isSup d = false → RefusedWith (.watchdogKick who d v) s who kick causeRULE) ∧
    (∀ k : Fin 3, free → r.asked = some k.val → k ≠ 0 → Does .deviceResetStart s fun t => wide t k.val (if k = 1 then 5 else 6) ∧ t.rst.asked = none ∧
      (k = 2 → ∀ e : Die, t.getReg (R.LOG_HEAD e) = s.getReg (R.LOG_HEAD e) + 1)) ∧
    (r.asked = none → Does .deviceResetStart s fun t => t = s) ∧
    Does (.resetSourceGone 0) s (fun t => t = { s with rst := { r with rails := false } }) ∧
    Does (.resetSourceGone 1) s (fun t => t = { s with rst := { r with testen := false } }) ∧
    Does (.resetSourceGone 2) s (fun t => t = { s with rst := { r with pin := false } }) ∧
    (r.kind ≠ 0 → r.rails = false → r.testen = false → r.pin = false → Does .resetRelease s fun t =>
      t.rst = { r with kind := 0 } ∧ ∀ e : Die, (t.bootOf e).stage = 1 ∧ t.fld (R.RST_WD_LEFT e) 0 16 = 500) ∧
    (r.kind = 0 ∨ r.rails = true ∨ r.testen = true ∨ r.pin = true → Does .resetRelease s fun t => t = s) ∧
    (r.kind ≠ 3 → r.pfLow = false → s.running .d0 = true → Does .pwrfailAssert s fun t =>
      t.rst.pfLow = true ∧ t.rst.snap ≠ none ∧ ∀ e : Die, t.flag (R.PWR_EVENT e) 1 = true ∧ s.counted t (R.HLT_LIFE_PWRLOSS e) 1 ∧
        (s.fld (R.RST_STAT e) 0 2 ≠ 0 → t.flag (R.DBL_STAT e 1) 7 = true ∧ t.flag (R.DBL_STAT e 0) 29 = true)) ∧
    (r.kind ≠ 3 → r.pfLow = false → s.running .d0 = false → Does .pwrfailAssert s fun t =>
      t = { s with rst := { r with pfLow := true, pfWait := true } }) ∧
    (r.kind = 3 ∨ r.pfLow = true → Does .pwrfailAssert s fun t => t = s) ∧
    (∀ x, r.snap = some x → r.deferred = [] → Does .snapshotSealed s fun t =>
      t.rst = { r with snap := none, deferred := [] } ∧ t.flash = { s.flash with snaps := (x :: s.flash.snaps).take 2, restored := false } ∧
      t.flag (R.LOG_EVENT .d0) 3 = true) ∧
    (∀ x cause, r.kind = 0 → r.snap = some x → r.deferred = [⟨2, 1, cause⟩] → Does .snapshotSealed s fun t => wide t 1 cause ∧ t.rst.snap = none) ∧
    (r.snap = none → Does .snapshotSealed s fun t => t = s) ∧
    (r.pfLow = true → Does .pwrfailRelease s fun t =>
      t.rst.pfLow = false ∧ t.rst.pfWait = false ∧ t.flash = { s.flash with snaps := s.flash.snaps.take 1 }) ∧
    (r.pfLow = false → Does .pwrfailRelease s fun t => t = s)

/-- R486, R488, R491, R492, R494, R495, R502: the steps of start-up, from the reset BIST to READY, and the configuration's commit. -/
def Obligations.StartUpStepByStep : Prop :=
  ∀ (d : Die) (ok ok' : Bool) (bad : Nat) (failed : List (Nat × Nat)) (s : State),
    let b := s.bootOf d
    let rs := R.RST_STAT d
    let rs0 := R.RST_STAT .d0
    let o := (s.bootOf d.other).stage
    let f := s.flash
    let image := if d = .d0 then s.rst.img else s.rst.sent
    let mine := s.plannerOf d = d
    let pairs := ∀ p : Fin 2, (s.hunit d 3 p.val).st = 0
    (b.stage = 1 → (b.warm = true ∨ b.ref = true) → b.p4 = [] → pairs → (ok || ok') = true → Does (.resetBistDone d ok ok') s fun t =>
      t.bootOf d = { b with stage := 2, p4 := [] } ∧ t.fld (R.SPR_STAT d 0) 0 3 = (if ok then 0 else 2) ∧ t.fld (R.SPR_STAT d 1) 0 3 = (if ok' then 0 else 2) ∧
      (b.warm = false → t.getReg (R.CLK_STAT d) = 0x103FF) ∧ (ok = false → (t.hunit d 3 0).st = 3)) ∧
    (b.stage = 1 → (b.warm = true ∨ b.ref = true) → pairs → Does (.resetBistDone d false false) s fun t => t.flag rs 8 = true ∧ t.bootOf d = b) ∧
    (b.stage ≠ 1 ∨ (b.warm = false ∧ b.ref = false) → Does (.resetBistDone d ok ok') s fun t => t = s) ∧
    ((s.bootOf .d0).stage = 2 → s.rst.img = false → (if f.bootB then ok' else ok) = true → Does (.undercoatVerified ok ok') s fun t =>
      t.rst.img = true ∧ t.flag rs0 7 = f.bootB ∧ t.flag rs0 6 = f.fell ∧ t.flag rs0 5 = f.trial ∧ t.flag rs0 8 = false ∧ t.flash.bootB = f.bootB) ∧
    ((s.bootOf .d0).stage = 2 → s.rst.img = false → (if f.bootB then ok' else ok) = false → (if f.bootB then ok else ok') = true →
      Does (.undercoatVerified ok ok') s fun t => t.rst.img = true ∧ t.flag rs0 7 = !f.bootB ∧ t.flag rs0 6 = true ∧ t.flag rs0 5 = false) ∧
    ((s.bootOf .d0).stage = 2 → s.rst.img = false → Does (.undercoatVerified false false) s fun t => t.flag rs0 8 = true ∧ t.rst = s.rst) ∧
    ((s.bootOf .d1).stage = 2 → s.rst.img = true → s.linkUp = true → s.rst.sent = false → Does (.die1ImageTransfer true) s fun t =>
      t.rst = { s.rst with sent := true } ∧ t.flag (R.RST_STAT .d1) 8 = false ∧
      ∀ k, 5 ≤ k → k ≤ 7 → t.flag (R.RST_STAT .d1) k = (s.flag (R.RST_STAT .d1) k || s.flag rs0 k)) ∧
    ((s.bootOf .d1).stage = 2 → s.rst.img = true → s.linkUp = true → s.rst.sent = false → Does (.die1ImageTransfer false) s fun t =>
      t.rst = s.rst ∧ t.flag (R.RST_STAT .d1) 8 = true) ∧
    (b.stage = 2 → image = true → Does (.undercoatStart d) s fun t => t.bootOf d = { b with stage := 3 } ∧ t.fld rs 0 2 = 1 ∧ t.running d = false) ∧
    (b.stage ≠ 2 ∨ image = false → Does (.undercoatStart d) s fun t => t = s) ∧
    (b.stage = 3 → f.found bad = none → Does (.configRestore d bad failed) s fun t => (t.bootOf d).stage = 4 ∧ t.fld rs 0 2 = 2 ∧ t.flag rs 3 = true ∧
      t.fld (R.RST_WD_TMO d) 0 16 = bits (resetWord (R.RST_WD_TMO d)) 0 16) ∧
    (∀ gen slot cfg w ws, b.stage = 3 → f.found bad = some (gen, slot, cfg) → Tab.get cfgNone cfg (R.RST_WD_TMO d) = w :: ws →
      Does (.configRestore d bad failed) s fun t =>
        (t.bootOf d).stage = 4 ∧ t.fld rs 0 2 = 2 ∧ t.flag rs 3 = s.flag rs 3 ∧ t.fld (R.RST_WD_TMO d) 0 16 = bits w 0 16) ∧
    (b.stage ≠ 3 → Does (.configRestore d bad failed) s fun t => t = s) ∧
    (b.stage = 4 → (mine → o ≠ 3) → Does (.intentRestore d ok) s fun t => (t.bootOf d).stage = 5) ∧
    (b.stage ≠ 4 ∨ (mine ∧ o = 3) → Does (.intentRestore d ok) s fun t => t = s) ∧
    (b.stage = 5 → o = 5 → s.rst.pfWait = false → Does (.readyRaise d) s fun t => ∀ e : Die, (t.bootOf e).stage = 6 ∧ (s.intents = [] → t.running e = true ∧
      t.flag (R.DBL_READY_INFO e) 0 = true ∧ t.flag (R.DBL_READY_INFO e) 1 = true ∧ t.flag (R.DBL_READY_INFO e) 2 = false ∧
      t.fld (R.RST_WD_LEFT e) 0 16 = s.fld (R.RST_WD_TMO e) 0 16 ∧ ∀ r : Fin 4, r ≠ 0 → t.flag (R.DBL_STAT e r.val) 0 = true)) ∧
    (b.stage ≠ 5 ∨ (o ≠ 5 ∧ o ≠ 6 ∧ s.rst.absent = false) → Does (.readyRaise d) s fun t => t = s) ∧
    ((s.flag (R.RST_CFG_STAT .d0) 0 || s.flag (R.RST_CFG_STAT .d1) 0) = true → Does .configCommit s fun t =>
      let gen := ((f.copies.headD {}).gen + 1) % 2 ^ 32
      (t.flash.copies.headD {}).body = s.cfgBody ∧ (t.flash.copies.headD {}).gen = gen ∧ t.flash.now = s.cfgBody ∧
      ∀ e : Die, t.flag (R.RST_CFG_STAT e) 0 = false ∧ t.getReg (R.RST_CFG_GEN e) = wd gen ∧ s.counted t (R.RST_CFG_COMMITS e) 1) ∧
    (s.flag (R.RST_CFG_STAT .d0) 0 = false → s.flag (R.RST_CFG_STAT .d1) 0 = false → Does .configCommit s fun t => t = s)

/-- R497 to R501, R503, R504: power states, the regulator and the clocks. -/
def Obligations.PowerRegulatorAndClocks : Prop :=
  ∀ (d : Die) (mv : Fin 1024) (ma temp status : Fin 65536) (ok : Bool) (pll : Fin 10) (c : HostCmd) (s : State),
    let p := s.pwrOf d
    let goal := s.fld (R.PWR_STAT d) 8 3
    let due := s.pwrBusy d = true ∧ s.pwrReached d = true ∧ s.power d ≠ 4 ∧ p.wait = []
    let target := s.fld (R.PWR_VCORE d) 16 10
    let core := R.PWR_VCORE d
    let waits := s.latest c ∧ c ∈ s.asyncCmds
    let b := s.bootOf d
    let clk := R.CLK_STAT d
    (due → Does (.pwrTransitionDone d) s fun t =>
      t.power d = goal ∧ t.flag (R.PWR_STAT d) 7 = false ∧ t.fld (R.PWR_STAT d) 8 3 = 0 ∧ t.flag (R.PWR_EVENT d) 0 = true ∧ (t.pwrOf d).cmds = []) ∧
    (due → waits → p.cmds = [c] → c ∉ (s.pwrOf d.other).cmds → Ends (.pwrTransitionDone d) s c stOK 0 [wd goal] fun _ => True) ∧
    (s.pwrBusy d = false ∨ s.pwrReached d = false → Does (.pwrTransitionDone d) s fun t => t = s) ∧
    (Does (.pmbusPoll d mv ma temp status true) s fun t =>
      t.fld core 0 10 = mv.val ∧ t.fld core 16 10 = target ∧ t.getReg (R.PWR_TELEM_I d) = wd ma.val ∧ t.getReg (R.PWR_TELEM_T d) = wd temp.val ∧
      t.getReg (R.PWR_PMB_STATUS d) = wd status.val ∧ s.keepsRegs t [core, R.PWR_TELEM_I d, R.PWR_TELEM_T d, R.PWR_PMB_STATUS d] ∧ s.keepsMem t) ∧
    (Does (.pmbusPoll d mv ma temp status false) s fun t => s.counted t (R.PWR_PMB_ERR d) 1 ∧ t.flag (R.PWR_EVENT d) 3 = true ∧ t.getReg core = s.getReg core) ∧
    (p.mv = target → Does (.vcoreStep d ok) s fun t => t = s) ∧
    (p.mv ≠ target → p.margin = none → Does (.vcoreStep d true) s fun t =>
      { t with pwr := s.pwr } = s ∧ (t.pwrOf d).mv = (if p.mv < target then min target (p.mv + 5) else max target (p.mv - 5))) ∧
    (p.mv ≠ target → waits → p.margin = some c → p.mv ≤ target + 5 → target ≤ p.mv + 5 → Ends (.vcoreStep d true) s c stOK 0 [wd target] fun t =>
      (t.pwrOf d).mv = target ∧ (t.pwrOf d).margin = none) ∧
    (p.mv ≠ target → waits → p.margin = some c → p.mv < 1024 → Ends (.vcoreStep d false) s c stTIMEOUT 0 [] fun t =>
      (t.pwrOf d).mv = p.mv ∧ (t.pwrOf d).margin = none ∧ t.fld core 16 10 = p.mv ∧ t.flag (R.PWR_EVENT d) 3 = true) ∧
    (b.ref = true → 1 < b.stage → Does (.refLoss d) s fun t =>
      t.bootOf d = { b with ref := false } ∧ t.flag clk 16 = false ∧ t.flag (R.CLK_EVENT d) 1 = true ∧ s.counted t (R.CLK_CNT_REFLOSS d) 1 ∧
      (∀ k : Fin 10, t.flag clk k.val = s.flag clk k.val) ∧ s.keepsMem t) ∧
    (b.ref = false → Does (.refLoss d) s fun t => t = s) ∧
    (b.ref = false → 1 < b.stage → Does (.refReturn d) s fun t =>
      t.bootOf d = { b with ref := true } ∧ t.getReg clk = 0x103FF ∧ s.keepsRegs t [clk] ∧ s.keepsMem t) ∧
    (b.ref = true → Does (.refReturn d) s fun t => t = s) ∧
    (4 ≤ pll.val → Does (.pllUnlock d pll) s fun t =>
      t.flag clk pll.val = false ∧ t.flag (R.CLK_EVENT d) 2 = true ∧ (∀ k : Fin 24, t.ceOf d k = s.ceOf d k) ∧ s.keepsMem t) ∧
    (pll.val < 4 → Does (.pllUnlock d pll) s fun t =>
      t.flag clk pll.val = false ∧ t.flag (R.CLK_EVENT d) 2 = true ∧
      ∀ j : Fin 6, t.fld (R.CE_STAT d (ceIx (6 * pll.val + j.val))) 0 2 = 2 ∧ (t.hunit d 2 (6 * pll.val + j.val)).st = 4)

/-! ## Health and the event log (R505 to R537) -/

/-- R505, R507, R509, R510, R512, R530, R534: what the monitors' readings do, and what the ageing record and the checkpoint keep. -/
def Obligations.MonitorsAndAgeing : Prop :=
  ∀ (d : Die) (dom : Fin 8) (ps again loss : Nat) (lane : Fin 11) (height : Fin 1024) (width : Fin 64) (bank : Fin 3) (code : Fin 64) (t16 : Int) (s : State),
    let n := dom.val
    let up := 3 ≤ (s.bootOf d).stage
    let slow := s.tooSlow d n ps = true ∧ s.tooSlow d n again = true
    let f := (s.takeReading d n ps).certify d n
    let clk := R.CLK_DOM d n
    let old := s.fld clk 0 10
    let reading := Instr.pathDelayReading d dom ps again
    let eye := R.HLT_EYE d lane.val
    let first := s.firstEye d lane.val
    let low := height.val * 100 < 60 * first ∨ width.val < 16
    let drv := R.HLT_DRV d bank.val
    let stop := code.val = 0 ∨ code.val = 63
    let therm := s.thermOf d
    let lives := lifeRegs .d0 ++ lifeRegs .d1
    (¬up → Does reading s fun t => t = s) ∧
    (up → ¬slow → Does reading s fun t => t.fld clk 0 10 = min old f ∧
      (f < old → t.flag (R.HLT_EVENT d) 6 = true ∧ (variableDom n = true → t.fld clk 16 10 = f ∧ s.counted t (R.CLK_CNT_MARGIN d) 1)) ∧
      (old ≤ f → t.fld clk 16 10 = s.fld clk 16 10)) ∧
    (up → slow → variableDom n = false → Does reading s fun t => t.flag (R.HLT_EVENT d) 7 = true ∧ t.fld clk 16 10 = s.fld clk 16 10 ∧ t.fld clk 0 10 = min old f) ∧
    (up → slow → n < 4 → Does reading s fun t => t.fld (R.HLT_STAT d) 24 4 = n ∧ t.flag (R.HLT_EVENT d) 12 = true ∧
      ∀ j : Fin 6, t.fld (R.CE_STAT d (ceIx (6 * n + j.val))) 0 2 = 2 ∧ (t.hunit d 2 (6 * n + j.val)).st = 4) ∧
    (up → slow → n = 4 ∨ n = 6 → s.rst.kind = 0 → s.rst.snap = none → Does reading s fun t =>
      t.getReg (R.RST_CAUSE d) = wd 7 ∧ (t.bootOf d).stage = 1 ∧ t.fld (R.HLT_STAT d) 24 4 = n) ∧
    (up → Does (.ringOscReading d dom loss) s fun t => (t.ageOf d n).readings = (s.ageOf d n).readings ++ [(s.poweredDays d, loss)] ∧
      t.fld (R.HLT_DOM_AGE d n) 0 16 = min loss 65535 ∧ 100 ≤ t.fld (R.HLT_DOM_AGE d n) 16 16 ∧ t.fld (R.HLT_DOM_AGE d n) 16 16 ≤ 350 ∧
      s.keepsRegs t [R.HLT_DOM_AGE d n, R.HLT_DOM_FCST d n] ∧ s.keepsMem t) ∧
    (¬up → Does (.ringOscReading d dom loss) s fun t => t = s) ∧
    (first ≠ 0 → ¬low → Does (.eyeMonitorReading d lane height width) s fun t =>
      t.getReg eye = wd (width.val * 2 ^ 10 + height.val) ∧ s.keepsRegs t [eye] ∧ s.keepsMem t) ∧
    (first = 0 → 16 ≤ width.val → Does (.eyeMonitorReading d lane height width) s fun t =>
      t.firstEye d lane.val = height.val ∧ t.getReg eye = wd (width.val * 2 ^ 10 + height.val)) ∧
    (low → s.flag eye 16 = false → lane.val < 5 ∨ 7 ≤ lane.val → Does (.eyeMonitorReading d lane height width) s fun t =>
      t.getReg eye = wd (2 ^ 16 + width.val * 2 ^ 10 + height.val) ∧ t.flag (R.HLT_EVENT d) 9 = true) ∧
    (Does (.driverCalReading d bank code) s fun t => t.fld drv 0 6 = code.val ∧ t.flag drv 16 = decide stop ∧
      (s.firstEye d (11 + bank.val) = 0 → t.fld drv 8 6 = code.val) ∧ (s.firstEye d (11 + bank.val) ≠ 0 → t.fld drv 8 6 = s.fld drv 8 6) ∧
      (stop → s.flag drv 16 = false → t.flag (R.HLT_EVENT d) 9 = true)) ∧
    (Does (.tempReading d t16) s fun t => { t with therm := s.therm } = s ∧
      t.thermOf d = { t16 := some t16, hotAt := if 1600 < t16 then some (therm.hotAt.getD (s.lin d)) else none }) ∧
    (Does .ageingRecordWrite s fun t => { t with flash := s.flash } = s ∧ ∃ r, t.flash = { s.flash with recs := (r :: s.flash.recs).take 2 } ∧
      r.ages = s.age ∧ r.eyes = s.eyes ∧ ∀ a ∈ ageRegs .d0 ++ ageRegs .d1, Tab.get resetWord r.regs a = s.getReg a) ∧
    (Does .counterCheckpoint s fun t => { t with ckpt := s.ckpt } = s ∧ ∀ a ∈ lives, Tab.get resetWord t.ckpt a = s.getReg a)

/-- R474, R513 to R518, R570: tests of units begin, end and are given up; a bank retires. -/
def Obligations.TestsOfUnits : Prop :=
  ∀ (d : Die) (cls : Fin 16) (idx : Fin 512) (detail : Word) (weak bank : Fin 272) (margin : Fin 256) (c : HostCmd) (s : State),
    let k := cls.val
    let i := idx.val
    let a := R.HLT_TEST_STAT d
    let u := s.hunit d k i
    let running (phase : Nat) : Word := wd (unitNum d k i * 2 ^ 16 + 2 ^ 15 + phase * 2 ^ 12 + k)
    let bist (x : Instr) : Prop := Does x s fun t => (t.hunit d k i).st = 1 ∧ t.getReg a = running 2
    let vacate (x : Instr) : Prop := Does x s fun t => t.getReg a = running 1 ∧ (t.hunit d k i).st = 0 ∧
      t.planEvents (s.plannerOf d) = s.planEvents (s.plannerOf d) ++ [⟨s.lin d, d, .test k i⟩] ∧ s.keepsMem t
    let clear := u.st ≠ 0 ∨ s.bistReady d k i = true
    let asked := s.flag a 15 = false ∧ (s.waitingTests d).head? = some c ∧ c.cls = k ∧ c.unit = i ∧ u.tries ≤ 3
    let turn := s.flag a 15 = false ∧ s.flag (R.HLT_STAT d) 0 = true ∧ s.waitingTests d = [] ∧ i < unitCount d k ∧ (u.st = 0 ∨ u.st = 4) ∧
      (k = 3 → s.fld (R.SPR_STAT d i) 4 2 = 0)
    let inTest := s.flag a 15 = true ∧ s.fld a 12 3 = 2 ∧ s.fld a 0 4 = k ∧ s.fld a 16 16 = unitNum d k 0 + i ∧ i < unitCount d k
    let noService := ∀ q ∈ s.asyncCmds, q.op = 0x0601 → ¬(q.tdie = d ∧ q.cls = k ∧ q.unit = i)
    let plain := k ≠ 3 ∧ k ≠ 8 ∧ k ≠ 10
    let good := bits detail 0 8 = 0
    let ends := Instr.bistComplete d detail weak margin []
    let noted (t : State) : Prop := t.getReg a = 0 ∧ t.getReg (R.HLT_BIST_DETAIL d) = detail ∧ s.counted t (R.HLT_CNT_TEST d) 1 ∧
      t.flag (R.HLT_EVENT d) 0 = true ∧ (t.hunit d k i).detail = detail.toNat ∧ (t.hunit d k i).tests = min 65535 (u.tests + 1)
    let request := s.waitingTests d = [c] ∧ c.cls = k ∧ c.unit = i ∧ c.op = 0x0600 ∧ s.latest c
    let due := u.hard = true ∨ 8 ≤ u.held ∨ (u.held ≠ 0 ∧ u.heldAt + s.fld (R.HLT_TEST_QMAX d) 0 14 * 1000 ≤ s.lin d)
    let b := bank.val
    let oos (t : State) (x : Nat) : Bool := t.flag (R.POOL_BANK_OOS d (x / 32)) (x % 32)
    (asked → clear → bist (.testStart d cls idx)) ∧ (asked → ¬clear → vacate (.testStart d cls idx)) ∧
    (turn → clear → bist (.backgroundTestStart d cls idx)) ∧ (turn → ¬clear → vacate (.backgroundTestStart d cls idx)) ∧
    (s.vacating d k i = true → s.bistReady d k i = true → bist (.testStart d cls idx) ∧ bist (.backgroundTestStart d cls idx)) ∧
    (s.vacating d k i = true → s.bistReady d k i = false → Does (.testStart d cls idx) s fun t => t = s) ∧
    (inTest → noService → plain → good → Does ends s fun t =>
      noted t ∧ (t.hunit d k i).st = 0 ∧ (t.hunit d k i).result = 1 ∧ (t.hunit d k i).epoch = nextEpoch u.epoch) ∧
    (inTest → noService → plain → ¬good → Does ends s fun t =>
      noted t ∧ (t.hunit d k i).st = 3 ∧ (t.hunit d k i).result = 2 ∧ s.counted t (R.HLT_CNT_TEST_FAIL d) 1 ∧ t.flag (R.HLT_EVENT d) 1 = true) ∧
    (inTest → noService → plain → request → Ends ends s c stOK 0 [if bits detail 0 8 = 0 then 0 else 1, detail] fun _ => True) ∧
    (inTest → noService → k = 10 → good → 25 ≤ margin.val → Does ends s fun t =>
      noted t ∧ (t.hunit d k i).st = 0 ∧ t.getReg (R.HLT_RET d i) = wd (weak.val * 2 ^ 8 + margin.val) ∧
      ∀ j : Fin 16, oos t (i * 16 + j.val) = (Tab.get (fun _ => false) s.retired (bankKey d (i * 16 + j.val)) && oos s (i * 16 + j.val))) ∧
    (∀ r, inTest → noService → k = 8 → s.fio.testRes = some r → Does ends s fun t =>
      noted t ∧ t.fio.testFail = !r ∧ t.fio.testRes = none ∧ (t.hunit d k i).st = (if r then 0 else 3) ∧ (r = false → t.fioCmd = 0 ∧ t.fioHeld = 0xFF)) ∧
    (s.flag a 15 = false ∨ s.fld a 12 3 ≠ 2 → Does ends s fun t => t = s) ∧
    (inTest → noService → u.st = 1 → due → Does (.testQueueAbort d) s fun t =>
      t.getReg a = 0 ∧ (t.hunit d k i).st = 0 ∧ (t.hunit d k i).result = 3 ∧ s.counted t (R.HLT_CNT_TEST_ABORT d) 1 ∧ t.flag (R.HLT_EVENT d) 2 = true) ∧
    (s.flag a 15 = false → Does (.testQueueAbort d) s fun t => t = s) ∧
    (s.bankOos d b = true → Does (.bankRetire d bank) s fun t => t = s) ∧
    (s.bankOos d b = false → ((s.contexts d).any fun x => (banksOf x.1 (x.2 / 64)).contains b) = false →
      match s.vacateBank d b with
      | some _ => Does (.bankRetire d bank) s fun t => t.bankOos d b = true
      | none => Does (.bankRetire d bank) s fun t => t.bankOos d b = false)

/-- R524, R526, R532, R536, R537: the log's scrub, summary and stream, its fault record's clearing, and the query of a unit. -/
def Obligations.LogAndUnitQuery : Prop :=
  ∀ (who : Requester) (d : Die) (v : Word) (fails : Fin 3) (s : State),
    let l := s.logOf d
    let allow := ((s.logRefill d).logOf d).allow
    let head := s.getReg (R.LOG_HEAD d)
    let page := l.unstr.take 16
    let reach := l.unstr ≠ [] ∧ (d = .d1 → s.linkUp = true)
    let lfr := R.LOG_LFR_CTRL d
    let sel := R.HLT_UNIT_SEL d
    let cls := bits v 0 4
    let no := bits v 16 16
    let u := s.hunit d cls (unitLocal cls no)
    let shown (t : State) (ws : List Word) : Prop :=
      [R.HLT_UNIT_STAT d, R.HLT_UNIT_COUNTS d, R.HLT_UNIT_LAST_S d, R.HLT_UNIT_DETAIL d].map (fun a => t.getReg a) = ws ∧
      s.keepsRegs t [sel, R.HLT_UNIT_STAT d, R.HLT_UNIT_COUNTS d, R.HLT_UNIT_LAST_S d, R.HLT_UNIT_DETAIL d] ∧ s.keepsMem t
    Does (.logScrub d false false) s (fun t => (t.logOf d).primOk = l.primOk ∧ (t.logOf d).mirOk = l.mirOk ∧ t.flag (R.LOG_STAT d) 0 = l.primOk ∧
      s.keepsMem t ∧ t.getReg (R.LOG_HEAD d) = head) ∧
    (l.primOk = true → Does (.logScrub d true false) s fun t =>
      (t.logOf d).primOk = false ∧ t.flag (R.LOG_STAT d) 0 = false ∧ s.counted t (R.LOG_CNT_MEMERR d) 1 ∧ t.flag (R.LOG_EVENT d) 0 = true) ∧
    (l.primOk = false → s.mirReach d = true → Does (.logScrub d false true) s fun t =>
      (t.logOf d).mirOk = false ∧ s.counted t (R.LOG_CNT_MEMERR d) 1 ∧ t.flag (R.LOG_EVENT d) 1 = true ∧ t.flag (R.LOG_LFR_STAT d) 3 = true) ∧
    (l.supp ≠ 0 → allow ≠ 0 → l.primOk = true → Does (.logSuppressSummary d) s fun t =>
      (t.logOf d).supp = 0 ∧ t.getReg (R.LOG_HEAD d) = head + 1 ∧ t.words (logSlot d head.toNat) 4 =
        [wd (s.now d).sec, wd ((s.now d).ns + d.idx * 2 ^ 30), wd (0x2702 + l.suppCode % 4096 * 2 ^ 20), wd l.supp]) ∧
    (l.supp = 0 ∨ allow = 0 → Does (.logSuppressSummary d) s fun t => { t with log := s.log } = s ∧ (t.logOf d).supp = l.supp) ∧
    (reach → fails = 2 → Does (.logStreamPage d fails) s fun t =>
      s.counted t (R.LOG_CNT_STREAM_ERR d) 2 ∧ s.keepsRegs t [R.LOG_CNT_STREAM_ERR d] ∧ { t with regs := s.regs } = s) ∧
    (reach → fails ≠ 2 → Does (.logStreamPage d fails) s fun t =>
      s.counted t (R.LOG_CNT_STREAM_ERR d) fails.val ∧ t.logOf d = { l with unstr := l.unstr.drop 16 } ∧
      t.getReg (R.LOG_STREAMED d) = wd ((page.getLastD (0, [])).1 + 1) ∧ t.fld (R.LOG_STAT d) 8 6 = min 32 (l.unstr.length - 16) ∧ s.keepsMem t) ∧
    (¬reach → Does (.logStreamPage d fails) s fun t => t = s) ∧
    (s.accepts who lfr → bit v 0 = true → s.flag (R.LOG_LFR_STAT d) 3 = false → Accepted (.logLfrClear who d v) s who lfr fun t =>
      (t.logOf d).lfr = [] ∧ t.fld (R.LOG_LFR_STAT d) 0 3 = 0 ∧ (∀ i : Fin 16, t.getReg (R.LOG_LFR d i.val) = 0) ∧ s.keepsMem t) ∧
    (s.accepts who lfr → bit v 0 = true → s.flag (R.LOG_LFR_STAT d) 3 = true → RefusedWith (.logLfrClear who d v) s who lfr causeRULE) ∧
    (s.accepts who lfr → bit v 0 = false → Accepted (.logLfrClear who d v) s who lfr fun t => { t with out := s.out } = s) ∧
    (s.accepts who sel → (cls < 2 ∨ 12 < cls) → RefusedWith (.hltUnitSelect who d v) s who sel causeRULE) ∧
    (s.accepts who sel → 2 ≤ cls → cls ≤ 12 → unitHere d cls no = true → Accepted (.hltUnitSelect who d v) s who sel fun t =>
      shown t [wd (u.epoch * 2 ^ 16 + 2 ^ 15 + u.st * 2 ^ 12 + u.result * 2 ^ 10), wd (u.faults * 2 ^ 16 + u.tests), wd u.lastS, wd u.detail]) ∧
    (s.accepts who sel → 2 ≤ cls → cls ≤ 12 → unitHere d cls no = false → Accepted (.hltUnitSelect who d v) s who sel fun t => shown t [0, 0, 0, 0])

/-! ## Accesses of hosts (R10 to R12, R157, R160 to R170, R538 to R546) -/

/-- R10, R12, R23, R157, R167, R170, R320, R541 to R546: a register is written and read by its access codes, a refused access changes nothing but the
record of it, a read of a pair latches its high half, and a host reaches the pool and an engine's memory by address. -/
def Obligations.AccessesByAddress : Prop :=
  ∀ (who : Requester) (a : AccAddr) (w : Width) (v hi : Word) (d : Die) (b off m : Nat) (k : Fin 24) (fn : Fin 2) (s : State),
    let x := R.blk d b + off
    let at_ := leadOf who a = .at_ x ∧ off < 0x1_0000
    let lo := R.MAC_RX_OCTETS_LO d m
    let now := R.blk d 37 + 8
    let ce := ceMemAddr d k off
    let err := R.MBX_ERR_HI d fn.val
    let quiet := s.running d = true ∧ ∀ j, s.eccAt (wordNo d (off / 8 * 8) + j) = 0
    let failed (t : State) (c : Nat) : Prop := t.out.head? = some (.tlp d fn.val false []) ∧ s.counted t (R.MBX_ERR_CNT d fn.val) 1 ∧
      (s.flag err 31 = false → t.flag err 31 = true ∧ t.fld err 16 4 = c) ∧ t.mem = s.mem
    let moved (u t : State) : Prop := t.h3Addr = (if u.h3.addr2 / 0x100 % 2 = 1 then (u.h3Addr + 4) % 2 ^ 40 else u.h3Addr)
    (∀ r, at_ → s.accepts who x → b ∈ [0, 2, 4, 8, 36] → blockRow b off = some r → Accepted (.registerWrite who a .w32 v hi) s who x fun t =>
      (∀ j < 32, t.flag x j = (if r.rw.testBit j then bit v j else if r.w1c.testBit j then s.flag x j && !bit v j
        else if r.w1s.testBit j then s.flag x j || bit v j else s.flag x j)) ∧ s.keepsRegs t [x] ∧ s.keepsMem t) ∧
    (at_ → s.accepts who x → b ∈ [0, 2, 4, 8, 36] → blockRow b off = none → Accepted (.registerWrite who a .w32 v hi) s who x fun t =>
      { t with out := s.out } = s) ∧
    (∀ c e b' o, leadOf who a = .at_ x → targetOf (canonAddr x) = .reg e b' o → s.regCheck who x w true = some c →
      RefusedWith (.registerWrite who a w v hi) s who x c) ∧
    (∀ y, leadOf who a = .at_ y → targetOf (canonAddr y) = .nothing → RefusedWith (.registerWrite who a w v hi) s who y causeNO_TARGET) ∧
    (leadOf who a = .at_ ce → off < 0x3_0000 → off % 4 = 0 → reqIsCe who = false → s.domainOff who d 10 = false → s.ceMemRefuses who d k off = false →
      Accepted (.registerWrite who a .w32 v hi) s who ce fun t =>
        t.load ce 4 = leBytes 4 v.toNat ∧ (∀ y, (y < ce ∨ ce + 4 ≤ y) → t.byte y = s.byte y) ∧ s.keepsRegs t []) ∧
    (∀ r, at_ → s.acceptsRead who x → b < 44 → b ∉ [5, 6, 7, 9, 35, 37, 38, 40, 41] → blockRow b off = some r →
      Does (.counterReadClear who a .w32) s fun t =>
        t.out = .answer who x (.data [s.getReg x &&& ~~~wd r.wo]) :: s.out ∧ t.getReg x = s.getReg x &&& ~~~wd r.rc ∧ s.keepsRegs t [x] ∧ s.keepsMem t) ∧
    (∀ c e b' o, leadOf who a = .at_ x → targetOf (canonAddr x) = .reg e b' o → s.regCheck who x w false = some c →
      Does (.counterReadClear who a w) s fun t => t = s.refuse who x false c) ∧
    (m < 14 → leadOf who a = .at_ lo → s.acceptsRead who lo → Does (.pairLoRead who a .w32) s fun t =>
      t.out = .answer who lo (.data [s.getReg lo]) :: s.out ∧ t.shadowOf who d 35 = s.getReg (R.MAC_RX_OCTETS_HI d m) ∧
      { t with out := s.out, shadow := s.shadow } = s) ∧
    (leadOf who a = .at_ now → s.acceptsRead who now → Does (.pairLoRead who a .w32) s fun t =>
      t.out = .answer who now (.data [wd (s.lin d)]) :: s.out ∧ t.tbView who d 0xC = some (wd (s.lin d / 2 ^ 32)) ∧
      { t with out := s.out, shadow := s.shadow } = s) ∧
    (∀ wr, wr ≠ [] → quiet → off % 64 + wr.length ≤ 64 → off < 0x400_0000 → s.bankRefusal d 14 off = none →
      Does (.hostPoolTlp d fn off 0 wr true) s fun t =>
        t.out = .tlp d fn.val true [] :: s.out ∧ (∀ j y, wr[j]? = some (some y) → t.byte (d.org + off + j) = y) ∧
        (∀ z, (∀ j y, wr[j]? = some (some y) → z ≠ d.org + off + j) → t.byte z = s.byte z) ∧ s.keepsRegs t [R.POOL_PORT_UTIL d 14]) ∧
    (∀ n, 0 < n → quiet → off % 64 + n ≤ 64 → off < 0x400_0000 → s.bankRefusal d 14 off = none → Does (.hostPoolTlp d fn off n [] false) s fun t =>
      t.out = .tlp d fn.val true (s.load (d.org + off) n) (some .sc) :: s.out ∧ t.mem = s.mem ∧ s.keepsRegs t [R.POOL_PORT_UTIL d 14]) ∧
    (∀ wr c, wr ≠ [] → s.running d = true → off < 0x400_0000 → s.bankRefusal d 14 off = some c → c < 16 →
      Does (.hostPoolTlp d fn off 0 wr true) s fun t => failed t c) ∧
    (∀ wr, 0x800_0000 ≤ off → Does (.hostPoolTlp d fn off 0 wr true) s fun t => failed t causeNO_TARGET) ∧
    (∀ wr, s.linkUp = false → 0x400_0000 ≤ off → off < 0x800_0000 → Does (.hostPoolTlp d fn off 0 wr true) s fun t => failed t causeDOMAIN_OFF) ∧
    (∀ y u, s.busRead .h3 s.h3Addr .w32 = (.ok (some [y]), u) → Does .h3DataLRead s fun t =>
      t.out = .par false (y.toNat % 2 ^ 16) :: u.out ∧ t.h3.dataH = y.toNat / 2 ^ 16 ∧ moved u t ∧ { t with out := u.out, h3 := u.h3 } = u) ∧
    (∀ c u, s.busRead .h3 s.h3Addr .w32 = (.error c, u) → Does .h3DataLRead s fun t =>
      t.out.head? = some (.par true 0) ∧ t.h3.err = true ∧ t.h3.cause = c ∧ u.counted t (R.MBX_ERR_CNT .d1 2) 1) ∧
    (∀ (y : BitVec 16) u, s.busWrite .h3 s.h3Addr .w32 (wd (s.h3.dataL + y.toNat * 2 ^ 16)) 0 = (none, u) → Does (.h3DataHWrite y) s fun t =>
      t.out = .par false 0 :: u.out ∧ moved u t ∧ { t with out := u.out, h3 := u.h3 } = u) ∧
    (∀ (y : BitVec 16) c u, s.busWrite .h3 s.h3Addr .w32 (wd (s.h3.dataL + y.toNat * 2 ^ 16)) 0 = (some c, u) → Does (.h3DataHWrite y) s fun t =>
      t.out.head? = some (.par true 0) ∧ t.h3.err = true ∧ t.h3.cause = c ∧ u.counted t (R.MBX_ERR_CNT .d1 2) 1)

/-- R160 to R166: a serial frame is answered ACK or NAK with a CRC over the whole frame, one with a failed CRC performs nothing, an incomplete one
nothing at all, and a session opens by nonces and proofs, carries SECURE frames and ends. -/
def Obligations.SerialFramesAreAnswered : Prop :=
  ∀ (waits a n : Nat) (ws : List Word) (op : Byte) (nh nd tag c : List Byte) (ctr : Nat) (s : State),
    let frame (f : List Byte) : List Byte := f ++ frameCrc f
    let sent (host rep : List Byte) : Out := .spi ((List.replicate waits 0xFF ++ rep) ++ frameCrc (host ++ (List.replicate waits 0xFF ++ rep)))
    let nak (x : Nat) : Byte := BitVec.ofNat 8 (0x50 + x)
    let count (x : Nat) : Byte := BitVec.ofNat 8 x
    let wfr := frame ([op] ++ beBytes 5 a ++ [count ws.length] ++ wordBytes ws)
    let rfr := frame ([op] ++ beBytes 5 a ++ [count n])
    let writes := (op = 0x02 ∨ op = 0x12) ∧ a < 2 ^ 40 ∧ ws.length < 256
    let reads := (op = 0x0B ∨ op = 0x6C) ∧ a < 2 ^ 40 ∧ n < 256
    let some_ (x : Nat) : Prop := 0 < x ∧ x ≤ 64
    let ks := h2Keys s.h2.key nh nd
    let mine (t : State) : Prop := ∀ i : Fin 32, t.fld (R.MBX_CH_STAT .d0 i.val) 29 3 ≠ 6
    let ended (t : State) : Prop := t.h2.sess = none ∧ mine t
    let free (i : Nat) : List Byte := leBytes 4 (Config.freeValue (s.fresh + i)).toNat
    let nonce := free 0 ++ free 1 ++ free 2 ++ free 3
    let sfr := frame ([0xA8] ++ beBytes 2 c.length ++ beBytes 8 ctr ++ c ++ tag)
    let sized := nh.length = 16 ∧ tag.length = 16 ∧ c.length < 2 ^ 16 ∧ ctr < 2 ^ 64
    let good := s.h2.sess = some (nh, nd) ∧ s.h2.hostCtr < ctr ∧ tag = Crypto.gcmTag (ks.take 32) (h2Iv ks ctr) [] c
    let open_ : State := { s with h2 := { s.h2 with hostCtr := ctr, devCtr := s.h2.devCtr + 1 } }
    let st : Byte := BitVec.ofNat 8 ((if s.getReg (R.DBL_STAT .d0 3) &&& s.getReg (R.DBL_MASK .d0 3) ≠ 0 then 1 else 0) +
      (if s.h2.sess.isSome then 2 else 0) + (if s.flag (R.MBX_H2KEY_CTRL .d0) 8 then 4 else 0))
    (∀ k u, writes → some_ ws.length → s.h2WriteWords .h2 a ws = (k, none, u) → Does (.h2Write wfr waits) s fun t =>
      t = u.emit (sent wfr [0xA5, count k])) ∧
    (∀ k x u, writes → some_ ws.length → s.h2WriteWords .h2 a ws = (k, some x, u) → Does (.h2Write wfr waits) s fun t =>
      t = u.emit (sent wfr [nak x, count k])) ∧
    (writes → ¬some_ ws.length → Does (.h2Write wfr waits) s fun t =>
      t = (s.recordRefusal .h2 a true causeRULE).emit (sent wfr [nak causeRULE, 0])) ∧
    (writes → Does (.h2Write (wfr.take (7 + 4 * ws.length) ++ (wfr.drop (7 + 4 * ws.length)).map fun b => b ^^^ 1) waits) s fun t =>
      ∃ o, t = (s.recordRefusal .h2 a true causeCRC).emit (.spi o) ∧ (List.replicate waits (0xFF : Byte) ++ [nak causeCRC, 0]) <+: o) ∧
    (∀ j, writes → j < wfr.length → Does (.h2Write (wfr.take j) waits) s fun t => t = s) ∧
    (isH2Write op.toNat = false → h2Other op.toNat = false → Does (.h2Write (frame ([op] ++ c)) waits) s fun t =>
      t = s.emit (sent (frame ([op] ++ c)) [nak causeRULE])) ∧
    (∀ xs u, reads → some_ n → s.h2ReadWords .h2 a n = (.ok xs, u) → Does (.h2Read rfr waits) s fun t =>
      t = u.emit (sent rfr (0xA5 :: wordBytes xs))) ∧
    (∀ x u, reads → some_ n → s.h2ReadWords .h2 a n = (.error x, u) → Does (.h2Read rfr waits) s fun t =>
      t = u.emit (sent rfr [nak x])) ∧
    (reads → ¬some_ n → Does (.h2Read rfr waits) s fun t => t = (s.recordRefusal .h2 a false causeRULE).emit (sent rfr [nak causeRULE])) ∧
    Does (.h2Portstat [0x05]) s (fun t => t = s.emit (.spi ([st] ++ frameCrc ([0x05] ++ [st])))) ∧
    (∀ k u x, writes → some_ ws.length → 0 < n → s.h2WriteWords .h2 a (ws.take n) = (k, x, u) → Does (.h2FrameAbandon wfr n) s fun t => t = u) ∧
    (writes → Does (.h2FrameAbandon wfr 0) s fun t => t = s) ∧
    (sized → s.h2.key = [] → Does (.h2Open (frame (0xA1 :: nh)) waits) s fun t => t = s.emit (sent (frame (0xA1 :: nh)) [nak causeSECURITY])) ∧
    (sized → s.h2.key ≠ [] → Does (.h2Open (frame (0xA1 :: nh)) waits) s fun t =>
      t.h2 = { s.h2 with pend := some (nh, nonce) } ∧ t.fresh = s.fresh + 4 ∧
      t.out = sent (frame (0xA1 :: nh)) ([0xA5] ++ nonce ++ h2Proof (h2Keys s.h2.key nh nonce) nh nonce 32) :: s.out ∧ s.keepsRegs t [] ∧ s.keepsMem t) ∧
    (sized → s.h2.pend = some (nh, nd) → tag = h2Proof ks nh nd 0 → Does (.h2Confirm (frame (0xA2 :: tag)) waits) s fun t =>
      t.h2 = { s.h2 with pend := none, sess := some (nh, nd), hostCtr := 0, devCtr := 0 } ∧ t.out = sent (frame (0xA2 :: tag)) [0xA5] :: s.out ∧
      s.keepsRegs t [] ∧ s.keepsMem t) ∧
    (sized → s.h2.pend = some (nh, nd) → tag ≠ h2Proof ks nh nd 0 → Does (.h2Confirm (frame (0xA2 :: tag)) waits) s fun t =>
      t.h2.sess = none ∧ t.h2.pend = none ∧ t.out.head? = some (sent (frame (0xA2 :: tag)) [nak causeSECURITY]) ∧ (s.h2.sess ≠ none → mine t)) ∧
    (s.h2.sess ≠ none → Does (.h2Close (frame [0xA3]) waits) s fun t => ended t ∧ t.out.head? = some (sent (frame [0xA3]) [0xA5])) ∧
    (∀ r u, sized → good → open_.h2Body .h2s (Crypto.gcmText (ks.take 32) (h2Iv ks ctr) c) 64 = (r, u) → Does (.h2Secure sfr waits) s fun t =>
      let kd := (ks.drop 32).take 32
      let iv := h2Iv ks (s.h2.devCtr + 1)
      let e := Crypto.gcmText kd iv r
      t = u.emit (sent sfr ([0xA5] ++ beBytes 2 e.length ++ beBytes 8 (s.h2.devCtr + 1) ++ e ++ Crypto.gcmTag kd iv [] e))) ∧
    (sized → s.h2.sess = some (nh, nd) → ¬good → Does (.h2Secure sfr waits) s fun t =>
      ended t ∧ s.counted t (R.MBX_ERR_CNT .d0 2) 1 ∧ t.out.head? = some (sent sfr [nak causeSECURITY]) ∧ s.keepsMem t) ∧
    (sized → s.h2.sess = none → Does (.h2Secure sfr waits) s fun t =>
      s.counted t (R.MBX_ERR_CNT .d0 2) 1 ∧ t.out.head? = some (sent sfr [nak causeSECURITY]) ∧ s.keepsMem t) ∧
    (s.h2.sess ≠ none → Does .h2SessionTimeout s fun t => ended t ∧ s.keepsMem t) ∧
    (s.h2.sess = none → Does .h2SessionTimeout s fun t => t = s)

/-! ## Ethernet ports and the switch (R183 to R247) -/

/-- R187 to R197, R206, R217, R229 to R239: what a MAC counts and filters, and how a plain frame is classed, learned from, looked up and queued. -/
def Obligations.PortsReceiveFrames : Prop :=
  ∀ (d : Die) (p : Fin 14) (bs : List Byte) (pcs : Bool) (age : Nat) (s : State),
    let m := p.val
    let len := bs.length
    let live := s.macLink d m = true ∧ s.portExists d m = true
    let lo := R.MAC_RX_OCTETS_LO d m
    let hi := R.MAC_RX_OCTETS_HI d m
    let counts (t : State) (n : Nat) (l : List Nat) : Prop := t.getPair lo hi = (s.getPair lo hi + n) % 2 ^ 64 ∧ (∀ a ∈ l, s.counted t a 1)
    let only (t : State) (n : Nat) (l : List Nat) : Prop := counts t n l ∧ s.keepsRegs t ([lo, hi] ++ l) ∧ { t with regs := s.regs } = s
    let whole := 64 ≤ len ∧ len < 9728
    let good := pcs = false ∧ ofLe (bs.drop (len - 4)) = fcs32 (bs.take (len - 4))
    let ucast := isGroup bs = false
    let passed := if ucast then R.MAC_RX_UCAST d m else if macAt bs 0 = 0xFFFFFFFFFFFF then R.MAC_RX_BCAST d m else R.MAC_RX_MCAST d m
    let body := bs.take (len - 4)
    let cfg := R.SW_PORT_CFG d m
    let vid := s.fld cfg 16 12
    let k := s.pcpTc d m (s.fld cfg 13 3)
    let plain := live ∧ whole ∧ good ∧ ucast ∧ beAt bs 12 2 ≠ 0x8808 ∧ beAt bs 12 2 ≠ 0x8100 ∧ s.portUp d m = true ∧ s.fld (R.SW_SMP d m) 0 16 < 2 ∧
      s.flag cfg 12 = false ∧ len ≤ s.fld (R.SW_PORT_MAXF d m) 0 14 ∧ s.mgmtDie body = none ∧ s.ptpFor d m body = none ∧ s.sidHits d vid body = [] ∧
      vid ≠ 4095 ∧ (s.flag cfg 10 = true → (s.vlanOf d vid).1.testBit m = true) ∧ k < 4
    let f : Machine.Frm := { bytes := body, vid := vid, pcp := s.fld cfg 13 3, ingress := m, rate := s.portSpeed d m, stamp := s.rxStamp d m age,
                             plink := (s.getReg (R.TB_PLINK d m)).toNat, ends := true, short := decide (len ≤ 64), rsq := s.flag cfg 11 }
    let u := (((s.rxOctets d m len).count (R.MAC_RX_UCAST d m)).count (R.SW_RX_FRAMES d m)).learn d m vid body
    let rx : Instr := .frameRx d p bs pcs age
    (¬live → Does rx s fun t => t = s) ∧
    (live → len < 64 → Does rx s fun t => only t len [R.MAC_RX_RUNT d m]) ∧
    (live → 9728 ≤ len → Does rx s fun t => counts t 9728 [R.MAC_RX_JABBER d m]) ∧
    (live → whole → pcs = true → Does rx s fun t => counts t len [R.MAC_RX_PCS_ERR d m]) ∧
    (live → whole → ofLe (bs.drop (len - 4)) ≠ fcs32 (bs.take (len - 4)) → Does rx s fun t => counts t len [R.MAC_RX_FCS_ERR d m]) ∧
    (live → whole → good → beAt bs 12 2 ≠ 0x8808 → s.daPass d m bs = false → (s.portUp d m = false ∨ s.fld (R.SW_SMP d m) 0 16 < 2) →
      Does rx s fun t => only t len [R.MAC_RX_FILTERED d m]) ∧
    (live → whole → good → beAt bs 12 2 ≠ 0x8808 → s.daPass d m bs = true → Does rx s fun t => counts t len [passed]) ∧
    (live → whole → good → beAt bs 12 2 ≠ 0x8808 → s.daPass d m bs = true → s.portUp d m = false → Does rx s fun t => only t len [passed]) ∧
    (∀ es g w, plain → u.lookup d m f = (es, g, w) → (es = none ∨ es = some []) → Does rx s fun t => t = w.count (R.SW_DROP_FILTER d m)) ∧
    (∀ es g w, plain → u.lookup d m f = (some es, g, w) → es ≠ [] → g.handle = 0 → Does rx s fun t => t = w.deliver d m { g with tc := k } false es) ∧
    (∀ es g w, plain → u.lookup d m f = (some es, g, w) → es ≠ [] → g.handle ≠ 0 → Does rx s fun t =>
      t = if es.all (fun e => !w.portUp d e) then w.count (R.SW_DROP_FILTER d m) else w.deliver d m g false es) ∧
    (∀ e g w, plain → u.lookup d m f = (some [e], g, w) → g.handle = 0 → w.portUp d e = true →
      let h := { g with tc := k }
      (w.cutOk d e 1 h = true → Does rx s fun t => t = ((w.send d e h false).shaperSpend d e k body.length).passThrough d h) ∧
      (∀ l x, w.cutOk d e 1 h = false → w.storeFrame d body 1 = (some l, x) →
        let dep := s.depth d e k
        let avg := ((s.avg d e k : Int) + ((dep * 256 : Nat) - (s.avg d e k : Int)) / (2 ^ s.fld (R.SW_RED_W d) 0 4 : Nat)).toNat
        (dep + linesOf body ≤ s.qlimit d k → avg < s.fld (R.SW_RED_TH d (3 * k)) 0 16 * 256 → Does rx s fun t =>
          t.queue d e k = s.queue d e k ++ [{ h with line := some l }] ∧ t.avg d e k = avg) ∧
        (s.qlimit d k < dep + linesOf body → Does rx s fun t => t.queue d e k = s.queue d e k ∧ s.counted t (R.SW_DROP_TAIL d e) 1)))

/-- R235 to R238, R244 to R247: pause in both directions, the state of a link and the PHY's management. -/
def Obligations.PausesLinksAndManagement : Prop :=
  ∀ (who : Requester) (d : Die) (p : Fin 14) (quanta : Nat) (speed : Fin 7) (half : Bool) (v : Word) (s : State),
    let m := p.val
    let live := s.macLink d m = true ∧ s.portExists d m = true
    let lo := R.MAC_RX_OCTETS_LO d m
    let hi := R.MAC_RX_OCTETS_HI d m
    let counts (t : State) : Prop := t.getPair lo hi = (s.getPair lo hi + 64) % 2 ^ 64 ∧ s.counted t (R.MAC_RX_PAUSE d m) 1
    let tlo := R.MAC_TX_OCTETS_LO d m
    let thi := R.MAC_TX_OCTETS_HI d m
    let cfg := R.SW_PORT_CFG d m
    let pc := R.MAC_PAUSE_CFG d m
    let others (t : State) (a : Nat) (l : List Nat) : Prop := ∀ j < 32, j ∉ l → t.flag a j = s.flag a j
    let pausing := Tab.get (fun _ => false) s.pausing d.idx
    let pause : List Byte := [0x01, 0x80, 0xC2, 0x00, 0x00, 0x01] ++ leBytes 4 (s.getReg (R.MAC_ADDR_LO d m)).toNat ++
      leBytes 2 (s.fld (R.MAC_ADDR_HI d m) 0 16) ++ [0x88, 0x08, 0x00, 0x01, 0xFF, 0xFF] ++ List.replicate 42 0
    let md := R.MAC_PORT_MODE d m
    let free := s.macLink d m = false ∧ s.portExists d m = true ∧ 5 ≤ (s.bootOf d).stage ∧ s.powerEff d < 3
    let up (t : State) (rate : Nat) : Prop := t.flag md 8 = true ∧ t.flag md 10 = false ∧ t.fld md 4 3 = rate ∧ t.flag (R.MAC_LINK_STAT d) m = true ∧
      t.flag cfg 30 = true ∧ t.flag (R.MAC_LINK_EVENT d) m = true
    let mdio := R.MAC_MDIO d
    let reads := (if s.flag mdio 29 then 2 ≤ s.fld mdio 27 2 else s.fld mdio 27 2 = 2)
    let sent := [R.MAC_TX_PAUSE d m, R.MAC_TX_MCAST d m, tlo, thi]
    (live → s.flag pc 0 = true → s.flag pc 2 = false → quanta % 65536 ≠ 0 → Does (.pauseFrameRx d p quanta) s fun t =>
      counts t ∧ t.flag pc 3 = true ∧ others t pc [3]) ∧
    (live → quanta % 65536 = 0 → Does (.pauseFrameRx d p quanta) s fun t => counts t ∧ t.flag pc 3 = false ∧ t.flag pc 2 = false ∧ others t pc [2, 3]) ∧
    (live → (s.flag pc 0 = false ∨ s.flag pc 2 = true) → quanta % 65536 ≠ 0 → Does (.pauseFrameRx d p quanta) s fun t =>
      counts t ∧ s.keepsRegs t [lo, hi, R.MAC_RX_PAUSE d m] ∧ { t with regs := s.regs } = s) ∧
    (¬live → Does (.pauseFrameRx d p quanta) s fun t => t = s) ∧
    Does (.pauseExpire d p) s (fun t => t.flag pc 3 = false ∧ others t pc [3] ∧ s.keepsRegs t [pc] ∧ { t with regs := s.regs } = s) ∧
    Does (.pauseWatchdogClear d p) s (fun t => t.flag pc 2 = false ∧ others t pc [2] ∧ s.keepsRegs t [pc] ∧ { t with regs := s.regs } = s) ∧
    (s.flag pc 3 = true → Does (.pauseWatchdogTrip d p) s fun t =>
      t.flag pc 3 = false ∧ t.flag pc 2 = true ∧ others t pc [2, 3] ∧ s.counted t (R.MAC_PAUSE_WD_CNT d m) 1) ∧
    (s.flag pc 3 = false → Does (.pauseWatchdogTrip d p) s fun t => t = s) ∧
    (pausing = true → s.freeLines d < s.fld (R.MAC_PAUSE_XON d) 0 18 → s.flag pc 1 = true → s.portUp d m = true → Does (.pauseRefresh d p) s fun t =>
      t.out = .frame d m (pause ++ leBytes 4 (fcs32 pause)) :: s.out ∧ s.counted t (R.MAC_TX_PAUSE d m) 1 ∧ s.counted t (R.MAC_TX_MCAST d m) 1 ∧
      t.getPair tlo thi = (s.getPair tlo thi + 64) % 2 ^ 64 ∧ s.keepsRegs t sent ∧
      { t with regs := s.regs, out := s.out } = s) ∧
    (pausing = false → s.fld (R.MAC_PAUSE_XOFF d) 0 18 ≤ s.freeLines d → Does (.pauseRefresh d p) s fun t => t = s) ∧
    (free → m < 12 → half = false → speed.val ≤ 2 → (s.fld md 0 3 = 0 ∨ s.fld md 0 3 = speed.val + 1) → Does (.macLinkUp d p speed half) s fun t => up t speed.val) ∧
    (free → 12 ≤ m → s.fld md 0 3 ≠ 3 → Does (.macLinkUp d p speed half) s fun t => up t (s.portTop d m)) ∧
    (free → 12 ≤ m → s.fld md 0 3 = 3 → half = false → speed.val ≤ 5 → Does (.macLinkUp d p speed half) s fun t => up t speed.val) ∧
    (free → (m < 12 ∨ s.fld md 0 3 = 3) → half = true → Does (.macLinkUp d p speed half) s fun t =>
      t.flag md 10 = true ∧ others t md [10] ∧ s.keepsRegs t [md] ∧ { t with regs := s.regs } = s) ∧
    (¬free → Does (.macLinkUp d p speed half) s fun t => t = s) ∧
    (s.macLink d m = true → Does (.macLinkLoss d p) s fun t =>
      t.flag md 8 = false ∧ t.fld md 4 3 = 7 ∧ t.flag (R.MAC_LINK_STAT d) m = false ∧ t.flag cfg 30 = false ∧ t.flag pc 3 = false ∧
      s.counted t (R.MAC_LINK_DOWN d m) 1 ∧ t.flag (R.MAC_LINK_EVENT d) m = true ∧ (∀ q < 8, t.queue d m q = []) ∧
      ∃ e ∈ t.planEvents (s.plannerOf d), e.kind = .portDown m ∧ e.die = d) ∧
    (s.macLink d m = false → Does (.macLinkLoss d p) s fun t => t = s) ∧
    (s.accepts who mdio → s.flag mdio 31 = false → Accepted (.mdioGo who d v) s who mdio fun t =>
      t.getReg mdio = (v &&& 0x3FFEFFFF) ||| 0x80000000 ∧ t.out.tail = .mdio d (v &&& 0x3FFEFFFF) :: s.out ∧ s.keepsRegs t [mdio] ∧
      { t with regs := s.regs, out := s.out } = s) ∧
    (s.accepts who mdio → s.flag mdio 31 = true → RefusedWith (.mdioGo who d v) s who mdio causeRULE) ∧
    (s.flag mdio 31 = true → Does (.mdioDone d v) s fun t =>
      t.flag mdio 31 = false ∧ t.fld mdio 0 16 = (if reads then bits v 0 16 else s.fld mdio 0 16) ∧ t.fld mdio 16 15 = s.fld mdio 16 15 ∧
      s.keepsRegs t [mdio] ∧ { t with regs := s.regs } = s) ∧
    (s.flag mdio 31 = false → Does (.mdioDone d v) s fun t => t = s)

/-- R189 to R192, R203, R205, R210 to R217, R226: a port sends the head of the highest class that may start, and the tables, timers and gate lists of
the switch follow their commands. -/
def Obligations.SwitchSendsAndKeepsItsTables : Prop :=
  ∀ (who : Requester) (d : Die) (e : Fin 17) (x : Fin 256) (n : Fin 32768) (g : Fin 8) (b : Fin 64) (q : Fin 7) (i : Fin 4096) (p : Fin 14) (v : Word) (s : State),
    let o := e.val
    let j := p.val
    let go := s.portUp d o = true ∧ s.portHeld d o = false
    let bare (f : Machine.Frm) : Prop := f.vtag = false ∧ (s.vlanOf d f.vid).2.testBit o = true ∧ s.fld (R.SW_CM_DEPTH d o) 0 18 = 0 ∧
      s.flag (R.SW_PORT_CFG d o) 12 = false ∧ s.fld (R.TB_PTC d o) 0 3 ≠ 3 ∧ f.fcs = none
    let padded (f : Machine.Frm) : List Byte := f.bytes ++ List.replicate (60 - f.bytes.length) 0
    let rate := speedMbps (s.portSpeed d o)
    let ft := s.ftAt d n.val
    let age := s.fld (R.SW_AGE d) 0 16
    let old := ft.type = 1 ∧ age ≠ 0 ∧ ft.seen + age < (s.now d).sec
    let home := if b.val % 2 = 0 then s.fld (R.SW_PG d g.val) 0 5 else s.fld (R.SW_PG d g.val) 16 5
    let gl := s.gclOf d j
    let gc := R.SW_GCL_CTRL d j
    let next := gl.cur + 1 < gl.len ∧ gl.endAt < gl.cycEnd
    let sid := s.fld (R.SW_SID_IDX d) 0 12
    let sidC := R.SW_SID_CMD d
    let vl := s.fld (R.SW_VLAN_IDX d) 0 12
    let vlC := R.SW_VLAN_CMD d
    let ftE := s.ftAt d (bits v 0 15)
    let pl := s.plannerOf d
    (∀ k f rest, go → o < 14 → s.pickClass d o = some k → s.queue d o k = f :: rest → s.frmStale f = false →
      let s1 := ((s.setQueue d o k rest).descBad d f.line).2
      let s2 := (s1.sendRead d f).2
      let s3 := s2.shaperSpend d o k f.bytes.length
      let (g, x) := s3.markFrm d o f
      let wire := (x.egressBytes d o g).1
      ((s.setQueue d o k rest).descBad d f.line).1 = false → (s1.sendRead d f).1 = false →
      Does (.egressTransmit d e) s fun t =>
        t.queue d o k = rest ∧ s.counted t (R.SW_TX_FRAMES d o) 1 ∧
        Out.frame d o (wire ++ leBytes 4 (egressFcs f wire false)) ∈ t.out ∧
        (bare f → Out.frame d o (padded f ++ leBytes 4 (fcs32 (padded f))) ∈ t.out) ∧
        (rate ≠ 0 → s.slope d o k ≠ 0 →
          let ns := (f.bytes.length + 24) * 8 * 1000 / rate
          t.cbsOf d o k = (s2.credit d o k + ((s.slope d o k : Int) - (rate : Int)) * (ns : Int), s.lin d + ns))) ∧
    (s.pickClass d o = none → Does (.egressTransmit d e) s fun t => t = s) ∧
    (¬go → Does (.egressTransmit d e) s fun t => t = s) ∧
    (∀ k y f, (s.rsqOf d x.val).held = [(k, y, f)] → Does (.rsqTimeout d x) s fun t =>
      (t.rsqOf d x.val).held = [] ∧ (t.rsqOf d x.val).e = (s.rsqOf d x.val).e.map (fun z => (z + k + 1) % 65536) ∧
      s.counted t (R.SW_CNT_RSQ_TMO d) 1 ∧ s.counted t (R.SW_CNT_RSQ_SKIP d) k) ∧
    ((s.rsqOf d x.val).held = [] → Does (.rsqTimeout d x) s fun t => t = s) ∧
    (old → Does (.addressAgeOut d n) s fun t => t.ftAt d n.val = {} ∧ (∀ z, z ≠ d.idx * 32768 + n.val → Tab.get (fun _ => ({} : FtEntry)) t.ft z = Tab.get (fun _ => {}) s.ft z) ∧
      { t with ft := s.ft } = s) ∧
    (¬old → Does (.addressAgeOut d n) s fun t => t = s) ∧
    ((s.pgAwayOf d g.val).testBit b.val = true → s.portUp d home = true → Does (.pgBucketReturn d g b) s fun t =>
      (∀ z, (t.pgAwayOf d g.val).testBit z = (if z = b.val then false else (s.pgAwayOf d g.val).testBit z)) ∧ { t with pgAway := s.pgAway } = s) ∧
    ((s.pgAwayOf d g.val).testBit b.val = false ∨ s.portUp d home = false → Does (.pgBucketReturn d g b) s fun t => t = s) ∧
    (s.queue d o q.val = [] → Does (.redDecay d e q) s fun t =>
      t.avg d o q.val = s.avg d o q.val - s.avg d o q.val / 2 ^ s.fld (R.SW_RED_W d) 0 4 ∧ { t with swAvg := s.swAvg } = s) ∧
    (s.queue d o q.val ≠ [] → Does (.redDecay d e q) s fun t => t = s) ∧
    (bit (s.sidWord d i.val 0) 8 = true → Does (.cbRecoveryReset d i) s fun t =>
      t.sidStOf d i.val = { s.sidStOf d i.val with takeAny := true, hist := 0 } ∧ { t with sidSt := s.sidSt } = s) ∧
    (bit (s.sidWord d i.val 0) 8 = false → Does (.cbRecoveryReset d i) s fun t => t = s) ∧
    (gl.len ≠ 0 → next → Does (.gateEntryAdvance d p) s fun t =>
      t.gclOf d j = { gl with cur := gl.cur + 1, endAt := if gl.cur + 2 = gl.len then gl.cycEnd else min (gl.endAt + s.gateNs d j (gl.cur + 1)) gl.cycEnd } ∧
      { t with gcl := s.gcl } = s) ∧
    (gl.len ≠ 0 → ¬next → Does (.gateEntryAdvance d p) s fun t =>
      t.gclOf d j = { gl with cur := 0, cycEnd := gl.cycEnd + gl.cycle,
                              endAt := if gl.len = 1 then gl.cycEnd + gl.cycle else min (gl.endAt + s.gateNs d j 0) (gl.cycEnd + gl.cycle) } ∧
      { t with gcl := s.gcl } = s) ∧
    (gl.len = 0 → Does (.gateEntryAdvance d p) s fun t => t = s) ∧
    (s.accepts who gc → bits v 0 8 ≤ 128 → Accepted (.gclChange who d p v) s who gc fun t =>
      t.flag gc 31 = true ∧ t.fld gc 0 8 = bits v 0 8 ∧ t.flag gc 30 = (s.flag gc 30 && !bit v 30) ∧ t.fld gc 8 1 = s.fld gc 8 1 ∧
      t.planEvents pl = s.planEvents pl ++ (if s.flag gc 31 then [] else [⟨s.lin d, d, .gclChange j⟩]) ∧ s.keepsRegs t [gc, R.PLC_STAT pl] ∧ s.keepsMem t) ∧
    (s.accepts who gc → 128 < bits v 0 8 → RefusedWith (.gclChange who d p v) s who gc causeRULE) ∧
    (∀ z, gl.pendAt = some z → Does (.gclActivate d p) s fun t =>
      let cyc := s.fld (R.SW_GCL_CYCLE_NS d j) 0 30
      t.fld gc 8 1 = 1 - s.fld gc 8 1 ∧ t.flag gc 31 = false ∧ t.fld gc 0 8 = gl.len % 256 ∧ (t.gclOf d j).len = s.fld gc 0 8 ∧ (t.gclOf d j).cur = 0 ∧
      (t.gclOf d j).cycEnd = z + cyc ∧ (t.gclOf d j).cycle = cyc ∧ (t.gclOf d j).pendAt = none ∧ s.keepsRegs t [gc] ∧
      { t with regs := s.regs, gcl := s.gcl } = s) ∧
    (gl.pendAt = none → Does (.gclActivate d p) s fun t => t = s) ∧
    (s.accepts who sidC → Accepted (.sidRead who d) s who sidC fun t =>
      (∀ z < 8, t.getReg (R.SW_SID_W d z) = s.sidWord d sid z) ∧ s.keepsRegs t ((List.range 8).map (R.SW_SID_W d)) ∧ { t with regs := s.regs, out := s.out } = s) ∧
    (s.accepts who sidC → s.sidWindowOk d sid = true → Accepted (.sidWrite who d) s who sidC fun t =>
      t.sidWord d sid 0 = setBits (sidKeep 0 (s.getReg (R.SW_SID_W d 0))) 6 1 (bits (s.sidWord d sid 0) 6 1) ∧
      (∀ z, 0 < z → z < 8 → t.sidWord d sid z = sidKeep z (s.getReg (R.SW_SID_W d z))) ∧ t.sidStOf d sid = {} ∧ { t with sid := s.sid, sidSt := s.sidSt, out := s.out } = s) ∧
    (s.accepts who sidC → s.sidWindowOk d sid = false → RefusedWith (.sidWrite who d) s who sidC causeRULE) ∧
    (s.accepts who vlC → Accepted (.vlanRead who d) s who vlC fun t =>
      t.getReg (R.SW_VLAN_MEMBER d) = wd (s.vlanOf d vl).1 ∧ t.getReg (R.SW_VLAN_UNTAG d) = wd (s.vlanOf d vl).2 ∧
      s.keepsRegs t [R.SW_VLAN_MEMBER d, R.SW_VLAN_UNTAG d] ∧ { t with regs := s.regs, out := s.out } = s) ∧
    (s.accepts who vlC → Accepted (.vlanWrite who d) s who vlC fun t =>
      t.vlanOf d vl = (s.fld (R.SW_VLAN_MEMBER d) 0 17, s.fld (R.SW_VLAN_UNTAG d) 0 17) ∧ (∀ z, z < 4096 → z ≠ vl → t.vlanOf d z = s.vlanOf d z) ∧
      { t with vlan := s.vlan, out := s.out } = s) ∧
    (s.accepts who (R.SW_FT_IDX d) → Accepted (.flowTableSelect who d v) s who (R.SW_FT_IDX d) fun t =>
      t.getReg (R.SW_FT_IDX d) = wd (bits v 0 15) ∧ t.getReg (R.SW_FT_W0 d) = wd ftE.mac ∧
      t.getReg (R.SW_FT_W1 d) = wd (ftE.mac / 2 ^ 32 % 2 ^ 16 + ftE.vid % 4096 * 2 ^ 16) ∧
      t.fld (R.SW_FT_W2 d) 0 17 = ftE.target % 2 ^ 17 ∧ t.fld (R.SW_FT_W2 d) 30 2 = ftE.type % 4 ∧
      s.keepsRegs t [R.SW_FT_IDX d, R.SW_FT_W0 d, R.SW_FT_W1 d, R.SW_FT_W2 d] ∧ { t with regs := s.regs, out := s.out } = s)

/-! ## The through-frame ring (R248 to R288) -/

/-- R248 to R264, R267, R268, R271, R272, R283 to R285, R287: a cycle frame on its way through a member, the windows it carries, what the master sends,
the guard hold and the peer delays. -/
def Obligations.RingPassesCycleFrames : Prop :=
  ∀ (d : Die) (p : Fin 14) (up : Bool) (bs : List Byte) (age res n : Nat) (s : State),
    let x := s.ringOf d
    let r := x.cur
    let m := x.mac up
    let len := bs.length
    let rx : Instr := .cycleFrameRx d up bs age res
    let mine := x.dn < 2 ∧ r ≠ [] ∧ isCycle r bs = true ∧ s.pairMode d ≠ none
    let live := s.macLink d m = true ∧ s.running d = true ∧ s.powerEff d < 3
    let good := len < 9728 ∧ ofLe (bs.drop (len - 4)) = fcs32 (bs.take (len - 4))
    let body := bs.take (len - 4)
    let hi := s.fld (R.TFR_EPOCH d) 16 16
    let me := tfp bs 12 2
    let seg := tfpSeg bs
    let known := hi = 0 ∨ me = hi
    let through := rcRole r ≠ 3 ∧ s.turnsBack d r (!up) = false
    let u := (((s.rxOctets d m len).macPassed d m bs).count (R.TFR_CNT_RX d)).setFld (R.TFR_EPOCH d) 16 16 me
    let lv := u.ringOut d r up
    let pass := u.memberPass d r bs up true (decide (lv = (d, up))) (s.rxStamp d m age) (u.residence d lv.1 m (u.ringMac d lv) res)
    let member := mine ∧ live ∧ good ∧ known ∧ s.acting d = false ∧ rcVer r = tfp bs 8 2
    let one := member ∧ through ∧ rcWins r = 1 ∧ winSeg r 0 = seg ∧ seg ≠ 0 ∧ procPass r bs up = true ∧ (x.cyc ≠ tfp bs 4 4 ∨ x.segs.testBit seg = false) ∧
      s.powerEff d ≤ 1 ∧ s.fenced d = false ∧ x.unfence = none ∧ winTag r 0 = false
    let o := tfpData bs + winOff r 0
    let wlen := ringWinLen r 0
    let wkc (b : List Byte) : List Byte := putTfp b 10 2 ((tfp bs 10 2 + 1) % 65536)
    let half := if x.pub.testBit 0 then 0 else 1
    let port := x.port up
    let buf := winBuf r 0
    let span := (16 + wlen + 63) / 64 * 64
    let other := rcW r 1
    let hold (t : State) : Bool := Tab.get (fun _ => false) t.ringHold (d.idx * 2 + (m - 12))
    let starts := x.dn < 2 ∧ s.running d = true ∧ s.powerEff d ≤ 1 ∧ s.acting d = true ∧ r ≠ [] ∧ x.pend = [] ∧ s.pairMode d ≠ none
    let tell := r ≠ [] ∧ s.macLink d m = true
    let l := ((if up then x.ldUp else x.ldDn) ++ [n]).drop ((if up then x.ldUp else x.ldDn).length + 1 - 8)
    let ld := if up then R.TFR_LD_UP d else R.TFR_LD_DN d
    (r ≠ [] → ((isCycle r bs = false ∧ isCycle x.pend bs = false) ∨ s.pairMode d = none) → p.val = m → exec rx s = exec (.frameRx d p bs false age) s) ∧
    (mine → ¬live → Does rx s fun t => t = s) ∧
    (mine → live → good → Does rx s fun t => s.counted t (R.TFR_CNT_RX d) 1 ∧ t.getReg (R.TFR_CNT_BAD d) = s.getReg (R.TFR_CNT_BAD d)) ∧
    (mine → live → ¬good → Does rx s fun t => s.counted t (R.TFR_CNT_RX d) 1 ∧ s.counted t (R.TFR_CNT_BAD d) 1) ∧
    (mine → live → hi ≠ 0 → me ≠ hi → 32768 ≤ (me + 65536 - hi) % 65536 → Does rx s fun t =>
      s.counted t (R.TFR_CNT_STALE_MASTER d) 1 ∧ t.out = s.out ∧ t.ring = s.ring) ∧
    (mine → live → good → known → s.acting d = false → rcVer r ≠ tfp bs 8 2 → (x.pend = [] ∨ rcVer x.pend ≠ tfp bs 8 2) → through →
      s.macLink d (x.mac (!up)) = true → Does rx s fun t =>
        s.counted t (R.TFR_CNT_FOREIGN d) 1 ∧ t.out = .ring d (!up) bs :: s.out ∧ t.ring = s.ring) ∧
    (member → Does rx s fun t => t = pass.2.ringForward d r pass.1 up true) ∧
    (∀ data, one → winOut r 0 = true → x.pre = [(0, data)] → wlen ≤ data.length → o + wlen + 4 ≤ len → Does rx s fun t =>
      t.out.head? = some (.ring d (!up) (ringFcs (wkc (putBytes body o (data.take wlen))) true)) ∧ (t.ringOf d).pre = []) ∧
    (one → winOut r 0 = true → x.pre = [] → Does rx s fun t =>
      t.out.head? = some (.ring d (!up) bs) ∧ s.counted t (R.TFR_CNT_NOINSERT d) 1 ∧ t.flag (R.TFR_WIN_ERR_LO d) 0 = true) ∧
    (one → winOut r 0 = false → o + wlen + 4 ≤ len → buf / 0x80_0000_0000 = d.idx → buf % 0x80_0000_0000 + 2 * span ≤ 0x400_0000 → buf % 64 = 0 →
      (∀ a < 0x400_0000, s.bankRefusal d port a = none) → (∀ y, s.eccAt y = 0) → Does rx s fun t =>
        t.load (winHalf r 0 half + 16) wlen = (bs.drop o).take wlen ∧ bit (t.word (winHalf r 0 half + 8)) 0 = true ∧
        t.word (winHalf r 0 half) = wd (tfp bs 4 4) ∧ (t.ringOf d).pub = x.pub ^^^ 1 ∧ t.out.head? = some (.ring d (!up) (ringFcs (wkc body) true)) ∧
        (∀ a, (a < winHalf r 0 half ∨ winHalf r 0 half + span ≤ a) → t.byte a = s.byte a)) ∧
    (∀ data w, r ≠ [] → s.powerEff d ≤ 1 → rcWins r = 1 → winOut r 0 = true →
      s.poolReadSpan d (x.port true) (buf % 0x80_0000_0000) span (lineCount (buf % 0x80_0000_0000) span) = (.ok data, w) → Does (.skimPrefetch d) s fun t =>
        (t.ringOf d).pre = (x.pre.filter fun q => q.1 ≠ 0) ++ (if byteAt data 0 % 2 = 1 then [(0, (data.drop 16).take wlen)] else []) ∧
        { t with ring := w.ring } = w) ∧
    ((r = [] ∨ 1 < s.powerEff d) → Does (.skimPrefetch d) s fun t => t = s) ∧
    (starts → x.sentAt = 0 → rcWins r = 0 → s.flag (R.TFR_STAT d) 10 = false → s.macLink d (x.mac false) = true → Does (.masterCycleStart d) s fun t =>
      (t.ringOf d).cycle = (x.cycle + 1) % 2 ^ 32 ∧ (t.ringOf d).sentAt = s.lin d ∧ (t.ringOf d).ret = 0 ∧
      ∃ fs : List (List Byte), fs.length = rcNseg r ∧ t.out = fs.map (Out.ring d false) ++ s.out ∧ ∀ f ∈ fs, tfp f 4 4 = (x.cycle + 1) % 2 ^ 32) ∧
    (starts → x.sentAt ≠ 0 → x.wait = [] → Does (.masterCycleStart d) s fun t =>
      (t.ringOf d).cycle = (x.cycle + 1) % 2 ^ 32 ∧ (t.ringOf d).sentAt = s.lin d ∧ (t.ringOf d).ret = 0) ∧
    (mine → live → good → known → s.acting d = true → tfp bs 4 4 ≠ x.cycle → Does rx s fun t =>
      s.counted t (R.TFR_CNT_LATE d) 1 ∧ t.flag (R.TFR_EVENT d) 8 = true ∧ t.ring = s.ring ∧ s.keepsMem t) ∧
    (s.acting d = false → x.pend = [] → Does (.masterCycleStart d) s fun t => t = s) ∧
    (r ≠ [] → bit other 9 = true → Does (.guardHoldStart d up) s fun t => hold t = true ∧ s.counted t (R.TFR_CNT_GUARD d) 1 ∧ s.keepsMem t) ∧
    ((r = [] ∨ bit other 9 = false) → Does (.guardHoldStart d up) s fun t => t = s) ∧
    (tell → Does (.pdelayExchange d up) s fun t => t = s.emit (.pdelay d up false)) ∧
    (¬tell → Does (.pdelayExchange d up) s fun t => t = s) ∧
    (tell → Does (.pdelayMessageRx d up none) s fun t => t = s.emit (.pdelay d up true)) ∧
    (tell → Does (.pdelayMessageRx d up (some n)) s fun t =>
      (if up then (t.ringOf d).ldUp else (t.ringOf d).ldDn) = l ∧ (l.sum % l.length = 0 → t.getReg ld = wd (l.sum / l.length)) ∧
      s.keepsRegs t [ld] ∧ { t with regs := s.regs, ring := s.ring } = s) ∧
    (¬tell → Does (.pdelayMessageRx d up (some n)) s fun t => t = s)

/-- R267, R274, R277, R280, R281, R285, R287: the rate of the ring's time, what a member does that loses the ring, and what the master decides. -/
def Obligations.RingTimeAndMembership : Prop :=
  ∀ (d : Die) (e : Fin 16) (i : Fin 4096) (s : State),
    let x := s.ringOf d
    let r := x.cur
    let a := i.val
    let st := R.TFR_STAT d
    let ev (t : State) (j : Nat) : Prop := t.flag (R.TFR_EVENT d) j = true
    let full := (bits (rcW r 9) 16 16 : Int) * 1_000_000 * x.winNs.den ≤ x.winNs.num ∧ 0 < x.winNs.num
    let residual := (((x.off.sub x.offWin).sub x.slewNs).scale 1_000_000_000 1).div x.winNs
    let rate := (x.rate.sub (residual.scale 1 (2 ^ bits (rcW r 6) 24 4))).clamp (-500000) 500000
    let ref := R.TFR_REF_OUT d e.val
    let gone := s.acting d = true ∧ r ≠ [] ∧ (x.member a).1 = 1 ∧ bits (rcW r 8) 0 8 ≤ Tab.get (fun _ => 0) x.miss a
    let leaves := 16 ≤ x.full ∧ s.flag st 10 = true
    let takes := r ≠ [] ∧ rcRole r = 2 ∧ s.acting d = false
    (r ≠ [] → full → Does (.rateWindowUpdate d) s fun t =>
      t.ringOf d = { x with rate := rate, offWin := x.off, winNs := {}, slewNs := {} } ∧ t.getReg (R.TFR_RATE d) = wdInt rate.round ∧ s.keepsMem t) ∧
    ((r = [] ∨ ¬full) → Does (.rateWindowUpdate d) s fun t => t = s) ∧
    (64 ≤ s.fld ref 0 16 → Does (.refSuspect d e) s fun t => t.flag ref 31 = true ∧ t.fld ref 0 31 = s.fld ref 0 31 ∧ ev t 11 ∧ s.keepsMem t) ∧
    (s.fld ref 0 16 < 64 → Does (.refSuspect d e) s fun t => t = s) ∧
    (r ≠ [] → s.acting d = false → Does (.ringLoss d) s fun t =>
      t.flag st 8 = true ∧ ev t 1 ∧ (t.ringOf d).slew = {} ∧ (t.ringOf d).rate = x.rate ∧
      (s.fenced d = false → t.fld st 11 2 = 2 ∧ ev t 3) ∧ (s.fenced d = true → t.fld st 11 2 = s.fld st 11 2)) ∧
    ((r = [] ∨ s.acting d = true) → Does (.ringLoss d) s fun t => t = s) ∧
    (gone → Does (.addressDead d i) s fun t =>
      (t.ringOf d).member a = (2, (x.member a).2) ∧ (t.ringOf d).ann = x.ann ++ [(a, 0, 4)] ∧ t.getReg (R.TFR_LAST_DEAD d) = wd (0x8000_0000 + a) ∧ ev t 5 ∧
      ((s.fld st 16 4 = 1 ∨ s.fld st 16 4 = 2) → t.flag (R.TFR_DEAD d (a / 32)) (a % 32) = true) ∧
      (∀ b, b ≠ a → (t.ringOf d).member b = x.member b)) ∧
    (¬gone → Does (.addressDead d i) s fun t => t = s) ∧
    (leaves → Does (.dualModeExit d) s fun t =>
      t.flag st 10 = false ∧ (∀ j < 32, j ≠ 10 → t.flag st j = s.flag st j) ∧ s.keepsRegs t [st] ∧ { t with regs := s.regs } = s) ∧
    (¬leaves → Does (.dualModeExit d) s fun t => t = s) ∧
    (takes → Does (.standbyTakeover d) s fun t =>
      t.flag st 7 = true ∧ t.fld (R.TFR_EPOCH d) 16 16 = nextEpoch (s.fld (R.TFR_EPOCH d) 16 16) ∧ ev t 10 ∧
      (t.ringOf d).cycle = (s.getReg (R.TFR_CYCLE d)).toNat ∧ (t.ringOf d).sentAt = 0 ∧ (t.ringOf d).claim = none ∧ (t.ringOf d).mem = x.mem) ∧
    (¬takes → Does (.standbyTakeover d) s fun t => t = s)

/-! ## CAN controllers (R323 to R352) -/

/-- R328, R332, R346 to R351: the modes of a controller and who may set them, integration, sleep and wake, reset, recovery from bus-off, errors, and the
detection of the bit rate. -/
def Obligations.CanModesAndErrors : Prop :=
  ∀ (who : Requester) (d : Die) (c : Fin 4) (code : Fin 7) (dataPhase heavy : Bool) (frame : List Word) (age : Nat) (v : Word) (s : State),
    let i := c.val
    let x := s.canOf d i
    let ctl := R.CAN_CTRL d i
    let st := R.CAN_STAT d i
    let err := R.CAN_ERR d i
    let abr := R.CAN_ABR d i
    let was := s.fld ctl 0 3
    let now := s.canMode d i
    let mine := s.writes who ctl ∧ s.fld (R.CAN_OWNER d i) 0 8 = who.unitOwner d
    let mode (t : State) (m : Nat) : Prop := t.canMode d i = m ∧ t.fld ctl 0 3 = m
    let awake (t : State) : Prop := t.flag st 10 = false
    let off (t : State) : Prop := (t.canOf d i).integ = false ∧ (t.canOf d i).onBus = none ∧ t.flag st 6 = false ∧ t.flag st 7 = false
    let idle (t : State) : Prop := ∀ n < 3, t.canPend d i n = false
    let ended (t : State) (res : Nat) : Prop := ∀ n < 3, s.canPend d i n = true →
      t.getReg (R.CAN_TXB d i n 7) = wd (1 + res * 2 + min 255 (x.retries.getD n 0) * 256) ∧ t.flag (R.CAN_EVENT d i) (2 + n) = true
    let ev (t : State) (j : Nat) : Prop := t.flag (R.CAN_EVENT d i) j = true
    let stays (t : State) : Prop := { t with out := s.out, intents := s.intents } = s
    let runs := s.unitsRun d = true
    let takesPart := runs ∧ (now = 1 ∨ now = 2) ∧ x.integ = true ∧ s.canBusOff d i = false
    let woken (t : State) : Prop := mode t 1 ∧ awake t ∧ off t ∧ s.counted t (R.CAN_CNT_WAKE d i) 1 ∧ ev t 14
    let sleeps := runs ∧ s.flag st 10 = true
    let bad : Instr := .canBusError d c code dataPhase heavy 0
    let quiet := s.flag abr 30 = false
    let unit := s.hunit d 6 i
    (mine → was ≠ 0 → was ≤ 4 → Accepted (.canModeInit who d c) s who ctl fun t => mode t 0 ∧ awake t ∧ off t ∧ idle t ∧ ended t 5) ∧
    (mine → was ≠ 1 → was ≠ 4 → Accepted (.canModeNormal who d c) s who ctl fun t => mode t 1 ∧ awake t ∧ (now = 0 ∨ now = 4 → off t)) ∧
    (mine → was = 4 → Accepted (.canModeNormal who d c) s who ctl fun t => woken t) ∧
    (mine → was ≠ 2 → Accepted (.canModeListen who d c) s who ctl fun t => mode t 2 ∧ awake t ∧ (now = 0 ∨ now = 4 → off t)) ∧
    (mine → was ≠ 3 → Accepted (.canModeLoopback who d c) s who ctl fun t => mode t 3 ∧ awake t) ∧
    (mine → was ≠ 4 → idle s → Accepted (.canModeSleep who d c) s who ctl fun t =>
      t.fld ctl 0 3 = 4 ∧ t.canMode d i = now ∧ s.keepsRegs t [ctl] ∧ t.can = s.can ∧ s.keepsMem t) ∧
    (mine → was ≠ 4 → ¬idle s → RefusedWith (.canModeSleep who d c) s who ctl causeRULE) ∧
    (s.writes who ctl → s.fld (R.CAN_OWNER d i) 0 8 ≠ who.unitOwner d → ∀ y ∈ [Instr.canModeInit who d c, .canModeNormal who d c, .canModeListen who d c,
      .canModeLoopback who d c, .canModeSleep who d c, .canSrst who d c, .canRecover who d c], RefusedWith y s who ctl causeRULE) ∧
    (mine → was ≤ 4 → Accepted (.canSrst who d c) s who ctl fun t =>
      idle t ∧ ended t 5 ∧ off t ∧ t.fld err 0 16 = 0 ∧ t.fld st 3 3 = 0 ∧ t.flag st 9 = false ∧ t.flag abr 30 = false ∧ t.canMode d i = now ∧ t.fld ctl 0 3 = was) ∧
    (mine → was ≤ 4 → s.canBusOff d i = true → Accepted (.canRecover who d c) s who ctl fun t =>
      t.flag st 9 = true ∧ (∀ j < 32, j ≠ 9 → t.flag st j = s.flag st j) ∧ s.keepsRegs t [st] ∧ t.can = s.can) ∧
    (mine → was ≤ 4 → s.canBusOff d i = false → Accepted (.canRecover who d c) s who ctl fun t => stays t) ∧
    (runs → was = 4 → now ≠ 4 → Does (.canSleepEnter d c) s fun t => t.canMode d i = 4 ∧ t.flag st 10 = true ∧ off t ∧ s.keepsRegs t [st] ∧ s.keepsMem t) ∧
    (¬(runs ∧ was = 4 ∧ now ≠ 4) → Does (.canSleepEnter d c) s fun t => t = s) ∧
    (runs → (now = 1 ∨ now = 2) → s.canBusOff d i = false → Does (.canBusIntegrated d c) s fun t =>
      t.canOf d i = { x with integ := true } ∧ t.flag st 6 = true ∧ (∀ j < 32, j ≠ 6 → t.flag st j = s.flag st j) ∧ s.keepsRegs t [st]) ∧
    (¬runs ∨ (now ≠ 1 ∧ now ≠ 2) ∨ s.canBusOff d i = true → Does (.canBusIntegrated d c) s fun t => t = s) ∧
    (runs → s.flag (R.CAN_CFG d i) 1 = true → s.canBusOff d i = true → Does (.canBoffDelay d c) s fun t => t.flag st 9 = true ∧ s.keepsRegs t [st] ∧ t.can = s.can) ∧
    (¬runs ∨ s.flag (R.CAN_CFG d i) 1 = false ∨ s.canBusOff d i = false → Does (.canBoffDelay d c) s fun t => t = s) ∧
    (runs → (now = 1 ∨ now = 2) → s.canBusOff d i = true → s.flag st 9 = true → Does (.canRecovered d c) s fun t =>
      t.fld err 0 16 = 0 ∧ t.fld st 3 3 = 0 ∧ t.flag st 9 = false ∧ t.flag st 6 = true ∧ t.canOf d i = { x with integ := true } ∧ ev t 8 ∧ s.keepsMem t) ∧
    (¬runs ∨ (now ≠ 1 ∧ now ≠ 2) ∨ s.canBusOff d i = false ∨ s.flag st 9 = false → Does (.canRecovered d c) s fun t => t = s) ∧
    (takesPart → now = 1 → quiet → x.onBus.isSome = true → code.val ≠ 3 → s.canTec d i + 8 ≤ 255 → Does bad s fun t =>
      t.canTec d i = s.canTec d i + 8 ∧ t.canRec d i = s.canRec d i ∧ s.counted t (R.CAN_CNT_ERRF d i) 1 ∧ ev t 15 ∧
      t.fld err (if dataPhase then 20 else 16) 3 = code.val ∧ t.fld st 3 2 = (if 127 < s.canTec d i + 8 ∨ 127 < s.canRec d i then 1 else 0) ∧
      t.flag st 5 = decide (96 ≤ s.canTec d i + 8 ∨ 96 ≤ s.canRec d i)) ∧
    (takesPart → now = 1 → quiet → x.onBus.isSome = true → code.val ≠ 3 → 255 < s.canTec d i + 8 → Does bad s fun t =>
      t.canBusOff d i = true ∧ idle t ∧ ended t 4 ∧ off t ∧ s.counted t (R.CAN_CNT_BOFF d i) 1 ∧ ev t 7) ∧
    (takesPart → now = 1 → quiet → x.onBus = none → Does bad s fun t =>
      t.canTec d i = s.canTec d i ∧ t.canRec d i = min 128 (s.canRec d i + (if heavy then 8 else 1)) ∧ s.counted t (R.CAN_CNT_ERRF d i) 1 ∧ ev t 15) ∧
    (takesPart → now = 2 → quiet → Does bad s fun t =>
      t.canTec d i = s.canTec d i ∧ t.canRec d i = s.canRec d i ∧ s.counted t (R.CAN_CNT_ERRF d i) 1 ∧ ev t 15) ∧
    (¬takesPart → Does bad s fun t => t = s) ∧
    (s.writes who abr → s.fld (R.CAN_OWNER d i) 0 8 = who.unitOwner d → bits v 20 8 ≠ 0 → now = 2 → Accepted (.canAbrStart who d c v) s who abr fun t =>
      t.fld abr 28 3 = 4 ∧ t.fld abr 16 3 = 0 ∧ t.fld abr 0 16 = 0 ∧ t.fld abr 20 8 = bits v 20 8 ∧
      t.canOf d i = { x with abrTry := none, abrGood := 0, abrNbt := s.getReg (R.CAN_NBT d i) } ∧ s.keepsRegs t [abr]) ∧
    (s.writes who abr → s.fld (R.CAN_OWNER d i) 0 8 = who.unitOwner d → (bits v 20 8 = 0 ∨ now ≠ 2) → RefusedWith (.canAbrStart who d c v) s who abr causeRULE) ∧
    (runs → s.flag abr 30 = true → Does (.canAbrTimeout d c) s fun t =>
      t.flag abr 30 = false ∧ t.flag abr 28 = true ∧ ev t 13 ∧ t.canOf d i = { x with abrTry := none, abrGood := 0 } ∧
      t.getReg (R.CAN_NBT d i) = (if x.abrTry.isSome then x.abrNbt else s.getReg (R.CAN_NBT d i))) ∧
    (¬runs ∨ quiet → Does (.canAbrTimeout d c) s fun t => t = s) ∧
    (sleeps → s.flag (R.CAN_CFG d i) 10 = false → Does (.canWake d c frame age) s fun t => woken t ∧ s.keepsMem t) ∧
    (sleeps → s.flag (R.CAN_CFG d i) 10 = true → s.canWakeFrame d i frame = true → Does (.canWake d c frame age) s fun t => woken t) ∧
    (¬sleeps ∨ (s.flag (R.CAN_CFG d i) 10 = true ∧ s.canWakeFrame d i frame = false) → Does (.canWake d c frame age) s fun t => t = s) ∧
    (unit.st = 0 → s.flag (R.HLT_TEST_STAT d) 15 = false → Does (.canParityError d c) s fun t =>
      (t.hunit d 6 i).st = 4 ∧ (t.hunit d 6 i).accepted = nextEpoch unit.epoch ∧ (t.hunit d 6 i).faults = min 65535 (unit.faults + 1) ∧
      s.counted t (R.HLT_LIFE_FAULTS d) 1 ∧ ⟨s.lin d, d, .unitFault 6 i⟩ ∈ t.planEvents (s.plannerOf d)) ∧
    (unit.st = 4 → Does (.canParityError d c) s fun t => t = s)

/-- R335 to R345: a buffer's request, its way onto the bus and its end, a received frame's way through the filters into a queue, and the owner's reads,
skips and flushes. -/
def Obligations.CanFramesAndQueues : Prop :=
  ∀ (who : Requester) (d : Die) (c : Fin 4) (n : Fin 3) (q : Fin 2) (w : Fin 520) (oneshot : Bool) (e : CanEnd) (loop : Option Nat) (frame : List Word) (age : Nat) (s : State),
    let i := c.val
    let b := n.val
    let x := s.canOf d i
    let y := x.q q.val
    let sized := x.qs.length = 2 ∧ x.retries.length = 3
    let st := R.CAN_STAT d i
    let tx := R.CAN_TX_CTRL d i b
    let now := s.canMode d i
    let own := s.fld (R.CAN_OWNER d i) 0 8 = who.unitOwner d
    let ev (t : State) (j : Nat) : Prop := t.flag (R.CAN_EVENT d i) j = true
    let result (t : State) (res : Nat) : Prop := t.canPend d i b = false ∧
      t.getReg (R.CAN_TXB d i b 7) = wd (1 + res * 2 + min 255 (x.retries.getD b 0) * 256) ∧ ev t (2 + b)
    let stays (t : State) : Prop := { t with out := s.out, intents := s.intents } = s
    let runs := s.unitsRun d = true
    let ready := runs ∧ ((now = 1 ∧ x.integ = true) ∨ now = 3) ∧ s.canBusOff d i = false ∧ x.onBus = none
    let sending := runs ∧ x.onBus = some b ∧ b < 3
    let tdc := R.CAN_TDC d i
    let measures := s.flag tdc 0 = true ∧ canDataPhase (s.canTxFrame d i b) = true ∧ now = 1
    let plain := loop = none ∨ ¬measures
    let done : Instr := .canTxComplete d c ⟨e, loop⟩
    let lost := e ≠ .sent ∧ x.abort.testBit b = false
    let rx : Instr := .canFrameRx d c frame age 0
    let part := runs ∧ (now = 1 ∨ now = 2) ∧ x.integ = true ∧ s.canBusOff d i = false ∧ s.canFmtOn d i (bits (frame.getD 1 0) 0 2) = true
    let takes := part ∧ s.flag (R.CAN_ABR d i) 30 = false ∧ s.canRec d i ≤ 127
    let w0 := frame.getD 0 0
    let w1 := frame.getD 1 0
    let w2 := frame.getD 2 0
    let len := bits w2 0 12
    let words := canDataWords len
    let hit := firstIdx 64 fun f => s.canMatches d i f w0 w1
    let dest := match hit with | some f => s.fld (R.CAN_FLT_CTRL d i f) 1 2 | none => s.fld (R.CAN_CFG d i) 8 2
    let ep := s.fld (R.CAN_OWNER d i) 16 16
    let record := [w0 ||| 0x80000000, w1, setBits (w2 &&& 0xFFFF) 16 10 (7 + words), frame.getD 3 0] ++ ((s.now d).ago age).triple ++
      [wd (ep + hit.getD 0 * 2 ^ 16 + (if hit = none then 2 ^ 22 else 0))] ++ (frame.drop 4).take words
    let small := bits w1 0 2 = 2 ∧ 64 < len → s.flag (R.CAN_Q_CFG d i q.val) 0 = true
    let tail := s.canSlot d i q.val (y.head + y.held)
    let room := (∀ a < 0x400_0000, s.bankRefusal d 12 a = none) ∧ tail - d.org + 4 * record.length + 4 ≤ 0x400_0000
    let win := R.CAN_RX d i q.val w.val
    let qs := R.CAN_Q_STAT d i q.val
    let slot := s.canSlot d i q.val (y.head + y.posL)
    let last := bits (s.word (slot + 8)) 16 10
    let at_ := slot - d.org + 4 * w.val
    let loads := s.bankRefusal d 12 at_ = none ∧ s.eccAt (wordNo d (at_ / 8 * 8)) = 0
    let qc := R.CAN_Q_CTRL d i q.val
    let reads := s.acceptsRead who win ∧ own ∧ s.inShadow who = false
    (s.writes who tx → own → s.canTxOk d i b = true → s.fld (R.CAN_CTRL d i) 0 3 ≠ 4 → Accepted (.canTxReq who d c n oneshot) s who tx fun t =>
      t.canPend d i b = true ∧ t.flag tx 2 = oneshot ∧ s.keepsRegs t [tx] ∧ t.can = s.can ∧ s.keepsMem t) ∧
    (s.writes who tx → own → s.canTxOk d i b = false → RefusedWith (.canTxReq who d c n oneshot) s who tx causeRULE) ∧
    (s.writes who tx → ¬own → RefusedWith (.canTxReq who d c n oneshot) s who tx causeRULE ∧ RefusedWith (.canTxAbort who d c n) s who tx causeRULE) ∧
    (s.writes who tx → own → s.canPend d i b = true → x.onBus ≠ some b → Accepted (.canTxAbort who d c n) s who tx fun t => result t 1) ∧
    (s.writes who tx → own → s.canPend d i b = true → x.onBus = some b → Accepted (.canTxAbort who d c n) s who tx fun t =>
      t.canPend d i b = true ∧ (t.canOf d i).abort.testBit b = true ∧ (t.canOf d i).onBus = x.onBus) ∧
    (s.writes who tx → own → s.canPend d i b = false → Accepted (.canTxAbort who d c n) s who tx fun t => s.keepsRegs t [] ∧ t.can = s.can ∧ s.keepsMem t) ∧
    (∀ k, ready → s.canChoose d i = some k → Does (.canTxFrameStart d c) s fun t =>
      t.canOf d i = { x with onBus := some k, sof := s.now d } ∧ t.flag st 7 = true ∧ t.flag st 6 = false ∧ s.keepsRegs t [st] ∧
      t.out = (if now = 3 then s.out else .can d i (s.canTxFrame d i k) :: s.out)) ∧
    (¬ready ∨ s.canChoose d i = none → Does (.canTxFrameStart d c) s fun t => t = s) ∧
    (∀ k, s.canChoose d i = some k → s.canPend d i k = true ∧ k < 3 ∧ (∀ j < 3, s.canPend d i j = true →
      if s.flag (R.CAN_CFG d i) 0 then k ≤ j else s.canArb d i k ≤ s.canArb d i j)) ∧
    (sending → plain → sized → e = .sent → s.flag (R.CAN_CFG d i) 2 = false → now ≠ 3 → Does done s fun t =>
      result t 0 ∧ s.counted t (R.CAN_CNT_TX d i) 1 ∧ t.canTec d i = s.canTec d i - 1 ∧
      [4, 5, 6].map (fun j => t.getReg (R.CAN_TXB d i b j)) = x.sof.triple ∧ (t.canOf d i).onBus = none) ∧
    (sending → plain → sized → lost → s.flag tx 2 = false → Does done s fun t =>
      t.canOf d i = { x with onBus := none, retries := x.retries.set b (min 255 (x.retries.getD b 0 + 1)) } ∧ t.flag st 7 = false ∧ t.flag st 6 = x.integ ∧ s.keepsRegs t [st]) ∧
    (sending → plain → lost → s.flag tx 2 = true → Does done s fun t => result t (if e = .lost then 2 else 3)) ∧
    (sending → plain → e ≠ .sent → x.abort.testBit b = true → Does done s fun t => result t 1) ∧
    (∀ v, sending → loop = some v → measures → v ≤ 127 → Does done s fun t => t.fld tdc 24 7 = v) ∧
    (∀ v, sending → loop = some v → measures → 127 < v → x.integ = true → s.canBusOff d i = false → Does done s fun t =>
      t.fld tdc 24 7 = 127 ∧ s.counted t (R.CAN_CNT_ERRF d i) 1 ∧ ev t 15 ∧ (t.fld (R.CAN_ERR d i) 20 3 = 4 ∨ t.fld (R.CAN_ERR d i) 20 3 = 5) ∧
      t.getReg (R.CAN_CNT_TX d i) = s.getReg (R.CAN_CNT_TX d i)) ∧
    (¬runs ∨ x.onBus = none → Does done s fun t => t = s) ∧
    (takes → sized → dest = q.val → s.fld (R.CAN_OWNER d i) 0 8 ≠ 0x20 → small → y.held < 32 → room → Does rx s fun t =>
      s.counted t (R.CAN_CNT_RX d i) 1 ∧ (t.canOf d i).q q.val = { y with held := y.held + 1 } ∧ ev t q.val ∧ t.canRec d i = s.canRec d i - 1 ∧
      t.words tail record.length = record) ∧
    (takes → dest = q.val → s.fld (R.CAN_OWNER d i) 0 8 ≠ 0x20 → small → 32 ≤ y.held → Does rx s fun t =>
      s.counted t (if q.val = 0 then R.CAN_CNT_OVR_A d i else R.CAN_CNT_OVR_B d i) 1 ∧ (t.canOf d i).q q.val = y ∧ ev t (9 + q.val) ∧ s.keepsMem t) ∧
    (takes → dest = 3 → Does rx s fun t =>
      s.counted t (R.CAN_CNT_RX d i) 1 ∧ s.counted t (R.CAN_CNT_NOMATCH d i) (if hit = none ∨ s.fld (R.CAN_OWNER d i) 0 8 = 0x20 then 1 else 0) ∧ t.can = s.can ∧ s.keepsMem t) ∧
    (¬part → Does rx s fun t => t = s) ∧
    (reads → loads → y.posL < y.held → w.val < last → Does (.canWindowRead who d c q w) s fun t =>
      t.out = .answer who win (.data [s.word (slot + 4 * w.val)]) :: s.out ∧ t.flag qs 8 = true ∧ t.can = s.can ∧ s.keepsRegs t [qs, R.POOL_PORT_UTIL d 12] ∧ s.keepsMem t) ∧
    (reads → loads → sized → y.posL < y.held → w.val = last → Does (.canWindowRead who d c q w) s fun t =>
      t.out = .answer who win (.data [s.word (slot + 4 * w.val)]) :: s.out ∧ t.flag qs 8 = false ∧ s.keepsMem t ∧
      (t.canOf d i).q q.val = ({ y with posL := y.posL + 1 } : CanQ).freed x.shadow) ∧
    (reads → (y.held ≤ y.posL ∨ last < w.val) → Does (.canWindowRead who d c q w) s fun t =>
      t.out = .answer who win (.data [0]) :: s.out ∧ { t with out := s.out } = s) ∧
    (s.acceptsRead who win → ¬own → s.inShadow who = false → Does (.canWindowRead who d c q w) s fun t => t = s.refuse who win false causeRULE) ∧
    (s.writes who qc → own → sized → Accepted (.canQueueSkip who d c q) s who qc fun t =>
      (t.canOf d i).q q.val = ({ y with posL := min (y.posL + 1) y.held } : CanQ).freed x.shadow ∧ t.flag qs 8 = false ∧ s.keepsRegs t [qs] ∧ s.keepsMem t) ∧
    (s.writes who qc → own → sized → Accepted (.canQueueFlush who d c q) s who qc fun t =>
      (t.canOf d i).q q.val = ({ y with posL := min (y.posL + 32) y.held } : CanQ).freed x.shadow ∧ (y.held ≤ y.posL + 32 → t.fld qs 0 6 = 0) ∧
      t.flag qs 8 = false ∧ s.keepsRegs t [qs] ∧ s.keepsMem t) ∧
    (s.writes who qc → ¬own → RefusedWith (.canQueueSkip who d c q) s who qc causeRULE ∧ RefusedWith (.canQueueFlush who d c q) s who qc causeRULE)

/-! ## The block as a whole -/

/-- A step takes the command at the front of the queue and is that command's effect on the state with the rest of the queue. -/
def Obligations.StepRunsTheFrontCommand : Prop :=
  ∀ (s : State) (c : Instr) (rest : List Instr), s.pending = c :: rest → step s = exec c { s with pending := rest }

/-- Every command is answered by a next state, the queue behind it stays as it is, no free value is drawn twice, and what the block has put on its
ports stands. -/
def Obligations.EveryCommandIsAnswered : Prop :=
  ∀ (c : Instr) (s : State), s.runs ∧
    Does c s fun t => t.pending = s.pending ∧ s.fresh ≤ t.fresh ∧ ∃ l, t.out = l ++ s.out

/-- R289, R291, R295, with log entry 1: a step on an empty queue lets one tick of each time base pass, with the increment of R291 rounded to nearest and
a remaining slew consumed to exactly 0. -/
def Obligations.IdleStepTicksTheTimeBases : Prop :=
  (∀ (s : State) (d : Die), s.pending = [] →
    let base := incOf (s.rate d)
    let rem := (s.now d).slew
    let most : Int := (s.fld (R.TB_SLEW_MAX d) 0 14 : Nat)
    let gain := incOf (s.rate d + (if 0 < rem then most else if rem < 0 then -most else 0)) - base
    let part := if rem.natAbs ≤ gain.natAbs then rem else gain
    ∃ t, step s = .next t ∧ { t with time := s.time } = s ∧ (t.now d).slew = rem - part ∧
      (t.now d).ns < 10 ^ 9 ∧ (t.now d).frac < 2 ^ 32 ∧ (t.now d).sec < 2 ^ 48 ∧
      (t.now d).total = ((s.now d).total + base + part) % (2 ^ 48 * 10 ^ 9 * 2 ^ 32 : Nat) ∧
      (s.rate d = 0 → rem = 0 → (s.now d).ns + 2 < 10 ^ 9 → (s.now d).frac < 2 ^ 32 → (s.now d).sec < 2 ^ 48 →
        t.now d = { s.now d with ns := (s.now d).ns + 2 })) ∧
  ∀ ppb : Int, 2 * incOf ppb * 10 ^ 9 ≤ 2 * 2 ^ 33 * (10 ^ 9 + ppb) + 10 ^ 9 ∧ 2 * 2 ^ 33 * (10 ^ 9 + ppb) < 2 * incOf ppb * 10 ^ 9 + 10 ^ 9

/-- R13, R292, R479, R487: what the block holds after a power-on reset: the invariant, nothing waiting, device time 0 and the registers' reset values. -/
def Obligations.ResetState : Prop :=
  let s := State.reset
  s.inv ∧ s.pending = [] ∧ s.out = [] ∧ ∀ d : Die,
    s.now d = { sec := 0, ns := 0, frac := 0, slew := 0 } ∧ s.running d = false ∧ s.intents = [] ∧
    s.getReg (R.SYS_ID d) = 0x48960200 ∧ s.getReg (R.RST_CAUSE d) = 0x101 ∧ s.fld (R.RST_WD_LEFT d) 0 16 = 500 ∧ s.fld (R.RST_WD_TMO d) 0 16 = 100 ∧
    s.getReg (R.TB_RATE d) = 0 ∧ s.fld (R.TB_SLEW_MAX d) 0 14 = 10000 ∧ (∀ n : Fin 32, s.getReg (R.SFQ_TIMEOUT d n.val) = 100) ∧
    (∀ k : Fin 24, s.ceOf d k = {} ∧ s.ceReady d k = false) ∧ ∀ c : Fin 4, s.canMode d c.val = 0

/-- Every step keeps the registers and the memory in canonical form and the fixed buffers at their sizes, from every state that has them so. -/
def Obligations.StepKeepsTheInvariant : Prop :=
  ∀ s t : State, s.inv → step s = .next t → t.inv

/-- R290: the linear count of a die is (seconds × 1,000,000,000 + nanoseconds) mod 2^64, which a time later by 2^64 ns (584 years) has again; TB_NOW reads
it, a capture takes it, a compare unit fires by its signed distance from it, and that distance is the difference modulo 2^64 read as signed. -/
def Obligations.LinearCountAndItsDifferences : Prop :=
  ∀ (who : Requester) (d : Die) (u : Fin 64) (c : Fin 32) (rise : Bool) (a : AccAddr) (s : State),
    let now := R.TB_NOW_LO d
    let cfg := s.getReg (R.TB_CAP_CFG d c.val)
    s.lin d = ((s.now d).sec * 1_000_000_000 + (s.now d).ns) % 2 ^ 64 ∧
    (∀ (x y : DevTime), y.sec * 1_000_000_000 + y.ns = x.sec * 1_000_000_000 + x.ns + 2 ^ 64 → y.lin = x.lin) ∧
    2 ^ 64 / (1_000_000_000 * 86_400 * 365) = 584 ∧
    (leadOf who a = .at_ now → s.regCheck who now .w64 false = none → Does (.pairLoRead who a .w64) s fun t =>
      t.out = .answer who now (.data [wd (s.lin d), wd (s.lin d / 2 ^ 32)]) :: s.out) ∧
    (Tab.get (fun _ => false) s.capLvl (d.idx * 32 + c.val) ≠ rise → (if rise then bit cfg 8 else bit cfg 9) = true →
      s.flag (R.TB_CAP_STAT d c.val) 0 = false → Does (.captureEdge d c rise) s fun t =>
        t.getPair (R.TB_CAP_LO d c.val) (R.TB_CAP_HI d c.val) = s.lin d) ∧
    (s.cmpArmed d u.val = true → 0 < sdiff (s.cmpTgt d u.val) (s.lin d) → Does (.compareFire d u) s fun t => t = s) ∧
    (s.cmpArmed d u.val = true → s.cmpTgt d u.val = s.lin d → Does (.compareFire d u) s fun t =>
      t.fld (R.TB_CMP_STAT d u.val) 16 16 = (s.fld (R.TB_CMP_STAT d u.val) 16 16 + 1) % 65536) ∧
    ∀ m n : Nat, (sdiff m n - ((m : Int) - n)) % (2 ^ 64 : Nat) = 0 ∧ -2 ^ 63 ≤ sdiff m n ∧ sdiff m n < 2 ^ 63

/-- R24, R78: the pool is mapped linearly, bank by bank; and every write of SFQ_CTRL that asks for packet mode in register mode is refused with an error
response, which leaves SFQ_CTRL as it was. -/
def Obligations.PoolMapAndPacketModeRefused : Prop :=
  (∀ n off, n < 240 → off < 0x4_0000 → bankOf (n * 0x4_0000 + off) = n ∧ bankBase n = n * 0x4_0000 ∧ bankLines n * 64 = 0x4_0000) ∧
  (∀ m off, m < 32 → off < 0x2_0000 →
    bankOf (0x03C0_0000 + m * 0x2_0000 + off) = 240 + m ∧ bankBase (240 + m) = 0x03C0_0000 + m * 0x2_0000 ∧ bankLines (240 + m) * 64 = 0x2_0000) ∧
  ∀ (who : Requester) (d : Die) (n : Fin 32) (v : Word) (s : State), bit v 2 = true → bit v 1 = false →
    ∀ c ∈ [Instr.sfqConfigWrite who d n v, .sfqFlush who d n v, .sfqClose who d n v, .sfqReset who d n v], Does c s fun t =>
      (∃ cause, t.out.head? = some (.answer who (R.SFQ_CTRL d n.val) (.refused cause (cplOf who true cause)))) ∧ t.getReg (R.SFQ_CTRL d n.val) = s.getReg (R.SFQ_CTRL d n.val) ∧
      t.sfq = s.sfq ∧ s.keepsMem t
end

