-- ==== Sys2Proof/Laws/Bits.lean ====
section
/-! SUPPORT. The laws of bit fields: a field written reads back, and every field beside it stays. -/

namespace Sys2Proof.Machine

theorem testBit_maskOf (lo n i : Nat) : (maskOf lo n).toNat.testBit i = (decide (i < 32) && decide (lo ≤ i) && decide (i < lo + n)) := by
  simp only [maskOf, BitVec.toNat_ofNat, Nat.testBit_mod_two_pow, Nat.testBit_shiftLeft, Nat.testBit_two_pow_sub_one]
  by_cases h : i < 32 <;> by_cases h2 : lo ≤ i <;> simp [h, h2] <;> omega

/-- One bit of a word with a field replaced. -/
theorem testBit_setBits (w : Word) (lo n v i : Nat) (hi : i < 32) :
    (setBits w lo n v).toNat.testBit i = if lo ≤ i ∧ i < lo + n then v.testBit (i - lo) else w.toNat.testBit i := by
  have hm : (maskOf lo n).getLsbD i = (decide (lo ≤ i) && decide (i < lo + n)) := by
    have := testBit_maskOf lo n i
    rw [BitVec.getLsbD]; simpa [hi] using this
  have e : (setBits w lo n v).toNat.testBit i = (setBits w lo n v).getLsbD i := rfl
  have ew : w.toNat.testBit i = w.getLsbD i := rfl
  rw [e, ew, setBits, BitVec.getLsbD_or, BitVec.getLsbD_and, BitVec.getLsbD_not, hm, BitVec.getLsbD_ofNat, Nat.testBit_shiftLeft,
    Nat.testBit_mod_two_pow]
  by_cases h1 : lo ≤ i <;> by_cases h2 : i < lo + n <;> simp [h1, h2, hi] <;> omega

theorem testBit_bits (w : Word) (lo n i : Nat) : (bits w lo n).testBit i = (decide (i < n) && w.toNat.testBit (lo + i)) := by
  simp [bits, Nat.testBit_mod_two_pow, Nat.testBit_shiftRight, Nat.add_comm]

/-- A field written reads back, modulo its width. -/
@[simp] theorem bits_setBits_self (w : Word) (lo n v : Nat) (h : lo + n ≤ 32) : bits (setBits w lo n v) lo n = v % 2 ^ n := by
  apply Nat.eq_of_testBit_eq
  intro i
  rw [testBit_bits, Nat.testBit_mod_two_pow]
  by_cases hi : i < n
  · rw [testBit_setBits _ _ _ _ _ (by omega)]
    simp [hi]
  · simp [hi]

/-- A field beside the one written stays. -/
theorem bits_setBits_ne (w : Word) (lo n v a m : Nat) (ha : a + m ≤ 32) (h : a + m ≤ lo ∨ lo + n ≤ a) :
    bits (setBits w lo n v) a m = bits w a m := by
  apply Nat.eq_of_testBit_eq
  intro i
  rw [testBit_bits, testBit_bits]
  by_cases hi : i < m
  · rw [testBit_setBits _ _ _ _ _ (by omega), if_neg (by omega)]
  · simp [hi]

theorem bit_eq (w : Word) (i : Nat) : bit w i = decide (bits w i 1 = 1) := by
  unfold bit bits
  rw [Nat.testBit, Nat.and_comm]
  have : (w.toNat >>> i) % 2 = 0 ∨ (w.toNat >>> i) % 2 = 1 := by omega
  rcases this with h | h <;> simp [h, Nat.and_one_is_mod]

@[simp] theorem bit_setBits_self (w : Word) (i : Nat) (b : Bool) (h : i < 32) : bit (setBits w i 1 (if b then 1 else 0)) i = b := by
  unfold bit
  rw [testBit_setBits _ _ _ _ _ h, if_pos (by omega)]
  cases b <;> simp

/-- A bit outside the field written stays. -/
theorem bit_setBits_ne (w : Word) (lo n v i : Nat) (hi : i < 32) (h : i < lo ∨ lo + n ≤ i) : bit (setBits w lo n v) i = bit w i := by
  unfold bit
  rw [testBit_setBits _ _ _ _ _ hi, if_neg (by omega)]

/-- A bit inside a field written. -/
theorem bit_setBits_in (w : Word) (lo n v i : Nat) (hi : i < 32) (h : lo ≤ i ∧ i < lo + n) :
    bit (setBits w lo n v) i = v.testBit (i - lo) := by
  unfold bit
  rw [testBit_setBits _ _ _ _ _ hi, if_pos h]

theorem bits_lt (w : Word) (lo n : Nat) : bits w lo n < 2 ^ n := Nat.mod_lt _ (Nat.two_pow_pos n)

@[simp] theorem bit_or (v w : Word) (i : Nat) : bit (v ||| w) i = (bit v i || bit w i) := by
  simp [bit]

theorem bit_andNot (v w : Word) (i : Nat) (h : i < 32) : bit (v &&& ~~~w) i = (bit v i && !bit w i) := by
  have : ∀ x : Word, bit x i = x.getLsbD i := fun _ => rfl
  rw [this, this, this, BitVec.getLsbD_and, BitVec.getLsbD_not]
  simp [h]

theorem bit_maskOf (lo n i : Nat) : bit (maskOf lo n) i = (decide (i < 32) && decide (lo ≤ i) && decide (i < lo + n)) := testBit_maskOf lo n i

@[simp] theorem bits_zero (lo n : Nat) : bits 0 lo n = 0 := by simp [bits]

@[simp] theorem bit_zero (i : Nat) : bit 0 i = false := by simp [bit]

theorem wd_toNat (n : Nat) : (wd n).toNat = n % 2 ^ 32 := by simp [wd]

@[simp] theorem wd_toNat_self (w : Word) : wd w.toNat = w := by simp [wd]

end Sys2Proof.Machine
end

