-- ==== Sys2Proof/Laws/Tab.lean ====
section
/-! SUPPORT. The laws of the one container: what a write reads back as, that it leaves every other key alone, and that it keeps the
canonical form. -/

namespace Sys2Proof.Machine

variable {α : Type} {d : Nat → α}

@[simp] theorem Tab.get_nil (k : Nat) : Tab.get d [] k = d k := rfl

theorem Tab.get_erase_self (t : Tab α) (k : Nat) : Tab.get d (Tab.erase t k) k = d k := by
  induction t with
  | nil => rfl
  | cons e t ih => by_cases h : e.1 = k <;> simp [Tab.erase, Tab.get, h, ih]

theorem Tab.get_erase_ne (t : Tab α) {k j : Nat} (h : j ≠ k) : Tab.get d (Tab.erase t k) j = Tab.get d t j := by
  induction t with
  | nil => rfl
  | cons e t ih =>
    by_cases hk : e.1 = k
    · have : e.1 ≠ j := fun x => h (x.symm.trans hk)
      simp [Tab.erase, Tab.get, hk, ih, show k ≠ j from fun x => h x.symm]
    · by_cases hj : e.1 = j
      · simp only [Tab.erase, if_neg hk, Tab.get, if_pos hj]
      · simp only [Tab.erase, if_neg hk, Tab.get, if_neg hj, ih]

theorem Tab.get_ins_self (t : Tab α) (k : Nat) (v : α) (h : ∀ e ∈ t, e.1 ≠ k) : Tab.get d (Tab.ins t k v) k = v := by
  induction t with
  | nil => simp [Tab.ins, Tab.get]
  | cons e t ih =>
    have he : e.1 ≠ k := h e (by simp)
    by_cases hk : k < e.1
    · simp [Tab.ins, Tab.get, hk]
    · simp [Tab.ins, Tab.get, hk, he, ih fun x hx => h x (by simp [hx])]

theorem Tab.get_ins_ne (t : Tab α) {k j : Nat} (v : α) (h : j ≠ k) : Tab.get d (Tab.ins t k v) j = Tab.get d t j := by
  induction t with
  | nil => simp [Tab.ins, Tab.get, show k ≠ j from fun x => h x.symm]
  | cons e t ih =>
    by_cases hk : k < e.1
    · simp [Tab.ins, Tab.get, hk, show k ≠ j from fun x => h x.symm]
    · by_cases hj : e.1 = j
      · simp only [Tab.ins, if_neg hk, Tab.get, if_pos hj]
      · simp only [Tab.ins, if_neg hk, Tab.get, if_neg hj, ih]

theorem Tab.erase_keys (t : Tab α) (k : Nat) : ∀ e ∈ Tab.erase t k, e.1 ≠ k := by
  induction t with
  | nil => simp [Tab.erase]
  | cons e t ih =>
    by_cases hk : e.1 = k
    · simpa [Tab.erase, hk] using ih
    · intro x hx
      rcases List.mem_cons.1 (by simpa [Tab.erase, hk] using hx) with rfl | hx
      · exact hk
      · exact ih x hx

/-- A read after a write of the same key gives the value written. -/
@[simp] theorem Tab.get_put_self [DecidableEq α] (t : Tab α) (k : Nat) (v : α) : Tab.get d (Tab.put d t k v) k = v := by
  unfold Tab.put
  split
  · rw [Tab.get_erase_self, ‹v = d k›]
  · exact Tab.get_ins_self _ _ _ (Tab.erase_keys t k)

/-- A write leaves every other key alone. -/
theorem Tab.get_put_ne [DecidableEq α] (t : Tab α) {k j : Nat} (v : α) (h : j ≠ k) : Tab.get d (Tab.put d t k v) j = Tab.get d t j := by
  unfold Tab.put
  split
  · exact Tab.get_erase_ne t h
  · rw [Tab.get_ins_ne _ _ h, Tab.get_erase_ne t h]

theorem Tab.get_put [DecidableEq α] (t : Tab α) (k j : Nat) (v : α) : Tab.get d (Tab.put d t k v) j = if j = k then v else Tab.get d t j := by
  by_cases h : j = k
  · simp [h]
  · simp [h, Tab.get_put_ne]

/-! ## The canonical form -/

theorem Tab.above_trans {t : Tab α} {a b : Nat} (h : a ≤ b) (ht : Tab.above b t = true) : Tab.above a t = true := by
  cases t with
  | nil => rfl
  | cons e t => simp [Tab.above] at *; omega

theorem Tab.wf_tail [DecidableEq α] {e : Nat × α} {t : Tab α} (h : Tab.wf d (e :: t) = true) : Tab.wf d t = true := by
  simp [Tab.wf] at h; exact h.2

theorem Tab.above_filter [DecidableEq α] {t : Tab α} {a : Nat} (p : Nat × α → Bool) (h : Tab.wf d t = true) (ha : Tab.above a t = true) :
    Tab.above a (t.filter p) = true := by
  induction t with
  | nil => rfl
  | cons e t ih =>
    simp [Tab.wf] at h
    simp [Tab.above] at ha
    by_cases hp : p e
    · simp [List.filter, hp, Tab.above, ha]
    · simp only [List.filter, hp]
      exact ih h.2 (Tab.above_trans (Nat.le_of_lt ha) h.1.2)

/-- Entries dropped from a canonical table leave a canonical table. -/
theorem Tab.wf_filter [DecidableEq α] {t : Tab α} (p : Nat × α → Bool) (h : Tab.wf d t = true) : Tab.wf d (t.filter p) = true := by
  induction t with
  | nil => rfl
  | cons e t ih =>
    have h' := h
    simp [Tab.wf] at h
    by_cases hp : p e
    · simp [List.filter, hp, Tab.wf, h.1.1, ih h.2, Tab.above_filter (d := d) p h.2 h.1.2]
    · simp only [List.filter, hp]
      exact ih h.2

theorem Tab.erase_eq_filter (t : Tab α) (k : Nat) : Tab.erase t k = t.filter fun e => decide (e.1 ≠ k) := by
  induction t with
  | nil => rfl
  | cons e t ih => by_cases h : e.1 = k <;> simp [Tab.erase, List.filter, h, ih]

theorem Tab.wf_ins [DecidableEq α] {t : Tab α} {k : Nat} {v : α} (hv : v ≠ d k) (hk : ∀ e ∈ t, e.1 ≠ k) (h : Tab.wf d t = true) :
    Tab.wf d (Tab.ins t k v) = true ∧ ∀ a, a < k → Tab.above a t = true → Tab.above a (Tab.ins t k v) = true := by
  induction t with
  | nil => simp [Tab.ins, Tab.wf, Tab.above, hv]
  | cons e t ih =>
    have h' := h
    simp [Tab.wf] at h
    by_cases hlt : k < e.1
    · constructor
      · simp [Tab.ins, hlt, Tab.wf, hv, Tab.above, h.1.1, h.2]
        exact h.1.2
      · intro a ha _
        simpa [Tab.ins, hlt, Tab.above] using ha
    · have hne : e.1 ≠ k := hk e (by simp)
      obtain ⟨w, ab⟩ := ih (fun x hx => hk x (by simp [hx])) h.2
      constructor
      · simp [Tab.ins, hlt, Tab.wf, h.1.1, w, ab e.1 (by omega) h.1.2]
      · intro a ha hab
        simpa [Tab.ins, hlt, Tab.above] using hab

/-- Every write keeps the canonical form. -/
theorem Tab.wf_put [DecidableEq α] {t : Tab α} (k : Nat) (v : α) (h : Tab.wf d t = true) : Tab.wf d (Tab.put d t k v) = true := by
  unfold Tab.put
  rw [Tab.erase_eq_filter]
  split
  · exact Tab.wf_filter _ h
  · exact (Tab.wf_ins ‹_› (by simp) (Tab.wf_filter _ h)).1

end Sys2Proof.Machine
end

