-- ==== Sys2Proof/Laws/State.lean ====
section
/-! SUPPORT. What each base update of the state leaves alone, field by field, and what registers, fields, memory bytes and the per-die
records read after it. -/

namespace Sys2Proof.Machine

variable (s : State)

/-! ### setReg -/

@[simp] theorem State.setReg_pending (a : Nat) (v : Word) : (s.setReg a v).pending = s.pending := (rfl)
@[simp] theorem State.setReg_fresh (a : Nat) (v : Word) : (s.setReg a v).fresh = s.fresh := (rfl)
@[simp] theorem State.setReg_out (a : Nat) (v : Word) : (s.setReg a v).out = s.out := (rfl)
@[simp] theorem State.setReg_mem (a : Nat) (v : Word) : (s.setReg a v).mem = s.mem := (rfl)
@[simp] theorem State.setReg_time (a : Nat) (v : Word) : (s.setReg a v).time = s.time := (rfl)
@[simp] theorem State.setReg_chans (a : Nat) (v : Word) : (s.setReg a v).chans = s.chans := (rfl)
@[simp] theorem State.setReg_interp (a : Nat) (v : Word) : (s.setReg a v).interp = s.interp := (rfl)
@[simp] theorem State.setReg_planQ (a : Nat) (v : Word) : (s.setReg a v).planQ = s.planQ := (rfl)
@[simp] theorem State.setReg_sfq (a : Nat) (v : Word) : (s.setReg a v).sfq = s.sfq := (rfl)
@[simp] theorem State.setReg_ecc (a : Nat) (v : Word) : (s.setReg a v).ecc = s.ecc := (rfl)
@[simp] theorem State.setReg_dly (a : Nat) (v : Word) : (s.setReg a v).dly = s.dly := (rfl)
@[simp] theorem State.setReg_log (a : Nat) (v : Word) : (s.setReg a v).log = s.log := (rfl)
@[simp] theorem State.setReg_units (a : Nat) (v : Word) : (s.setReg a v).units = s.units := (rfl)
@[simp] theorem State.setReg_cmp (a : Nat) (v : Word) : (s.setReg a v).cmp = s.cmp := (rfl)
@[simp] theorem State.setReg_accWait (a : Nat) (v : Word) : (s.setReg a v).accWait = s.accWait := (rfl)
@[simp] theorem State.setReg_intents (a : Nat) (v : Word) : (s.setReg a v).intents = s.intents := (rfl)
@[simp] theorem State.setReg_fio (a : Nat) (v : Word) : (s.setReg a v).fio = s.fio := (rfl)
@[simp] theorem State.setReg_stn (a : Nat) (v : Word) : (s.setReg a v).stn = s.stn := (rfl)
@[simp] theorem State.setReg_can (a : Nat) (v : Word) : (s.setReg a v).can = s.can := (rfl)
@[simp] theorem State.setReg_swQ (a : Nat) (v : Word) : (s.setReg a v).swQ = s.swQ := (rfl)
@[simp] theorem State.setReg_ring (a : Nat) (v : Word) : (s.setReg a v).ring = s.ring := (rfl)
@[simp] theorem State.setReg_ce (a : Nat) (v : Word) : (s.setReg a v).ce = s.ce := (rfl)
@[simp] theorem State.setReg_h2 (a : Nat) (v : Word) : (s.setReg a v).h2 = s.h2 := (rfl)
@[simp] theorem State.setReg_h3 (a : Nat) (v : Word) : (s.setReg a v).h3 = s.h3 := (rfl)
@[simp] theorem State.setReg_sup (a : Nat) (v : Word) : (s.setReg a v).sup = s.sup := (rfl)
@[simp] theorem State.setReg_images (a : Nat) (v : Word) : (s.setReg a v).images = s.images := (rfl)
@[simp] theorem State.setReg_flash (a : Nat) (v : Word) : (s.setReg a v).flash = s.flash := (rfl)
@[simp] theorem State.setReg_rst (a : Nat) (v : Word) : (s.setReg a v).rst = s.rst := (rfl)
@[simp] theorem State.setReg_boot (a : Nat) (v : Word) : (s.setReg a v).boot = s.boot := (rfl)
@[simp] theorem State.setReg_pwr (a : Nat) (v : Word) : (s.setReg a v).pwr = s.pwr := (rfl)
@[simp] theorem State.setReg_msix (a : Nat) (v : Word) : (s.setReg a v).msix = s.msix := (rfl)

/-! ### setFld -/

@[simp] theorem State.setFld_pending (a lo n v : Nat) : (s.setFld a lo n v).pending = s.pending := (rfl)
@[simp] theorem State.setFld_fresh (a lo n v : Nat) : (s.setFld a lo n v).fresh = s.fresh := (rfl)
@[simp] theorem State.setFld_out (a lo n v : Nat) : (s.setFld a lo n v).out = s.out := (rfl)
@[simp] theorem State.setFld_mem (a lo n v : Nat) : (s.setFld a lo n v).mem = s.mem := (rfl)
@[simp] theorem State.setFld_time (a lo n v : Nat) : (s.setFld a lo n v).time = s.time := (rfl)
@[simp] theorem State.setFld_chans (a lo n v : Nat) : (s.setFld a lo n v).chans = s.chans := (rfl)
@[simp] theorem State.setFld_interp (a lo n v : Nat) : (s.setFld a lo n v).interp = s.interp := (rfl)
@[simp] theorem State.setFld_planQ (a lo n v : Nat) : (s.setFld a lo n v).planQ = s.planQ := (rfl)
@[simp] theorem State.setFld_sfq (a lo n v : Nat) : (s.setFld a lo n v).sfq = s.sfq := (rfl)
@[simp] theorem State.setFld_ecc (a lo n v : Nat) : (s.setFld a lo n v).ecc = s.ecc := (rfl)
@[simp] theorem State.setFld_dly (a lo n v : Nat) : (s.setFld a lo n v).dly = s.dly := (rfl)
@[simp] theorem State.setFld_log (a lo n v : Nat) : (s.setFld a lo n v).log = s.log := (rfl)
@[simp] theorem State.setFld_units (a lo n v : Nat) : (s.setFld a lo n v).units = s.units := (rfl)
@[simp] theorem State.setFld_cmp (a lo n v : Nat) : (s.setFld a lo n v).cmp = s.cmp := (rfl)
@[simp] theorem State.setFld_accWait (a lo n v : Nat) : (s.setFld a lo n v).accWait = s.accWait := (rfl)
@[simp] theorem State.setFld_intents (a lo n v : Nat) : (s.setFld a lo n v).intents = s.intents := (rfl)
@[simp] theorem State.setFld_fio (a lo n v : Nat) : (s.setFld a lo n v).fio = s.fio := (rfl)
@[simp] theorem State.setFld_stn (a lo n v : Nat) : (s.setFld a lo n v).stn = s.stn := (rfl)
@[simp] theorem State.setFld_can (a lo n v : Nat) : (s.setFld a lo n v).can = s.can := (rfl)
@[simp] theorem State.setFld_swQ (a lo n v : Nat) : (s.setFld a lo n v).swQ = s.swQ := (rfl)
@[simp] theorem State.setFld_ring (a lo n v : Nat) : (s.setFld a lo n v).ring = s.ring := (rfl)
@[simp] theorem State.setFld_ce (a lo n v : Nat) : (s.setFld a lo n v).ce = s.ce := (rfl)
@[simp] theorem State.setFld_h2 (a lo n v : Nat) : (s.setFld a lo n v).h2 = s.h2 := (rfl)
@[simp] theorem State.setFld_h3 (a lo n v : Nat) : (s.setFld a lo n v).h3 = s.h3 := (rfl)
@[simp] theorem State.setFld_sup (a lo n v : Nat) : (s.setFld a lo n v).sup = s.sup := (rfl)
@[simp] theorem State.setFld_images (a lo n v : Nat) : (s.setFld a lo n v).images = s.images := (rfl)
@[simp] theorem State.setFld_flash (a lo n v : Nat) : (s.setFld a lo n v).flash = s.flash := (rfl)
@[simp] theorem State.setFld_rst (a lo n v : Nat) : (s.setFld a lo n v).rst = s.rst := (rfl)
@[simp] theorem State.setFld_boot (a lo n v : Nat) : (s.setFld a lo n v).boot = s.boot := (rfl)
@[simp] theorem State.setFld_pwr (a lo n v : Nat) : (s.setFld a lo n v).pwr = s.pwr := (rfl)
@[simp] theorem State.setFld_msix (a lo n v : Nat) : (s.setFld a lo n v).msix = s.msix := (rfl)

/-! ### setFlag -/

@[simp] theorem State.setFlag_pending (a i : Nat) (b : Bool) : (s.setFlag a i b).pending = s.pending := (rfl)
@[simp] theorem State.setFlag_fresh (a i : Nat) (b : Bool) : (s.setFlag a i b).fresh = s.fresh := (rfl)
@[simp] theorem State.setFlag_out (a i : Nat) (b : Bool) : (s.setFlag a i b).out = s.out := (rfl)
@[simp] theorem State.setFlag_mem (a i : Nat) (b : Bool) : (s.setFlag a i b).mem = s.mem := (rfl)
@[simp] theorem State.setFlag_time (a i : Nat) (b : Bool) : (s.setFlag a i b).time = s.time := (rfl)
@[simp] theorem State.setFlag_chans (a i : Nat) (b : Bool) : (s.setFlag a i b).chans = s.chans := (rfl)
@[simp] theorem State.setFlag_interp (a i : Nat) (b : Bool) : (s.setFlag a i b).interp = s.interp := (rfl)
@[simp] theorem State.setFlag_planQ (a i : Nat) (b : Bool) : (s.setFlag a i b).planQ = s.planQ := (rfl)
@[simp] theorem State.setFlag_sfq (a i : Nat) (b : Bool) : (s.setFlag a i b).sfq = s.sfq := (rfl)
@[simp] theorem State.setFlag_ecc (a i : Nat) (b : Bool) : (s.setFlag a i b).ecc = s.ecc := (rfl)
@[simp] theorem State.setFlag_dly (a i : Nat) (b : Bool) : (s.setFlag a i b).dly = s.dly := (rfl)
@[simp] theorem State.setFlag_log (a i : Nat) (b : Bool) : (s.setFlag a i b).log = s.log := (rfl)
@[simp] theorem State.setFlag_units (a i : Nat) (b : Bool) : (s.setFlag a i b).units = s.units := (rfl)
@[simp] theorem State.setFlag_cmp (a i : Nat) (b : Bool) : (s.setFlag a i b).cmp = s.cmp := (rfl)
@[simp] theorem State.setFlag_accWait (a i : Nat) (b : Bool) : (s.setFlag a i b).accWait = s.accWait := (rfl)
@[simp] theorem State.setFlag_intents (a i : Nat) (b : Bool) : (s.setFlag a i b).intents = s.intents := (rfl)
@[simp] theorem State.setFlag_fio (a i : Nat) (b : Bool) : (s.setFlag a i b).fio = s.fio := (rfl)
@[simp] theorem State.setFlag_stn (a i : Nat) (b : Bool) : (s.setFlag a i b).stn = s.stn := (rfl)
@[simp] theorem State.setFlag_can (a i : Nat) (b : Bool) : (s.setFlag a i b).can = s.can := (rfl)
@[simp] theorem State.setFlag_swQ (a i : Nat) (b : Bool) : (s.setFlag a i b).swQ = s.swQ := (rfl)
@[simp] theorem State.setFlag_ring (a i : Nat) (b : Bool) : (s.setFlag a i b).ring = s.ring := (rfl)
@[simp] theorem State.setFlag_ce (a i : Nat) (b : Bool) : (s.setFlag a i b).ce = s.ce := (rfl)
@[simp] theorem State.setFlag_h2 (a i : Nat) (b : Bool) : (s.setFlag a i b).h2 = s.h2 := (rfl)
@[simp] theorem State.setFlag_h3 (a i : Nat) (b : Bool) : (s.setFlag a i b).h3 = s.h3 := (rfl)
@[simp] theorem State.setFlag_sup (a i : Nat) (b : Bool) : (s.setFlag a i b).sup = s.sup := (rfl)
@[simp] theorem State.setFlag_images (a i : Nat) (b : Bool) : (s.setFlag a i b).images = s.images := (rfl)
@[simp] theorem State.setFlag_flash (a i : Nat) (b : Bool) : (s.setFlag a i b).flash = s.flash := (rfl)
@[simp] theorem State.setFlag_rst (a i : Nat) (b : Bool) : (s.setFlag a i b).rst = s.rst := (rfl)
@[simp] theorem State.setFlag_boot (a i : Nat) (b : Bool) : (s.setFlag a i b).boot = s.boot := (rfl)
@[simp] theorem State.setFlag_pwr (a i : Nat) (b : Bool) : (s.setFlag a i b).pwr = s.pwr := (rfl)
@[simp] theorem State.setFlag_msix (a i : Nat) (b : Bool) : (s.setFlag a i b).msix = s.msix := (rfl)

/-! ### orReg -/

@[simp] theorem State.orReg_pending (a : Nat) (v : Word) : (s.orReg a v).pending = s.pending := (rfl)
@[simp] theorem State.orReg_fresh (a : Nat) (v : Word) : (s.orReg a v).fresh = s.fresh := (rfl)
@[simp] theorem State.orReg_out (a : Nat) (v : Word) : (s.orReg a v).out = s.out := (rfl)
@[simp] theorem State.orReg_mem (a : Nat) (v : Word) : (s.orReg a v).mem = s.mem := (rfl)
@[simp] theorem State.orReg_time (a : Nat) (v : Word) : (s.orReg a v).time = s.time := (rfl)
@[simp] theorem State.orReg_chans (a : Nat) (v : Word) : (s.orReg a v).chans = s.chans := (rfl)
@[simp] theorem State.orReg_interp (a : Nat) (v : Word) : (s.orReg a v).interp = s.interp := (rfl)
@[simp] theorem State.orReg_planQ (a : Nat) (v : Word) : (s.orReg a v).planQ = s.planQ := (rfl)
@[simp] theorem State.orReg_sfq (a : Nat) (v : Word) : (s.orReg a v).sfq = s.sfq := (rfl)
@[simp] theorem State.orReg_ecc (a : Nat) (v : Word) : (s.orReg a v).ecc = s.ecc := (rfl)
@[simp] theorem State.orReg_dly (a : Nat) (v : Word) : (s.orReg a v).dly = s.dly := (rfl)
@[simp] theorem State.orReg_log (a : Nat) (v : Word) : (s.orReg a v).log = s.log := (rfl)
@[simp] theorem State.orReg_units (a : Nat) (v : Word) : (s.orReg a v).units = s.units := (rfl)
@[simp] theorem State.orReg_cmp (a : Nat) (v : Word) : (s.orReg a v).cmp = s.cmp := (rfl)
@[simp] theorem State.orReg_accWait (a : Nat) (v : Word) : (s.orReg a v).accWait = s.accWait := (rfl)
@[simp] theorem State.orReg_intents (a : Nat) (v : Word) : (s.orReg a v).intents = s.intents := (rfl)
@[simp] theorem State.orReg_fio (a : Nat) (v : Word) : (s.orReg a v).fio = s.fio := (rfl)
@[simp] theorem State.orReg_stn (a : Nat) (v : Word) : (s.orReg a v).stn = s.stn := (rfl)
@[simp] theorem State.orReg_can (a : Nat) (v : Word) : (s.orReg a v).can = s.can := (rfl)
@[simp] theorem State.orReg_swQ (a : Nat) (v : Word) : (s.orReg a v).swQ = s.swQ := (rfl)
@[simp] theorem State.orReg_ring (a : Nat) (v : Word) : (s.orReg a v).ring = s.ring := (rfl)
@[simp] theorem State.orReg_ce (a : Nat) (v : Word) : (s.orReg a v).ce = s.ce := (rfl)
@[simp] theorem State.orReg_h2 (a : Nat) (v : Word) : (s.orReg a v).h2 = s.h2 := (rfl)
@[simp] theorem State.orReg_h3 (a : Nat) (v : Word) : (s.orReg a v).h3 = s.h3 := (rfl)
@[simp] theorem State.orReg_sup (a : Nat) (v : Word) : (s.orReg a v).sup = s.sup := (rfl)
@[simp] theorem State.orReg_images (a : Nat) (v : Word) : (s.orReg a v).images = s.images := (rfl)
@[simp] theorem State.orReg_flash (a : Nat) (v : Word) : (s.orReg a v).flash = s.flash := (rfl)
@[simp] theorem State.orReg_rst (a : Nat) (v : Word) : (s.orReg a v).rst = s.rst := (rfl)
@[simp] theorem State.orReg_boot (a : Nat) (v : Word) : (s.orReg a v).boot = s.boot := (rfl)
@[simp] theorem State.orReg_pwr (a : Nat) (v : Word) : (s.orReg a v).pwr = s.pwr := (rfl)
@[simp] theorem State.orReg_msix (a : Nat) (v : Word) : (s.orReg a v).msix = s.msix := (rfl)

/-! ### andNotReg -/

@[simp] theorem State.andNotReg_pending (a : Nat) (v : Word) : (s.andNotReg a v).pending = s.pending := (rfl)
@[simp] theorem State.andNotReg_fresh (a : Nat) (v : Word) : (s.andNotReg a v).fresh = s.fresh := (rfl)
@[simp] theorem State.andNotReg_out (a : Nat) (v : Word) : (s.andNotReg a v).out = s.out := (rfl)
@[simp] theorem State.andNotReg_mem (a : Nat) (v : Word) : (s.andNotReg a v).mem = s.mem := (rfl)
@[simp] theorem State.andNotReg_time (a : Nat) (v : Word) : (s.andNotReg a v).time = s.time := (rfl)
@[simp] theorem State.andNotReg_chans (a : Nat) (v : Word) : (s.andNotReg a v).chans = s.chans := (rfl)
@[simp] theorem State.andNotReg_interp (a : Nat) (v : Word) : (s.andNotReg a v).interp = s.interp := (rfl)
@[simp] theorem State.andNotReg_planQ (a : Nat) (v : Word) : (s.andNotReg a v).planQ = s.planQ := (rfl)
@[simp] theorem State.andNotReg_sfq (a : Nat) (v : Word) : (s.andNotReg a v).sfq = s.sfq := (rfl)
@[simp] theorem State.andNotReg_ecc (a : Nat) (v : Word) : (s.andNotReg a v).ecc = s.ecc := (rfl)
@[simp] theorem State.andNotReg_dly (a : Nat) (v : Word) : (s.andNotReg a v).dly = s.dly := (rfl)
@[simp] theorem State.andNotReg_log (a : Nat) (v : Word) : (s.andNotReg a v).log = s.log := (rfl)
@[simp] theorem State.andNotReg_units (a : Nat) (v : Word) : (s.andNotReg a v).units = s.units := (rfl)
@[simp] theorem State.andNotReg_cmp (a : Nat) (v : Word) : (s.andNotReg a v).cmp = s.cmp := (rfl)
@[simp] theorem State.andNotReg_accWait (a : Nat) (v : Word) : (s.andNotReg a v).accWait = s.accWait := (rfl)
@[simp] theorem State.andNotReg_intents (a : Nat) (v : Word) : (s.andNotReg a v).intents = s.intents := (rfl)
@[simp] theorem State.andNotReg_fio (a : Nat) (v : Word) : (s.andNotReg a v).fio = s.fio := (rfl)
@[simp] theorem State.andNotReg_stn (a : Nat) (v : Word) : (s.andNotReg a v).stn = s.stn := (rfl)
@[simp] theorem State.andNotReg_can (a : Nat) (v : Word) : (s.andNotReg a v).can = s.can := (rfl)
@[simp] theorem State.andNotReg_swQ (a : Nat) (v : Word) : (s.andNotReg a v).swQ = s.swQ := (rfl)
@[simp] theorem State.andNotReg_ring (a : Nat) (v : Word) : (s.andNotReg a v).ring = s.ring := (rfl)
@[simp] theorem State.andNotReg_ce (a : Nat) (v : Word) : (s.andNotReg a v).ce = s.ce := (rfl)
@[simp] theorem State.andNotReg_h2 (a : Nat) (v : Word) : (s.andNotReg a v).h2 = s.h2 := (rfl)
@[simp] theorem State.andNotReg_h3 (a : Nat) (v : Word) : (s.andNotReg a v).h3 = s.h3 := (rfl)
@[simp] theorem State.andNotReg_sup (a : Nat) (v : Word) : (s.andNotReg a v).sup = s.sup := (rfl)
@[simp] theorem State.andNotReg_images (a : Nat) (v : Word) : (s.andNotReg a v).images = s.images := (rfl)
@[simp] theorem State.andNotReg_flash (a : Nat) (v : Word) : (s.andNotReg a v).flash = s.flash := (rfl)
@[simp] theorem State.andNotReg_rst (a : Nat) (v : Word) : (s.andNotReg a v).rst = s.rst := (rfl)
@[simp] theorem State.andNotReg_boot (a : Nat) (v : Word) : (s.andNotReg a v).boot = s.boot := (rfl)
@[simp] theorem State.andNotReg_pwr (a : Nat) (v : Word) : (s.andNotReg a v).pwr = s.pwr := (rfl)
@[simp] theorem State.andNotReg_msix (a : Nat) (v : Word) : (s.andNotReg a v).msix = s.msix := (rfl)

/-! ### count -/

@[simp] theorem State.count_pending (a : Nat) : (s.count a).pending = s.pending := (rfl)
@[simp] theorem State.count_fresh (a : Nat) : (s.count a).fresh = s.fresh := (rfl)
@[simp] theorem State.count_out (a : Nat) : (s.count a).out = s.out := (rfl)
@[simp] theorem State.count_mem (a : Nat) : (s.count a).mem = s.mem := (rfl)
@[simp] theorem State.count_time (a : Nat) : (s.count a).time = s.time := (rfl)
@[simp] theorem State.count_chans (a : Nat) : (s.count a).chans = s.chans := (rfl)
@[simp] theorem State.count_interp (a : Nat) : (s.count a).interp = s.interp := (rfl)
@[simp] theorem State.count_planQ (a : Nat) : (s.count a).planQ = s.planQ := (rfl)
@[simp] theorem State.count_sfq (a : Nat) : (s.count a).sfq = s.sfq := (rfl)
@[simp] theorem State.count_ecc (a : Nat) : (s.count a).ecc = s.ecc := (rfl)
@[simp] theorem State.count_dly (a : Nat) : (s.count a).dly = s.dly := (rfl)
@[simp] theorem State.count_log (a : Nat) : (s.count a).log = s.log := (rfl)
@[simp] theorem State.count_units (a : Nat) : (s.count a).units = s.units := (rfl)
@[simp] theorem State.count_cmp (a : Nat) : (s.count a).cmp = s.cmp := (rfl)
@[simp] theorem State.count_accWait (a : Nat) : (s.count a).accWait = s.accWait := (rfl)
@[simp] theorem State.count_intents (a : Nat) : (s.count a).intents = s.intents := (rfl)
@[simp] theorem State.count_fio (a : Nat) : (s.count a).fio = s.fio := (rfl)
@[simp] theorem State.count_stn (a : Nat) : (s.count a).stn = s.stn := (rfl)
@[simp] theorem State.count_can (a : Nat) : (s.count a).can = s.can := (rfl)
@[simp] theorem State.count_swQ (a : Nat) : (s.count a).swQ = s.swQ := (rfl)
@[simp] theorem State.count_ring (a : Nat) : (s.count a).ring = s.ring := (rfl)
@[simp] theorem State.count_ce (a : Nat) : (s.count a).ce = s.ce := (rfl)
@[simp] theorem State.count_h2 (a : Nat) : (s.count a).h2 = s.h2 := (rfl)
@[simp] theorem State.count_h3 (a : Nat) : (s.count a).h3 = s.h3 := (rfl)
@[simp] theorem State.count_sup (a : Nat) : (s.count a).sup = s.sup := (rfl)
@[simp] theorem State.count_images (a : Nat) : (s.count a).images = s.images := (rfl)
@[simp] theorem State.count_flash (a : Nat) : (s.count a).flash = s.flash := (rfl)
@[simp] theorem State.count_rst (a : Nat) : (s.count a).rst = s.rst := (rfl)
@[simp] theorem State.count_boot (a : Nat) : (s.count a).boot = s.boot := (rfl)
@[simp] theorem State.count_pwr (a : Nat) : (s.count a).pwr = s.pwr := (rfl)
@[simp] theorem State.count_msix (a : Nat) : (s.count a).msix = s.msix := (rfl)

/-! ### countBy -/

@[simp] theorem State.countBy_pending (a k : Nat) : (s.countBy a k).pending = s.pending := (rfl)
@[simp] theorem State.countBy_fresh (a k : Nat) : (s.countBy a k).fresh = s.fresh := (rfl)
@[simp] theorem State.countBy_out (a k : Nat) : (s.countBy a k).out = s.out := (rfl)
@[simp] theorem State.countBy_mem (a k : Nat) : (s.countBy a k).mem = s.mem := (rfl)
@[simp] theorem State.countBy_time (a k : Nat) : (s.countBy a k).time = s.time := (rfl)
@[simp] theorem State.countBy_chans (a k : Nat) : (s.countBy a k).chans = s.chans := (rfl)
@[simp] theorem State.countBy_interp (a k : Nat) : (s.countBy a k).interp = s.interp := (rfl)
@[simp] theorem State.countBy_planQ (a k : Nat) : (s.countBy a k).planQ = s.planQ := (rfl)
@[simp] theorem State.countBy_sfq (a k : Nat) : (s.countBy a k).sfq = s.sfq := (rfl)
@[simp] theorem State.countBy_ecc (a k : Nat) : (s.countBy a k).ecc = s.ecc := (rfl)
@[simp] theorem State.countBy_dly (a k : Nat) : (s.countBy a k).dly = s.dly := (rfl)
@[simp] theorem State.countBy_log (a k : Nat) : (s.countBy a k).log = s.log := (rfl)
@[simp] theorem State.countBy_units (a k : Nat) : (s.countBy a k).units = s.units := (rfl)
@[simp] theorem State.countBy_cmp (a k : Nat) : (s.countBy a k).cmp = s.cmp := (rfl)
@[simp] theorem State.countBy_accWait (a k : Nat) : (s.countBy a k).accWait = s.accWait := (rfl)
@[simp] theorem State.countBy_intents (a k : Nat) : (s.countBy a k).intents = s.intents := (rfl)
@[simp] theorem State.countBy_fio (a k : Nat) : (s.countBy a k).fio = s.fio := (rfl)
@[simp] theorem State.countBy_stn (a k : Nat) : (s.countBy a k).stn = s.stn := (rfl)
@[simp] theorem State.countBy_can (a k : Nat) : (s.countBy a k).can = s.can := (rfl)
@[simp] theorem State.countBy_swQ (a k : Nat) : (s.countBy a k).swQ = s.swQ := (rfl)
@[simp] theorem State.countBy_ring (a k : Nat) : (s.countBy a k).ring = s.ring := (rfl)
@[simp] theorem State.countBy_ce (a k : Nat) : (s.countBy a k).ce = s.ce := (rfl)
@[simp] theorem State.countBy_h2 (a k : Nat) : (s.countBy a k).h2 = s.h2 := (rfl)
@[simp] theorem State.countBy_h3 (a k : Nat) : (s.countBy a k).h3 = s.h3 := (rfl)
@[simp] theorem State.countBy_sup (a k : Nat) : (s.countBy a k).sup = s.sup := (rfl)
@[simp] theorem State.countBy_images (a k : Nat) : (s.countBy a k).images = s.images := (rfl)
@[simp] theorem State.countBy_flash (a k : Nat) : (s.countBy a k).flash = s.flash := (rfl)
@[simp] theorem State.countBy_rst (a k : Nat) : (s.countBy a k).rst = s.rst := (rfl)
@[simp] theorem State.countBy_boot (a k : Nat) : (s.countBy a k).boot = s.boot := (rfl)
@[simp] theorem State.countBy_pwr (a k : Nat) : (s.countBy a k).pwr = s.pwr := (rfl)
@[simp] theorem State.countBy_msix (a k : Nat) : (s.countBy a k).msix = s.msix := (rfl)

/-! ### wrapFld -/

@[simp] theorem State.wrapFld_pending (a lo n : Nat) : (s.wrapFld a lo n).pending = s.pending := (rfl)
@[simp] theorem State.wrapFld_fresh (a lo n : Nat) : (s.wrapFld a lo n).fresh = s.fresh := (rfl)
@[simp] theorem State.wrapFld_out (a lo n : Nat) : (s.wrapFld a lo n).out = s.out := (rfl)
@[simp] theorem State.wrapFld_mem (a lo n : Nat) : (s.wrapFld a lo n).mem = s.mem := (rfl)
@[simp] theorem State.wrapFld_time (a lo n : Nat) : (s.wrapFld a lo n).time = s.time := (rfl)
@[simp] theorem State.wrapFld_chans (a lo n : Nat) : (s.wrapFld a lo n).chans = s.chans := (rfl)
@[simp] theorem State.wrapFld_interp (a lo n : Nat) : (s.wrapFld a lo n).interp = s.interp := (rfl)
@[simp] theorem State.wrapFld_planQ (a lo n : Nat) : (s.wrapFld a lo n).planQ = s.planQ := (rfl)
@[simp] theorem State.wrapFld_sfq (a lo n : Nat) : (s.wrapFld a lo n).sfq = s.sfq := (rfl)
@[simp] theorem State.wrapFld_ecc (a lo n : Nat) : (s.wrapFld a lo n).ecc = s.ecc := (rfl)
@[simp] theorem State.wrapFld_dly (a lo n : Nat) : (s.wrapFld a lo n).dly = s.dly := (rfl)
@[simp] theorem State.wrapFld_log (a lo n : Nat) : (s.wrapFld a lo n).log = s.log := (rfl)
@[simp] theorem State.wrapFld_units (a lo n : Nat) : (s.wrapFld a lo n).units = s.units := (rfl)
@[simp] theorem State.wrapFld_cmp (a lo n : Nat) : (s.wrapFld a lo n).cmp = s.cmp := (rfl)
@[simp] theorem State.wrapFld_accWait (a lo n : Nat) : (s.wrapFld a lo n).accWait = s.accWait := (rfl)
@[simp] theorem State.wrapFld_intents (a lo n : Nat) : (s.wrapFld a lo n).intents = s.intents := (rfl)
@[simp] theorem State.wrapFld_fio (a lo n : Nat) : (s.wrapFld a lo n).fio = s.fio := (rfl)
@[simp] theorem State.wrapFld_stn (a lo n : Nat) : (s.wrapFld a lo n).stn = s.stn := (rfl)
@[simp] theorem State.wrapFld_can (a lo n : Nat) : (s.wrapFld a lo n).can = s.can := (rfl)
@[simp] theorem State.wrapFld_swQ (a lo n : Nat) : (s.wrapFld a lo n).swQ = s.swQ := (rfl)
@[simp] theorem State.wrapFld_ring (a lo n : Nat) : (s.wrapFld a lo n).ring = s.ring := (rfl)
@[simp] theorem State.wrapFld_ce (a lo n : Nat) : (s.wrapFld a lo n).ce = s.ce := (rfl)
@[simp] theorem State.wrapFld_h2 (a lo n : Nat) : (s.wrapFld a lo n).h2 = s.h2 := (rfl)
@[simp] theorem State.wrapFld_h3 (a lo n : Nat) : (s.wrapFld a lo n).h3 = s.h3 := (rfl)
@[simp] theorem State.wrapFld_sup (a lo n : Nat) : (s.wrapFld a lo n).sup = s.sup := (rfl)
@[simp] theorem State.wrapFld_images (a lo n : Nat) : (s.wrapFld a lo n).images = s.images := (rfl)
@[simp] theorem State.wrapFld_flash (a lo n : Nat) : (s.wrapFld a lo n).flash = s.flash := (rfl)
@[simp] theorem State.wrapFld_rst (a lo n : Nat) : (s.wrapFld a lo n).rst = s.rst := (rfl)
@[simp] theorem State.wrapFld_boot (a lo n : Nat) : (s.wrapFld a lo n).boot = s.boot := (rfl)
@[simp] theorem State.wrapFld_pwr (a lo n : Nat) : (s.wrapFld a lo n).pwr = s.pwr := (rfl)
@[simp] theorem State.wrapFld_msix (a lo n : Nat) : (s.wrapFld a lo n).msix = s.msix := (rfl)

/-! ### setPair -/

@[simp] theorem State.setPair_pending (lo hi v : Nat) : (s.setPair lo hi v).pending = s.pending := (rfl)
@[simp] theorem State.setPair_fresh (lo hi v : Nat) : (s.setPair lo hi v).fresh = s.fresh := (rfl)
@[simp] theorem State.setPair_out (lo hi v : Nat) : (s.setPair lo hi v).out = s.out := (rfl)
@[simp] theorem State.setPair_mem (lo hi v : Nat) : (s.setPair lo hi v).mem = s.mem := (rfl)
@[simp] theorem State.setPair_time (lo hi v : Nat) : (s.setPair lo hi v).time = s.time := (rfl)
@[simp] theorem State.setPair_chans (lo hi v : Nat) : (s.setPair lo hi v).chans = s.chans := (rfl)
@[simp] theorem State.setPair_interp (lo hi v : Nat) : (s.setPair lo hi v).interp = s.interp := (rfl)
@[simp] theorem State.setPair_planQ (lo hi v : Nat) : (s.setPair lo hi v).planQ = s.planQ := (rfl)
@[simp] theorem State.setPair_sfq (lo hi v : Nat) : (s.setPair lo hi v).sfq = s.sfq := (rfl)
@[simp] theorem State.setPair_ecc (lo hi v : Nat) : (s.setPair lo hi v).ecc = s.ecc := (rfl)
@[simp] theorem State.setPair_dly (lo hi v : Nat) : (s.setPair lo hi v).dly = s.dly := (rfl)
@[simp] theorem State.setPair_log (lo hi v : Nat) : (s.setPair lo hi v).log = s.log := (rfl)
@[simp] theorem State.setPair_units (lo hi v : Nat) : (s.setPair lo hi v).units = s.units := (rfl)
@[simp] theorem State.setPair_cmp (lo hi v : Nat) : (s.setPair lo hi v).cmp = s.cmp := (rfl)
@[simp] theorem State.setPair_accWait (lo hi v : Nat) : (s.setPair lo hi v).accWait = s.accWait := (rfl)
@[simp] theorem State.setPair_intents (lo hi v : Nat) : (s.setPair lo hi v).intents = s.intents := (rfl)
@[simp] theorem State.setPair_fio (lo hi v : Nat) : (s.setPair lo hi v).fio = s.fio := (rfl)
@[simp] theorem State.setPair_stn (lo hi v : Nat) : (s.setPair lo hi v).stn = s.stn := (rfl)
@[simp] theorem State.setPair_can (lo hi v : Nat) : (s.setPair lo hi v).can = s.can := (rfl)
@[simp] theorem State.setPair_swQ (lo hi v : Nat) : (s.setPair lo hi v).swQ = s.swQ := (rfl)
@[simp] theorem State.setPair_ring (lo hi v : Nat) : (s.setPair lo hi v).ring = s.ring := (rfl)
@[simp] theorem State.setPair_ce (lo hi v : Nat) : (s.setPair lo hi v).ce = s.ce := (rfl)
@[simp] theorem State.setPair_h2 (lo hi v : Nat) : (s.setPair lo hi v).h2 = s.h2 := (rfl)
@[simp] theorem State.setPair_h3 (lo hi v : Nat) : (s.setPair lo hi v).h3 = s.h3 := (rfl)
@[simp] theorem State.setPair_sup (lo hi v : Nat) : (s.setPair lo hi v).sup = s.sup := (rfl)
@[simp] theorem State.setPair_images (lo hi v : Nat) : (s.setPair lo hi v).images = s.images := (rfl)
@[simp] theorem State.setPair_flash (lo hi v : Nat) : (s.setPair lo hi v).flash = s.flash := (rfl)
@[simp] theorem State.setPair_rst (lo hi v : Nat) : (s.setPair lo hi v).rst = s.rst := (rfl)
@[simp] theorem State.setPair_boot (lo hi v : Nat) : (s.setPair lo hi v).boot = s.boot := (rfl)
@[simp] theorem State.setPair_pwr (lo hi v : Nat) : (s.setPair lo hi v).pwr = s.pwr := (rfl)
@[simp] theorem State.setPair_msix (lo hi v : Nat) : (s.setPair lo hi v).msix = s.msix := (rfl)

/-! ### setByte -/

@[simp] theorem State.setByte_pending (a : Nat) (b : Byte) : (s.setByte a b).pending = s.pending := (rfl)
@[simp] theorem State.setByte_fresh (a : Nat) (b : Byte) : (s.setByte a b).fresh = s.fresh := (rfl)
@[simp] theorem State.setByte_out (a : Nat) (b : Byte) : (s.setByte a b).out = s.out := (rfl)
@[simp] theorem State.setByte_time (a : Nat) (b : Byte) : (s.setByte a b).time = s.time := (rfl)
@[simp] theorem State.setByte_chans (a : Nat) (b : Byte) : (s.setByte a b).chans = s.chans := (rfl)
@[simp] theorem State.setByte_interp (a : Nat) (b : Byte) : (s.setByte a b).interp = s.interp := (rfl)
@[simp] theorem State.setByte_planQ (a : Nat) (b : Byte) : (s.setByte a b).planQ = s.planQ := (rfl)
@[simp] theorem State.setByte_sfq (a : Nat) (b : Byte) : (s.setByte a b).sfq = s.sfq := (rfl)
@[simp] theorem State.setByte_ecc (a : Nat) (b : Byte) : (s.setByte a b).ecc = s.ecc := (rfl)
@[simp] theorem State.setByte_dly (a : Nat) (b : Byte) : (s.setByte a b).dly = s.dly := (rfl)
@[simp] theorem State.setByte_log (a : Nat) (b : Byte) : (s.setByte a b).log = s.log := (rfl)
@[simp] theorem State.setByte_units (a : Nat) (b : Byte) : (s.setByte a b).units = s.units := (rfl)
@[simp] theorem State.setByte_cmp (a : Nat) (b : Byte) : (s.setByte a b).cmp = s.cmp := (rfl)
@[simp] theorem State.setByte_accWait (a : Nat) (b : Byte) : (s.setByte a b).accWait = s.accWait := (rfl)
@[simp] theorem State.setByte_intents (a : Nat) (b : Byte) : (s.setByte a b).intents = s.intents := (rfl)
@[simp] theorem State.setByte_fio (a : Nat) (b : Byte) : (s.setByte a b).fio = s.fio := (rfl)
@[simp] theorem State.setByte_stn (a : Nat) (b : Byte) : (s.setByte a b).stn = s.stn := (rfl)
@[simp] theorem State.setByte_can (a : Nat) (b : Byte) : (s.setByte a b).can = s.can := (rfl)
@[simp] theorem State.setByte_swQ (a : Nat) (b : Byte) : (s.setByte a b).swQ = s.swQ := (rfl)
@[simp] theorem State.setByte_ring (a : Nat) (b : Byte) : (s.setByte a b).ring = s.ring := (rfl)
@[simp] theorem State.setByte_ce (a : Nat) (b : Byte) : (s.setByte a b).ce = s.ce := (rfl)
@[simp] theorem State.setByte_h2 (a : Nat) (b : Byte) : (s.setByte a b).h2 = s.h2 := (rfl)
@[simp] theorem State.setByte_h3 (a : Nat) (b : Byte) : (s.setByte a b).h3 = s.h3 := (rfl)
@[simp] theorem State.setByte_sup (a : Nat) (b : Byte) : (s.setByte a b).sup = s.sup := (rfl)
@[simp] theorem State.setByte_images (a : Nat) (b : Byte) : (s.setByte a b).images = s.images := (rfl)
@[simp] theorem State.setByte_flash (a : Nat) (b : Byte) : (s.setByte a b).flash = s.flash := (rfl)
@[simp] theorem State.setByte_rst (a : Nat) (b : Byte) : (s.setByte a b).rst = s.rst := (rfl)
@[simp] theorem State.setByte_boot (a : Nat) (b : Byte) : (s.setByte a b).boot = s.boot := (rfl)
@[simp] theorem State.setByte_pwr (a : Nat) (b : Byte) : (s.setByte a b).pwr = s.pwr := (rfl)
@[simp] theorem State.setByte_msix (a : Nat) (b : Byte) : (s.setByte a b).msix = s.msix := (rfl)
@[simp] theorem State.setByte_regs (a : Nat) (b : Byte) : (s.setByte a b).regs = s.regs := (rfl)

/-! ### emit -/

@[simp] theorem State.emit_pending (o : Out) : (s.emit o).pending = s.pending := (rfl)
@[simp] theorem State.emit_fresh (o : Out) : (s.emit o).fresh = s.fresh := (rfl)
@[simp] theorem State.emit_mem (o : Out) : (s.emit o).mem = s.mem := (rfl)
@[simp] theorem State.emit_time (o : Out) : (s.emit o).time = s.time := (rfl)
@[simp] theorem State.emit_chans (o : Out) : (s.emit o).chans = s.chans := (rfl)
@[simp] theorem State.emit_interp (o : Out) : (s.emit o).interp = s.interp := (rfl)
@[simp] theorem State.emit_planQ (o : Out) : (s.emit o).planQ = s.planQ := (rfl)
@[simp] theorem State.emit_sfq (o : Out) : (s.emit o).sfq = s.sfq := (rfl)
@[simp] theorem State.emit_ecc (o : Out) : (s.emit o).ecc = s.ecc := (rfl)
@[simp] theorem State.emit_dly (o : Out) : (s.emit o).dly = s.dly := (rfl)
@[simp] theorem State.emit_log (o : Out) : (s.emit o).log = s.log := (rfl)
@[simp] theorem State.emit_units (o : Out) : (s.emit o).units = s.units := (rfl)
@[simp] theorem State.emit_cmp (o : Out) : (s.emit o).cmp = s.cmp := (rfl)
@[simp] theorem State.emit_accWait (o : Out) : (s.emit o).accWait = s.accWait := (rfl)
@[simp] theorem State.emit_intents (o : Out) : (s.emit o).intents = s.intents := (rfl)
@[simp] theorem State.emit_fio (o : Out) : (s.emit o).fio = s.fio := (rfl)
@[simp] theorem State.emit_stn (o : Out) : (s.emit o).stn = s.stn := (rfl)
@[simp] theorem State.emit_can (o : Out) : (s.emit o).can = s.can := (rfl)
@[simp] theorem State.emit_swQ (o : Out) : (s.emit o).swQ = s.swQ := (rfl)
@[simp] theorem State.emit_ring (o : Out) : (s.emit o).ring = s.ring := (rfl)
@[simp] theorem State.emit_ce (o : Out) : (s.emit o).ce = s.ce := (rfl)
@[simp] theorem State.emit_h2 (o : Out) : (s.emit o).h2 = s.h2 := (rfl)
@[simp] theorem State.emit_h3 (o : Out) : (s.emit o).h3 = s.h3 := (rfl)
@[simp] theorem State.emit_sup (o : Out) : (s.emit o).sup = s.sup := (rfl)
@[simp] theorem State.emit_images (o : Out) : (s.emit o).images = s.images := (rfl)
@[simp] theorem State.emit_flash (o : Out) : (s.emit o).flash = s.flash := (rfl)
@[simp] theorem State.emit_rst (o : Out) : (s.emit o).rst = s.rst := (rfl)
@[simp] theorem State.emit_boot (o : Out) : (s.emit o).boot = s.boot := (rfl)
@[simp] theorem State.emit_pwr (o : Out) : (s.emit o).pwr = s.pwr := (rfl)
@[simp] theorem State.emit_msix (o : Out) : (s.emit o).msix = s.msix := (rfl)
@[simp] theorem State.emit_regs (o : Out) : (s.emit o).regs = s.regs := (rfl)

/-! ### drawn -/

@[simp] theorem State.drawn_pending : (s.drawn).pending = s.pending := (rfl)
@[simp] theorem State.drawn_out : (s.drawn).out = s.out := (rfl)
@[simp] theorem State.drawn_mem : (s.drawn).mem = s.mem := (rfl)
@[simp] theorem State.drawn_time : (s.drawn).time = s.time := (rfl)
@[simp] theorem State.drawn_chans : (s.drawn).chans = s.chans := (rfl)
@[simp] theorem State.drawn_interp : (s.drawn).interp = s.interp := (rfl)
@[simp] theorem State.drawn_planQ : (s.drawn).planQ = s.planQ := (rfl)
@[simp] theorem State.drawn_sfq : (s.drawn).sfq = s.sfq := (rfl)
@[simp] theorem State.drawn_ecc : (s.drawn).ecc = s.ecc := (rfl)
@[simp] theorem State.drawn_dly : (s.drawn).dly = s.dly := (rfl)
@[simp] theorem State.drawn_log : (s.drawn).log = s.log := (rfl)
@[simp] theorem State.drawn_units : (s.drawn).units = s.units := (rfl)
@[simp] theorem State.drawn_cmp : (s.drawn).cmp = s.cmp := (rfl)
@[simp] theorem State.drawn_accWait : (s.drawn).accWait = s.accWait := (rfl)
@[simp] theorem State.drawn_intents : (s.drawn).intents = s.intents := (rfl)
@[simp] theorem State.drawn_fio : (s.drawn).fio = s.fio := (rfl)
@[simp] theorem State.drawn_stn : (s.drawn).stn = s.stn := (rfl)
@[simp] theorem State.drawn_can : (s.drawn).can = s.can := (rfl)
@[simp] theorem State.drawn_swQ : (s.drawn).swQ = s.swQ := (rfl)
@[simp] theorem State.drawn_ring : (s.drawn).ring = s.ring := (rfl)
@[simp] theorem State.drawn_ce : (s.drawn).ce = s.ce := (rfl)
@[simp] theorem State.drawn_h2 : (s.drawn).h2 = s.h2 := (rfl)
@[simp] theorem State.drawn_h3 : (s.drawn).h3 = s.h3 := (rfl)
@[simp] theorem State.drawn_sup : (s.drawn).sup = s.sup := (rfl)
@[simp] theorem State.drawn_images : (s.drawn).images = s.images := (rfl)
@[simp] theorem State.drawn_flash : (s.drawn).flash = s.flash := (rfl)
@[simp] theorem State.drawn_rst : (s.drawn).rst = s.rst := (rfl)
@[simp] theorem State.drawn_boot : (s.drawn).boot = s.boot := (rfl)
@[simp] theorem State.drawn_pwr : (s.drawn).pwr = s.pwr := (rfl)
@[simp] theorem State.drawn_msix : (s.drawn).msix = s.msix := (rfl)
@[simp] theorem State.drawn_regs : (s.drawn).regs = s.regs := (rfl)

/-! ### setNow -/

@[simp] theorem State.setNow_pending (d : Die) (t : DevTime) : (s.setNow d t).pending = s.pending := (rfl)
@[simp] theorem State.setNow_fresh (d : Die) (t : DevTime) : (s.setNow d t).fresh = s.fresh := (rfl)
@[simp] theorem State.setNow_out (d : Die) (t : DevTime) : (s.setNow d t).out = s.out := (rfl)
@[simp] theorem State.setNow_mem (d : Die) (t : DevTime) : (s.setNow d t).mem = s.mem := (rfl)
@[simp] theorem State.setNow_chans (d : Die) (t : DevTime) : (s.setNow d t).chans = s.chans := (rfl)
@[simp] theorem State.setNow_interp (d : Die) (t : DevTime) : (s.setNow d t).interp = s.interp := (rfl)
@[simp] theorem State.setNow_planQ (d : Die) (t : DevTime) : (s.setNow d t).planQ = s.planQ := (rfl)
@[simp] theorem State.setNow_sfq (d : Die) (t : DevTime) : (s.setNow d t).sfq = s.sfq := (rfl)
@[simp] theorem State.setNow_ecc (d : Die) (t : DevTime) : (s.setNow d t).ecc = s.ecc := (rfl)
@[simp] theorem State.setNow_dly (d : Die) (t : DevTime) : (s.setNow d t).dly = s.dly := (rfl)
@[simp] theorem State.setNow_log (d : Die) (t : DevTime) : (s.setNow d t).log = s.log := (rfl)
@[simp] theorem State.setNow_units (d : Die) (t : DevTime) : (s.setNow d t).units = s.units := (rfl)
@[simp] theorem State.setNow_cmp (d : Die) (t : DevTime) : (s.setNow d t).cmp = s.cmp := (rfl)
@[simp] theorem State.setNow_accWait (d : Die) (t : DevTime) : (s.setNow d t).accWait = s.accWait := (rfl)
@[simp] theorem State.setNow_intents (d : Die) (t : DevTime) : (s.setNow d t).intents = s.intents := (rfl)
@[simp] theorem State.setNow_fio (d : Die) (t : DevTime) : (s.setNow d t).fio = s.fio := (rfl)
@[simp] theorem State.setNow_stn (d : Die) (t : DevTime) : (s.setNow d t).stn = s.stn := (rfl)
@[simp] theorem State.setNow_can (d : Die) (t : DevTime) : (s.setNow d t).can = s.can := (rfl)
@[simp] theorem State.setNow_swQ (d : Die) (t : DevTime) : (s.setNow d t).swQ = s.swQ := (rfl)
@[simp] theorem State.setNow_ring (d : Die) (t : DevTime) : (s.setNow d t).ring = s.ring := (rfl)
@[simp] theorem State.setNow_ce (d : Die) (t : DevTime) : (s.setNow d t).ce = s.ce := (rfl)
@[simp] theorem State.setNow_h2 (d : Die) (t : DevTime) : (s.setNow d t).h2 = s.h2 := (rfl)
@[simp] theorem State.setNow_h3 (d : Die) (t : DevTime) : (s.setNow d t).h3 = s.h3 := (rfl)
@[simp] theorem State.setNow_sup (d : Die) (t : DevTime) : (s.setNow d t).sup = s.sup := (rfl)
@[simp] theorem State.setNow_images (d : Die) (t : DevTime) : (s.setNow d t).images = s.images := (rfl)
@[simp] theorem State.setNow_flash (d : Die) (t : DevTime) : (s.setNow d t).flash = s.flash := (rfl)
@[simp] theorem State.setNow_rst (d : Die) (t : DevTime) : (s.setNow d t).rst = s.rst := (rfl)
@[simp] theorem State.setNow_boot (d : Die) (t : DevTime) : (s.setNow d t).boot = s.boot := (rfl)
@[simp] theorem State.setNow_pwr (d : Die) (t : DevTime) : (s.setNow d t).pwr = s.pwr := (rfl)
@[simp] theorem State.setNow_msix (d : Die) (t : DevTime) : (s.setNow d t).msix = s.msix := (rfl)
@[simp] theorem State.setNow_regs (d : Die) (t : DevTime) : (s.setNow d t).regs = s.regs := (rfl)

/-! ### setBoot -/

@[simp] theorem State.setBoot_pending (d : Die) (b : Boot) : (s.setBoot d b).pending = s.pending := (rfl)
@[simp] theorem State.setBoot_fresh (d : Die) (b : Boot) : (s.setBoot d b).fresh = s.fresh := (rfl)
@[simp] theorem State.setBoot_out (d : Die) (b : Boot) : (s.setBoot d b).out = s.out := (rfl)
@[simp] theorem State.setBoot_mem (d : Die) (b : Boot) : (s.setBoot d b).mem = s.mem := (rfl)
@[simp] theorem State.setBoot_time (d : Die) (b : Boot) : (s.setBoot d b).time = s.time := (rfl)
@[simp] theorem State.setBoot_chans (d : Die) (b : Boot) : (s.setBoot d b).chans = s.chans := (rfl)
@[simp] theorem State.setBoot_interp (d : Die) (b : Boot) : (s.setBoot d b).interp = s.interp := (rfl)
@[simp] theorem State.setBoot_planQ (d : Die) (b : Boot) : (s.setBoot d b).planQ = s.planQ := (rfl)
@[simp] theorem State.setBoot_sfq (d : Die) (b : Boot) : (s.setBoot d b).sfq = s.sfq := (rfl)
@[simp] theorem State.setBoot_ecc (d : Die) (b : Boot) : (s.setBoot d b).ecc = s.ecc := (rfl)
@[simp] theorem State.setBoot_dly (d : Die) (b : Boot) : (s.setBoot d b).dly = s.dly := (rfl)
@[simp] theorem State.setBoot_log (d : Die) (b : Boot) : (s.setBoot d b).log = s.log := (rfl)
@[simp] theorem State.setBoot_units (d : Die) (b : Boot) : (s.setBoot d b).units = s.units := (rfl)
@[simp] theorem State.setBoot_cmp (d : Die) (b : Boot) : (s.setBoot d b).cmp = s.cmp := (rfl)
@[simp] theorem State.setBoot_accWait (d : Die) (b : Boot) : (s.setBoot d b).accWait = s.accWait := (rfl)
@[simp] theorem State.setBoot_intents (d : Die) (b : Boot) : (s.setBoot d b).intents = s.intents := (rfl)
@[simp] theorem State.setBoot_fio (d : Die) (b : Boot) : (s.setBoot d b).fio = s.fio := (rfl)
@[simp] theorem State.setBoot_stn (d : Die) (b : Boot) : (s.setBoot d b).stn = s.stn := (rfl)
@[simp] theorem State.setBoot_can (d : Die) (b : Boot) : (s.setBoot d b).can = s.can := (rfl)
@[simp] theorem State.setBoot_swQ (d : Die) (b : Boot) : (s.setBoot d b).swQ = s.swQ := (rfl)
@[simp] theorem State.setBoot_ring (d : Die) (b : Boot) : (s.setBoot d b).ring = s.ring := (rfl)
@[simp] theorem State.setBoot_ce (d : Die) (b : Boot) : (s.setBoot d b).ce = s.ce := (rfl)
@[simp] theorem State.setBoot_h2 (d : Die) (b : Boot) : (s.setBoot d b).h2 = s.h2 := (rfl)
@[simp] theorem State.setBoot_h3 (d : Die) (b : Boot) : (s.setBoot d b).h3 = s.h3 := (rfl)
@[simp] theorem State.setBoot_sup (d : Die) (b : Boot) : (s.setBoot d b).sup = s.sup := (rfl)
@[simp] theorem State.setBoot_images (d : Die) (b : Boot) : (s.setBoot d b).images = s.images := (rfl)
@[simp] theorem State.setBoot_flash (d : Die) (b : Boot) : (s.setBoot d b).flash = s.flash := (rfl)
@[simp] theorem State.setBoot_rst (d : Die) (b : Boot) : (s.setBoot d b).rst = s.rst := (rfl)
@[simp] theorem State.setBoot_pwr (d : Die) (b : Boot) : (s.setBoot d b).pwr = s.pwr := (rfl)
@[simp] theorem State.setBoot_msix (d : Die) (b : Boot) : (s.setBoot d b).msix = s.msix := (rfl)
@[simp] theorem State.setBoot_regs (d : Die) (b : Boot) : (s.setBoot d b).regs = s.regs := (rfl)

/-! ### setPwr -/

@[simp] theorem State.setPwr_pending (d : Die) (p : Pwr) : (s.setPwr d p).pending = s.pending := (rfl)
@[simp] theorem State.setPwr_fresh (d : Die) (p : Pwr) : (s.setPwr d p).fresh = s.fresh := (rfl)
@[simp] theorem State.setPwr_out (d : Die) (p : Pwr) : (s.setPwr d p).out = s.out := (rfl)
@[simp] theorem State.setPwr_mem (d : Die) (p : Pwr) : (s.setPwr d p).mem = s.mem := (rfl)
@[simp] theorem State.setPwr_time (d : Die) (p : Pwr) : (s.setPwr d p).time = s.time := (rfl)
@[simp] theorem State.setPwr_chans (d : Die) (p : Pwr) : (s.setPwr d p).chans = s.chans := (rfl)
@[simp] theorem State.setPwr_interp (d : Die) (p : Pwr) : (s.setPwr d p).interp = s.interp := (rfl)
@[simp] theorem State.setPwr_planQ (d : Die) (p : Pwr) : (s.setPwr d p).planQ = s.planQ := (rfl)
@[simp] theorem State.setPwr_sfq (d : Die) (p : Pwr) : (s.setPwr d p).sfq = s.sfq := (rfl)
@[simp] theorem State.setPwr_ecc (d : Die) (p : Pwr) : (s.setPwr d p).ecc = s.ecc := (rfl)
@[simp] theorem State.setPwr_dly (d : Die) (p : Pwr) : (s.setPwr d p).dly = s.dly := (rfl)
@[simp] theorem State.setPwr_log (d : Die) (p : Pwr) : (s.setPwr d p).log = s.log := (rfl)
@[simp] theorem State.setPwr_units (d : Die) (p : Pwr) : (s.setPwr d p).units = s.units := (rfl)
@[simp] theorem State.setPwr_cmp (d : Die) (p : Pwr) : (s.setPwr d p).cmp = s.cmp := (rfl)
@[simp] theorem State.setPwr_accWait (d : Die) (p : Pwr) : (s.setPwr d p).accWait = s.accWait := (rfl)
@[simp] theorem State.setPwr_intents (d : Die) (p : Pwr) : (s.setPwr d p).intents = s.intents := (rfl)
@[simp] theorem State.setPwr_fio (d : Die) (p : Pwr) : (s.setPwr d p).fio = s.fio := (rfl)
@[simp] theorem State.setPwr_stn (d : Die) (p : Pwr) : (s.setPwr d p).stn = s.stn := (rfl)
@[simp] theorem State.setPwr_can (d : Die) (p : Pwr) : (s.setPwr d p).can = s.can := (rfl)
@[simp] theorem State.setPwr_swQ (d : Die) (p : Pwr) : (s.setPwr d p).swQ = s.swQ := (rfl)
@[simp] theorem State.setPwr_ring (d : Die) (p : Pwr) : (s.setPwr d p).ring = s.ring := (rfl)
@[simp] theorem State.setPwr_ce (d : Die) (p : Pwr) : (s.setPwr d p).ce = s.ce := (rfl)
@[simp] theorem State.setPwr_h2 (d : Die) (p : Pwr) : (s.setPwr d p).h2 = s.h2 := (rfl)
@[simp] theorem State.setPwr_h3 (d : Die) (p : Pwr) : (s.setPwr d p).h3 = s.h3 := (rfl)
@[simp] theorem State.setPwr_sup (d : Die) (p : Pwr) : (s.setPwr d p).sup = s.sup := (rfl)
@[simp] theorem State.setPwr_images (d : Die) (p : Pwr) : (s.setPwr d p).images = s.images := (rfl)
@[simp] theorem State.setPwr_flash (d : Die) (p : Pwr) : (s.setPwr d p).flash = s.flash := (rfl)
@[simp] theorem State.setPwr_rst (d : Die) (p : Pwr) : (s.setPwr d p).rst = s.rst := (rfl)
@[simp] theorem State.setPwr_boot (d : Die) (p : Pwr) : (s.setPwr d p).boot = s.boot := (rfl)
@[simp] theorem State.setPwr_msix (d : Die) (p : Pwr) : (s.setPwr d p).msix = s.msix := (rfl)
@[simp] theorem State.setPwr_regs (d : Die) (p : Pwr) : (s.setPwr d p).regs = s.regs := (rfl)

/-! ### dblQueue -/

@[simp] theorem State.dblQueue_pending (d : Die) (r : Nat) (m : Word) : (s.dblQueue d r m).pending = s.pending := (rfl)
@[simp] theorem State.dblQueue_fresh (d : Die) (r : Nat) (m : Word) : (s.dblQueue d r m).fresh = s.fresh := (rfl)
@[simp] theorem State.dblQueue_out (d : Die) (r : Nat) (m : Word) : (s.dblQueue d r m).out = s.out := (rfl)
@[simp] theorem State.dblQueue_mem (d : Die) (r : Nat) (m : Word) : (s.dblQueue d r m).mem = s.mem := (rfl)
@[simp] theorem State.dblQueue_time (d : Die) (r : Nat) (m : Word) : (s.dblQueue d r m).time = s.time := (rfl)
@[simp] theorem State.dblQueue_chans (d : Die) (r : Nat) (m : Word) : (s.dblQueue d r m).chans = s.chans := (rfl)
@[simp] theorem State.dblQueue_interp (d : Die) (r : Nat) (m : Word) : (s.dblQueue d r m).interp = s.interp := (rfl)
@[simp] theorem State.dblQueue_planQ (d : Die) (r : Nat) (m : Word) : (s.dblQueue d r m).planQ = s.planQ := (rfl)
@[simp] theorem State.dblQueue_sfq (d : Die) (r : Nat) (m : Word) : (s.dblQueue d r m).sfq = s.sfq := (rfl)
@[simp] theorem State.dblQueue_ecc (d : Die) (r : Nat) (m : Word) : (s.dblQueue d r m).ecc = s.ecc := (rfl)
@[simp] theorem State.dblQueue_dly (d : Die) (r : Nat) (m : Word) : (s.dblQueue d r m).dly = s.dly := (rfl)
@[simp] theorem State.dblQueue_log (d : Die) (r : Nat) (m : Word) : (s.dblQueue d r m).log = s.log := (rfl)
@[simp] theorem State.dblQueue_units (d : Die) (r : Nat) (m : Word) : (s.dblQueue d r m).units = s.units := (rfl)
@[simp] theorem State.dblQueue_cmp (d : Die) (r : Nat) (m : Word) : (s.dblQueue d r m).cmp = s.cmp := (rfl)
@[simp] theorem State.dblQueue_accWait (d : Die) (r : Nat) (m : Word) : (s.dblQueue d r m).accWait = s.accWait := (rfl)
@[simp] theorem State.dblQueue_intents (d : Die) (r : Nat) (m : Word) : (s.dblQueue d r m).intents = s.intents := (rfl)
@[simp] theorem State.dblQueue_fio (d : Die) (r : Nat) (m : Word) : (s.dblQueue d r m).fio = s.fio := (rfl)
@[simp] theorem State.dblQueue_stn (d : Die) (r : Nat) (m : Word) : (s.dblQueue d r m).stn = s.stn := (rfl)
@[simp] theorem State.dblQueue_can (d : Die) (r : Nat) (m : Word) : (s.dblQueue d r m).can = s.can := (rfl)
@[simp] theorem State.dblQueue_swQ (d : Die) (r : Nat) (m : Word) : (s.dblQueue d r m).swQ = s.swQ := (rfl)
@[simp] theorem State.dblQueue_ring (d : Die) (r : Nat) (m : Word) : (s.dblQueue d r m).ring = s.ring := (rfl)
@[simp] theorem State.dblQueue_ce (d : Die) (r : Nat) (m : Word) : (s.dblQueue d r m).ce = s.ce := (rfl)
@[simp] theorem State.dblQueue_h2 (d : Die) (r : Nat) (m : Word) : (s.dblQueue d r m).h2 = s.h2 := (rfl)
@[simp] theorem State.dblQueue_h3 (d : Die) (r : Nat) (m : Word) : (s.dblQueue d r m).h3 = s.h3 := (rfl)
@[simp] theorem State.dblQueue_sup (d : Die) (r : Nat) (m : Word) : (s.dblQueue d r m).sup = s.sup := (rfl)
@[simp] theorem State.dblQueue_images (d : Die) (r : Nat) (m : Word) : (s.dblQueue d r m).images = s.images := (rfl)
@[simp] theorem State.dblQueue_flash (d : Die) (r : Nat) (m : Word) : (s.dblQueue d r m).flash = s.flash := (rfl)
@[simp] theorem State.dblQueue_rst (d : Die) (r : Nat) (m : Word) : (s.dblQueue d r m).rst = s.rst := (rfl)
@[simp] theorem State.dblQueue_boot (d : Die) (r : Nat) (m : Word) : (s.dblQueue d r m).boot = s.boot := (rfl)
@[simp] theorem State.dblQueue_pwr (d : Die) (r : Nat) (m : Word) : (s.dblQueue d r m).pwr = s.pwr := (rfl)
@[simp] theorem State.dblQueue_msix (d : Die) (r : Nat) (m : Word) : (s.dblQueue d r m).msix = s.msix := (rfl)
@[simp] theorem State.dblQueue_regs (d : Die) (r : Nat) (m : Word) : (s.dblQueue d r m).regs = s.regs := (rfl)

/-! ### setUnit -/

@[simp] theorem State.setUnit_pending (d : Die) (c k : Nat) (u : HUnit) : (s.setUnit d c k u).pending = s.pending := (rfl)
@[simp] theorem State.setUnit_fresh (d : Die) (c k : Nat) (u : HUnit) : (s.setUnit d c k u).fresh = s.fresh := (rfl)
@[simp] theorem State.setUnit_out (d : Die) (c k : Nat) (u : HUnit) : (s.setUnit d c k u).out = s.out := (rfl)
@[simp] theorem State.setUnit_mem (d : Die) (c k : Nat) (u : HUnit) : (s.setUnit d c k u).mem = s.mem := (rfl)
@[simp] theorem State.setUnit_time (d : Die) (c k : Nat) (u : HUnit) : (s.setUnit d c k u).time = s.time := (rfl)
@[simp] theorem State.setUnit_chans (d : Die) (c k : Nat) (u : HUnit) : (s.setUnit d c k u).chans = s.chans := (rfl)
@[simp] theorem State.setUnit_interp (d : Die) (c k : Nat) (u : HUnit) : (s.setUnit d c k u).interp = s.interp := (rfl)
@[simp] theorem State.setUnit_planQ (d : Die) (c k : Nat) (u : HUnit) : (s.setUnit d c k u).planQ = s.planQ := (rfl)
@[simp] theorem State.setUnit_sfq (d : Die) (c k : Nat) (u : HUnit) : (s.setUnit d c k u).sfq = s.sfq := (rfl)
@[simp] theorem State.setUnit_ecc (d : Die) (c k : Nat) (u : HUnit) : (s.setUnit d c k u).ecc = s.ecc := (rfl)
@[simp] theorem State.setUnit_dly (d : Die) (c k : Nat) (u : HUnit) : (s.setUnit d c k u).dly = s.dly := (rfl)
@[simp] theorem State.setUnit_log (d : Die) (c k : Nat) (u : HUnit) : (s.setUnit d c k u).log = s.log := (rfl)
@[simp] theorem State.setUnit_cmp (d : Die) (c k : Nat) (u : HUnit) : (s.setUnit d c k u).cmp = s.cmp := (rfl)
@[simp] theorem State.setUnit_accWait (d : Die) (c k : Nat) (u : HUnit) : (s.setUnit d c k u).accWait = s.accWait := (rfl)
@[simp] theorem State.setUnit_intents (d : Die) (c k : Nat) (u : HUnit) : (s.setUnit d c k u).intents = s.intents := (rfl)
@[simp] theorem State.setUnit_fio (d : Die) (c k : Nat) (u : HUnit) : (s.setUnit d c k u).fio = s.fio := (rfl)
@[simp] theorem State.setUnit_stn (d : Die) (c k : Nat) (u : HUnit) : (s.setUnit d c k u).stn = s.stn := (rfl)
@[simp] theorem State.setUnit_can (d : Die) (c k : Nat) (u : HUnit) : (s.setUnit d c k u).can = s.can := (rfl)
@[simp] theorem State.setUnit_swQ (d : Die) (c k : Nat) (u : HUnit) : (s.setUnit d c k u).swQ = s.swQ := (rfl)
@[simp] theorem State.setUnit_ring (d : Die) (c k : Nat) (u : HUnit) : (s.setUnit d c k u).ring = s.ring := (rfl)
@[simp] theorem State.setUnit_ce (d : Die) (c k : Nat) (u : HUnit) : (s.setUnit d c k u).ce = s.ce := (rfl)
@[simp] theorem State.setUnit_h2 (d : Die) (c k : Nat) (u : HUnit) : (s.setUnit d c k u).h2 = s.h2 := (rfl)
@[simp] theorem State.setUnit_h3 (d : Die) (c k : Nat) (u : HUnit) : (s.setUnit d c k u).h3 = s.h3 := (rfl)
@[simp] theorem State.setUnit_sup (d : Die) (c k : Nat) (u : HUnit) : (s.setUnit d c k u).sup = s.sup := (rfl)
@[simp] theorem State.setUnit_images (d : Die) (c k : Nat) (u : HUnit) : (s.setUnit d c k u).images = s.images := (rfl)
@[simp] theorem State.setUnit_flash (d : Die) (c k : Nat) (u : HUnit) : (s.setUnit d c k u).flash = s.flash := (rfl)
@[simp] theorem State.setUnit_rst (d : Die) (c k : Nat) (u : HUnit) : (s.setUnit d c k u).rst = s.rst := (rfl)
@[simp] theorem State.setUnit_boot (d : Die) (c k : Nat) (u : HUnit) : (s.setUnit d c k u).boot = s.boot := (rfl)
@[simp] theorem State.setUnit_pwr (d : Die) (c k : Nat) (u : HUnit) : (s.setUnit d c k u).pwr = s.pwr := (rfl)
@[simp] theorem State.setUnit_msix (d : Die) (c k : Nat) (u : HUnit) : (s.setUnit d c k u).msix = s.msix := (rfl)
@[simp] theorem State.setUnit_regs (d : Die) (c k : Nat) (u : HUnit) : (s.setUnit d c k u).regs = s.regs := (rfl)

/-! ### Registers -/

@[simp] theorem State.getReg_setReg (a b : Nat) (v : Word) : (s.setReg a v).getReg b = if b = a then v else s.getReg b :=
  Tab.get_put _ _ _ _

theorem State.getReg_setReg_ne {a b : Nat} (v : Word) (h : b ≠ a) : (s.setReg a v).getReg b = s.getReg b := Tab.get_put_ne _ _ h

@[simp] theorem State.getReg_setFld (a b lo n v : Nat) :
    (s.setFld a lo n v).getReg b = if b = a then setBits (s.getReg a) lo n v else s.getReg b := State.getReg_setReg _ _ _ _

@[simp] theorem State.getReg_setFlag (a b i : Nat) (x : Bool) :
    (s.setFlag a i x).getReg b = if b = a then setBits (s.getReg a) i 1 (if x then 1 else 0) else s.getReg b := State.getReg_setFld _ _ _ _ _ _

@[simp] theorem State.getReg_orReg (a b : Nat) (v : Word) : (s.orReg a v).getReg b = if b = a then s.getReg a ||| v else s.getReg b :=
  State.getReg_setReg _ _ _ _

@[simp] theorem State.getReg_andNotReg (a b : Nat) (v : Word) : (s.andNotReg a v).getReg b = if b = a then s.getReg a &&& ~~~v else s.getReg b :=
  State.getReg_setReg _ _ _ _

@[simp] theorem State.getReg_count (a b : Nat) :
    (s.count a).getReg b = if b = a then wd (min ((s.getReg a).toNat + 1) 0xFFFFFFFF) else s.getReg b := State.getReg_setReg _ _ _ _

@[simp] theorem State.getReg_countBy (a b k : Nat) :
    (s.countBy a k).getReg b = if b = a then wd (min ((s.getReg a).toNat + k) 0xFFFFFFFF) else s.getReg b := State.getReg_setReg _ _ _ _

@[simp] theorem State.getReg_wrapFld (a b lo n : Nat) :
    (s.wrapFld a lo n).getReg b = if b = a then setBits (s.getReg a) lo n (s.fld a lo n + 1) else s.getReg b := State.getReg_setFld _ _ _ _ _ _

/-- Registers read alike in states that hold the same register file. -/
theorem State.getReg_congr {s t : State} (h : t.regs = s.regs) (a : Nat) : t.getReg a = s.getReg a := by simp [State.getReg, h]

@[simp] theorem State.getReg_emit (o : Out) (a : Nat) : (s.emit o).getReg a = s.getReg a := (rfl)
@[simp] theorem State.getReg_drawn (a : Nat) : s.drawn.getReg a = s.getReg a := (rfl)
@[simp] theorem State.getReg_setByte (x : Nat) (y : Byte) (a : Nat) : (s.setByte x y).getReg a = s.getReg a := (rfl)
@[simp] theorem State.getReg_setNow (d : Die) (t : DevTime) (a : Nat) : (s.setNow d t).getReg a = s.getReg a := (rfl)
@[simp] theorem State.getReg_setBoot (d : Die) (b : Boot) (a : Nat) : (s.setBoot d b).getReg a = s.getReg a := (rfl)
@[simp] theorem State.getReg_setPwr (d : Die) (p : Pwr) (a : Nat) : (s.setPwr d p).getReg a = s.getReg a := (rfl)
@[simp] theorem State.getReg_dblQueue (d : Die) (r : Nat) (m : Word) (a : Nat) : (s.dblQueue d r m).getReg a = s.getReg a := (rfl)
@[simp] theorem State.getReg_setUnit (d : Die) (c k : Nat) (u : HUnit) (a : Nat) : (s.setUnit d c k u).getReg a = s.getReg a := (rfl)

theorem State.getReg_ite (p : Prop) [Decidable p] (x y : State) (a : Nat) :
    (if p then x else y).getReg a = if p then x.getReg a else y.getReg a := apply_ite (fun s : State => s.getReg a) _ _ _

theorem State.byte_ite (p : Prop) [Decidable p] (x y : State) (a : Nat) :
    (if p then x else y).byte a = if p then x.byte a else y.byte a := apply_ite (fun s : State => s.byte a) _ _ _

theorem State.fld_def (a lo n : Nat) : s.fld a lo n = bits (s.getReg a) lo n := (rfl)
theorem State.flag_def (a i : Nat) : s.flag a i = bit (s.getReg a) i := (rfl)

/-- A field written reads back. -/
@[simp] theorem State.fld_setFld_self (a lo n v : Nat) (h : lo + n ≤ 32) : (s.setFld a lo n v).fld a lo n = v % 2 ^ n := by
  simp [State.fld_def, h]

/-- A flag written reads back. -/
@[simp] theorem State.flag_setFlag_self (a i : Nat) (b : Bool) (h : i < 32) : (s.setFlag a i b).flag a i = b := by
  simp [State.flag_def, h]

/-! ### Memory -/

@[simp] theorem State.byte_setByte (a b : Nat) (v : Byte) : (s.setByte a v).byte b = if b = a then v else s.byte b := Tab.get_put _ _ _ _
@[simp] theorem State.byte_setReg (a : Nat) (v : Word) (b : Nat) : (s.setReg a v).byte b = s.byte b := (rfl)
@[simp] theorem State.byte_setFld (a lo n v b : Nat) : (s.setFld a lo n v).byte b = s.byte b := (rfl)
@[simp] theorem State.byte_setFlag (a i : Nat) (v : Bool) (b : Nat) : (s.setFlag a i v).byte b = s.byte b := (rfl)
@[simp] theorem State.byte_emit (o : Out) (b : Nat) : (s.emit o).byte b = s.byte b := (rfl)
@[simp] theorem State.byte_drawn (b : Nat) : s.drawn.byte b = s.byte b := (rfl)

/-- Bytes outside a run that is stored stay. -/
theorem State.byte_store_outside (l : List Byte) (s : State) (a b : Nat) (h : b < a ∨ a + l.length ≤ b) : (s.store a l).byte b = s.byte b := by
  induction l generalizing s a with
  | nil => rfl
  | cons x t ih =>
    simp only [List.length_cons] at h
    rw [State.store, ih (s.setByte a x) (a + 1) (by omega), State.byte_setByte, if_neg (by omega)]

/-- Bytes of a run that is stored read back. -/
theorem State.byte_store_inside (l : List Byte) (s : State) (a i : Nat) (h : i < l.length) : (s.store a l).byte (a + i) = l[i] := by
  induction l generalizing s a i with
  | nil => simp at h
  | cons x t ih =>
    cases i with
    | zero =>
      rw [State.store, State.byte_store_outside _ _ _ _ (by omega)]
      simp
    | succ i =>
      have := ih (s.setByte a x) (a + 1) i (by simpa using h)
      rw [State.store, show a + (i + 1) = a + 1 + i by omega, this]
      simp

@[simp] theorem State.store_regs (l : List Byte) (s : State) (a : Nat) : (s.store a l).regs = s.regs := by
  induction l generalizing s a with
  | nil => rfl
  | cons x t ih => rw [State.store, ih]; rfl

@[simp] theorem State.getReg_store (l : List Byte) (a b : Nat) : (s.store a l).getReg b = s.getReg b := State.getReg_congr (by simp) _

/-- A store keeps the memory's canonical form. -/
theorem State.store_wf (l : List Byte) (s : State) (a : Nat) (h : Tab.wf memDefault s.mem = true) : Tab.wf memDefault (s.store a l).mem = true := by
  induction l generalizing s a with
  | nil => exact h
  | cons x t ih => exact ih _ _ (Tab.wf_put _ _ h)

theorem State.storeEn_wf (l : List (Option Byte)) (s : State) (a : Nat) (h : Tab.wf memDefault s.mem = true) :
    Tab.wf memDefault (s.storeEn a l).mem = true := by
  induction l generalizing s a with
  | nil => exact h
  | cons x t ih => cases x with
    | none => exact ih _ _ h
    | some b => exact ih _ _ (Tab.wf_put _ _ h)

theorem State.setWord_wf (a : Nat) (w : Word) (h : Tab.wf memDefault s.mem = true) : Tab.wf memDefault (s.setWord a w).mem = true :=
  State.store_wf _ _ _ h

theorem State.setWords_wf (l : List Word) (s : State) (a : Nat) (h : Tab.wf memDefault s.mem = true) :
    Tab.wf memDefault (s.setWords a l).mem = true := by
  induction l generalizing s a with
  | nil => exact h
  | cons x t ih => exact ih _ _ (State.setWord_wf _ _ _ h)

/-- A register write keeps the register file's canonical form. -/
theorem State.setReg_wf (a : Nat) (v : Word) (h : Tab.wf resetWord s.regs = true) : Tab.wf resetWord (s.setReg a v).regs = true := Tab.wf_put _ _ h

/-! ### Device time -/

@[simp] theorem State.now_setNow_self (d : Die) (t : DevTime) : (s.setNow d t).now d = t := Tab.get_put_self _ _ _
@[simp] theorem State.now_setReg (a : Nat) (v : Word) (d : Die) : (s.setReg a v).now d = s.now d := (rfl)
@[simp] theorem State.now_setFld (a lo n v : Nat) (d : Die) : (s.setFld a lo n v).now d = s.now d := (rfl)
@[simp] theorem State.now_setFlag (a i : Nat) (b : Bool) (d : Die) : (s.setFlag a i b).now d = s.now d := (rfl)
@[simp] theorem State.now_emit (o : Out) (d : Die) : (s.emit o).now d = s.now d := (rfl)

/-! ### The fields that no section above names -/

@[simp] theorem State.setReg_shadow (a : Nat) (v : Word) : (s.setReg a v).shadow = s.shadow := (rfl)
@[simp] theorem State.setReg_snaps (a : Nat) (v : Word) : (s.setReg a v).snaps = s.snaps := (rfl)
@[simp] theorem State.setReg_dblRemote (a : Nat) (v : Word) : (s.setReg a v).dblRemote = s.dblRemote := (rfl)
@[simp] theorem State.setReg_msixCtl (a : Nat) (v : Word) : (s.setReg a v).msixCtl = s.msixCtl := (rfl)
@[simp] theorem State.setReg_msixPba (a : Nat) (v : Word) : (s.setReg a v).msixPba = s.msixPba := (rfl)
@[simp] theorem State.setReg_aer (a : Nat) (v : Word) : (s.setReg a v).aer = s.aer := (rfl)
@[simp] theorem State.setReg_chanLate (a : Nat) (v : Word) : (s.setReg a v).chanLate = s.chanLate := (rfl)
@[simp] theorem State.setReg_bankQ (a : Nat) (v : Word) : (s.setReg a v).bankQ = s.bankQ := (rfl)
@[simp] theorem State.setReg_bankPtr (a : Nat) (v : Word) : (s.setReg a v).bankPtr = s.bankPtr := (rfl)
@[simp] theorem State.setReg_bankHold (a : Nat) (v : Word) : (s.setReg a v).bankHold = s.bankHold := (rfl)
@[simp] theorem State.setReg_bankWb (a : Nat) (v : Word) : (s.setReg a v).bankWb = s.bankWb := (rfl)
@[simp] theorem State.setReg_scrubPos (a : Nat) (v : Word) : (s.setReg a v).scrubPos = s.scrubPos := (rfl)
@[simp] theorem State.setReg_retEnter (a : Nat) (v : Word) : (s.setReg a v).retEnter = s.retEnter := (rfl)
@[simp] theorem State.setReg_retPrio (a : Nat) (v : Word) : (s.setReg a v).retPrio = s.retPrio := (rfl)
@[simp] theorem State.setReg_trigRun (a : Nat) (v : Word) : (s.setReg a v).trigRun = s.trigRun := (rfl)
@[simp] theorem State.setReg_capLvl (a : Nat) (v : Word) : (s.setReg a v).capLvl = s.capLvl := (rfl)
@[simp] theorem State.setReg_slvRun (a : Nat) (v : Word) : (s.setReg a v).slvRun = s.slvRun := (rfl)
@[simp] theorem State.setReg_steerSet (a : Nat) (v : Word) : (s.setReg a v).steerSet = s.steerSet := (rfl)
@[simp] theorem State.setReg_clockCe (a : Nat) (v : Word) : (s.setReg a v).clockCe = s.clockCe := (rfl)
@[simp] theorem State.setReg_ceDeadline (a : Nat) (v : Word) : (s.setReg a v).ceDeadline = s.ceDeadline := (rfl)
@[simp] theorem State.setReg_scrubDone (a : Nat) (v : Word) : (s.setReg a v).scrubDone = s.scrubDone := (rfl)
@[simp] theorem State.setReg_portUse (a : Nat) (v : Word) : (s.setReg a v).portUse = s.portUse := (rfl)
@[simp] theorem State.setReg_idxNext (a : Nat) (v : Word) : (s.setReg a v).idxNext = s.idxNext := (rfl)
@[simp] theorem State.setReg_idxFree (a : Nat) (v : Word) : (s.setReg a v).idxFree = s.idxFree := (rfl)
@[simp] theorem State.setReg_padLvl (a : Nat) (v : Word) : (s.setReg a v).padLvl = s.padLvl := (rfl)
@[simp] theorem State.setReg_padHeld (a : Nat) (v : Word) : (s.setReg a v).padHeld = s.padHeld := (rfl)
@[simp] theorem State.setReg_swAvg (a : Nat) (v : Word) : (s.setReg a v).swAvg = s.swAvg := (rfl)
@[simp] theorem State.setReg_swLfsr (a : Nat) (v : Word) : (s.setReg a v).swLfsr = s.swLfsr := (rfl)
@[simp] theorem State.setReg_swCbs (a : Nat) (v : Word) : (s.setReg a v).swCbs = s.swCbs := (rfl)
@[simp] theorem State.setReg_stored (a : Nat) (v : Word) : (s.setReg a v).stored = s.stored := (rfl)
@[simp] theorem State.setReg_smp (a : Nat) (v : Word) : (s.setReg a v).smp = s.smp := (rfl)
@[simp] theorem State.setReg_vlan (a : Nat) (v : Word) : (s.setReg a v).vlan = s.vlan := (rfl)
@[simp] theorem State.setReg_ft (a : Nat) (v : Word) : (s.setReg a v).ft = s.ft := (rfl)
@[simp] theorem State.setReg_sid (a : Nat) (v : Word) : (s.setReg a v).sid = s.sid := (rfl)
@[simp] theorem State.setReg_sidSt (a : Nat) (v : Word) : (s.setReg a v).sidSt = s.sidSt := (rfl)
@[simp] theorem State.setReg_pgAway (a : Nat) (v : Word) : (s.setReg a v).pgAway = s.pgAway := (rfl)
@[simp] theorem State.setReg_rsq (a : Nat) (v : Word) : (s.setReg a v).rsq = s.rsq := (rfl)
@[simp] theorem State.setReg_gcl (a : Nat) (v : Word) : (s.setReg a v).gcl = s.gcl := (rfl)
@[simp] theorem State.setReg_pausing (a : Nat) (v : Word) : (s.setReg a v).pausing = s.pausing := (rfl)
@[simp] theorem State.setReg_mgmtMeter (a : Nat) (v : Word) : (s.setReg a v).mgmtMeter = s.mgmtMeter := (rfl)
@[simp] theorem State.setReg_ringHold (a : Nat) (v : Word) : (s.setReg a v).ringHold = s.ringHold := (rfl)
@[simp] theorem State.setReg_iq (a : Nat) (v : Word) : (s.setReg a v).iq = s.iq := (rfl)
@[simp] theorem State.setReg_dlyTx (a : Nat) (v : Word) : (s.setReg a v).dlyTx = s.dlyTx := (rfl)
@[simp] theorem State.setReg_dlyBuf (a : Nat) (v : Word) : (s.setReg a v).dlyBuf = s.dlyBuf := (rfl)
@[simp] theorem State.setReg_dlyUse (a : Nat) (v : Word) : (s.setReg a v).dlyUse = s.dlyUse := (rfl)
@[simp] theorem State.setReg_mirror (a : Nat) (v : Word) : (s.setReg a v).mirror = s.mirror := (rfl)
@[simp] theorem State.setReg_ceEcc (a : Nat) (v : Word) : (s.setReg a v).ceEcc = s.ceEcc := (rfl)
@[simp] theorem State.setReg_supEcc (a : Nat) (v : Word) : (s.setReg a v).supEcc = s.supEcc := (rfl)
@[simp] theorem State.setReg_age (a : Nat) (v : Word) : (s.setReg a v).age = s.age := (rfl)
@[simp] theorem State.setReg_flowHold (a : Nat) (v : Word) : (s.setReg a v).flowHold = s.flowHold := (rfl)
@[simp] theorem State.setReg_ckpt (a : Nat) (v : Word) : (s.setReg a v).ckpt = s.ckpt := (rfl)
@[simp] theorem State.setReg_eyes (a : Nat) (v : Word) : (s.setReg a v).eyes = s.eyes := (rfl)
@[simp] theorem State.setReg_corr (a : Nat) (v : Word) : (s.setReg a v).corr = s.corr := (rfl)
@[simp] theorem State.setReg_retired (a : Nat) (v : Word) : (s.setReg a v).retired = s.retired := (rfl)
@[simp] theorem State.setReg_therm (a : Nat) (v : Word) : (s.setReg a v).therm = s.therm := (rfl)

@[simp] theorem State.setFld_shadow (a lo n v : Nat) : (s.setFld a lo n v).shadow = s.shadow := (rfl)
@[simp] theorem State.setFld_snaps (a lo n v : Nat) : (s.setFld a lo n v).snaps = s.snaps := (rfl)
@[simp] theorem State.setFld_dblRemote (a lo n v : Nat) : (s.setFld a lo n v).dblRemote = s.dblRemote := (rfl)
@[simp] theorem State.setFld_msixCtl (a lo n v : Nat) : (s.setFld a lo n v).msixCtl = s.msixCtl := (rfl)
@[simp] theorem State.setFld_msixPba (a lo n v : Nat) : (s.setFld a lo n v).msixPba = s.msixPba := (rfl)
@[simp] theorem State.setFld_aer (a lo n v : Nat) : (s.setFld a lo n v).aer = s.aer := (rfl)
@[simp] theorem State.setFld_chanLate (a lo n v : Nat) : (s.setFld a lo n v).chanLate = s.chanLate := (rfl)
@[simp] theorem State.setFld_bankQ (a lo n v : Nat) : (s.setFld a lo n v).bankQ = s.bankQ := (rfl)
@[simp] theorem State.setFld_bankPtr (a lo n v : Nat) : (s.setFld a lo n v).bankPtr = s.bankPtr := (rfl)
@[simp] theorem State.setFld_bankHold (a lo n v : Nat) : (s.setFld a lo n v).bankHold = s.bankHold := (rfl)
@[simp] theorem State.setFld_bankWb (a lo n v : Nat) : (s.setFld a lo n v).bankWb = s.bankWb := (rfl)
@[simp] theorem State.setFld_scrubPos (a lo n v : Nat) : (s.setFld a lo n v).scrubPos = s.scrubPos := (rfl)
@[simp] theorem State.setFld_retEnter (a lo n v : Nat) : (s.setFld a lo n v).retEnter = s.retEnter := (rfl)
@[simp] theorem State.setFld_retPrio (a lo n v : Nat) : (s.setFld a lo n v).retPrio = s.retPrio := (rfl)
@[simp] theorem State.setFld_trigRun (a lo n v : Nat) : (s.setFld a lo n v).trigRun = s.trigRun := (rfl)
@[simp] theorem State.setFld_capLvl (a lo n v : Nat) : (s.setFld a lo n v).capLvl = s.capLvl := (rfl)
@[simp] theorem State.setFld_slvRun (a lo n v : Nat) : (s.setFld a lo n v).slvRun = s.slvRun := (rfl)
@[simp] theorem State.setFld_steerSet (a lo n v : Nat) : (s.setFld a lo n v).steerSet = s.steerSet := (rfl)
@[simp] theorem State.setFld_clockCe (a lo n v : Nat) : (s.setFld a lo n v).clockCe = s.clockCe := (rfl)
@[simp] theorem State.setFld_ceDeadline (a lo n v : Nat) : (s.setFld a lo n v).ceDeadline = s.ceDeadline := (rfl)
@[simp] theorem State.setFld_scrubDone (a lo n v : Nat) : (s.setFld a lo n v).scrubDone = s.scrubDone := (rfl)
@[simp] theorem State.setFld_portUse (a lo n v : Nat) : (s.setFld a lo n v).portUse = s.portUse := (rfl)
@[simp] theorem State.setFld_idxNext (a lo n v : Nat) : (s.setFld a lo n v).idxNext = s.idxNext := (rfl)
@[simp] theorem State.setFld_idxFree (a lo n v : Nat) : (s.setFld a lo n v).idxFree = s.idxFree := (rfl)
@[simp] theorem State.setFld_padLvl (a lo n v : Nat) : (s.setFld a lo n v).padLvl = s.padLvl := (rfl)
@[simp] theorem State.setFld_padHeld (a lo n v : Nat) : (s.setFld a lo n v).padHeld = s.padHeld := (rfl)
@[simp] theorem State.setFld_swAvg (a lo n v : Nat) : (s.setFld a lo n v).swAvg = s.swAvg := (rfl)
@[simp] theorem State.setFld_swLfsr (a lo n v : Nat) : (s.setFld a lo n v).swLfsr = s.swLfsr := (rfl)
@[simp] theorem State.setFld_swCbs (a lo n v : Nat) : (s.setFld a lo n v).swCbs = s.swCbs := (rfl)
@[simp] theorem State.setFld_stored (a lo n v : Nat) : (s.setFld a lo n v).stored = s.stored := (rfl)
@[simp] theorem State.setFld_smp (a lo n v : Nat) : (s.setFld a lo n v).smp = s.smp := (rfl)
@[simp] theorem State.setFld_vlan (a lo n v : Nat) : (s.setFld a lo n v).vlan = s.vlan := (rfl)
@[simp] theorem State.setFld_ft (a lo n v : Nat) : (s.setFld a lo n v).ft = s.ft := (rfl)
@[simp] theorem State.setFld_sid (a lo n v : Nat) : (s.setFld a lo n v).sid = s.sid := (rfl)
@[simp] theorem State.setFld_sidSt (a lo n v : Nat) : (s.setFld a lo n v).sidSt = s.sidSt := (rfl)
@[simp] theorem State.setFld_pgAway (a lo n v : Nat) : (s.setFld a lo n v).pgAway = s.pgAway := (rfl)
@[simp] theorem State.setFld_rsq (a lo n v : Nat) : (s.setFld a lo n v).rsq = s.rsq := (rfl)
@[simp] theorem State.setFld_gcl (a lo n v : Nat) : (s.setFld a lo n v).gcl = s.gcl := (rfl)
@[simp] theorem State.setFld_pausing (a lo n v : Nat) : (s.setFld a lo n v).pausing = s.pausing := (rfl)
@[simp] theorem State.setFld_mgmtMeter (a lo n v : Nat) : (s.setFld a lo n v).mgmtMeter = s.mgmtMeter := (rfl)
@[simp] theorem State.setFld_ringHold (a lo n v : Nat) : (s.setFld a lo n v).ringHold = s.ringHold := (rfl)
@[simp] theorem State.setFld_iq (a lo n v : Nat) : (s.setFld a lo n v).iq = s.iq := (rfl)
@[simp] theorem State.setFld_dlyTx (a lo n v : Nat) : (s.setFld a lo n v).dlyTx = s.dlyTx := (rfl)
@[simp] theorem State.setFld_dlyBuf (a lo n v : Nat) : (s.setFld a lo n v).dlyBuf = s.dlyBuf := (rfl)
@[simp] theorem State.setFld_dlyUse (a lo n v : Nat) : (s.setFld a lo n v).dlyUse = s.dlyUse := (rfl)
@[simp] theorem State.setFld_mirror (a lo n v : Nat) : (s.setFld a lo n v).mirror = s.mirror := (rfl)
@[simp] theorem State.setFld_ceEcc (a lo n v : Nat) : (s.setFld a lo n v).ceEcc = s.ceEcc := (rfl)
@[simp] theorem State.setFld_supEcc (a lo n v : Nat) : (s.setFld a lo n v).supEcc = s.supEcc := (rfl)
@[simp] theorem State.setFld_age (a lo n v : Nat) : (s.setFld a lo n v).age = s.age := (rfl)
@[simp] theorem State.setFld_flowHold (a lo n v : Nat) : (s.setFld a lo n v).flowHold = s.flowHold := (rfl)
@[simp] theorem State.setFld_ckpt (a lo n v : Nat) : (s.setFld a lo n v).ckpt = s.ckpt := (rfl)
@[simp] theorem State.setFld_eyes (a lo n v : Nat) : (s.setFld a lo n v).eyes = s.eyes := (rfl)
@[simp] theorem State.setFld_corr (a lo n v : Nat) : (s.setFld a lo n v).corr = s.corr := (rfl)
@[simp] theorem State.setFld_retired (a lo n v : Nat) : (s.setFld a lo n v).retired = s.retired := (rfl)
@[simp] theorem State.setFld_therm (a lo n v : Nat) : (s.setFld a lo n v).therm = s.therm := (rfl)

@[simp] theorem State.setFlag_shadow (a i : Nat) (b : Bool) : (s.setFlag a i b).shadow = s.shadow := (rfl)
@[simp] theorem State.setFlag_snaps (a i : Nat) (b : Bool) : (s.setFlag a i b).snaps = s.snaps := (rfl)
@[simp] theorem State.setFlag_dblRemote (a i : Nat) (b : Bool) : (s.setFlag a i b).dblRemote = s.dblRemote := (rfl)
@[simp] theorem State.setFlag_msixCtl (a i : Nat) (b : Bool) : (s.setFlag a i b).msixCtl = s.msixCtl := (rfl)
@[simp] theorem State.setFlag_msixPba (a i : Nat) (b : Bool) : (s.setFlag a i b).msixPba = s.msixPba := (rfl)
@[simp] theorem State.setFlag_aer (a i : Nat) (b : Bool) : (s.setFlag a i b).aer = s.aer := (rfl)
@[simp] theorem State.setFlag_chanLate (a i : Nat) (b : Bool) : (s.setFlag a i b).chanLate = s.chanLate := (rfl)
@[simp] theorem State.setFlag_bankQ (a i : Nat) (b : Bool) : (s.setFlag a i b).bankQ = s.bankQ := (rfl)
@[simp] theorem State.setFlag_bankPtr (a i : Nat) (b : Bool) : (s.setFlag a i b).bankPtr = s.bankPtr := (rfl)
@[simp] theorem State.setFlag_bankHold (a i : Nat) (b : Bool) : (s.setFlag a i b).bankHold = s.bankHold := (rfl)
@[simp] theorem State.setFlag_bankWb (a i : Nat) (b : Bool) : (s.setFlag a i b).bankWb = s.bankWb := (rfl)
@[simp] theorem State.setFlag_scrubPos (a i : Nat) (b : Bool) : (s.setFlag a i b).scrubPos = s.scrubPos := (rfl)
@[simp] theorem State.setFlag_retEnter (a i : Nat) (b : Bool) : (s.setFlag a i b).retEnter = s.retEnter := (rfl)
@[simp] theorem State.setFlag_retPrio (a i : Nat) (b : Bool) : (s.setFlag a i b).retPrio = s.retPrio := (rfl)
@[simp] theorem State.setFlag_trigRun (a i : Nat) (b : Bool) : (s.setFlag a i b).trigRun = s.trigRun := (rfl)
@[simp] theorem State.setFlag_capLvl (a i : Nat) (b : Bool) : (s.setFlag a i b).capLvl = s.capLvl := (rfl)
@[simp] theorem State.setFlag_slvRun (a i : Nat) (b : Bool) : (s.setFlag a i b).slvRun = s.slvRun := (rfl)
@[simp] theorem State.setFlag_steerSet (a i : Nat) (b : Bool) : (s.setFlag a i b).steerSet = s.steerSet := (rfl)
@[simp] theorem State.setFlag_clockCe (a i : Nat) (b : Bool) : (s.setFlag a i b).clockCe = s.clockCe := (rfl)
@[simp] theorem State.setFlag_ceDeadline (a i : Nat) (b : Bool) : (s.setFlag a i b).ceDeadline = s.ceDeadline := (rfl)
@[simp] theorem State.setFlag_scrubDone (a i : Nat) (b : Bool) : (s.setFlag a i b).scrubDone = s.scrubDone := (rfl)
@[simp] theorem State.setFlag_portUse (a i : Nat) (b : Bool) : (s.setFlag a i b).portUse = s.portUse := (rfl)
@[simp] theorem State.setFlag_idxNext (a i : Nat) (b : Bool) : (s.setFlag a i b).idxNext = s.idxNext := (rfl)
@[simp] theorem State.setFlag_idxFree (a i : Nat) (b : Bool) : (s.setFlag a i b).idxFree = s.idxFree := (rfl)
@[simp] theorem State.setFlag_padLvl (a i : Nat) (b : Bool) : (s.setFlag a i b).padLvl = s.padLvl := (rfl)
@[simp] theorem State.setFlag_padHeld (a i : Nat) (b : Bool) : (s.setFlag a i b).padHeld = s.padHeld := (rfl)
@[simp] theorem State.setFlag_swAvg (a i : Nat) (b : Bool) : (s.setFlag a i b).swAvg = s.swAvg := (rfl)
@[simp] theorem State.setFlag_swLfsr (a i : Nat) (b : Bool) : (s.setFlag a i b).swLfsr = s.swLfsr := (rfl)
@[simp] theorem State.setFlag_swCbs (a i : Nat) (b : Bool) : (s.setFlag a i b).swCbs = s.swCbs := (rfl)
@[simp] theorem State.setFlag_stored (a i : Nat) (b : Bool) : (s.setFlag a i b).stored = s.stored := (rfl)
@[simp] theorem State.setFlag_smp (a i : Nat) (b : Bool) : (s.setFlag a i b).smp = s.smp := (rfl)
@[simp] theorem State.setFlag_vlan (a i : Nat) (b : Bool) : (s.setFlag a i b).vlan = s.vlan := (rfl)
@[simp] theorem State.setFlag_ft (a i : Nat) (b : Bool) : (s.setFlag a i b).ft = s.ft := (rfl)
@[simp] theorem State.setFlag_sid (a i : Nat) (b : Bool) : (s.setFlag a i b).sid = s.sid := (rfl)
@[simp] theorem State.setFlag_sidSt (a i : Nat) (b : Bool) : (s.setFlag a i b).sidSt = s.sidSt := (rfl)
@[simp] theorem State.setFlag_pgAway (a i : Nat) (b : Bool) : (s.setFlag a i b).pgAway = s.pgAway := (rfl)
@[simp] theorem State.setFlag_rsq (a i : Nat) (b : Bool) : (s.setFlag a i b).rsq = s.rsq := (rfl)
@[simp] theorem State.setFlag_gcl (a i : Nat) (b : Bool) : (s.setFlag a i b).gcl = s.gcl := (rfl)
@[simp] theorem State.setFlag_pausing (a i : Nat) (b : Bool) : (s.setFlag a i b).pausing = s.pausing := (rfl)
@[simp] theorem State.setFlag_mgmtMeter (a i : Nat) (b : Bool) : (s.setFlag a i b).mgmtMeter = s.mgmtMeter := (rfl)
@[simp] theorem State.setFlag_ringHold (a i : Nat) (b : Bool) : (s.setFlag a i b).ringHold = s.ringHold := (rfl)
@[simp] theorem State.setFlag_iq (a i : Nat) (b : Bool) : (s.setFlag a i b).iq = s.iq := (rfl)
@[simp] theorem State.setFlag_dlyTx (a i : Nat) (b : Bool) : (s.setFlag a i b).dlyTx = s.dlyTx := (rfl)
@[simp] theorem State.setFlag_dlyBuf (a i : Nat) (b : Bool) : (s.setFlag a i b).dlyBuf = s.dlyBuf := (rfl)
@[simp] theorem State.setFlag_dlyUse (a i : Nat) (b : Bool) : (s.setFlag a i b).dlyUse = s.dlyUse := (rfl)
@[simp] theorem State.setFlag_mirror (a i : Nat) (b : Bool) : (s.setFlag a i b).mirror = s.mirror := (rfl)
@[simp] theorem State.setFlag_ceEcc (a i : Nat) (b : Bool) : (s.setFlag a i b).ceEcc = s.ceEcc := (rfl)
@[simp] theorem State.setFlag_supEcc (a i : Nat) (b : Bool) : (s.setFlag a i b).supEcc = s.supEcc := (rfl)
@[simp] theorem State.setFlag_age (a i : Nat) (b : Bool) : (s.setFlag a i b).age = s.age := (rfl)
@[simp] theorem State.setFlag_flowHold (a i : Nat) (b : Bool) : (s.setFlag a i b).flowHold = s.flowHold := (rfl)
@[simp] theorem State.setFlag_ckpt (a i : Nat) (b : Bool) : (s.setFlag a i b).ckpt = s.ckpt := (rfl)
@[simp] theorem State.setFlag_eyes (a i : Nat) (b : Bool) : (s.setFlag a i b).eyes = s.eyes := (rfl)
@[simp] theorem State.setFlag_corr (a i : Nat) (b : Bool) : (s.setFlag a i b).corr = s.corr := (rfl)
@[simp] theorem State.setFlag_retired (a i : Nat) (b : Bool) : (s.setFlag a i b).retired = s.retired := (rfl)
@[simp] theorem State.setFlag_therm (a i : Nat) (b : Bool) : (s.setFlag a i b).therm = s.therm := (rfl)

@[simp] theorem State.count_shadow (a : Nat) : (s.count a).shadow = s.shadow := (rfl)
@[simp] theorem State.count_snaps (a : Nat) : (s.count a).snaps = s.snaps := (rfl)
@[simp] theorem State.count_dblRemote (a : Nat) : (s.count a).dblRemote = s.dblRemote := (rfl)
@[simp] theorem State.count_msixCtl (a : Nat) : (s.count a).msixCtl = s.msixCtl := (rfl)
@[simp] theorem State.count_msixPba (a : Nat) : (s.count a).msixPba = s.msixPba := (rfl)
@[simp] theorem State.count_aer (a : Nat) : (s.count a).aer = s.aer := (rfl)
@[simp] theorem State.count_chanLate (a : Nat) : (s.count a).chanLate = s.chanLate := (rfl)
@[simp] theorem State.count_bankQ (a : Nat) : (s.count a).bankQ = s.bankQ := (rfl)
@[simp] theorem State.count_bankPtr (a : Nat) : (s.count a).bankPtr = s.bankPtr := (rfl)
@[simp] theorem State.count_bankHold (a : Nat) : (s.count a).bankHold = s.bankHold := (rfl)
@[simp] theorem State.count_bankWb (a : Nat) : (s.count a).bankWb = s.bankWb := (rfl)
@[simp] theorem State.count_scrubPos (a : Nat) : (s.count a).scrubPos = s.scrubPos := (rfl)
@[simp] theorem State.count_retEnter (a : Nat) : (s.count a).retEnter = s.retEnter := (rfl)
@[simp] theorem State.count_retPrio (a : Nat) : (s.count a).retPrio = s.retPrio := (rfl)
@[simp] theorem State.count_trigRun (a : Nat) : (s.count a).trigRun = s.trigRun := (rfl)
@[simp] theorem State.count_capLvl (a : Nat) : (s.count a).capLvl = s.capLvl := (rfl)
@[simp] theorem State.count_slvRun (a : Nat) : (s.count a).slvRun = s.slvRun := (rfl)
@[simp] theorem State.count_steerSet (a : Nat) : (s.count a).steerSet = s.steerSet := (rfl)
@[simp] theorem State.count_clockCe (a : Nat) : (s.count a).clockCe = s.clockCe := (rfl)
@[simp] theorem State.count_ceDeadline (a : Nat) : (s.count a).ceDeadline = s.ceDeadline := (rfl)
@[simp] theorem State.count_scrubDone (a : Nat) : (s.count a).scrubDone = s.scrubDone := (rfl)
@[simp] theorem State.count_portUse (a : Nat) : (s.count a).portUse = s.portUse := (rfl)
@[simp] theorem State.count_idxNext (a : Nat) : (s.count a).idxNext = s.idxNext := (rfl)
@[simp] theorem State.count_idxFree (a : Nat) : (s.count a).idxFree = s.idxFree := (rfl)
@[simp] theorem State.count_padLvl (a : Nat) : (s.count a).padLvl = s.padLvl := (rfl)
@[simp] theorem State.count_padHeld (a : Nat) : (s.count a).padHeld = s.padHeld := (rfl)
@[simp] theorem State.count_swAvg (a : Nat) : (s.count a).swAvg = s.swAvg := (rfl)
@[simp] theorem State.count_swLfsr (a : Nat) : (s.count a).swLfsr = s.swLfsr := (rfl)
@[simp] theorem State.count_swCbs (a : Nat) : (s.count a).swCbs = s.swCbs := (rfl)
@[simp] theorem State.count_stored (a : Nat) : (s.count a).stored = s.stored := (rfl)
@[simp] theorem State.count_smp (a : Nat) : (s.count a).smp = s.smp := (rfl)
@[simp] theorem State.count_vlan (a : Nat) : (s.count a).vlan = s.vlan := (rfl)
@[simp] theorem State.count_ft (a : Nat) : (s.count a).ft = s.ft := (rfl)
@[simp] theorem State.count_sid (a : Nat) : (s.count a).sid = s.sid := (rfl)
@[simp] theorem State.count_sidSt (a : Nat) : (s.count a).sidSt = s.sidSt := (rfl)
@[simp] theorem State.count_pgAway (a : Nat) : (s.count a).pgAway = s.pgAway := (rfl)
@[simp] theorem State.count_rsq (a : Nat) : (s.count a).rsq = s.rsq := (rfl)
@[simp] theorem State.count_gcl (a : Nat) : (s.count a).gcl = s.gcl := (rfl)
@[simp] theorem State.count_pausing (a : Nat) : (s.count a).pausing = s.pausing := (rfl)
@[simp] theorem State.count_mgmtMeter (a : Nat) : (s.count a).mgmtMeter = s.mgmtMeter := (rfl)
@[simp] theorem State.count_ringHold (a : Nat) : (s.count a).ringHold = s.ringHold := (rfl)
@[simp] theorem State.count_iq (a : Nat) : (s.count a).iq = s.iq := (rfl)
@[simp] theorem State.count_dlyTx (a : Nat) : (s.count a).dlyTx = s.dlyTx := (rfl)
@[simp] theorem State.count_dlyBuf (a : Nat) : (s.count a).dlyBuf = s.dlyBuf := (rfl)
@[simp] theorem State.count_dlyUse (a : Nat) : (s.count a).dlyUse = s.dlyUse := (rfl)
@[simp] theorem State.count_mirror (a : Nat) : (s.count a).mirror = s.mirror := (rfl)
@[simp] theorem State.count_ceEcc (a : Nat) : (s.count a).ceEcc = s.ceEcc := (rfl)
@[simp] theorem State.count_supEcc (a : Nat) : (s.count a).supEcc = s.supEcc := (rfl)
@[simp] theorem State.count_age (a : Nat) : (s.count a).age = s.age := (rfl)
@[simp] theorem State.count_flowHold (a : Nat) : (s.count a).flowHold = s.flowHold := (rfl)
@[simp] theorem State.count_ckpt (a : Nat) : (s.count a).ckpt = s.ckpt := (rfl)
@[simp] theorem State.count_eyes (a : Nat) : (s.count a).eyes = s.eyes := (rfl)
@[simp] theorem State.count_corr (a : Nat) : (s.count a).corr = s.corr := (rfl)
@[simp] theorem State.count_retired (a : Nat) : (s.count a).retired = s.retired := (rfl)
@[simp] theorem State.count_therm (a : Nat) : (s.count a).therm = s.therm := (rfl)

@[simp] theorem State.emit_shadow (o : Out) : (s.emit o).shadow = s.shadow := (rfl)
@[simp] theorem State.emit_snaps (o : Out) : (s.emit o).snaps = s.snaps := (rfl)
@[simp] theorem State.emit_dblRemote (o : Out) : (s.emit o).dblRemote = s.dblRemote := (rfl)
@[simp] theorem State.emit_msixCtl (o : Out) : (s.emit o).msixCtl = s.msixCtl := (rfl)
@[simp] theorem State.emit_msixPba (o : Out) : (s.emit o).msixPba = s.msixPba := (rfl)
@[simp] theorem State.emit_aer (o : Out) : (s.emit o).aer = s.aer := (rfl)
@[simp] theorem State.emit_chanLate (o : Out) : (s.emit o).chanLate = s.chanLate := (rfl)
@[simp] theorem State.emit_bankQ (o : Out) : (s.emit o).bankQ = s.bankQ := (rfl)
@[simp] theorem State.emit_bankPtr (o : Out) : (s.emit o).bankPtr = s.bankPtr := (rfl)
@[simp] theorem State.emit_bankHold (o : Out) : (s.emit o).bankHold = s.bankHold := (rfl)
@[simp] theorem State.emit_bankWb (o : Out) : (s.emit o).bankWb = s.bankWb := (rfl)
@[simp] theorem State.emit_scrubPos (o : Out) : (s.emit o).scrubPos = s.scrubPos := (rfl)
@[simp] theorem State.emit_retEnter (o : Out) : (s.emit o).retEnter = s.retEnter := (rfl)
@[simp] theorem State.emit_retPrio (o : Out) : (s.emit o).retPrio = s.retPrio := (rfl)
@[simp] theorem State.emit_trigRun (o : Out) : (s.emit o).trigRun = s.trigRun := (rfl)
@[simp] theorem State.emit_capLvl (o : Out) : (s.emit o).capLvl = s.capLvl := (rfl)
@[simp] theorem State.emit_slvRun (o : Out) : (s.emit o).slvRun = s.slvRun := (rfl)
@[simp] theorem State.emit_steerSet (o : Out) : (s.emit o).steerSet = s.steerSet := (rfl)
@[simp] theorem State.emit_clockCe (o : Out) : (s.emit o).clockCe = s.clockCe := (rfl)
@[simp] theorem State.emit_ceDeadline (o : Out) : (s.emit o).ceDeadline = s.ceDeadline := (rfl)
@[simp] theorem State.emit_scrubDone (o : Out) : (s.emit o).scrubDone = s.scrubDone := (rfl)
@[simp] theorem State.emit_portUse (o : Out) : (s.emit o).portUse = s.portUse := (rfl)
@[simp] theorem State.emit_idxNext (o : Out) : (s.emit o).idxNext = s.idxNext := (rfl)
@[simp] theorem State.emit_idxFree (o : Out) : (s.emit o).idxFree = s.idxFree := (rfl)
@[simp] theorem State.emit_padLvl (o : Out) : (s.emit o).padLvl = s.padLvl := (rfl)
@[simp] theorem State.emit_padHeld (o : Out) : (s.emit o).padHeld = s.padHeld := (rfl)
@[simp] theorem State.emit_swAvg (o : Out) : (s.emit o).swAvg = s.swAvg := (rfl)
@[simp] theorem State.emit_swLfsr (o : Out) : (s.emit o).swLfsr = s.swLfsr := (rfl)
@[simp] theorem State.emit_swCbs (o : Out) : (s.emit o).swCbs = s.swCbs := (rfl)
@[simp] theorem State.emit_stored (o : Out) : (s.emit o).stored = s.stored := (rfl)
@[simp] theorem State.emit_smp (o : Out) : (s.emit o).smp = s.smp := (rfl)
@[simp] theorem State.emit_vlan (o : Out) : (s.emit o).vlan = s.vlan := (rfl)
@[simp] theorem State.emit_ft (o : Out) : (s.emit o).ft = s.ft := (rfl)
@[simp] theorem State.emit_sid (o : Out) : (s.emit o).sid = s.sid := (rfl)
@[simp] theorem State.emit_sidSt (o : Out) : (s.emit o).sidSt = s.sidSt := (rfl)
@[simp] theorem State.emit_pgAway (o : Out) : (s.emit o).pgAway = s.pgAway := (rfl)
@[simp] theorem State.emit_rsq (o : Out) : (s.emit o).rsq = s.rsq := (rfl)
@[simp] theorem State.emit_gcl (o : Out) : (s.emit o).gcl = s.gcl := (rfl)
@[simp] theorem State.emit_pausing (o : Out) : (s.emit o).pausing = s.pausing := (rfl)
@[simp] theorem State.emit_mgmtMeter (o : Out) : (s.emit o).mgmtMeter = s.mgmtMeter := (rfl)
@[simp] theorem State.emit_ringHold (o : Out) : (s.emit o).ringHold = s.ringHold := (rfl)
@[simp] theorem State.emit_iq (o : Out) : (s.emit o).iq = s.iq := (rfl)
@[simp] theorem State.emit_dlyTx (o : Out) : (s.emit o).dlyTx = s.dlyTx := (rfl)
@[simp] theorem State.emit_dlyBuf (o : Out) : (s.emit o).dlyBuf = s.dlyBuf := (rfl)
@[simp] theorem State.emit_dlyUse (o : Out) : (s.emit o).dlyUse = s.dlyUse := (rfl)
@[simp] theorem State.emit_mirror (o : Out) : (s.emit o).mirror = s.mirror := (rfl)
@[simp] theorem State.emit_ceEcc (o : Out) : (s.emit o).ceEcc = s.ceEcc := (rfl)
@[simp] theorem State.emit_supEcc (o : Out) : (s.emit o).supEcc = s.supEcc := (rfl)
@[simp] theorem State.emit_age (o : Out) : (s.emit o).age = s.age := (rfl)
@[simp] theorem State.emit_flowHold (o : Out) : (s.emit o).flowHold = s.flowHold := (rfl)
@[simp] theorem State.emit_ckpt (o : Out) : (s.emit o).ckpt = s.ckpt := (rfl)
@[simp] theorem State.emit_eyes (o : Out) : (s.emit o).eyes = s.eyes := (rfl)
@[simp] theorem State.emit_corr (o : Out) : (s.emit o).corr = s.corr := (rfl)
@[simp] theorem State.emit_retired (o : Out) : (s.emit o).retired = s.retired := (rfl)
@[simp] theorem State.emit_therm (o : Out) : (s.emit o).therm = s.therm := (rfl)

@[simp] theorem State.drawn_shadow : s.drawn.shadow = s.shadow := (rfl)
@[simp] theorem State.drawn_snaps : s.drawn.snaps = s.snaps := (rfl)
@[simp] theorem State.drawn_dblRemote : s.drawn.dblRemote = s.dblRemote := (rfl)
@[simp] theorem State.drawn_msixCtl : s.drawn.msixCtl = s.msixCtl := (rfl)
@[simp] theorem State.drawn_msixPba : s.drawn.msixPba = s.msixPba := (rfl)
@[simp] theorem State.drawn_aer : s.drawn.aer = s.aer := (rfl)
@[simp] theorem State.drawn_chanLate : s.drawn.chanLate = s.chanLate := (rfl)
@[simp] theorem State.drawn_bankQ : s.drawn.bankQ = s.bankQ := (rfl)
@[simp] theorem State.drawn_bankPtr : s.drawn.bankPtr = s.bankPtr := (rfl)
@[simp] theorem State.drawn_bankHold : s.drawn.bankHold = s.bankHold := (rfl)
@[simp] theorem State.drawn_bankWb : s.drawn.bankWb = s.bankWb := (rfl)
@[simp] theorem State.drawn_scrubPos : s.drawn.scrubPos = s.scrubPos := (rfl)
@[simp] theorem State.drawn_retEnter : s.drawn.retEnter = s.retEnter := (rfl)
@[simp] theorem State.drawn_retPrio : s.drawn.retPrio = s.retPrio := (rfl)
@[simp] theorem State.drawn_trigRun : s.drawn.trigRun = s.trigRun := (rfl)
@[simp] theorem State.drawn_capLvl : s.drawn.capLvl = s.capLvl := (rfl)
@[simp] theorem State.drawn_slvRun : s.drawn.slvRun = s.slvRun := (rfl)
@[simp] theorem State.drawn_steerSet : s.drawn.steerSet = s.steerSet := (rfl)
@[simp] theorem State.drawn_clockCe : s.drawn.clockCe = s.clockCe := (rfl)
@[simp] theorem State.drawn_ceDeadline : s.drawn.ceDeadline = s.ceDeadline := (rfl)
@[simp] theorem State.drawn_scrubDone : s.drawn.scrubDone = s.scrubDone := (rfl)
@[simp] theorem State.drawn_portUse : s.drawn.portUse = s.portUse := (rfl)
@[simp] theorem State.drawn_idxNext : s.drawn.idxNext = s.idxNext := (rfl)
@[simp] theorem State.drawn_idxFree : s.drawn.idxFree = s.idxFree := (rfl)
@[simp] theorem State.drawn_padLvl : s.drawn.padLvl = s.padLvl := (rfl)
@[simp] theorem State.drawn_padHeld : s.drawn.padHeld = s.padHeld := (rfl)
@[simp] theorem State.drawn_swAvg : s.drawn.swAvg = s.swAvg := (rfl)
@[simp] theorem State.drawn_swLfsr : s.drawn.swLfsr = s.swLfsr := (rfl)
@[simp] theorem State.drawn_swCbs : s.drawn.swCbs = s.swCbs := (rfl)
@[simp] theorem State.drawn_stored : s.drawn.stored = s.stored := (rfl)
@[simp] theorem State.drawn_smp : s.drawn.smp = s.smp := (rfl)
@[simp] theorem State.drawn_vlan : s.drawn.vlan = s.vlan := (rfl)
@[simp] theorem State.drawn_ft : s.drawn.ft = s.ft := (rfl)
@[simp] theorem State.drawn_sid : s.drawn.sid = s.sid := (rfl)
@[simp] theorem State.drawn_sidSt : s.drawn.sidSt = s.sidSt := (rfl)
@[simp] theorem State.drawn_pgAway : s.drawn.pgAway = s.pgAway := (rfl)
@[simp] theorem State.drawn_rsq : s.drawn.rsq = s.rsq := (rfl)
@[simp] theorem State.drawn_gcl : s.drawn.gcl = s.gcl := (rfl)
@[simp] theorem State.drawn_pausing : s.drawn.pausing = s.pausing := (rfl)
@[simp] theorem State.drawn_mgmtMeter : s.drawn.mgmtMeter = s.mgmtMeter := (rfl)
@[simp] theorem State.drawn_ringHold : s.drawn.ringHold = s.ringHold := (rfl)
@[simp] theorem State.drawn_iq : s.drawn.iq = s.iq := (rfl)
@[simp] theorem State.drawn_dlyTx : s.drawn.dlyTx = s.dlyTx := (rfl)
@[simp] theorem State.drawn_dlyBuf : s.drawn.dlyBuf = s.dlyBuf := (rfl)
@[simp] theorem State.drawn_dlyUse : s.drawn.dlyUse = s.dlyUse := (rfl)
@[simp] theorem State.drawn_mirror : s.drawn.mirror = s.mirror := (rfl)
@[simp] theorem State.drawn_ceEcc : s.drawn.ceEcc = s.ceEcc := (rfl)
@[simp] theorem State.drawn_supEcc : s.drawn.supEcc = s.supEcc := (rfl)
@[simp] theorem State.drawn_age : s.drawn.age = s.age := (rfl)
@[simp] theorem State.drawn_flowHold : s.drawn.flowHold = s.flowHold := (rfl)
@[simp] theorem State.drawn_ckpt : s.drawn.ckpt = s.ckpt := (rfl)
@[simp] theorem State.drawn_eyes : s.drawn.eyes = s.eyes := (rfl)
@[simp] theorem State.drawn_corr : s.drawn.corr = s.corr := (rfl)
@[simp] theorem State.drawn_retired : s.drawn.retired = s.retired := (rfl)
@[simp] theorem State.drawn_therm : s.drawn.therm = s.therm := (rfl)

end Sys2Proof.Machine
end

