-- ==== Sys2Proof/Laws/Ops.lean ====
section
/-! SUPPORT. What each shared operation leaves alone: doorbells, device events, the event log, the planner's queue, refusals.  A register
is told apart by its block: `blkOf`. -/

namespace Sys2Proof.Machine

@[simp] theorem blkOf_blk (d : Die) (b off : Nat) (hb : b < 0x1_0000) (ho : off < 0x1_0000) : blkOf (R.blk d b + off) = b := by
  cases d <;> simp only [blkOf, R.blk, Die.org, Die.idx] <;> omega

theorem ne_of_blk {a b : Nat} (h : blkOf a ≠ blkOf b) : a ≠ b := fun e => h (e ▸ rfl)

theorem State.getReg_of_blk (s : State) {a b : Nat} (v : Word) (h : blkOf b ≠ blkOf a) : (s.setReg a v).getReg b = s.getReg b :=
  State.getReg_setReg_ne s v (ne_of_blk h)

/-- A fold of updates that keep a property of the state keeps it. -/
theorem foldl_keeps {α β : Type} {f : State → α → State} {g : State → β} (h : ∀ s x, g (f s x) = g s) (l : List α) (s : State) :
    g (l.foldl f s) = g s := by
  induction l generalizing s with
  | nil => rfl
  | cons x t ih => rw [List.foldl_cons, ih, h]


@[simp] theorem State.msixSend_pending (s : State) (d : Die) (fn vec : Nat) : (s.msixSend d fn vec).pending = s.pending := by
  unfold State.msixSend; extract_lets; split_ifs <;> first | (exact (rfl)) | simp

@[simp] theorem State.msixSend_time (s : State) (d : Die) (fn vec : Nat) : (s.msixSend d fn vec).time = s.time := by
  unfold State.msixSend; extract_lets; split_ifs <;> first | (exact (rfl)) | simp

@[simp] theorem State.msixSend_interp (s : State) (d : Die) (fn vec : Nat) : (s.msixSend d fn vec).interp = s.interp := by
  unfold State.msixSend; extract_lets; split_ifs <;> first | (exact (rfl)) | simp

@[simp] theorem State.msixSend_planQ (s : State) (d : Die) (fn vec : Nat) : (s.msixSend d fn vec).planQ = s.planQ := by
  unfold State.msixSend; extract_lets; split_ifs <;> first | (exact (rfl)) | simp

@[simp] theorem State.msixSend_sfq (s : State) (d : Die) (fn vec : Nat) : (s.msixSend d fn vec).sfq = s.sfq := by
  unfold State.msixSend; extract_lets; split_ifs <;> first | (exact (rfl)) | simp

@[simp] theorem State.msixSend_ecc (s : State) (d : Die) (fn vec : Nat) : (s.msixSend d fn vec).ecc = s.ecc := by
  unfold State.msixSend; extract_lets; split_ifs <;> first | (exact (rfl)) | simp

@[simp] theorem State.msixSend_dly (s : State) (d : Die) (fn vec : Nat) : (s.msixSend d fn vec).dly = s.dly := by
  unfold State.msixSend; extract_lets; split_ifs <;> first | (exact (rfl)) | simp

@[simp] theorem State.msixSend_units (s : State) (d : Die) (fn vec : Nat) : (s.msixSend d fn vec).units = s.units := by
  unfold State.msixSend; extract_lets; split_ifs <;> first | (exact (rfl)) | simp

@[simp] theorem State.msixSend_cmp (s : State) (d : Die) (fn vec : Nat) : (s.msixSend d fn vec).cmp = s.cmp := by
  unfold State.msixSend; extract_lets; split_ifs <;> first | (exact (rfl)) | simp

@[simp] theorem State.msixSend_intents (s : State) (d : Die) (fn vec : Nat) : (s.msixSend d fn vec).intents = s.intents := by
  unfold State.msixSend; extract_lets; split_ifs <;> first | (exact (rfl)) | simp

@[simp] theorem State.msixSend_fio (s : State) (d : Die) (fn vec : Nat) : (s.msixSend d fn vec).fio = s.fio := by
  unfold State.msixSend; extract_lets; split_ifs <;> first | (exact (rfl)) | simp

@[simp] theorem State.msixSend_stn (s : State) (d : Die) (fn vec : Nat) : (s.msixSend d fn vec).stn = s.stn := by
  unfold State.msixSend; extract_lets; split_ifs <;> first | (exact (rfl)) | simp

@[simp] theorem State.msixSend_can (s : State) (d : Die) (fn vec : Nat) : (s.msixSend d fn vec).can = s.can := by
  unfold State.msixSend; extract_lets; split_ifs <;> first | (exact (rfl)) | simp

@[simp] theorem State.msixSend_swQ (s : State) (d : Die) (fn vec : Nat) : (s.msixSend d fn vec).swQ = s.swQ := by
  unfold State.msixSend; extract_lets; split_ifs <;> first | (exact (rfl)) | simp

@[simp] theorem State.msixSend_ring (s : State) (d : Die) (fn vec : Nat) : (s.msixSend d fn vec).ring = s.ring := by
  unfold State.msixSend; extract_lets; split_ifs <;> first | (exact (rfl)) | simp

@[simp] theorem State.msixSend_ce (s : State) (d : Die) (fn vec : Nat) : (s.msixSend d fn vec).ce = s.ce := by
  unfold State.msixSend; extract_lets; split_ifs <;> first | (exact (rfl)) | simp

@[simp] theorem State.msixSend_sup (s : State) (d : Die) (fn vec : Nat) : (s.msixSend d fn vec).sup = s.sup := by
  unfold State.msixSend; extract_lets; split_ifs <;> first | (exact (rfl)) | simp

@[simp] theorem State.msixSend_images (s : State) (d : Die) (fn vec : Nat) : (s.msixSend d fn vec).images = s.images := by
  unfold State.msixSend; extract_lets; split_ifs <;> first | (exact (rfl)) | simp

@[simp] theorem State.msixSend_boot (s : State) (d : Die) (fn vec : Nat) : (s.msixSend d fn vec).boot = s.boot := by
  unfold State.msixSend; extract_lets; split_ifs <;> first | (exact (rfl)) | simp

@[simp] theorem State.msixSend_pwr (s : State) (d : Die) (fn vec : Nat) : (s.msixSend d fn vec).pwr = s.pwr := by
  unfold State.msixSend; extract_lets; split_ifs <;> first | (exact (rfl)) | simp

@[simp] theorem State.msixSend_mem (s : State) (d : Die) (fn vec : Nat) : (s.msixSend d fn vec).mem = s.mem := by
  unfold State.msixSend; extract_lets; split_ifs <;> first | (exact (rfl)) | simp

@[simp] theorem State.msixSend_chans (s : State) (d : Die) (fn vec : Nat) : (s.msixSend d fn vec).chans = s.chans := by
  unfold State.msixSend; extract_lets; split_ifs <;> first | (exact (rfl)) | simp

@[simp] theorem State.getReg_msixSend (s : State) (d : Die) (fn vec b : Nat) : (s.msixSend d fn vec).getReg b = s.getReg b := by
  unfold State.msixSend; extract_lets; split_ifs <;> first | (exact (rfl)) | simp

@[simp] theorem State.msixSendAll_pending (d : Die) (fn : Nat) (m : Word) (n : Nat) (s : State) : (s.msixSendAll d fn m n).pending = s.pending := by
  induction n generalizing s with
  | zero => rfl
  | succ n ih => rw [State.msixSendAll, ih]; split_ifs <;> simp

@[simp] theorem State.msixSendAll_time (d : Die) (fn : Nat) (m : Word) (n : Nat) (s : State) : (s.msixSendAll d fn m n).time = s.time := by
  induction n generalizing s with
  | zero => rfl
  | succ n ih => rw [State.msixSendAll, ih]; split_ifs <;> simp

@[simp] theorem State.msixSendAll_interp (d : Die) (fn : Nat) (m : Word) (n : Nat) (s : State) : (s.msixSendAll d fn m n).interp = s.interp := by
  induction n generalizing s with
  | zero => rfl
  | succ n ih => rw [State.msixSendAll, ih]; split_ifs <;> simp

@[simp] theorem State.msixSendAll_planQ (d : Die) (fn : Nat) (m : Word) (n : Nat) (s : State) : (s.msixSendAll d fn m n).planQ = s.planQ := by
  induction n generalizing s with
  | zero => rfl
  | succ n ih => rw [State.msixSendAll, ih]; split_ifs <;> simp

@[simp] theorem State.msixSendAll_sfq (d : Die) (fn : Nat) (m : Word) (n : Nat) (s : State) : (s.msixSendAll d fn m n).sfq = s.sfq := by
  induction n generalizing s with
  | zero => rfl
  | succ n ih => rw [State.msixSendAll, ih]; split_ifs <;> simp

@[simp] theorem State.msixSendAll_ecc (d : Die) (fn : Nat) (m : Word) (n : Nat) (s : State) : (s.msixSendAll d fn m n).ecc = s.ecc := by
  induction n generalizing s with
  | zero => rfl
  | succ n ih => rw [State.msixSendAll, ih]; split_ifs <;> simp

@[simp] theorem State.msixSendAll_dly (d : Die) (fn : Nat) (m : Word) (n : Nat) (s : State) : (s.msixSendAll d fn m n).dly = s.dly := by
  induction n generalizing s with
  | zero => rfl
  | succ n ih => rw [State.msixSendAll, ih]; split_ifs <;> simp

@[simp] theorem State.msixSendAll_units (d : Die) (fn : Nat) (m : Word) (n : Nat) (s : State) : (s.msixSendAll d fn m n).units = s.units := by
  induction n generalizing s with
  | zero => rfl
  | succ n ih => rw [State.msixSendAll, ih]; split_ifs <;> simp

@[simp] theorem State.msixSendAll_cmp (d : Die) (fn : Nat) (m : Word) (n : Nat) (s : State) : (s.msixSendAll d fn m n).cmp = s.cmp := by
  induction n generalizing s with
  | zero => rfl
  | succ n ih => rw [State.msixSendAll, ih]; split_ifs <;> simp

@[simp] theorem State.msixSendAll_intents (d : Die) (fn : Nat) (m : Word) (n : Nat) (s : State) : (s.msixSendAll d fn m n).intents = s.intents := by
  induction n generalizing s with
  | zero => rfl
  | succ n ih => rw [State.msixSendAll, ih]; split_ifs <;> simp

@[simp] theorem State.msixSendAll_fio (d : Die) (fn : Nat) (m : Word) (n : Nat) (s : State) : (s.msixSendAll d fn m n).fio = s.fio := by
  induction n generalizing s with
  | zero => rfl
  | succ n ih => rw [State.msixSendAll, ih]; split_ifs <;> simp

@[simp] theorem State.msixSendAll_stn (d : Die) (fn : Nat) (m : Word) (n : Nat) (s : State) : (s.msixSendAll d fn m n).stn = s.stn := by
  induction n generalizing s with
  | zero => rfl
  | succ n ih => rw [State.msixSendAll, ih]; split_ifs <;> simp

@[simp] theorem State.msixSendAll_can (d : Die) (fn : Nat) (m : Word) (n : Nat) (s : State) : (s.msixSendAll d fn m n).can = s.can := by
  induction n generalizing s with
  | zero => rfl
  | succ n ih => rw [State.msixSendAll, ih]; split_ifs <;> simp

@[simp] theorem State.msixSendAll_swQ (d : Die) (fn : Nat) (m : Word) (n : Nat) (s : State) : (s.msixSendAll d fn m n).swQ = s.swQ := by
  induction n generalizing s with
  | zero => rfl
  | succ n ih => rw [State.msixSendAll, ih]; split_ifs <;> simp

@[simp] theorem State.msixSendAll_ring (d : Die) (fn : Nat) (m : Word) (n : Nat) (s : State) : (s.msixSendAll d fn m n).ring = s.ring := by
  induction n generalizing s with
  | zero => rfl
  | succ n ih => rw [State.msixSendAll, ih]; split_ifs <;> simp

@[simp] theorem State.msixSendAll_ce (d : Die) (fn : Nat) (m : Word) (n : Nat) (s : State) : (s.msixSendAll d fn m n).ce = s.ce := by
  induction n generalizing s with
  | zero => rfl
  | succ n ih => rw [State.msixSendAll, ih]; split_ifs <;> simp

@[simp] theorem State.msixSendAll_sup (d : Die) (fn : Nat) (m : Word) (n : Nat) (s : State) : (s.msixSendAll d fn m n).sup = s.sup := by
  induction n generalizing s with
  | zero => rfl
  | succ n ih => rw [State.msixSendAll, ih]; split_ifs <;> simp

@[simp] theorem State.msixSendAll_images (d : Die) (fn : Nat) (m : Word) (n : Nat) (s : State) : (s.msixSendAll d fn m n).images = s.images := by
  induction n generalizing s with
  | zero => rfl
  | succ n ih => rw [State.msixSendAll, ih]; split_ifs <;> simp

@[simp] theorem State.msixSendAll_boot (d : Die) (fn : Nat) (m : Word) (n : Nat) (s : State) : (s.msixSendAll d fn m n).boot = s.boot := by
  induction n generalizing s with
  | zero => rfl
  | succ n ih => rw [State.msixSendAll, ih]; split_ifs <;> simp

@[simp] theorem State.msixSendAll_pwr (d : Die) (fn : Nat) (m : Word) (n : Nat) (s : State) : (s.msixSendAll d fn m n).pwr = s.pwr := by
  induction n generalizing s with
  | zero => rfl
  | succ n ih => rw [State.msixSendAll, ih]; split_ifs <;> simp

@[simp] theorem State.msixSendAll_mem (d : Die) (fn : Nat) (m : Word) (n : Nat) (s : State) : (s.msixSendAll d fn m n).mem = s.mem := by
  induction n generalizing s with
  | zero => rfl
  | succ n ih => rw [State.msixSendAll, ih]; split_ifs <;> simp

@[simp] theorem State.msixSendAll_chans (d : Die) (fn : Nat) (m : Word) (n : Nat) (s : State) : (s.msixSendAll d fn m n).chans = s.chans := by
  induction n generalizing s with
  | zero => rfl
  | succ n ih => rw [State.msixSendAll, ih]; split_ifs <;> simp

@[simp] theorem State.getReg_msixSendAll (d : Die) (fn : Nat) (m : Word) (n : Nat) (s : State) (b : Nat) : (s.msixSendAll d fn m n).getReg b = s.getReg b := by
  induction n generalizing s with
  | zero => rfl
  | succ n ih => rw [State.msixSendAll, ih]; split_ifs <;> simp

@[simp] theorem State.dblSet_pending (s : State) (d : Die) (r : Nat) (m : Word) : (s.dblSet d r m).pending = s.pending := by
  unfold State.dblSet; simp only []; split_ifs <;> simp

@[simp] theorem State.dblSet_time (s : State) (d : Die) (r : Nat) (m : Word) : (s.dblSet d r m).time = s.time := by
  unfold State.dblSet; simp only []; split_ifs <;> simp

@[simp] theorem State.dblSet_interp (s : State) (d : Die) (r : Nat) (m : Word) : (s.dblSet d r m).interp = s.interp := by
  unfold State.dblSet; simp only []; split_ifs <;> simp

@[simp] theorem State.dblSet_planQ (s : State) (d : Die) (r : Nat) (m : Word) : (s.dblSet d r m).planQ = s.planQ := by
  unfold State.dblSet; simp only []; split_ifs <;> simp

@[simp] theorem State.dblSet_sfq (s : State) (d : Die) (r : Nat) (m : Word) : (s.dblSet d r m).sfq = s.sfq := by
  unfold State.dblSet; simp only []; split_ifs <;> simp

@[simp] theorem State.dblSet_ecc (s : State) (d : Die) (r : Nat) (m : Word) : (s.dblSet d r m).ecc = s.ecc := by
  unfold State.dblSet; simp only []; split_ifs <;> simp

@[simp] theorem State.dblSet_dly (s : State) (d : Die) (r : Nat) (m : Word) : (s.dblSet d r m).dly = s.dly := by
  unfold State.dblSet; simp only []; split_ifs <;> simp

@[simp] theorem State.dblSet_units (s : State) (d : Die) (r : Nat) (m : Word) : (s.dblSet d r m).units = s.units := by
  unfold State.dblSet; simp only []; split_ifs <;> simp

@[simp] theorem State.dblSet_cmp (s : State) (d : Die) (r : Nat) (m : Word) : (s.dblSet d r m).cmp = s.cmp := by
  unfold State.dblSet; simp only []; split_ifs <;> simp

@[simp] theorem State.dblSet_intents (s : State) (d : Die) (r : Nat) (m : Word) : (s.dblSet d r m).intents = s.intents := by
  unfold State.dblSet; simp only []; split_ifs <;> simp

@[simp] theorem State.dblSet_fio (s : State) (d : Die) (r : Nat) (m : Word) : (s.dblSet d r m).fio = s.fio := by
  unfold State.dblSet; simp only []; split_ifs <;> simp

@[simp] theorem State.dblSet_stn (s : State) (d : Die) (r : Nat) (m : Word) : (s.dblSet d r m).stn = s.stn := by
  unfold State.dblSet; simp only []; split_ifs <;> simp

@[simp] theorem State.dblSet_can (s : State) (d : Die) (r : Nat) (m : Word) : (s.dblSet d r m).can = s.can := by
  unfold State.dblSet; simp only []; split_ifs <;> simp

@[simp] theorem State.dblSet_swQ (s : State) (d : Die) (r : Nat) (m : Word) : (s.dblSet d r m).swQ = s.swQ := by
  unfold State.dblSet; simp only []; split_ifs <;> simp

@[simp] theorem State.dblSet_ring (s : State) (d : Die) (r : Nat) (m : Word) : (s.dblSet d r m).ring = s.ring := by
  unfold State.dblSet; simp only []; split_ifs <;> simp

@[simp] theorem State.dblSet_ce (s : State) (d : Die) (r : Nat) (m : Word) : (s.dblSet d r m).ce = s.ce := by
  unfold State.dblSet; simp only []; split_ifs <;> simp

@[simp] theorem State.dblSet_sup (s : State) (d : Die) (r : Nat) (m : Word) : (s.dblSet d r m).sup = s.sup := by
  unfold State.dblSet; simp only []; split_ifs <;> simp

@[simp] theorem State.dblSet_images (s : State) (d : Die) (r : Nat) (m : Word) : (s.dblSet d r m).images = s.images := by
  unfold State.dblSet; simp only []; split_ifs <;> simp

@[simp] theorem State.dblSet_boot (s : State) (d : Die) (r : Nat) (m : Word) : (s.dblSet d r m).boot = s.boot := by
  unfold State.dblSet; simp only []; split_ifs <;> simp

@[simp] theorem State.dblSet_pwr (s : State) (d : Die) (r : Nat) (m : Word) : (s.dblSet d r m).pwr = s.pwr := by
  unfold State.dblSet; simp only []; split_ifs <;> simp

@[simp] theorem State.dblSet_mem (s : State) (d : Die) (r : Nat) (m : Word) : (s.dblSet d r m).mem = s.mem := by
  unfold State.dblSet; simp only []; split_ifs <;> simp

@[simp] theorem State.dblSet_chans (s : State) (d : Die) (r : Nat) (m : Word) : (s.dblSet d r m).chans = s.chans := by
  unfold State.dblSet; simp only []; split_ifs <;> simp

theorem State.getReg_dblSet (s : State) (d : Die) (r : Nat) (m : Word) (b : Nat) (hr : r < 4) (h : blkOf b ≠ 6) :
    (s.dblSet d r m).getReg b = s.getReg b := by
  have e1 : b ≠ R.DBL_STAT d r := ne_of_blk (by rw [R.DBL_STAT, Nat.add_assoc, blkOf_blk _ _ _ (by decide) (by omega)]; exact h)
  have e2 : b ≠ R.DBL_TIME_S d r := ne_of_blk (by rw [R.DBL_TIME_S, Nat.add_assoc, blkOf_blk _ _ _ (by decide) (by omega)]; exact h)
  have e3 : b ≠ R.DBL_TIME_NS d r := ne_of_blk (by rw [R.DBL_TIME_NS, Nat.add_assoc, blkOf_blk _ _ _ (by decide) (by omega)]; exact h)
  unfold State.dblSet
  simp only []
  split_ifs <;> simp [e1, e2, e3]

@[simp] theorem State.raise_pending (s : State) (d : Die) (m : Word) : (s.raise d m).pending = s.pending := by
  simp [State.raise]

@[simp] theorem State.raise_time (s : State) (d : Die) (m : Word) : (s.raise d m).time = s.time := by
  simp [State.raise]

@[simp] theorem State.raise_interp (s : State) (d : Die) (m : Word) : (s.raise d m).interp = s.interp := by
  simp [State.raise]

@[simp] theorem State.raise_planQ (s : State) (d : Die) (m : Word) : (s.raise d m).planQ = s.planQ := by
  simp [State.raise]

@[simp] theorem State.raise_sfq (s : State) (d : Die) (m : Word) : (s.raise d m).sfq = s.sfq := by
  simp [State.raise]

@[simp] theorem State.raise_ecc (s : State) (d : Die) (m : Word) : (s.raise d m).ecc = s.ecc := by
  simp [State.raise]

@[simp] theorem State.raise_dly (s : State) (d : Die) (m : Word) : (s.raise d m).dly = s.dly := by
  simp [State.raise]

@[simp] theorem State.raise_units (s : State) (d : Die) (m : Word) : (s.raise d m).units = s.units := by
  simp [State.raise]

@[simp] theorem State.raise_cmp (s : State) (d : Die) (m : Word) : (s.raise d m).cmp = s.cmp := by
  simp [State.raise]

@[simp] theorem State.raise_intents (s : State) (d : Die) (m : Word) : (s.raise d m).intents = s.intents := by
  simp [State.raise]

@[simp] theorem State.raise_fio (s : State) (d : Die) (m : Word) : (s.raise d m).fio = s.fio := by
  simp [State.raise]

@[simp] theorem State.raise_stn (s : State) (d : Die) (m : Word) : (s.raise d m).stn = s.stn := by
  simp [State.raise]

@[simp] theorem State.raise_can (s : State) (d : Die) (m : Word) : (s.raise d m).can = s.can := by
  simp [State.raise]

@[simp] theorem State.raise_swQ (s : State) (d : Die) (m : Word) : (s.raise d m).swQ = s.swQ := by
  simp [State.raise]

@[simp] theorem State.raise_ring (s : State) (d : Die) (m : Word) : (s.raise d m).ring = s.ring := by
  simp [State.raise]

@[simp] theorem State.raise_ce (s : State) (d : Die) (m : Word) : (s.raise d m).ce = s.ce := by
  simp [State.raise]

@[simp] theorem State.raise_sup (s : State) (d : Die) (m : Word) : (s.raise d m).sup = s.sup := by
  simp [State.raise]

@[simp] theorem State.raise_images (s : State) (d : Die) (m : Word) : (s.raise d m).images = s.images := by
  simp [State.raise]

@[simp] theorem State.raise_boot (s : State) (d : Die) (m : Word) : (s.raise d m).boot = s.boot := by
  simp [State.raise]

@[simp] theorem State.raise_pwr (s : State) (d : Die) (m : Word) : (s.raise d m).pwr = s.pwr := by
  simp [State.raise]

@[simp] theorem State.raise_mem (s : State) (d : Die) (m : Word) : (s.raise d m).mem = s.mem := by
  simp [State.raise]

@[simp] theorem State.raise_chans (s : State) (d : Die) (m : Word) : (s.raise d m).chans = s.chans := by
  simp [State.raise]

theorem State.getReg_raise (s : State) (d : Die) (m : Word) (b : Nat) (h : blkOf b ≠ 6) : (s.raise d m).getReg b = s.getReg b := by
  simp [State.raise, State.getReg_dblSet, h]

@[simp] theorem State.raiseSup_pending (s : State) (d : Die) (i : Nat) : (s.raiseSup d i).pending = s.pending := by
  simp [State.raiseSup]

@[simp] theorem State.raiseSup_time (s : State) (d : Die) (i : Nat) : (s.raiseSup d i).time = s.time := by
  simp [State.raiseSup]

@[simp] theorem State.raiseSup_interp (s : State) (d : Die) (i : Nat) : (s.raiseSup d i).interp = s.interp := by
  simp [State.raiseSup]

@[simp] theorem State.raiseSup_planQ (s : State) (d : Die) (i : Nat) : (s.raiseSup d i).planQ = s.planQ := by
  simp [State.raiseSup]

@[simp] theorem State.raiseSup_sfq (s : State) (d : Die) (i : Nat) : (s.raiseSup d i).sfq = s.sfq := by
  simp [State.raiseSup]

@[simp] theorem State.raiseSup_ecc (s : State) (d : Die) (i : Nat) : (s.raiseSup d i).ecc = s.ecc := by
  simp [State.raiseSup]

@[simp] theorem State.raiseSup_dly (s : State) (d : Die) (i : Nat) : (s.raiseSup d i).dly = s.dly := by
  simp [State.raiseSup]

@[simp] theorem State.raiseSup_units (s : State) (d : Die) (i : Nat) : (s.raiseSup d i).units = s.units := by
  simp [State.raiseSup]

@[simp] theorem State.raiseSup_cmp (s : State) (d : Die) (i : Nat) : (s.raiseSup d i).cmp = s.cmp := by
  simp [State.raiseSup]

@[simp] theorem State.raiseSup_intents (s : State) (d : Die) (i : Nat) : (s.raiseSup d i).intents = s.intents := by
  simp [State.raiseSup]

@[simp] theorem State.raiseSup_fio (s : State) (d : Die) (i : Nat) : (s.raiseSup d i).fio = s.fio := by
  simp [State.raiseSup]

@[simp] theorem State.raiseSup_stn (s : State) (d : Die) (i : Nat) : (s.raiseSup d i).stn = s.stn := by
  simp [State.raiseSup]

@[simp] theorem State.raiseSup_can (s : State) (d : Die) (i : Nat) : (s.raiseSup d i).can = s.can := by
  simp [State.raiseSup]

@[simp] theorem State.raiseSup_swQ (s : State) (d : Die) (i : Nat) : (s.raiseSup d i).swQ = s.swQ := by
  simp [State.raiseSup]

@[simp] theorem State.raiseSup_ring (s : State) (d : Die) (i : Nat) : (s.raiseSup d i).ring = s.ring := by
  simp [State.raiseSup]

@[simp] theorem State.raiseSup_ce (s : State) (d : Die) (i : Nat) : (s.raiseSup d i).ce = s.ce := by
  simp [State.raiseSup]

@[simp] theorem State.raiseSup_sup (s : State) (d : Die) (i : Nat) : (s.raiseSup d i).sup = s.sup := by
  simp [State.raiseSup]

@[simp] theorem State.raiseSup_images (s : State) (d : Die) (i : Nat) : (s.raiseSup d i).images = s.images := by
  simp [State.raiseSup]

@[simp] theorem State.raiseSup_boot (s : State) (d : Die) (i : Nat) : (s.raiseSup d i).boot = s.boot := by
  simp [State.raiseSup]

@[simp] theorem State.raiseSup_pwr (s : State) (d : Die) (i : Nat) : (s.raiseSup d i).pwr = s.pwr := by
  simp [State.raiseSup]

@[simp] theorem State.raiseSup_mem (s : State) (d : Die) (i : Nat) : (s.raiseSup d i).mem = s.mem := by
  simp [State.raiseSup]

@[simp] theorem State.raiseSup_chans (s : State) (d : Die) (i : Nat) : (s.raiseSup d i).chans = s.chans := by
  simp [State.raiseSup]

theorem State.getReg_raiseSup (s : State) (d : Die) (i b : Nat) (h : blkOf b ≠ 6) : (s.raiseSup d i).getReg b = s.getReg b := by
  simp [State.raiseSup, State.getReg_dblSet, h]

@[simp] theorem State.event_pending (s : State) (d : Die) (r i k : Nat) : (s.event d r i k).pending = s.pending := by
  simp [State.event]

@[simp] theorem State.event_time (s : State) (d : Die) (r i k : Nat) : (s.event d r i k).time = s.time := by
  simp [State.event]

@[simp] theorem State.event_interp (s : State) (d : Die) (r i k : Nat) : (s.event d r i k).interp = s.interp := by
  simp [State.event]

@[simp] theorem State.event_planQ (s : State) (d : Die) (r i k : Nat) : (s.event d r i k).planQ = s.planQ := by
  simp [State.event]

@[simp] theorem State.event_sfq (s : State) (d : Die) (r i k : Nat) : (s.event d r i k).sfq = s.sfq := by
  simp [State.event]

@[simp] theorem State.event_ecc (s : State) (d : Die) (r i k : Nat) : (s.event d r i k).ecc = s.ecc := by
  simp [State.event]

@[simp] theorem State.event_dly (s : State) (d : Die) (r i k : Nat) : (s.event d r i k).dly = s.dly := by
  simp [State.event]

@[simp] theorem State.event_units (s : State) (d : Die) (r i k : Nat) : (s.event d r i k).units = s.units := by
  simp [State.event]

@[simp] theorem State.event_cmp (s : State) (d : Die) (r i k : Nat) : (s.event d r i k).cmp = s.cmp := by
  simp [State.event]

@[simp] theorem State.event_intents (s : State) (d : Die) (r i k : Nat) : (s.event d r i k).intents = s.intents := by
  simp [State.event]

@[simp] theorem State.event_fio (s : State) (d : Die) (r i k : Nat) : (s.event d r i k).fio = s.fio := by
  simp [State.event]

@[simp] theorem State.event_stn (s : State) (d : Die) (r i k : Nat) : (s.event d r i k).stn = s.stn := by
  simp [State.event]

@[simp] theorem State.event_can (s : State) (d : Die) (r i k : Nat) : (s.event d r i k).can = s.can := by
  simp [State.event]

@[simp] theorem State.event_swQ (s : State) (d : Die) (r i k : Nat) : (s.event d r i k).swQ = s.swQ := by
  simp [State.event]

@[simp] theorem State.event_ring (s : State) (d : Die) (r i k : Nat) : (s.event d r i k).ring = s.ring := by
  simp [State.event]

@[simp] theorem State.event_ce (s : State) (d : Die) (r i k : Nat) : (s.event d r i k).ce = s.ce := by
  simp [State.event]

@[simp] theorem State.event_sup (s : State) (d : Die) (r i k : Nat) : (s.event d r i k).sup = s.sup := by
  simp [State.event]

@[simp] theorem State.event_images (s : State) (d : Die) (r i k : Nat) : (s.event d r i k).images = s.images := by
  simp [State.event]

@[simp] theorem State.event_boot (s : State) (d : Die) (r i k : Nat) : (s.event d r i k).boot = s.boot := by
  simp [State.event]

@[simp] theorem State.event_pwr (s : State) (d : Die) (r i k : Nat) : (s.event d r i k).pwr = s.pwr := by
  simp [State.event]

@[simp] theorem State.event_mem (s : State) (d : Die) (r i k : Nat) : (s.event d r i k).mem = s.mem := by
  simp [State.event]

@[simp] theorem State.event_chans (s : State) (d : Die) (r i k : Nat) : (s.event d r i k).chans = s.chans := by
  simp [State.event]

theorem State.getReg_event (s : State) (d : Die) (r i k b : Nat) (h : blkOf b ≠ 6) :
    (s.event d r i k).getReg b = if b = r then setBits (s.getReg r) i 1 1 else s.getReg b := by
  rw [State.event, State.getReg_raise _ _ _ _ h, State.getReg_setFlag]
  exact (rfl)

@[simp] theorem State.setLog_pending (s : State) (d : Die) (l : LogSt) : (s.setLog d l).pending = s.pending := by
  exact (rfl)

@[simp] theorem State.setLog_time (s : State) (d : Die) (l : LogSt) : (s.setLog d l).time = s.time := by
  exact (rfl)

@[simp] theorem State.setLog_interp (s : State) (d : Die) (l : LogSt) : (s.setLog d l).interp = s.interp := by
  exact (rfl)

@[simp] theorem State.setLog_planQ (s : State) (d : Die) (l : LogSt) : (s.setLog d l).planQ = s.planQ := by
  exact (rfl)

@[simp] theorem State.setLog_sfq (s : State) (d : Die) (l : LogSt) : (s.setLog d l).sfq = s.sfq := by
  exact (rfl)

@[simp] theorem State.setLog_ecc (s : State) (d : Die) (l : LogSt) : (s.setLog d l).ecc = s.ecc := by
  exact (rfl)

@[simp] theorem State.setLog_dly (s : State) (d : Die) (l : LogSt) : (s.setLog d l).dly = s.dly := by
  exact (rfl)

@[simp] theorem State.setLog_units (s : State) (d : Die) (l : LogSt) : (s.setLog d l).units = s.units := by
  exact (rfl)

@[simp] theorem State.setLog_cmp (s : State) (d : Die) (l : LogSt) : (s.setLog d l).cmp = s.cmp := by
  exact (rfl)

@[simp] theorem State.setLog_intents (s : State) (d : Die) (l : LogSt) : (s.setLog d l).intents = s.intents := by
  exact (rfl)

@[simp] theorem State.setLog_fio (s : State) (d : Die) (l : LogSt) : (s.setLog d l).fio = s.fio := by
  exact (rfl)

@[simp] theorem State.setLog_stn (s : State) (d : Die) (l : LogSt) : (s.setLog d l).stn = s.stn := by
  exact (rfl)

@[simp] theorem State.setLog_can (s : State) (d : Die) (l : LogSt) : (s.setLog d l).can = s.can := by
  exact (rfl)

@[simp] theorem State.setLog_swQ (s : State) (d : Die) (l : LogSt) : (s.setLog d l).swQ = s.swQ := by
  exact (rfl)

@[simp] theorem State.setLog_ring (s : State) (d : Die) (l : LogSt) : (s.setLog d l).ring = s.ring := by
  exact (rfl)

@[simp] theorem State.setLog_ce (s : State) (d : Die) (l : LogSt) : (s.setLog d l).ce = s.ce := by
  exact (rfl)

@[simp] theorem State.setLog_sup (s : State) (d : Die) (l : LogSt) : (s.setLog d l).sup = s.sup := by
  exact (rfl)

@[simp] theorem State.setLog_images (s : State) (d : Die) (l : LogSt) : (s.setLog d l).images = s.images := by
  exact (rfl)

@[simp] theorem State.setLog_boot (s : State) (d : Die) (l : LogSt) : (s.setLog d l).boot = s.boot := by
  exact (rfl)

@[simp] theorem State.setLog_pwr (s : State) (d : Die) (l : LogSt) : (s.setLog d l).pwr = s.pwr := by
  exact (rfl)

@[simp] theorem State.setLog_mem (s : State) (d : Die) (l : LogSt) : (s.setLog d l).mem = s.mem := by
  exact (rfl)

@[simp] theorem State.setLog_chans (s : State) (d : Die) (l : LogSt) : (s.setLog d l).chans = s.chans := (rfl)

@[simp] theorem State.getReg_setLog (s : State) (d : Die) (l : LogSt) (b : Nat) : (s.setLog d l).getReg b = s.getReg b := (rfl)

@[simp] theorem State.setWords_pending (l : List Word) (s : State) (a : Nat) : (s.setWords a l).pending = s.pending := by
  have hs : ∀ (l : List Byte) (s : State) (a : Nat), (s.store a l).pending = s.pending := by
    intro l; induction l with
    | nil => intro s a; rfl
    | cons x t ih => intro s a; rw [State.store, ih]; rfl
  induction l generalizing s a with
  | nil => rfl
  | cons x t ih => rw [State.setWords, ih]; exact hs _ _ _

@[simp] theorem State.setWords_time (l : List Word) (s : State) (a : Nat) : (s.setWords a l).time = s.time := by
  have hs : ∀ (l : List Byte) (s : State) (a : Nat), (s.store a l).time = s.time := by
    intro l; induction l with
    | nil => intro s a; rfl
    | cons x t ih => intro s a; rw [State.store, ih]; rfl
  induction l generalizing s a with
  | nil => rfl
  | cons x t ih => rw [State.setWords, ih]; exact hs _ _ _

@[simp] theorem State.setWords_interp (l : List Word) (s : State) (a : Nat) : (s.setWords a l).interp = s.interp := by
  have hs : ∀ (l : List Byte) (s : State) (a : Nat), (s.store a l).interp = s.interp := by
    intro l; induction l with
    | nil => intro s a; rfl
    | cons x t ih => intro s a; rw [State.store, ih]; rfl
  induction l generalizing s a with
  | nil => rfl
  | cons x t ih => rw [State.setWords, ih]; exact hs _ _ _

@[simp] theorem State.setWords_planQ (l : List Word) (s : State) (a : Nat) : (s.setWords a l).planQ = s.planQ := by
  have hs : ∀ (l : List Byte) (s : State) (a : Nat), (s.store a l).planQ = s.planQ := by
    intro l; induction l with
    | nil => intro s a; rfl
    | cons x t ih => intro s a; rw [State.store, ih]; rfl
  induction l generalizing s a with
  | nil => rfl
  | cons x t ih => rw [State.setWords, ih]; exact hs _ _ _

@[simp] theorem State.setWords_sfq (l : List Word) (s : State) (a : Nat) : (s.setWords a l).sfq = s.sfq := by
  have hs : ∀ (l : List Byte) (s : State) (a : Nat), (s.store a l).sfq = s.sfq := by
    intro l; induction l with
    | nil => intro s a; rfl
    | cons x t ih => intro s a; rw [State.store, ih]; rfl
  induction l generalizing s a with
  | nil => rfl
  | cons x t ih => rw [State.setWords, ih]; exact hs _ _ _

@[simp] theorem State.setWords_ecc (l : List Word) (s : State) (a : Nat) : (s.setWords a l).ecc = s.ecc := by
  have hs : ∀ (l : List Byte) (s : State) (a : Nat), (s.store a l).ecc = s.ecc := by
    intro l; induction l with
    | nil => intro s a; rfl
    | cons x t ih => intro s a; rw [State.store, ih]; rfl
  induction l generalizing s a with
  | nil => rfl
  | cons x t ih => rw [State.setWords, ih]; exact hs _ _ _

@[simp] theorem State.setWords_dly (l : List Word) (s : State) (a : Nat) : (s.setWords a l).dly = s.dly := by
  have hs : ∀ (l : List Byte) (s : State) (a : Nat), (s.store a l).dly = s.dly := by
    intro l; induction l with
    | nil => intro s a; rfl
    | cons x t ih => intro s a; rw [State.store, ih]; rfl
  induction l generalizing s a with
  | nil => rfl
  | cons x t ih => rw [State.setWords, ih]; exact hs _ _ _

@[simp] theorem State.setWords_units (l : List Word) (s : State) (a : Nat) : (s.setWords a l).units = s.units := by
  have hs : ∀ (l : List Byte) (s : State) (a : Nat), (s.store a l).units = s.units := by
    intro l; induction l with
    | nil => intro s a; rfl
    | cons x t ih => intro s a; rw [State.store, ih]; rfl
  induction l generalizing s a with
  | nil => rfl
  | cons x t ih => rw [State.setWords, ih]; exact hs _ _ _

@[simp] theorem State.setWords_cmp (l : List Word) (s : State) (a : Nat) : (s.setWords a l).cmp = s.cmp := by
  have hs : ∀ (l : List Byte) (s : State) (a : Nat), (s.store a l).cmp = s.cmp := by
    intro l; induction l with
    | nil => intro s a; rfl
    | cons x t ih => intro s a; rw [State.store, ih]; rfl
  induction l generalizing s a with
  | nil => rfl
  | cons x t ih => rw [State.setWords, ih]; exact hs _ _ _

@[simp] theorem State.setWords_intents (l : List Word) (s : State) (a : Nat) : (s.setWords a l).intents = s.intents := by
  have hs : ∀ (l : List Byte) (s : State) (a : Nat), (s.store a l).intents = s.intents := by
    intro l; induction l with
    | nil => intro s a; rfl
    | cons x t ih => intro s a; rw [State.store, ih]; rfl
  induction l generalizing s a with
  | nil => rfl
  | cons x t ih => rw [State.setWords, ih]; exact hs _ _ _

@[simp] theorem State.setWords_fio (l : List Word) (s : State) (a : Nat) : (s.setWords a l).fio = s.fio := by
  have hs : ∀ (l : List Byte) (s : State) (a : Nat), (s.store a l).fio = s.fio := by
    intro l; induction l with
    | nil => intro s a; rfl
    | cons x t ih => intro s a; rw [State.store, ih]; rfl
  induction l generalizing s a with
  | nil => rfl
  | cons x t ih => rw [State.setWords, ih]; exact hs _ _ _

@[simp] theorem State.setWords_stn (l : List Word) (s : State) (a : Nat) : (s.setWords a l).stn = s.stn := by
  have hs : ∀ (l : List Byte) (s : State) (a : Nat), (s.store a l).stn = s.stn := by
    intro l; induction l with
    | nil => intro s a; rfl
    | cons x t ih => intro s a; rw [State.store, ih]; rfl
  induction l generalizing s a with
  | nil => rfl
  | cons x t ih => rw [State.setWords, ih]; exact hs _ _ _

@[simp] theorem State.setWords_can (l : List Word) (s : State) (a : Nat) : (s.setWords a l).can = s.can := by
  have hs : ∀ (l : List Byte) (s : State) (a : Nat), (s.store a l).can = s.can := by
    intro l; induction l with
    | nil => intro s a; rfl
    | cons x t ih => intro s a; rw [State.store, ih]; rfl
  induction l generalizing s a with
  | nil => rfl
  | cons x t ih => rw [State.setWords, ih]; exact hs _ _ _

@[simp] theorem State.setWords_swQ (l : List Word) (s : State) (a : Nat) : (s.setWords a l).swQ = s.swQ := by
  have hs : ∀ (l : List Byte) (s : State) (a : Nat), (s.store a l).swQ = s.swQ := by
    intro l; induction l with
    | nil => intro s a; rfl
    | cons x t ih => intro s a; rw [State.store, ih]; rfl
  induction l generalizing s a with
  | nil => rfl
  | cons x t ih => rw [State.setWords, ih]; exact hs _ _ _

@[simp] theorem State.setWords_ring (l : List Word) (s : State) (a : Nat) : (s.setWords a l).ring = s.ring := by
  have hs : ∀ (l : List Byte) (s : State) (a : Nat), (s.store a l).ring = s.ring := by
    intro l; induction l with
    | nil => intro s a; rfl
    | cons x t ih => intro s a; rw [State.store, ih]; rfl
  induction l generalizing s a with
  | nil => rfl
  | cons x t ih => rw [State.setWords, ih]; exact hs _ _ _

@[simp] theorem State.setWords_ce (l : List Word) (s : State) (a : Nat) : (s.setWords a l).ce = s.ce := by
  have hs : ∀ (l : List Byte) (s : State) (a : Nat), (s.store a l).ce = s.ce := by
    intro l; induction l with
    | nil => intro s a; rfl
    | cons x t ih => intro s a; rw [State.store, ih]; rfl
  induction l generalizing s a with
  | nil => rfl
  | cons x t ih => rw [State.setWords, ih]; exact hs _ _ _

@[simp] theorem State.setWords_sup (l : List Word) (s : State) (a : Nat) : (s.setWords a l).sup = s.sup := by
  have hs : ∀ (l : List Byte) (s : State) (a : Nat), (s.store a l).sup = s.sup := by
    intro l; induction l with
    | nil => intro s a; rfl
    | cons x t ih => intro s a; rw [State.store, ih]; rfl
  induction l generalizing s a with
  | nil => rfl
  | cons x t ih => rw [State.setWords, ih]; exact hs _ _ _

@[simp] theorem State.setWords_images (l : List Word) (s : State) (a : Nat) : (s.setWords a l).images = s.images := by
  have hs : ∀ (l : List Byte) (s : State) (a : Nat), (s.store a l).images = s.images := by
    intro l; induction l with
    | nil => intro s a; rfl
    | cons x t ih => intro s a; rw [State.store, ih]; rfl
  induction l generalizing s a with
  | nil => rfl
  | cons x t ih => rw [State.setWords, ih]; exact hs _ _ _

@[simp] theorem State.setWords_boot (l : List Word) (s : State) (a : Nat) : (s.setWords a l).boot = s.boot := by
  have hs : ∀ (l : List Byte) (s : State) (a : Nat), (s.store a l).boot = s.boot := by
    intro l; induction l with
    | nil => intro s a; rfl
    | cons x t ih => intro s a; rw [State.store, ih]; rfl
  induction l generalizing s a with
  | nil => rfl
  | cons x t ih => rw [State.setWords, ih]; exact hs _ _ _

@[simp] theorem State.setWords_pwr (l : List Word) (s : State) (a : Nat) : (s.setWords a l).pwr = s.pwr := by
  have hs : ∀ (l : List Byte) (s : State) (a : Nat), (s.store a l).pwr = s.pwr := by
    intro l; induction l with
    | nil => intro s a; rfl
    | cons x t ih => intro s a; rw [State.store, ih]; rfl
  induction l generalizing s a with
  | nil => rfl
  | cons x t ih => rw [State.setWords, ih]; exact hs _ _ _

@[simp] theorem State.setWords_chans (l : List Word) (s : State) (a : Nat) : (s.setWords a l).chans = s.chans := by
  have hs : ∀ (l : List Byte) (s : State) (a : Nat), (s.store a l).chans = s.chans := by
    intro l; induction l with
    | nil => intro s a; rfl
    | cons x t ih => intro s a; rw [State.store, ih]; rfl
  induction l generalizing s a with
  | nil => rfl
  | cons x t ih => rw [State.setWords, ih]; exact hs _ _ _

@[simp] theorem State.getReg_setWords (l : List Word) (s : State) (a b : Nat) : (s.setWords a l).getReg b = s.getReg b := by
  induction l generalizing s a with
  | nil => rfl
  | cons x t ih => rw [State.setWords, ih]; exact State.getReg_store _ _ _ _

@[simp] theorem State.lfrWrite_pending (s : State) (d : Die) (ws : List Word) : (s.lfrWrite d ws).pending = s.pending := by
  unfold State.lfrWrite; simp only []; rw [State.raise_pending, State.setFld_pending, foldl_keeps (g := fun s => s.pending) (fun _ _ => State.setReg_pending _ _ _)]; simp

@[simp] theorem State.lfrWrite_time (s : State) (d : Die) (ws : List Word) : (s.lfrWrite d ws).time = s.time := by
  unfold State.lfrWrite; simp only []; rw [State.raise_time, State.setFld_time, foldl_keeps (g := fun s => s.time) (fun _ _ => State.setReg_time _ _ _)]; simp

@[simp] theorem State.lfrWrite_interp (s : State) (d : Die) (ws : List Word) : (s.lfrWrite d ws).interp = s.interp := by
  unfold State.lfrWrite; simp only []; rw [State.raise_interp, State.setFld_interp, foldl_keeps (g := fun s => s.interp) (fun _ _ => State.setReg_interp _ _ _)]; simp

@[simp] theorem State.lfrWrite_planQ (s : State) (d : Die) (ws : List Word) : (s.lfrWrite d ws).planQ = s.planQ := by
  unfold State.lfrWrite; simp only []; rw [State.raise_planQ, State.setFld_planQ, foldl_keeps (g := fun s => s.planQ) (fun _ _ => State.setReg_planQ _ _ _)]; simp

@[simp] theorem State.lfrWrite_sfq (s : State) (d : Die) (ws : List Word) : (s.lfrWrite d ws).sfq = s.sfq := by
  unfold State.lfrWrite; simp only []; rw [State.raise_sfq, State.setFld_sfq, foldl_keeps (g := fun s => s.sfq) (fun _ _ => State.setReg_sfq _ _ _)]; simp

@[simp] theorem State.lfrWrite_ecc (s : State) (d : Die) (ws : List Word) : (s.lfrWrite d ws).ecc = s.ecc := by
  unfold State.lfrWrite; simp only []; rw [State.raise_ecc, State.setFld_ecc, foldl_keeps (g := fun s => s.ecc) (fun _ _ => State.setReg_ecc _ _ _)]; simp

@[simp] theorem State.lfrWrite_dly (s : State) (d : Die) (ws : List Word) : (s.lfrWrite d ws).dly = s.dly := by
  unfold State.lfrWrite; simp only []; rw [State.raise_dly, State.setFld_dly, foldl_keeps (g := fun s => s.dly) (fun _ _ => State.setReg_dly _ _ _)]; simp

@[simp] theorem State.lfrWrite_units (s : State) (d : Die) (ws : List Word) : (s.lfrWrite d ws).units = s.units := by
  unfold State.lfrWrite; simp only []; rw [State.raise_units, State.setFld_units, foldl_keeps (g := fun s => s.units) (fun _ _ => State.setReg_units _ _ _)]; simp

@[simp] theorem State.lfrWrite_cmp (s : State) (d : Die) (ws : List Word) : (s.lfrWrite d ws).cmp = s.cmp := by
  unfold State.lfrWrite; simp only []; rw [State.raise_cmp, State.setFld_cmp, foldl_keeps (g := fun s => s.cmp) (fun _ _ => State.setReg_cmp _ _ _)]; simp

@[simp] theorem State.lfrWrite_intents (s : State) (d : Die) (ws : List Word) : (s.lfrWrite d ws).intents = s.intents := by
  unfold State.lfrWrite; simp only []; rw [State.raise_intents, State.setFld_intents, foldl_keeps (g := fun s => s.intents) (fun _ _ => State.setReg_intents _ _ _)]; simp

@[simp] theorem State.lfrWrite_fio (s : State) (d : Die) (ws : List Word) : (s.lfrWrite d ws).fio = s.fio := by
  unfold State.lfrWrite; simp only []; rw [State.raise_fio, State.setFld_fio, foldl_keeps (g := fun s => s.fio) (fun _ _ => State.setReg_fio _ _ _)]; simp

@[simp] theorem State.lfrWrite_stn (s : State) (d : Die) (ws : List Word) : (s.lfrWrite d ws).stn = s.stn := by
  unfold State.lfrWrite; simp only []; rw [State.raise_stn, State.setFld_stn, foldl_keeps (g := fun s => s.stn) (fun _ _ => State.setReg_stn _ _ _)]; simp

@[simp] theorem State.lfrWrite_can (s : State) (d : Die) (ws : List Word) : (s.lfrWrite d ws).can = s.can := by
  unfold State.lfrWrite; simp only []; rw [State.raise_can, State.setFld_can, foldl_keeps (g := fun s => s.can) (fun _ _ => State.setReg_can _ _ _)]; simp

@[simp] theorem State.lfrWrite_swQ (s : State) (d : Die) (ws : List Word) : (s.lfrWrite d ws).swQ = s.swQ := by
  unfold State.lfrWrite; simp only []; rw [State.raise_swQ, State.setFld_swQ, foldl_keeps (g := fun s => s.swQ) (fun _ _ => State.setReg_swQ _ _ _)]; simp

@[simp] theorem State.lfrWrite_ring (s : State) (d : Die) (ws : List Word) : (s.lfrWrite d ws).ring = s.ring := by
  unfold State.lfrWrite; simp only []; rw [State.raise_ring, State.setFld_ring, foldl_keeps (g := fun s => s.ring) (fun _ _ => State.setReg_ring _ _ _)]; simp

@[simp] theorem State.lfrWrite_ce (s : State) (d : Die) (ws : List Word) : (s.lfrWrite d ws).ce = s.ce := by
  unfold State.lfrWrite; simp only []; rw [State.raise_ce, State.setFld_ce, foldl_keeps (g := fun s => s.ce) (fun _ _ => State.setReg_ce _ _ _)]; simp

@[simp] theorem State.lfrWrite_sup (s : State) (d : Die) (ws : List Word) : (s.lfrWrite d ws).sup = s.sup := by
  unfold State.lfrWrite; simp only []; rw [State.raise_sup, State.setFld_sup, foldl_keeps (g := fun s => s.sup) (fun _ _ => State.setReg_sup _ _ _)]; simp

@[simp] theorem State.lfrWrite_images (s : State) (d : Die) (ws : List Word) : (s.lfrWrite d ws).images = s.images := by
  unfold State.lfrWrite; simp only []; rw [State.raise_images, State.setFld_images, foldl_keeps (g := fun s => s.images) (fun _ _ => State.setReg_images _ _ _)]; simp

@[simp] theorem State.lfrWrite_boot (s : State) (d : Die) (ws : List Word) : (s.lfrWrite d ws).boot = s.boot := by
  unfold State.lfrWrite; simp only []; rw [State.raise_boot, State.setFld_boot, foldl_keeps (g := fun s => s.boot) (fun _ _ => State.setReg_boot _ _ _)]; simp

@[simp] theorem State.lfrWrite_pwr (s : State) (d : Die) (ws : List Word) : (s.lfrWrite d ws).pwr = s.pwr := by
  unfold State.lfrWrite; simp only []; rw [State.raise_pwr, State.setFld_pwr, foldl_keeps (g := fun s => s.pwr) (fun _ _ => State.setReg_pwr _ _ _)]; simp

@[simp] theorem State.lfrWrite_chans (s : State) (d : Die) (ws : List Word) : (s.lfrWrite d ws).chans = s.chans := by
  unfold State.lfrWrite; simp only []; rw [State.raise_chans, State.setFld_chans, foldl_keeps (g := fun s => s.chans) (fun _ _ => State.setReg_chans _ _ _)]; simp

@[simp] theorem State.logFlash_pending (s : State) (d : Die) (n : Nat) (ws : List Word) : (s.logFlash d n ws).pending = s.pending := by
  unfold State.logFlash; simp only []; split <;> [split_ifs <;> simp; simp]

@[simp] theorem State.logFlash_time (s : State) (d : Die) (n : Nat) (ws : List Word) : (s.logFlash d n ws).time = s.time := by
  unfold State.logFlash; simp only []; split <;> [split_ifs <;> simp; simp]

@[simp] theorem State.logFlash_interp (s : State) (d : Die) (n : Nat) (ws : List Word) : (s.logFlash d n ws).interp = s.interp := by
  unfold State.logFlash; simp only []; split <;> [split_ifs <;> simp; simp]

@[simp] theorem State.logFlash_planQ (s : State) (d : Die) (n : Nat) (ws : List Word) : (s.logFlash d n ws).planQ = s.planQ := by
  unfold State.logFlash; simp only []; split <;> [split_ifs <;> simp; simp]

@[simp] theorem State.logFlash_sfq (s : State) (d : Die) (n : Nat) (ws : List Word) : (s.logFlash d n ws).sfq = s.sfq := by
  unfold State.logFlash; simp only []; split <;> [split_ifs <;> simp; simp]

@[simp] theorem State.logFlash_ecc (s : State) (d : Die) (n : Nat) (ws : List Word) : (s.logFlash d n ws).ecc = s.ecc := by
  unfold State.logFlash; simp only []; split <;> [split_ifs <;> simp; simp]

@[simp] theorem State.logFlash_dly (s : State) (d : Die) (n : Nat) (ws : List Word) : (s.logFlash d n ws).dly = s.dly := by
  unfold State.logFlash; simp only []; split <;> [split_ifs <;> simp; simp]

@[simp] theorem State.logFlash_units (s : State) (d : Die) (n : Nat) (ws : List Word) : (s.logFlash d n ws).units = s.units := by
  unfold State.logFlash; simp only []; split <;> [split_ifs <;> simp; simp]

@[simp] theorem State.logFlash_cmp (s : State) (d : Die) (n : Nat) (ws : List Word) : (s.logFlash d n ws).cmp = s.cmp := by
  unfold State.logFlash; simp only []; split <;> [split_ifs <;> simp; simp]

@[simp] theorem State.logFlash_intents (s : State) (d : Die) (n : Nat) (ws : List Word) : (s.logFlash d n ws).intents = s.intents := by
  unfold State.logFlash; simp only []; split <;> [split_ifs <;> simp; simp]

@[simp] theorem State.logFlash_fio (s : State) (d : Die) (n : Nat) (ws : List Word) : (s.logFlash d n ws).fio = s.fio := by
  unfold State.logFlash; simp only []; split <;> [split_ifs <;> simp; simp]

@[simp] theorem State.logFlash_stn (s : State) (d : Die) (n : Nat) (ws : List Word) : (s.logFlash d n ws).stn = s.stn := by
  unfold State.logFlash; simp only []; split <;> [split_ifs <;> simp; simp]

@[simp] theorem State.logFlash_can (s : State) (d : Die) (n : Nat) (ws : List Word) : (s.logFlash d n ws).can = s.can := by
  unfold State.logFlash; simp only []; split <;> [split_ifs <;> simp; simp]

@[simp] theorem State.logFlash_swQ (s : State) (d : Die) (n : Nat) (ws : List Word) : (s.logFlash d n ws).swQ = s.swQ := by
  unfold State.logFlash; simp only []; split <;> [split_ifs <;> simp; simp]

@[simp] theorem State.logFlash_ring (s : State) (d : Die) (n : Nat) (ws : List Word) : (s.logFlash d n ws).ring = s.ring := by
  unfold State.logFlash; simp only []; split <;> [split_ifs <;> simp; simp]

@[simp] theorem State.logFlash_ce (s : State) (d : Die) (n : Nat) (ws : List Word) : (s.logFlash d n ws).ce = s.ce := by
  unfold State.logFlash; simp only []; split <;> [split_ifs <;> simp; simp]

@[simp] theorem State.logFlash_sup (s : State) (d : Die) (n : Nat) (ws : List Word) : (s.logFlash d n ws).sup = s.sup := by
  unfold State.logFlash; simp only []; split <;> [split_ifs <;> simp; simp]

@[simp] theorem State.logFlash_images (s : State) (d : Die) (n : Nat) (ws : List Word) : (s.logFlash d n ws).images = s.images := by
  unfold State.logFlash; simp only []; split <;> [split_ifs <;> simp; simp]

@[simp] theorem State.logFlash_boot (s : State) (d : Die) (n : Nat) (ws : List Word) : (s.logFlash d n ws).boot = s.boot := by
  unfold State.logFlash; simp only []; split <;> [split_ifs <;> simp; simp]

@[simp] theorem State.logFlash_pwr (s : State) (d : Die) (n : Nat) (ws : List Word) : (s.logFlash d n ws).pwr = s.pwr := by
  unfold State.logFlash; simp only []; split <;> [split_ifs <;> simp; simp]

@[simp] theorem State.logFlash_chans (s : State) (d : Die) (n : Nat) (ws : List Word) : (s.logFlash d n ws).chans = s.chans := by
  unfold State.logFlash; simp only []; split <;> [split_ifs <;> simp; simp]

/-! ### Words of the pool written whole, and the mirror of the log -/

@[simp] theorem State.wordsClean_pending (s : State) (d : Die) (a n : Nat) : (s.wordsClean d a n).pending = s.pending := by
  induction n generalizing s a with
  | zero => rfl
  | succ n ih => rw [State.wordsClean, ih]; split <;> exact (rfl)

@[simp] theorem State.wordsClean_time (s : State) (d : Die) (a n : Nat) : (s.wordsClean d a n).time = s.time := by
  induction n generalizing s a with
  | zero => rfl
  | succ n ih => rw [State.wordsClean, ih]; split <;> exact (rfl)

@[simp] theorem State.wordsClean_interp (s : State) (d : Die) (a n : Nat) : (s.wordsClean d a n).interp = s.interp := by
  induction n generalizing s a with
  | zero => rfl
  | succ n ih => rw [State.wordsClean, ih]; split <;> exact (rfl)

@[simp] theorem State.wordsClean_planQ (s : State) (d : Die) (a n : Nat) : (s.wordsClean d a n).planQ = s.planQ := by
  induction n generalizing s a with
  | zero => rfl
  | succ n ih => rw [State.wordsClean, ih]; split <;> exact (rfl)

@[simp] theorem State.wordsClean_sfq (s : State) (d : Die) (a n : Nat) : (s.wordsClean d a n).sfq = s.sfq := by
  induction n generalizing s a with
  | zero => rfl
  | succ n ih => rw [State.wordsClean, ih]; split <;> exact (rfl)

@[simp] theorem State.wordsClean_dly (s : State) (d : Die) (a n : Nat) : (s.wordsClean d a n).dly = s.dly := by
  induction n generalizing s a with
  | zero => rfl
  | succ n ih => rw [State.wordsClean, ih]; split <;> exact (rfl)

@[simp] theorem State.wordsClean_units (s : State) (d : Die) (a n : Nat) : (s.wordsClean d a n).units = s.units := by
  induction n generalizing s a with
  | zero => rfl
  | succ n ih => rw [State.wordsClean, ih]; split <;> exact (rfl)

@[simp] theorem State.wordsClean_cmp (s : State) (d : Die) (a n : Nat) : (s.wordsClean d a n).cmp = s.cmp := by
  induction n generalizing s a with
  | zero => rfl
  | succ n ih => rw [State.wordsClean, ih]; split <;> exact (rfl)

@[simp] theorem State.wordsClean_intents (s : State) (d : Die) (a n : Nat) : (s.wordsClean d a n).intents = s.intents := by
  induction n generalizing s a with
  | zero => rfl
  | succ n ih => rw [State.wordsClean, ih]; split <;> exact (rfl)

@[simp] theorem State.wordsClean_fio (s : State) (d : Die) (a n : Nat) : (s.wordsClean d a n).fio = s.fio := by
  induction n generalizing s a with
  | zero => rfl
  | succ n ih => rw [State.wordsClean, ih]; split <;> exact (rfl)

@[simp] theorem State.wordsClean_stn (s : State) (d : Die) (a n : Nat) : (s.wordsClean d a n).stn = s.stn := by
  induction n generalizing s a with
  | zero => rfl
  | succ n ih => rw [State.wordsClean, ih]; split <;> exact (rfl)

@[simp] theorem State.wordsClean_can (s : State) (d : Die) (a n : Nat) : (s.wordsClean d a n).can = s.can := by
  induction n generalizing s a with
  | zero => rfl
  | succ n ih => rw [State.wordsClean, ih]; split <;> exact (rfl)

@[simp] theorem State.wordsClean_swQ (s : State) (d : Die) (a n : Nat) : (s.wordsClean d a n).swQ = s.swQ := by
  induction n generalizing s a with
  | zero => rfl
  | succ n ih => rw [State.wordsClean, ih]; split <;> exact (rfl)

@[simp] theorem State.wordsClean_ring (s : State) (d : Die) (a n : Nat) : (s.wordsClean d a n).ring = s.ring := by
  induction n generalizing s a with
  | zero => rfl
  | succ n ih => rw [State.wordsClean, ih]; split <;> exact (rfl)

@[simp] theorem State.wordsClean_ce (s : State) (d : Die) (a n : Nat) : (s.wordsClean d a n).ce = s.ce := by
  induction n generalizing s a with
  | zero => rfl
  | succ n ih => rw [State.wordsClean, ih]; split <;> exact (rfl)

@[simp] theorem State.wordsClean_sup (s : State) (d : Die) (a n : Nat) : (s.wordsClean d a n).sup = s.sup := by
  induction n generalizing s a with
  | zero => rfl
  | succ n ih => rw [State.wordsClean, ih]; split <;> exact (rfl)

@[simp] theorem State.wordsClean_images (s : State) (d : Die) (a n : Nat) : (s.wordsClean d a n).images = s.images := by
  induction n generalizing s a with
  | zero => rfl
  | succ n ih => rw [State.wordsClean, ih]; split <;> exact (rfl)

@[simp] theorem State.wordsClean_boot (s : State) (d : Die) (a n : Nat) : (s.wordsClean d a n).boot = s.boot := by
  induction n generalizing s a with
  | zero => rfl
  | succ n ih => rw [State.wordsClean, ih]; split <;> exact (rfl)

@[simp] theorem State.wordsClean_pwr (s : State) (d : Die) (a n : Nat) : (s.wordsClean d a n).pwr = s.pwr := by
  induction n generalizing s a with
  | zero => rfl
  | succ n ih => rw [State.wordsClean, ih]; split <;> exact (rfl)

@[simp] theorem State.wordsClean_chans (s : State) (d : Die) (a n : Nat) : (s.wordsClean d a n).chans = s.chans := by
  induction n generalizing s a with
  | zero => rfl
  | succ n ih => rw [State.wordsClean, ih]; split <;> exact (rfl)

theorem State.getReg_wordsClean (s : State) (d : Die) (a n b : Nat) : (s.wordsClean d a n).getReg b = s.getReg b := by
  induction n generalizing s a with
  | zero => rfl
  | succ n ih => rw [State.wordsClean, ih]; split <;> exact (rfl)

@[simp] theorem State.mirWrite_pending (s : State) (d : Die) (n : Nat) (ws : List Word) : (s.mirWrite d n ws).pending = s.pending := by
  simp [State.mirWrite]

@[simp] theorem State.mirWrite_time (s : State) (d : Die) (n : Nat) (ws : List Word) : (s.mirWrite d n ws).time = s.time := by
  simp [State.mirWrite]

@[simp] theorem State.mirWrite_interp (s : State) (d : Die) (n : Nat) (ws : List Word) : (s.mirWrite d n ws).interp = s.interp := by
  simp [State.mirWrite]

@[simp] theorem State.mirWrite_planQ (s : State) (d : Die) (n : Nat) (ws : List Word) : (s.mirWrite d n ws).planQ = s.planQ := by
  simp [State.mirWrite]

@[simp] theorem State.mirWrite_sfq (s : State) (d : Die) (n : Nat) (ws : List Word) : (s.mirWrite d n ws).sfq = s.sfq := by
  simp [State.mirWrite]

@[simp] theorem State.mirWrite_dly (s : State) (d : Die) (n : Nat) (ws : List Word) : (s.mirWrite d n ws).dly = s.dly := by
  simp [State.mirWrite]

@[simp] theorem State.mirWrite_units (s : State) (d : Die) (n : Nat) (ws : List Word) : (s.mirWrite d n ws).units = s.units := by
  simp [State.mirWrite]

@[simp] theorem State.mirWrite_cmp (s : State) (d : Die) (n : Nat) (ws : List Word) : (s.mirWrite d n ws).cmp = s.cmp := by
  simp [State.mirWrite]

@[simp] theorem State.mirWrite_intents (s : State) (d : Die) (n : Nat) (ws : List Word) : (s.mirWrite d n ws).intents = s.intents := by
  simp [State.mirWrite]

@[simp] theorem State.mirWrite_fio (s : State) (d : Die) (n : Nat) (ws : List Word) : (s.mirWrite d n ws).fio = s.fio := by
  simp [State.mirWrite]

@[simp] theorem State.mirWrite_stn (s : State) (d : Die) (n : Nat) (ws : List Word) : (s.mirWrite d n ws).stn = s.stn := by
  simp [State.mirWrite]

@[simp] theorem State.mirWrite_can (s : State) (d : Die) (n : Nat) (ws : List Word) : (s.mirWrite d n ws).can = s.can := by
  simp [State.mirWrite]

@[simp] theorem State.mirWrite_swQ (s : State) (d : Die) (n : Nat) (ws : List Word) : (s.mirWrite d n ws).swQ = s.swQ := by
  simp [State.mirWrite]

@[simp] theorem State.mirWrite_ring (s : State) (d : Die) (n : Nat) (ws : List Word) : (s.mirWrite d n ws).ring = s.ring := by
  simp [State.mirWrite]

@[simp] theorem State.mirWrite_ce (s : State) (d : Die) (n : Nat) (ws : List Word) : (s.mirWrite d n ws).ce = s.ce := by
  simp [State.mirWrite]

@[simp] theorem State.mirWrite_sup (s : State) (d : Die) (n : Nat) (ws : List Word) : (s.mirWrite d n ws).sup = s.sup := by
  simp [State.mirWrite]

@[simp] theorem State.mirWrite_images (s : State) (d : Die) (n : Nat) (ws : List Word) : (s.mirWrite d n ws).images = s.images := by
  simp [State.mirWrite]

@[simp] theorem State.mirWrite_boot (s : State) (d : Die) (n : Nat) (ws : List Word) : (s.mirWrite d n ws).boot = s.boot := by
  simp [State.mirWrite]

@[simp] theorem State.mirWrite_pwr (s : State) (d : Die) (n : Nat) (ws : List Word) : (s.mirWrite d n ws).pwr = s.pwr := by
  simp [State.mirWrite]

@[simp] theorem State.mirWrite_chans (s : State) (d : Die) (n : Nat) (ws : List Word) : (s.mirWrite d n ws).chans = s.chans := by
  simp [State.mirWrite]

theorem State.getReg_mirWrite (s : State) (d : Die) (n : Nat) (ws : List Word) (b : Nat) : (s.mirWrite d n ws).getReg b = s.getReg b := by
  rw [State.mirWrite, State.getReg_wordsClean, State.getReg_setWords]

@[simp] theorem State.logStore_pending (s : State) (d : Die) (ws : List Word) : (s.logStore d ws).pending = s.pending := by
  unfold State.logStore; simp only [apply_ite State.pending, State.setReg_pending, State.setFld_pending, State.setFlag_pending, State.orReg_pending, State.count_pending, State.setLog_pending, State.setWords_pending, State.logFlash_pending, State.mirWrite_pending, State.lfrWrite_pending, State.emit_pending, State.raise_pending, ite_self]

@[simp] theorem State.logStore_time (s : State) (d : Die) (ws : List Word) : (s.logStore d ws).time = s.time := by
  unfold State.logStore; simp only [apply_ite State.time, State.setReg_time, State.setFld_time, State.setFlag_time, State.orReg_time, State.count_time, State.setLog_time, State.setWords_time, State.logFlash_time, State.mirWrite_time, State.lfrWrite_time, State.emit_time, State.raise_time, ite_self]

@[simp] theorem State.logStore_interp (s : State) (d : Die) (ws : List Word) : (s.logStore d ws).interp = s.interp := by
  unfold State.logStore; simp only [apply_ite State.interp, State.setReg_interp, State.setFld_interp, State.setFlag_interp, State.orReg_interp, State.count_interp, State.setLog_interp, State.setWords_interp, State.logFlash_interp, State.mirWrite_interp, State.lfrWrite_interp, State.emit_interp, State.raise_interp, ite_self]

@[simp] theorem State.logStore_planQ (s : State) (d : Die) (ws : List Word) : (s.logStore d ws).planQ = s.planQ := by
  unfold State.logStore; simp only [apply_ite State.planQ, State.setReg_planQ, State.setFld_planQ, State.setFlag_planQ, State.orReg_planQ, State.count_planQ, State.setLog_planQ, State.setWords_planQ, State.logFlash_planQ, State.mirWrite_planQ, State.lfrWrite_planQ, State.emit_planQ, State.raise_planQ, ite_self]

@[simp] theorem State.logStore_sfq (s : State) (d : Die) (ws : List Word) : (s.logStore d ws).sfq = s.sfq := by
  unfold State.logStore; simp only [apply_ite State.sfq, State.setReg_sfq, State.setFld_sfq, State.setFlag_sfq, State.orReg_sfq, State.count_sfq, State.setLog_sfq, State.setWords_sfq, State.logFlash_sfq, State.mirWrite_sfq, State.lfrWrite_sfq, State.emit_sfq, State.raise_sfq, ite_self]

@[simp] theorem State.logStore_dly (s : State) (d : Die) (ws : List Word) : (s.logStore d ws).dly = s.dly := by
  unfold State.logStore; simp only [apply_ite State.dly, State.setReg_dly, State.setFld_dly, State.setFlag_dly, State.orReg_dly, State.count_dly, State.setLog_dly, State.setWords_dly, State.logFlash_dly, State.mirWrite_dly, State.lfrWrite_dly, State.emit_dly, State.raise_dly, ite_self]

@[simp] theorem State.logStore_units (s : State) (d : Die) (ws : List Word) : (s.logStore d ws).units = s.units := by
  unfold State.logStore; simp only [apply_ite State.units, State.setReg_units, State.setFld_units, State.setFlag_units, State.orReg_units, State.count_units, State.setLog_units, State.setWords_units, State.logFlash_units, State.mirWrite_units, State.lfrWrite_units, State.emit_units, State.raise_units, ite_self]

@[simp] theorem State.logStore_cmp (s : State) (d : Die) (ws : List Word) : (s.logStore d ws).cmp = s.cmp := by
  unfold State.logStore; simp only [apply_ite State.cmp, State.setReg_cmp, State.setFld_cmp, State.setFlag_cmp, State.orReg_cmp, State.count_cmp, State.setLog_cmp, State.setWords_cmp, State.logFlash_cmp, State.mirWrite_cmp, State.lfrWrite_cmp, State.emit_cmp, State.raise_cmp, ite_self]

@[simp] theorem State.logStore_intents (s : State) (d : Die) (ws : List Word) : (s.logStore d ws).intents = s.intents := by
  unfold State.logStore; simp only [apply_ite State.intents, State.setReg_intents, State.setFld_intents, State.setFlag_intents, State.orReg_intents, State.count_intents, State.setLog_intents, State.setWords_intents, State.logFlash_intents, State.mirWrite_intents, State.lfrWrite_intents, State.emit_intents, State.raise_intents, ite_self]

@[simp] theorem State.logStore_fio (s : State) (d : Die) (ws : List Word) : (s.logStore d ws).fio = s.fio := by
  unfold State.logStore; simp only [apply_ite State.fio, State.setReg_fio, State.setFld_fio, State.setFlag_fio, State.orReg_fio, State.count_fio, State.setLog_fio, State.setWords_fio, State.logFlash_fio, State.mirWrite_fio, State.lfrWrite_fio, State.emit_fio, State.raise_fio, ite_self]

@[simp] theorem State.logStore_stn (s : State) (d : Die) (ws : List Word) : (s.logStore d ws).stn = s.stn := by
  unfold State.logStore; simp only [apply_ite State.stn, State.setReg_stn, State.setFld_stn, State.setFlag_stn, State.orReg_stn, State.count_stn, State.setLog_stn, State.setWords_stn, State.logFlash_stn, State.mirWrite_stn, State.lfrWrite_stn, State.emit_stn, State.raise_stn, ite_self]

@[simp] theorem State.logStore_can (s : State) (d : Die) (ws : List Word) : (s.logStore d ws).can = s.can := by
  unfold State.logStore; simp only [apply_ite State.can, State.setReg_can, State.setFld_can, State.setFlag_can, State.orReg_can, State.count_can, State.setLog_can, State.setWords_can, State.logFlash_can, State.mirWrite_can, State.lfrWrite_can, State.emit_can, State.raise_can, ite_self]

@[simp] theorem State.logStore_swQ (s : State) (d : Die) (ws : List Word) : (s.logStore d ws).swQ = s.swQ := by
  unfold State.logStore; simp only [apply_ite State.swQ, State.setReg_swQ, State.setFld_swQ, State.setFlag_swQ, State.orReg_swQ, State.count_swQ, State.setLog_swQ, State.setWords_swQ, State.logFlash_swQ, State.mirWrite_swQ, State.lfrWrite_swQ, State.emit_swQ, State.raise_swQ, ite_self]

@[simp] theorem State.logStore_ring (s : State) (d : Die) (ws : List Word) : (s.logStore d ws).ring = s.ring := by
  unfold State.logStore; simp only [apply_ite State.ring, State.setReg_ring, State.setFld_ring, State.setFlag_ring, State.orReg_ring, State.count_ring, State.setLog_ring, State.setWords_ring, State.logFlash_ring, State.mirWrite_ring, State.lfrWrite_ring, State.emit_ring, State.raise_ring, ite_self]

@[simp] theorem State.logStore_ce (s : State) (d : Die) (ws : List Word) : (s.logStore d ws).ce = s.ce := by
  unfold State.logStore; simp only [apply_ite State.ce, State.setReg_ce, State.setFld_ce, State.setFlag_ce, State.orReg_ce, State.count_ce, State.setLog_ce, State.setWords_ce, State.logFlash_ce, State.mirWrite_ce, State.lfrWrite_ce, State.emit_ce, State.raise_ce, ite_self]

@[simp] theorem State.logStore_sup (s : State) (d : Die) (ws : List Word) : (s.logStore d ws).sup = s.sup := by
  unfold State.logStore; simp only [apply_ite State.sup, State.setReg_sup, State.setFld_sup, State.setFlag_sup, State.orReg_sup, State.count_sup, State.setLog_sup, State.setWords_sup, State.logFlash_sup, State.mirWrite_sup, State.lfrWrite_sup, State.emit_sup, State.raise_sup, ite_self]

@[simp] theorem State.logStore_images (s : State) (d : Die) (ws : List Word) : (s.logStore d ws).images = s.images := by
  unfold State.logStore; simp only [apply_ite State.images, State.setReg_images, State.setFld_images, State.setFlag_images, State.orReg_images, State.count_images, State.setLog_images, State.setWords_images, State.logFlash_images, State.mirWrite_images, State.lfrWrite_images, State.emit_images, State.raise_images, ite_self]

@[simp] theorem State.logStore_boot (s : State) (d : Die) (ws : List Word) : (s.logStore d ws).boot = s.boot := by
  unfold State.logStore; simp only [apply_ite State.boot, State.setReg_boot, State.setFld_boot, State.setFlag_boot, State.orReg_boot, State.count_boot, State.setLog_boot, State.setWords_boot, State.logFlash_boot, State.mirWrite_boot, State.lfrWrite_boot, State.emit_boot, State.raise_boot, ite_self]

@[simp] theorem State.logStore_pwr (s : State) (d : Die) (ws : List Word) : (s.logStore d ws).pwr = s.pwr := by
  unfold State.logStore; simp only [apply_ite State.pwr, State.setReg_pwr, State.setFld_pwr, State.setFlag_pwr, State.orReg_pwr, State.count_pwr, State.setLog_pwr, State.setWords_pwr, State.logFlash_pwr, State.mirWrite_pwr, State.lfrWrite_pwr, State.emit_pwr, State.raise_pwr, ite_self]

@[simp] theorem State.logStore_chans (s : State) (d : Die) (ws : List Word) : (s.logStore d ws).chans = s.chans := by
  unfold State.logStore; simp only [apply_ite State.chans, State.setReg_chans, State.setFld_chans, State.setFlag_chans, State.orReg_chans, State.count_chans, State.setLog_chans, State.setWords_chans, State.logFlash_chans, State.mirWrite_chans, State.lfrWrite_chans, State.emit_chans, State.raise_chans, ite_self]

@[simp] theorem State.logRefill_pending (s : State) (d : Die) : (s.logRefill d).pending = s.pending := by
  simp only [State.logRefill, State.setLog_pending]

@[simp] theorem State.logRefill_time (s : State) (d : Die) : (s.logRefill d).time = s.time := by
  simp only [State.logRefill, State.setLog_time]

@[simp] theorem State.logRefill_interp (s : State) (d : Die) : (s.logRefill d).interp = s.interp := by
  simp only [State.logRefill, State.setLog_interp]

@[simp] theorem State.logRefill_planQ (s : State) (d : Die) : (s.logRefill d).planQ = s.planQ := by
  simp only [State.logRefill, State.setLog_planQ]

@[simp] theorem State.logRefill_sfq (s : State) (d : Die) : (s.logRefill d).sfq = s.sfq := by
  simp only [State.logRefill, State.setLog_sfq]

@[simp] theorem State.logRefill_ecc (s : State) (d : Die) : (s.logRefill d).ecc = s.ecc := by
  simp only [State.logRefill, State.setLog_ecc]

@[simp] theorem State.logRefill_dly (s : State) (d : Die) : (s.logRefill d).dly = s.dly := by
  simp only [State.logRefill, State.setLog_dly]

@[simp] theorem State.logRefill_units (s : State) (d : Die) : (s.logRefill d).units = s.units := by
  simp only [State.logRefill, State.setLog_units]

@[simp] theorem State.logRefill_cmp (s : State) (d : Die) : (s.logRefill d).cmp = s.cmp := by
  simp only [State.logRefill, State.setLog_cmp]

@[simp] theorem State.logRefill_intents (s : State) (d : Die) : (s.logRefill d).intents = s.intents := by
  simp only [State.logRefill, State.setLog_intents]

@[simp] theorem State.logRefill_fio (s : State) (d : Die) : (s.logRefill d).fio = s.fio := by
  simp only [State.logRefill, State.setLog_fio]

@[simp] theorem State.logRefill_stn (s : State) (d : Die) : (s.logRefill d).stn = s.stn := by
  simp only [State.logRefill, State.setLog_stn]

@[simp] theorem State.logRefill_can (s : State) (d : Die) : (s.logRefill d).can = s.can := by
  simp only [State.logRefill, State.setLog_can]

@[simp] theorem State.logRefill_swQ (s : State) (d : Die) : (s.logRefill d).swQ = s.swQ := by
  simp only [State.logRefill, State.setLog_swQ]

@[simp] theorem State.logRefill_ring (s : State) (d : Die) : (s.logRefill d).ring = s.ring := by
  simp only [State.logRefill, State.setLog_ring]

@[simp] theorem State.logRefill_ce (s : State) (d : Die) : (s.logRefill d).ce = s.ce := by
  simp only [State.logRefill, State.setLog_ce]

@[simp] theorem State.logRefill_sup (s : State) (d : Die) : (s.logRefill d).sup = s.sup := by
  simp only [State.logRefill, State.setLog_sup]

@[simp] theorem State.logRefill_images (s : State) (d : Die) : (s.logRefill d).images = s.images := by
  simp only [State.logRefill, State.setLog_images]

@[simp] theorem State.logRefill_boot (s : State) (d : Die) : (s.logRefill d).boot = s.boot := by
  simp only [State.logRefill, State.setLog_boot]

@[simp] theorem State.logRefill_pwr (s : State) (d : Die) : (s.logRefill d).pwr = s.pwr := by
  simp only [State.logRefill, State.setLog_pwr]

@[simp] theorem State.logRefill_chans (s : State) (d : Die) : (s.logRefill d).chans = s.chans := by
  simp only [State.logRefill, State.setLog_chans]

@[simp] theorem State.logRaw_pending (s : State) (d : Die) (code sev hi16 : Nat) (detail : Word) : (s.logRaw d code sev hi16 detail).pending = s.pending := by
  unfold State.logRaw; simp only [apply_ite State.pending, State.setReg_pending, State.setFld_pending, State.setFlag_pending, State.orReg_pending, State.count_pending, State.setLog_pending, State.setWords_pending, State.logFlash_pending, State.lfrWrite_pending, State.logRefill_pending, State.emit_pending, State.raise_pending, State.logStore_pending, ite_self]

@[simp] theorem State.logRaw_time (s : State) (d : Die) (code sev hi16 : Nat) (detail : Word) : (s.logRaw d code sev hi16 detail).time = s.time := by
  unfold State.logRaw; simp only [apply_ite State.time, State.setReg_time, State.setFld_time, State.setFlag_time, State.orReg_time, State.count_time, State.setLog_time, State.setWords_time, State.logFlash_time, State.lfrWrite_time, State.logRefill_time, State.emit_time, State.raise_time, State.logStore_time, ite_self]

@[simp] theorem State.logRaw_interp (s : State) (d : Die) (code sev hi16 : Nat) (detail : Word) : (s.logRaw d code sev hi16 detail).interp = s.interp := by
  unfold State.logRaw; simp only [apply_ite State.interp, State.setReg_interp, State.setFld_interp, State.setFlag_interp, State.orReg_interp, State.count_interp, State.setLog_interp, State.setWords_interp, State.logFlash_interp, State.lfrWrite_interp, State.logRefill_interp, State.emit_interp, State.raise_interp, State.logStore_interp, ite_self]

@[simp] theorem State.logRaw_planQ (s : State) (d : Die) (code sev hi16 : Nat) (detail : Word) : (s.logRaw d code sev hi16 detail).planQ = s.planQ := by
  unfold State.logRaw; simp only [apply_ite State.planQ, State.setReg_planQ, State.setFld_planQ, State.setFlag_planQ, State.orReg_planQ, State.count_planQ, State.setLog_planQ, State.setWords_planQ, State.logFlash_planQ, State.lfrWrite_planQ, State.logRefill_planQ, State.emit_planQ, State.raise_planQ, State.logStore_planQ, ite_self]

@[simp] theorem State.logRaw_sfq (s : State) (d : Die) (code sev hi16 : Nat) (detail : Word) : (s.logRaw d code sev hi16 detail).sfq = s.sfq := by
  unfold State.logRaw; simp only [apply_ite State.sfq, State.setReg_sfq, State.setFld_sfq, State.setFlag_sfq, State.orReg_sfq, State.count_sfq, State.setLog_sfq, State.setWords_sfq, State.logFlash_sfq, State.lfrWrite_sfq, State.logRefill_sfq, State.emit_sfq, State.raise_sfq, State.logStore_sfq, ite_self]

@[simp] theorem State.logRaw_dly (s : State) (d : Die) (code sev hi16 : Nat) (detail : Word) : (s.logRaw d code sev hi16 detail).dly = s.dly := by
  unfold State.logRaw; simp only [apply_ite State.dly, State.setReg_dly, State.setFld_dly, State.setFlag_dly, State.orReg_dly, State.count_dly, State.setLog_dly, State.setWords_dly, State.logFlash_dly, State.lfrWrite_dly, State.logRefill_dly, State.emit_dly, State.raise_dly, State.logStore_dly, ite_self]

@[simp] theorem State.logRaw_units (s : State) (d : Die) (code sev hi16 : Nat) (detail : Word) : (s.logRaw d code sev hi16 detail).units = s.units := by
  unfold State.logRaw; simp only [apply_ite State.units, State.setReg_units, State.setFld_units, State.setFlag_units, State.orReg_units, State.count_units, State.setLog_units, State.setWords_units, State.logFlash_units, State.lfrWrite_units, State.logRefill_units, State.emit_units, State.raise_units, State.logStore_units, ite_self]

@[simp] theorem State.logRaw_cmp (s : State) (d : Die) (code sev hi16 : Nat) (detail : Word) : (s.logRaw d code sev hi16 detail).cmp = s.cmp := by
  unfold State.logRaw; simp only [apply_ite State.cmp, State.setReg_cmp, State.setFld_cmp, State.setFlag_cmp, State.orReg_cmp, State.count_cmp, State.setLog_cmp, State.setWords_cmp, State.logFlash_cmp, State.lfrWrite_cmp, State.logRefill_cmp, State.emit_cmp, State.raise_cmp, State.logStore_cmp, ite_self]

@[simp] theorem State.logRaw_intents (s : State) (d : Die) (code sev hi16 : Nat) (detail : Word) : (s.logRaw d code sev hi16 detail).intents = s.intents := by
  unfold State.logRaw; simp only [apply_ite State.intents, State.setReg_intents, State.setFld_intents, State.setFlag_intents, State.orReg_intents, State.count_intents, State.setLog_intents, State.setWords_intents, State.logFlash_intents, State.lfrWrite_intents, State.logRefill_intents, State.emit_intents, State.raise_intents, State.logStore_intents, ite_self]

@[simp] theorem State.logRaw_fio (s : State) (d : Die) (code sev hi16 : Nat) (detail : Word) : (s.logRaw d code sev hi16 detail).fio = s.fio := by
  unfold State.logRaw; simp only [apply_ite State.fio, State.setReg_fio, State.setFld_fio, State.setFlag_fio, State.orReg_fio, State.count_fio, State.setLog_fio, State.setWords_fio, State.logFlash_fio, State.lfrWrite_fio, State.logRefill_fio, State.emit_fio, State.raise_fio, State.logStore_fio, ite_self]

@[simp] theorem State.logRaw_stn (s : State) (d : Die) (code sev hi16 : Nat) (detail : Word) : (s.logRaw d code sev hi16 detail).stn = s.stn := by
  unfold State.logRaw; simp only [apply_ite State.stn, State.setReg_stn, State.setFld_stn, State.setFlag_stn, State.orReg_stn, State.count_stn, State.setLog_stn, State.setWords_stn, State.logFlash_stn, State.lfrWrite_stn, State.logRefill_stn, State.emit_stn, State.raise_stn, State.logStore_stn, ite_self]

@[simp] theorem State.logRaw_can (s : State) (d : Die) (code sev hi16 : Nat) (detail : Word) : (s.logRaw d code sev hi16 detail).can = s.can := by
  unfold State.logRaw; simp only [apply_ite State.can, State.setReg_can, State.setFld_can, State.setFlag_can, State.orReg_can, State.count_can, State.setLog_can, State.setWords_can, State.logFlash_can, State.lfrWrite_can, State.logRefill_can, State.emit_can, State.raise_can, State.logStore_can, ite_self]

@[simp] theorem State.logRaw_swQ (s : State) (d : Die) (code sev hi16 : Nat) (detail : Word) : (s.logRaw d code sev hi16 detail).swQ = s.swQ := by
  unfold State.logRaw; simp only [apply_ite State.swQ, State.setReg_swQ, State.setFld_swQ, State.setFlag_swQ, State.orReg_swQ, State.count_swQ, State.setLog_swQ, State.setWords_swQ, State.logFlash_swQ, State.lfrWrite_swQ, State.logRefill_swQ, State.emit_swQ, State.raise_swQ, State.logStore_swQ, ite_self]

@[simp] theorem State.logRaw_ring (s : State) (d : Die) (code sev hi16 : Nat) (detail : Word) : (s.logRaw d code sev hi16 detail).ring = s.ring := by
  unfold State.logRaw; simp only [apply_ite State.ring, State.setReg_ring, State.setFld_ring, State.setFlag_ring, State.orReg_ring, State.count_ring, State.setLog_ring, State.setWords_ring, State.logFlash_ring, State.lfrWrite_ring, State.logRefill_ring, State.emit_ring, State.raise_ring, State.logStore_ring, ite_self]

@[simp] theorem State.logRaw_ce (s : State) (d : Die) (code sev hi16 : Nat) (detail : Word) : (s.logRaw d code sev hi16 detail).ce = s.ce := by
  unfold State.logRaw; simp only [apply_ite State.ce, State.setReg_ce, State.setFld_ce, State.setFlag_ce, State.orReg_ce, State.count_ce, State.setLog_ce, State.setWords_ce, State.logFlash_ce, State.lfrWrite_ce, State.logRefill_ce, State.emit_ce, State.raise_ce, State.logStore_ce, ite_self]

@[simp] theorem State.logRaw_sup (s : State) (d : Die) (code sev hi16 : Nat) (detail : Word) : (s.logRaw d code sev hi16 detail).sup = s.sup := by
  unfold State.logRaw; simp only [apply_ite State.sup, State.setReg_sup, State.setFld_sup, State.setFlag_sup, State.orReg_sup, State.count_sup, State.setLog_sup, State.setWords_sup, State.logFlash_sup, State.lfrWrite_sup, State.logRefill_sup, State.emit_sup, State.raise_sup, State.logStore_sup, ite_self]

@[simp] theorem State.logRaw_images (s : State) (d : Die) (code sev hi16 : Nat) (detail : Word) : (s.logRaw d code sev hi16 detail).images = s.images := by
  unfold State.logRaw; simp only [apply_ite State.images, State.setReg_images, State.setFld_images, State.setFlag_images, State.orReg_images, State.count_images, State.setLog_images, State.setWords_images, State.logFlash_images, State.lfrWrite_images, State.logRefill_images, State.emit_images, State.raise_images, State.logStore_images, ite_self]

@[simp] theorem State.logRaw_boot (s : State) (d : Die) (code sev hi16 : Nat) (detail : Word) : (s.logRaw d code sev hi16 detail).boot = s.boot := by
  unfold State.logRaw; simp only [apply_ite State.boot, State.setReg_boot, State.setFld_boot, State.setFlag_boot, State.orReg_boot, State.count_boot, State.setLog_boot, State.setWords_boot, State.logFlash_boot, State.lfrWrite_boot, State.logRefill_boot, State.emit_boot, State.raise_boot, State.logStore_boot, ite_self]

@[simp] theorem State.logRaw_pwr (s : State) (d : Die) (code sev hi16 : Nat) (detail : Word) : (s.logRaw d code sev hi16 detail).pwr = s.pwr := by
  unfold State.logRaw; simp only [apply_ite State.pwr, State.setReg_pwr, State.setFld_pwr, State.setFlag_pwr, State.orReg_pwr, State.count_pwr, State.setLog_pwr, State.setWords_pwr, State.logFlash_pwr, State.lfrWrite_pwr, State.logRefill_pwr, State.emit_pwr, State.raise_pwr, State.logStore_pwr, ite_self]

@[simp] theorem State.logRaw_chans (s : State) (d : Die) (code sev hi16 : Nat) (detail : Word) : (s.logRaw d code sev hi16 detail).chans = s.chans := by
  unfold State.logRaw; simp only [apply_ite State.chans, State.setReg_chans, State.setFld_chans, State.setFlag_chans, State.orReg_chans, State.count_chans, State.setLog_chans, State.setWords_chans, State.logFlash_chans, State.lfrWrite_chans, State.logRefill_chans, State.emit_chans, State.raise_chans, State.logStore_chans, ite_self]

@[simp] theorem State.logEv_pending (s : State) (d : Die) (code sev cls idx detail : Nat) : (s.logEv d code sev cls idx detail).pending = s.pending := State.logRaw_pending _ _ _ _ _ _

@[simp] theorem State.logEv_time (s : State) (d : Die) (code sev cls idx detail : Nat) : (s.logEv d code sev cls idx detail).time = s.time := State.logRaw_time _ _ _ _ _ _

@[simp] theorem State.logEv_interp (s : State) (d : Die) (code sev cls idx detail : Nat) : (s.logEv d code sev cls idx detail).interp = s.interp := State.logRaw_interp _ _ _ _ _ _

@[simp] theorem State.logEv_planQ (s : State) (d : Die) (code sev cls idx detail : Nat) : (s.logEv d code sev cls idx detail).planQ = s.planQ := State.logRaw_planQ _ _ _ _ _ _

@[simp] theorem State.logEv_sfq (s : State) (d : Die) (code sev cls idx detail : Nat) : (s.logEv d code sev cls idx detail).sfq = s.sfq := State.logRaw_sfq _ _ _ _ _ _

@[simp] theorem State.logEv_dly (s : State) (d : Die) (code sev cls idx detail : Nat) : (s.logEv d code sev cls idx detail).dly = s.dly := State.logRaw_dly _ _ _ _ _ _

@[simp] theorem State.logEv_units (s : State) (d : Die) (code sev cls idx detail : Nat) : (s.logEv d code sev cls idx detail).units = s.units := State.logRaw_units _ _ _ _ _ _

@[simp] theorem State.logEv_cmp (s : State) (d : Die) (code sev cls idx detail : Nat) : (s.logEv d code sev cls idx detail).cmp = s.cmp := State.logRaw_cmp _ _ _ _ _ _

@[simp] theorem State.logEv_intents (s : State) (d : Die) (code sev cls idx detail : Nat) : (s.logEv d code sev cls idx detail).intents = s.intents := State.logRaw_intents _ _ _ _ _ _

@[simp] theorem State.logEv_fio (s : State) (d : Die) (code sev cls idx detail : Nat) : (s.logEv d code sev cls idx detail).fio = s.fio := State.logRaw_fio _ _ _ _ _ _

@[simp] theorem State.logEv_stn (s : State) (d : Die) (code sev cls idx detail : Nat) : (s.logEv d code sev cls idx detail).stn = s.stn := State.logRaw_stn _ _ _ _ _ _

@[simp] theorem State.logEv_can (s : State) (d : Die) (code sev cls idx detail : Nat) : (s.logEv d code sev cls idx detail).can = s.can := State.logRaw_can _ _ _ _ _ _

@[simp] theorem State.logEv_swQ (s : State) (d : Die) (code sev cls idx detail : Nat) : (s.logEv d code sev cls idx detail).swQ = s.swQ := State.logRaw_swQ _ _ _ _ _ _

@[simp] theorem State.logEv_ring (s : State) (d : Die) (code sev cls idx detail : Nat) : (s.logEv d code sev cls idx detail).ring = s.ring := State.logRaw_ring _ _ _ _ _ _

@[simp] theorem State.logEv_ce (s : State) (d : Die) (code sev cls idx detail : Nat) : (s.logEv d code sev cls idx detail).ce = s.ce := State.logRaw_ce _ _ _ _ _ _

@[simp] theorem State.logEv_sup (s : State) (d : Die) (code sev cls idx detail : Nat) : (s.logEv d code sev cls idx detail).sup = s.sup := State.logRaw_sup _ _ _ _ _ _

@[simp] theorem State.logEv_images (s : State) (d : Die) (code sev cls idx detail : Nat) : (s.logEv d code sev cls idx detail).images = s.images := State.logRaw_images _ _ _ _ _ _

@[simp] theorem State.logEv_boot (s : State) (d : Die) (code sev cls idx detail : Nat) : (s.logEv d code sev cls idx detail).boot = s.boot := State.logRaw_boot _ _ _ _ _ _

@[simp] theorem State.logEv_pwr (s : State) (d : Die) (code sev cls idx detail : Nat) : (s.logEv d code sev cls idx detail).pwr = s.pwr := State.logRaw_pwr _ _ _ _ _ _

@[simp] theorem State.logEv_chans (s : State) (d : Die) (code sev cls idx detail : Nat) : (s.logEv d code sev cls idx detail).chans = s.chans := State.logRaw_chans _ _ _ _ _ _

@[simp] theorem State.logUnit_pending (s : State) (d : Die) (code sev cls idx detail : Nat) : (s.logUnit d code sev cls idx detail).pending = s.pending := State.logEv_pending _ _ _ _ _ _ _

@[simp] theorem State.logUnit_time (s : State) (d : Die) (code sev cls idx detail : Nat) : (s.logUnit d code sev cls idx detail).time = s.time := State.logEv_time _ _ _ _ _ _ _

@[simp] theorem State.logUnit_interp (s : State) (d : Die) (code sev cls idx detail : Nat) : (s.logUnit d code sev cls idx detail).interp = s.interp := State.logEv_interp _ _ _ _ _ _ _

@[simp] theorem State.logUnit_planQ (s : State) (d : Die) (code sev cls idx detail : Nat) : (s.logUnit d code sev cls idx detail).planQ = s.planQ := State.logEv_planQ _ _ _ _ _ _ _

@[simp] theorem State.logUnit_sfq (s : State) (d : Die) (code sev cls idx detail : Nat) : (s.logUnit d code sev cls idx detail).sfq = s.sfq := State.logEv_sfq _ _ _ _ _ _ _

@[simp] theorem State.logUnit_dly (s : State) (d : Die) (code sev cls idx detail : Nat) : (s.logUnit d code sev cls idx detail).dly = s.dly := State.logEv_dly _ _ _ _ _ _ _

@[simp] theorem State.logUnit_units (s : State) (d : Die) (code sev cls idx detail : Nat) : (s.logUnit d code sev cls idx detail).units = s.units := State.logEv_units _ _ _ _ _ _ _

@[simp] theorem State.logUnit_cmp (s : State) (d : Die) (code sev cls idx detail : Nat) : (s.logUnit d code sev cls idx detail).cmp = s.cmp := State.logEv_cmp _ _ _ _ _ _ _

@[simp] theorem State.logUnit_intents (s : State) (d : Die) (code sev cls idx detail : Nat) : (s.logUnit d code sev cls idx detail).intents = s.intents := State.logEv_intents _ _ _ _ _ _ _

@[simp] theorem State.logUnit_fio (s : State) (d : Die) (code sev cls idx detail : Nat) : (s.logUnit d code sev cls idx detail).fio = s.fio := State.logEv_fio _ _ _ _ _ _ _

@[simp] theorem State.logUnit_stn (s : State) (d : Die) (code sev cls idx detail : Nat) : (s.logUnit d code sev cls idx detail).stn = s.stn := State.logEv_stn _ _ _ _ _ _ _

@[simp] theorem State.logUnit_can (s : State) (d : Die) (code sev cls idx detail : Nat) : (s.logUnit d code sev cls idx detail).can = s.can := State.logEv_can _ _ _ _ _ _ _

@[simp] theorem State.logUnit_swQ (s : State) (d : Die) (code sev cls idx detail : Nat) : (s.logUnit d code sev cls idx detail).swQ = s.swQ := State.logEv_swQ _ _ _ _ _ _ _

@[simp] theorem State.logUnit_ring (s : State) (d : Die) (code sev cls idx detail : Nat) : (s.logUnit d code sev cls idx detail).ring = s.ring := State.logEv_ring _ _ _ _ _ _ _

@[simp] theorem State.logUnit_ce (s : State) (d : Die) (code sev cls idx detail : Nat) : (s.logUnit d code sev cls idx detail).ce = s.ce := State.logEv_ce _ _ _ _ _ _ _

@[simp] theorem State.logUnit_sup (s : State) (d : Die) (code sev cls idx detail : Nat) : (s.logUnit d code sev cls idx detail).sup = s.sup := State.logEv_sup _ _ _ _ _ _ _

@[simp] theorem State.logUnit_images (s : State) (d : Die) (code sev cls idx detail : Nat) : (s.logUnit d code sev cls idx detail).images = s.images := State.logEv_images _ _ _ _ _ _ _

@[simp] theorem State.logUnit_boot (s : State) (d : Die) (code sev cls idx detail : Nat) : (s.logUnit d code sev cls idx detail).boot = s.boot := State.logEv_boot _ _ _ _ _ _ _

@[simp] theorem State.logUnit_pwr (s : State) (d : Die) (code sev cls idx detail : Nat) : (s.logUnit d code sev cls idx detail).pwr = s.pwr := State.logEv_pwr _ _ _ _ _ _ _

@[simp] theorem State.logUnit_chans (s : State) (d : Die) (code sev cls idx detail : Nat) : (s.logUnit d code sev cls idx detail).chans = s.chans := State.logEv_chans _ _ _ _ _ _ _

theorem State.getReg_lfrWrite (s : State) (d : Die) (ws : List Word) (b : Nat) (h : blkOf b ≠ 6 ∧ blkOf b ≠ 42) :
    (s.lfrWrite d ws).getReg b = s.getReg b := by
  have e : ∀ i, b ≠ R.LOG_LFR d i ∨ 16 ≤ i := by
    intro i
    by_cases hi : 16 ≤ i
    · exact .inr hi
    · exact .inl (ne_of_blk (by rw [R.LOG_LFR, Nat.add_assoc, blkOf_blk _ _ _ (by decide) (by omega)]; exact h.2))
  have e2 : b ≠ R.LOG_LFR_STAT d := ne_of_blk (by rw [R.LOG_LFR_STAT, blkOf_blk _ _ _ (by decide) (by decide)]; exact h.2)
  have fold : ∀ (f : Nat → Word) (l : List Nat) (s : State), (∀ i ∈ l, i < 16) →
      (l.foldl (fun s i => s.setReg (R.LOG_LFR d i) (f i)) s).getReg b = s.getReg b := by
    intro f l
    induction l with
    | nil => intro s _; rfl
    | cons i t ih =>
      intro s hl
      have hi : i < 16 := hl i (by simp)
      rw [List.foldl_cons, ih _ fun j hj => hl j (by simp [hj]), State.getReg_setReg_ne]
      exact (e i).resolve_right (by omega)
  unfold State.lfrWrite
  simp only []
  rw [State.getReg_raise _ _ _ _ h.1, State.getReg_setFld, if_neg e2, fold _ _ _ (by simp), State.getReg_setLog]

theorem State.getReg_logFlash (s : State) (d : Die) (n : Nat) (ws : List Word) (b : Nat) (h : blkOf b ≠ 42) :
    (s.logFlash d n ws).getReg b = s.getReg b := by
  have e : b ≠ R.LOG_STAT d := ne_of_blk (by rw [R.LOG_STAT, blkOf_blk _ _ _ (by decide) (by decide)]; exact h)
  have k : ∀ x : Option Snapshot, ∀ y : State, y.getReg b = s.getReg b →
      (match x with
        | some x => if x.room = 0 then y else { y with rst := { y.rst with snap := some { x with ents := Tab.put (fun _ => []) x.ents (d.idx * 0x1_0000_0000 + n) ws, room := x.room - 1 } } }
        | none => y).getReg b = s.getReg b := by
    intro x y hy
    cases x with
    | none => exact hy
    | some x => simp only []; split_ifs <;> exact hy
  unfold State.logFlash
  simp only []
  apply k
  simp [e]

theorem State.getReg_logStore (s : State) (d : Die) (ws : List Word) (b : Nat) (h : blkOf b ≠ 6 ∧ blkOf b ≠ 41 ∧ blkOf b ≠ 42 ∧ blkOf b ≠ 8) :
    (s.logStore d ws).getReg b = s.getReg b := by
  have e1 : b ≠ R.HLT_LIFE_ENTRIES d := ne_of_blk (by rw [R.HLT_LIFE_ENTRIES, blkOf_blk _ _ _ (by decide) (by decide)]; exact h.2.1)
  have e2 : b ≠ R.LOG_HEAD d := ne_of_blk (by rw [R.LOG_HEAD, blkOf_blk _ _ _ (by decide) (by decide)]; exact h.2.2.1)
  have e3 : b ≠ R.LOG_OLDEST d := ne_of_blk (by rw [R.LOG_OLDEST, blkOf_blk _ _ _ (by decide) (by decide)]; exact h.2.2.1)
  have e4 : b ≠ R.LOG_LFR_STAT d := ne_of_blk (by rw [R.LOG_LFR_STAT, blkOf_blk _ _ _ (by decide) (by decide)]; exact h.2.2.1)
  have e5 : b ≠ R.POOL_RET_ERR d.other := ne_of_blk (by rw [R.POOL_RET_ERR, blkOf_blk _ _ _ (by decide) (by decide)]; exact h.2.2.2)
  unfold State.logStore
  simp only []
  simp only [State.getReg_ite, State.getReg_setReg, State.getReg_setLog, State.getReg_setWords, State.getReg_count,
    State.getReg_setFlag, e1, e2, e3, e4, e5, if_false, State.getReg_mirWrite, ite_self, State.getReg_lfrWrite _ _ _ _ ⟨h.1, h.2.2.1⟩, State.getReg_logFlash _ _ _ _ _ h.2.2.1]

/-- Logging an event changes registers of the blocks DBL, POOL, HLT and LOG only. -/
theorem State.getReg_logRaw (s : State) (d : Die) (code sev hi16 : Nat) (detail : Word) (b : Nat)
    (h : blkOf b ≠ 6 ∧ blkOf b ≠ 41 ∧ blkOf b ≠ 42 ∧ blkOf b ≠ 8) : (s.logRaw d code sev hi16 detail).getReg b = s.getReg b := by
  have e1 : b ≠ R.LOG_CNT_SUPP d := ne_of_blk (by rw [R.LOG_CNT_SUPP, blkOf_blk _ _ _ (by decide) (by decide)]; exact h.2.2.1)
  have e2 : b ≠ R.LOG_EVENT d := ne_of_blk (by rw [R.LOG_EVENT, blkOf_blk _ _ _ (by decide) (by decide)]; exact h.2.2.1)
  have k : ∀ (p : Prop) [Decidable p] (x y : State), x.getReg b = s.getReg b → y.getReg b = s.getReg b →
      (if p then x else y).getReg b = s.getReg b := by
    intro p _ x y hx hy
    split <;> assumption
  unfold State.logRaw
  extract_lets s1 x s2 l ws
  have h1 : s1.getReg b = s.getReg b := State.getReg_setLog _ _ _ _
  have h2 : s2.getReg b = s.getReg b := (State.getReg_setLog _ _ _ _).trans h1
  refine k _ _ _ ((State.getReg_logStore _ _ _ _ h).trans h2) (k _ _ _ ?_ ?_)
  · rw [State.getReg_logStore _ _ _ _ h, State.getReg_setLog, h2]
  · rw [State.getReg_setFlag, if_neg e2, State.getReg_count, if_neg e1, State.getReg_setLog, h2]

theorem State.getReg_logEv (s : State) (d : Die) (code sev cls idx detail b : Nat) (h : blkOf b ≠ 6 ∧ blkOf b ≠ 41 ∧ blkOf b ≠ 42 ∧ blkOf b ≠ 8) :
    (s.logEv d code sev cls idx detail).getReg b = s.getReg b := State.getReg_logRaw _ _ _ _ _ _ _ h

theorem State.getReg_logUnit (s : State) (d : Die) (code sev cls idx detail b : Nat) (h : blkOf b ≠ 6 ∧ blkOf b ≠ 41 ∧ blkOf b ≠ 42 ∧ blkOf b ≠ 8) :
    (s.logUnit d code sev cls idx detail).getReg b = s.getReg b := State.getReg_logEv _ _ _ _ _ _ _ _ h

@[simp] theorem State.setPlanEvents_pending (s : State) (d : Die) (q : List PlanEv) : (s.setPlanEvents d q).pending = s.pending := by
  simp only [State.setPlanEvents, State.setFld_pending]

@[simp] theorem State.setPlanEvents_time (s : State) (d : Die) (q : List PlanEv) : (s.setPlanEvents d q).time = s.time := by
  simp only [State.setPlanEvents, State.setFld_time]

@[simp] theorem State.setPlanEvents_interp (s : State) (d : Die) (q : List PlanEv) : (s.setPlanEvents d q).interp = s.interp := by
  simp only [State.setPlanEvents, State.setFld_interp]

@[simp] theorem State.setPlanEvents_sfq (s : State) (d : Die) (q : List PlanEv) : (s.setPlanEvents d q).sfq = s.sfq := by
  simp only [State.setPlanEvents, State.setFld_sfq]

@[simp] theorem State.setPlanEvents_ecc (s : State) (d : Die) (q : List PlanEv) : (s.setPlanEvents d q).ecc = s.ecc := by
  simp only [State.setPlanEvents, State.setFld_ecc]

@[simp] theorem State.setPlanEvents_dly (s : State) (d : Die) (q : List PlanEv) : (s.setPlanEvents d q).dly = s.dly := by
  simp only [State.setPlanEvents, State.setFld_dly]

@[simp] theorem State.setPlanEvents_units (s : State) (d : Die) (q : List PlanEv) : (s.setPlanEvents d q).units = s.units := by
  simp only [State.setPlanEvents, State.setFld_units]

@[simp] theorem State.setPlanEvents_cmp (s : State) (d : Die) (q : List PlanEv) : (s.setPlanEvents d q).cmp = s.cmp := by
  simp only [State.setPlanEvents, State.setFld_cmp]

@[simp] theorem State.setPlanEvents_intents (s : State) (d : Die) (q : List PlanEv) : (s.setPlanEvents d q).intents = s.intents := by
  simp only [State.setPlanEvents, State.setFld_intents]

@[simp] theorem State.setPlanEvents_fio (s : State) (d : Die) (q : List PlanEv) : (s.setPlanEvents d q).fio = s.fio := by
  simp only [State.setPlanEvents, State.setFld_fio]

@[simp] theorem State.setPlanEvents_stn (s : State) (d : Die) (q : List PlanEv) : (s.setPlanEvents d q).stn = s.stn := by
  simp only [State.setPlanEvents, State.setFld_stn]

@[simp] theorem State.setPlanEvents_can (s : State) (d : Die) (q : List PlanEv) : (s.setPlanEvents d q).can = s.can := by
  simp only [State.setPlanEvents, State.setFld_can]

@[simp] theorem State.setPlanEvents_swQ (s : State) (d : Die) (q : List PlanEv) : (s.setPlanEvents d q).swQ = s.swQ := by
  simp only [State.setPlanEvents, State.setFld_swQ]

@[simp] theorem State.setPlanEvents_ring (s : State) (d : Die) (q : List PlanEv) : (s.setPlanEvents d q).ring = s.ring := by
  simp only [State.setPlanEvents, State.setFld_ring]

@[simp] theorem State.setPlanEvents_ce (s : State) (d : Die) (q : List PlanEv) : (s.setPlanEvents d q).ce = s.ce := by
  simp only [State.setPlanEvents, State.setFld_ce]

@[simp] theorem State.setPlanEvents_sup (s : State) (d : Die) (q : List PlanEv) : (s.setPlanEvents d q).sup = s.sup := by
  simp only [State.setPlanEvents, State.setFld_sup]

@[simp] theorem State.setPlanEvents_images (s : State) (d : Die) (q : List PlanEv) : (s.setPlanEvents d q).images = s.images := by
  simp only [State.setPlanEvents, State.setFld_images]

@[simp] theorem State.setPlanEvents_boot (s : State) (d : Die) (q : List PlanEv) : (s.setPlanEvents d q).boot = s.boot := by
  simp only [State.setPlanEvents, State.setFld_boot]

@[simp] theorem State.setPlanEvents_pwr (s : State) (d : Die) (q : List PlanEv) : (s.setPlanEvents d q).pwr = s.pwr := by
  simp only [State.setPlanEvents, State.setFld_pwr]

@[simp] theorem State.setPlanEvents_mem (s : State) (d : Die) (q : List PlanEv) : (s.setPlanEvents d q).mem = s.mem := by
  simp only [State.setPlanEvents, State.setFld_mem]

@[simp] theorem State.setPlanEvents_chans (s : State) (d : Die) (q : List PlanEv) : (s.setPlanEvents d q).chans = s.chans := by
  simp only [State.setPlanEvents, State.setFld_chans]

@[simp] theorem State.plan_pending (s : State) (d : Die) (k : PlanKind) : (s.plan d k).pending = s.pending := by
  simp only [State.plan, State.setPlanEvents_pending]

@[simp] theorem State.plan_time (s : State) (d : Die) (k : PlanKind) : (s.plan d k).time = s.time := by
  simp only [State.plan, State.setPlanEvents_time]

@[simp] theorem State.plan_interp (s : State) (d : Die) (k : PlanKind) : (s.plan d k).interp = s.interp := by
  simp only [State.plan, State.setPlanEvents_interp]

@[simp] theorem State.plan_sfq (s : State) (d : Die) (k : PlanKind) : (s.plan d k).sfq = s.sfq := by
  simp only [State.plan, State.setPlanEvents_sfq]

@[simp] theorem State.plan_ecc (s : State) (d : Die) (k : PlanKind) : (s.plan d k).ecc = s.ecc := by
  simp only [State.plan, State.setPlanEvents_ecc]

@[simp] theorem State.plan_dly (s : State) (d : Die) (k : PlanKind) : (s.plan d k).dly = s.dly := by
  simp only [State.plan, State.setPlanEvents_dly]

@[simp] theorem State.plan_units (s : State) (d : Die) (k : PlanKind) : (s.plan d k).units = s.units := by
  simp only [State.plan, State.setPlanEvents_units]

@[simp] theorem State.plan_cmp (s : State) (d : Die) (k : PlanKind) : (s.plan d k).cmp = s.cmp := by
  simp only [State.plan, State.setPlanEvents_cmp]

@[simp] theorem State.plan_intents (s : State) (d : Die) (k : PlanKind) : (s.plan d k).intents = s.intents := by
  simp only [State.plan, State.setPlanEvents_intents]

@[simp] theorem State.plan_fio (s : State) (d : Die) (k : PlanKind) : (s.plan d k).fio = s.fio := by
  simp only [State.plan, State.setPlanEvents_fio]

@[simp] theorem State.plan_stn (s : State) (d : Die) (k : PlanKind) : (s.plan d k).stn = s.stn := by
  simp only [State.plan, State.setPlanEvents_stn]

@[simp] theorem State.plan_can (s : State) (d : Die) (k : PlanKind) : (s.plan d k).can = s.can := by
  simp only [State.plan, State.setPlanEvents_can]

@[simp] theorem State.plan_swQ (s : State) (d : Die) (k : PlanKind) : (s.plan d k).swQ = s.swQ := by
  simp only [State.plan, State.setPlanEvents_swQ]

@[simp] theorem State.plan_ring (s : State) (d : Die) (k : PlanKind) : (s.plan d k).ring = s.ring := by
  simp only [State.plan, State.setPlanEvents_ring]

@[simp] theorem State.plan_ce (s : State) (d : Die) (k : PlanKind) : (s.plan d k).ce = s.ce := by
  simp only [State.plan, State.setPlanEvents_ce]

@[simp] theorem State.plan_sup (s : State) (d : Die) (k : PlanKind) : (s.plan d k).sup = s.sup := by
  simp only [State.plan, State.setPlanEvents_sup]

@[simp] theorem State.plan_images (s : State) (d : Die) (k : PlanKind) : (s.plan d k).images = s.images := by
  simp only [State.plan, State.setPlanEvents_images]

@[simp] theorem State.plan_boot (s : State) (d : Die) (k : PlanKind) : (s.plan d k).boot = s.boot := by
  simp only [State.plan, State.setPlanEvents_boot]

@[simp] theorem State.plan_pwr (s : State) (d : Die) (k : PlanKind) : (s.plan d k).pwr = s.pwr := by
  simp only [State.plan, State.setPlanEvents_pwr]

@[simp] theorem State.plan_mem (s : State) (d : Die) (k : PlanKind) : (s.plan d k).mem = s.mem := by
  simp only [State.plan, State.setPlanEvents_mem]

@[simp] theorem State.plan_chans (s : State) (d : Die) (k : PlanKind) : (s.plan d k).chans = s.chans := by
  simp only [State.plan, State.setPlanEvents_chans]

/-- Queueing a planner's event changes no register outside the block PLC. -/
theorem State.getReg_setPlanEvents (s : State) (d : Die) (q : List PlanEv) (b : Nat) (h : blkOf b ≠ 7) :
    (s.setPlanEvents d q).getReg b = s.getReg b := by
  have e : b ≠ R.PLC_STAT d := ne_of_blk (by rw [R.PLC_STAT, blkOf_blk _ _ _ (by decide) (by decide)]; exact h)
  unfold State.setPlanEvents
  rw [State.getReg_setFld, if_neg e]
  exact State.getReg_congr (by simp only []) _

theorem State.getReg_plan (s : State) (d : Die) (k : PlanKind) (b : Nat) (h : blkOf b ≠ 7) : (s.plan d k).getReg b = s.getReg b :=
  State.getReg_setPlanEvents _ _ _ _ h

@[simp] theorem State.planEvents_setPlanEvents (s : State) (d : Die) (q : List PlanEv) : (s.setPlanEvents d q).planEvents d = q :=
  Tab.get_put_self _ _ _

/-! ### The error registers of a function -/

/-- A posted write that is refused changes error registers and may put out a message; nothing else. -/
theorem State.aerPosted_eq (s : State) (who : Requester) (wr : Bool) (c : Nat) :
    ∃ x o, s.aerPosted who wr c = { s with aer := x, out := o } := by
  have key : ∀ d fn, ∃ x o, s.aerLog d fn c = { s with aer := x, out := o } := by
    intro d fn
    unfold State.aerLog
    extract_lets a i fatal t
    rcases Bool.eq_false_or_eq_true (!bit a.mask i && bit a.control (if fatal then 2 else 1) && (i = 15 || bit a.control 3)) with e | e
    · exact ⟨_, _, by rw [if_pos e]; exact (rfl)⟩
    · exact ⟨_, _, by rw [if_neg (by rw [e]; exact Bool.false_ne_true)]⟩
  unfold State.aerPosted
  split
  · exact key _ _
  · exact key _ _
  · exact ⟨_, _, rfl⟩

@[simp] theorem State.aerPosted_pending (s : State) (who : Requester) (wr : Bool) (c : Nat) : (s.aerPosted who wr c).pending = s.pending := by
  obtain ⟨x, o, h⟩ := s.aerPosted_eq who wr c; rw [h]

@[simp] theorem State.aerPosted_time (s : State) (who : Requester) (wr : Bool) (c : Nat) : (s.aerPosted who wr c).time = s.time := by
  obtain ⟨x, o, h⟩ := s.aerPosted_eq who wr c; rw [h]

@[simp] theorem State.aerPosted_interp (s : State) (who : Requester) (wr : Bool) (c : Nat) : (s.aerPosted who wr c).interp = s.interp := by
  obtain ⟨x, o, h⟩ := s.aerPosted_eq who wr c; rw [h]

@[simp] theorem State.aerPosted_planQ (s : State) (who : Requester) (wr : Bool) (c : Nat) : (s.aerPosted who wr c).planQ = s.planQ := by
  obtain ⟨x, o, h⟩ := s.aerPosted_eq who wr c; rw [h]

@[simp] theorem State.aerPosted_sfq (s : State) (who : Requester) (wr : Bool) (c : Nat) : (s.aerPosted who wr c).sfq = s.sfq := by
  obtain ⟨x, o, h⟩ := s.aerPosted_eq who wr c; rw [h]

@[simp] theorem State.aerPosted_ecc (s : State) (who : Requester) (wr : Bool) (c : Nat) : (s.aerPosted who wr c).ecc = s.ecc := by
  obtain ⟨x, o, h⟩ := s.aerPosted_eq who wr c; rw [h]

@[simp] theorem State.aerPosted_dly (s : State) (who : Requester) (wr : Bool) (c : Nat) : (s.aerPosted who wr c).dly = s.dly := by
  obtain ⟨x, o, h⟩ := s.aerPosted_eq who wr c; rw [h]

@[simp] theorem State.aerPosted_units (s : State) (who : Requester) (wr : Bool) (c : Nat) : (s.aerPosted who wr c).units = s.units := by
  obtain ⟨x, o, h⟩ := s.aerPosted_eq who wr c; rw [h]

@[simp] theorem State.aerPosted_cmp (s : State) (who : Requester) (wr : Bool) (c : Nat) : (s.aerPosted who wr c).cmp = s.cmp := by
  obtain ⟨x, o, h⟩ := s.aerPosted_eq who wr c; rw [h]

@[simp] theorem State.aerPosted_intents (s : State) (who : Requester) (wr : Bool) (c : Nat) : (s.aerPosted who wr c).intents = s.intents := by
  obtain ⟨x, o, h⟩ := s.aerPosted_eq who wr c; rw [h]

@[simp] theorem State.aerPosted_fio (s : State) (who : Requester) (wr : Bool) (c : Nat) : (s.aerPosted who wr c).fio = s.fio := by
  obtain ⟨x, o, h⟩ := s.aerPosted_eq who wr c; rw [h]

@[simp] theorem State.aerPosted_stn (s : State) (who : Requester) (wr : Bool) (c : Nat) : (s.aerPosted who wr c).stn = s.stn := by
  obtain ⟨x, o, h⟩ := s.aerPosted_eq who wr c; rw [h]

@[simp] theorem State.aerPosted_can (s : State) (who : Requester) (wr : Bool) (c : Nat) : (s.aerPosted who wr c).can = s.can := by
  obtain ⟨x, o, h⟩ := s.aerPosted_eq who wr c; rw [h]

@[simp] theorem State.aerPosted_swQ (s : State) (who : Requester) (wr : Bool) (c : Nat) : (s.aerPosted who wr c).swQ = s.swQ := by
  obtain ⟨x, o, h⟩ := s.aerPosted_eq who wr c; rw [h]

@[simp] theorem State.aerPosted_ring (s : State) (who : Requester) (wr : Bool) (c : Nat) : (s.aerPosted who wr c).ring = s.ring := by
  obtain ⟨x, o, h⟩ := s.aerPosted_eq who wr c; rw [h]

@[simp] theorem State.aerPosted_ce (s : State) (who : Requester) (wr : Bool) (c : Nat) : (s.aerPosted who wr c).ce = s.ce := by
  obtain ⟨x, o, h⟩ := s.aerPosted_eq who wr c; rw [h]

@[simp] theorem State.aerPosted_sup (s : State) (who : Requester) (wr : Bool) (c : Nat) : (s.aerPosted who wr c).sup = s.sup := by
  obtain ⟨x, o, h⟩ := s.aerPosted_eq who wr c; rw [h]

@[simp] theorem State.aerPosted_images (s : State) (who : Requester) (wr : Bool) (c : Nat) : (s.aerPosted who wr c).images = s.images := by
  obtain ⟨x, o, h⟩ := s.aerPosted_eq who wr c; rw [h]

@[simp] theorem State.aerPosted_boot (s : State) (who : Requester) (wr : Bool) (c : Nat) : (s.aerPosted who wr c).boot = s.boot := by
  obtain ⟨x, o, h⟩ := s.aerPosted_eq who wr c; rw [h]

@[simp] theorem State.aerPosted_pwr (s : State) (who : Requester) (wr : Bool) (c : Nat) : (s.aerPosted who wr c).pwr = s.pwr := by
  obtain ⟨x, o, h⟩ := s.aerPosted_eq who wr c; rw [h]

@[simp] theorem State.aerPosted_mem (s : State) (who : Requester) (wr : Bool) (c : Nat) : (s.aerPosted who wr c).mem = s.mem := by
  obtain ⟨x, o, h⟩ := s.aerPosted_eq who wr c; rw [h]

@[simp] theorem State.aerPosted_chans (s : State) (who : Requester) (wr : Bool) (c : Nat) : (s.aerPosted who wr c).chans = s.chans := by
  obtain ⟨x, o, h⟩ := s.aerPosted_eq who wr c; rw [h]

theorem State.getReg_aerPosted (s : State) (who : Requester) (wr : Bool) (c b : Nat) : (s.aerPosted who wr c).getReg b = s.getReg b := by
  obtain ⟨x, o, h⟩ := s.aerPosted_eq who wr c; rw [h]; exact (rfl)

@[simp] theorem State.recordRefusal_pending (s : State) (who : Requester) (a : Nat) (wr : Bool) (c : Nat) : (s.recordRefusal who a wr c).pending = s.pending := by
  unfold State.recordRefusal; split <;> [exact (rfl); (simp only []; split_ifs <;> simp)]

@[simp] theorem State.recordRefusal_time (s : State) (who : Requester) (a : Nat) (wr : Bool) (c : Nat) : (s.recordRefusal who a wr c).time = s.time := by
  unfold State.recordRefusal; split <;> [exact (rfl); (simp only []; split_ifs <;> simp)]

@[simp] theorem State.recordRefusal_interp (s : State) (who : Requester) (a : Nat) (wr : Bool) (c : Nat) : (s.recordRefusal who a wr c).interp = s.interp := by
  unfold State.recordRefusal; split <;> [exact (rfl); (simp only []; split_ifs <;> simp)]

@[simp] theorem State.recordRefusal_planQ (s : State) (who : Requester) (a : Nat) (wr : Bool) (c : Nat) : (s.recordRefusal who a wr c).planQ = s.planQ := by
  unfold State.recordRefusal; split <;> [exact (rfl); (simp only []; split_ifs <;> simp)]

@[simp] theorem State.recordRefusal_sfq (s : State) (who : Requester) (a : Nat) (wr : Bool) (c : Nat) : (s.recordRefusal who a wr c).sfq = s.sfq := by
  unfold State.recordRefusal; split <;> [exact (rfl); (simp only []; split_ifs <;> simp)]

@[simp] theorem State.recordRefusal_ecc (s : State) (who : Requester) (a : Nat) (wr : Bool) (c : Nat) : (s.recordRefusal who a wr c).ecc = s.ecc := by
  unfold State.recordRefusal; split <;> [exact (rfl); (simp only []; split_ifs <;> simp)]

@[simp] theorem State.recordRefusal_dly (s : State) (who : Requester) (a : Nat) (wr : Bool) (c : Nat) : (s.recordRefusal who a wr c).dly = s.dly := by
  unfold State.recordRefusal; split <;> [exact (rfl); (simp only []; split_ifs <;> simp)]

@[simp] theorem State.recordRefusal_units (s : State) (who : Requester) (a : Nat) (wr : Bool) (c : Nat) : (s.recordRefusal who a wr c).units = s.units := by
  unfold State.recordRefusal; split <;> [exact (rfl); (simp only []; split_ifs <;> simp)]

@[simp] theorem State.recordRefusal_cmp (s : State) (who : Requester) (a : Nat) (wr : Bool) (c : Nat) : (s.recordRefusal who a wr c).cmp = s.cmp := by
  unfold State.recordRefusal; split <;> [exact (rfl); (simp only []; split_ifs <;> simp)]

@[simp] theorem State.recordRefusal_intents (s : State) (who : Requester) (a : Nat) (wr : Bool) (c : Nat) : (s.recordRefusal who a wr c).intents = s.intents := by
  unfold State.recordRefusal; split <;> [exact (rfl); (simp only []; split_ifs <;> simp)]

@[simp] theorem State.recordRefusal_fio (s : State) (who : Requester) (a : Nat) (wr : Bool) (c : Nat) : (s.recordRefusal who a wr c).fio = s.fio := by
  unfold State.recordRefusal; split <;> [exact (rfl); (simp only []; split_ifs <;> simp)]

@[simp] theorem State.recordRefusal_stn (s : State) (who : Requester) (a : Nat) (wr : Bool) (c : Nat) : (s.recordRefusal who a wr c).stn = s.stn := by
  unfold State.recordRefusal; split <;> [exact (rfl); (simp only []; split_ifs <;> simp)]

@[simp] theorem State.recordRefusal_can (s : State) (who : Requester) (a : Nat) (wr : Bool) (c : Nat) : (s.recordRefusal who a wr c).can = s.can := by
  unfold State.recordRefusal; split <;> [exact (rfl); (simp only []; split_ifs <;> simp)]

@[simp] theorem State.recordRefusal_swQ (s : State) (who : Requester) (a : Nat) (wr : Bool) (c : Nat) : (s.recordRefusal who a wr c).swQ = s.swQ := by
  unfold State.recordRefusal; split <;> [exact (rfl); (simp only []; split_ifs <;> simp)]

@[simp] theorem State.recordRefusal_ring (s : State) (who : Requester) (a : Nat) (wr : Bool) (c : Nat) : (s.recordRefusal who a wr c).ring = s.ring := by
  unfold State.recordRefusal; split <;> [exact (rfl); (simp only []; split_ifs <;> simp)]

@[simp] theorem State.recordRefusal_ce (s : State) (who : Requester) (a : Nat) (wr : Bool) (c : Nat) : (s.recordRefusal who a wr c).ce = s.ce := by
  unfold State.recordRefusal; split <;> [exact (rfl); (simp only []; split_ifs <;> simp)]

@[simp] theorem State.recordRefusal_sup (s : State) (who : Requester) (a : Nat) (wr : Bool) (c : Nat) : (s.recordRefusal who a wr c).sup = s.sup := by
  unfold State.recordRefusal; split <;> [exact (rfl); (simp only []; split_ifs <;> simp)]

@[simp] theorem State.recordRefusal_images (s : State) (who : Requester) (a : Nat) (wr : Bool) (c : Nat) : (s.recordRefusal who a wr c).images = s.images := by
  unfold State.recordRefusal; split <;> [exact (rfl); (simp only []; split_ifs <;> simp)]

@[simp] theorem State.recordRefusal_boot (s : State) (who : Requester) (a : Nat) (wr : Bool) (c : Nat) : (s.recordRefusal who a wr c).boot = s.boot := by
  unfold State.recordRefusal; split <;> [exact (rfl); (simp only []; split_ifs <;> simp)]

@[simp] theorem State.recordRefusal_pwr (s : State) (who : Requester) (a : Nat) (wr : Bool) (c : Nat) : (s.recordRefusal who a wr c).pwr = s.pwr := by
  unfold State.recordRefusal; split <;> [exact (rfl); (simp only []; split_ifs <;> simp)]

@[simp] theorem State.recordRefusal_mem (s : State) (who : Requester) (a : Nat) (wr : Bool) (c : Nat) : (s.recordRefusal who a wr c).mem = s.mem := by
  unfold State.recordRefusal; split <;> [exact (rfl); (simp only []; split_ifs <;> simp)]

@[simp] theorem State.recordRefusal_chans (s : State) (who : Requester) (a : Nat) (wr : Bool) (c : Nat) : (s.recordRefusal who a wr c).chans = s.chans := by
  unfold State.recordRefusal; split <;> [exact (rfl); (simp only []; split_ifs <;> simp)]

@[simp] theorem State.refuse_pending (s : State) (who : Requester) (a : Nat) (wr : Bool) (c : Nat) : (s.refuse who a wr c).pending = s.pending := by
  simp [State.refuse]

@[simp] theorem State.refuse_time (s : State) (who : Requester) (a : Nat) (wr : Bool) (c : Nat) : (s.refuse who a wr c).time = s.time := by
  simp [State.refuse]

@[simp] theorem State.refuse_interp (s : State) (who : Requester) (a : Nat) (wr : Bool) (c : Nat) : (s.refuse who a wr c).interp = s.interp := by
  simp [State.refuse]

@[simp] theorem State.refuse_planQ (s : State) (who : Requester) (a : Nat) (wr : Bool) (c : Nat) : (s.refuse who a wr c).planQ = s.planQ := by
  simp [State.refuse]

@[simp] theorem State.refuse_sfq (s : State) (who : Requester) (a : Nat) (wr : Bool) (c : Nat) : (s.refuse who a wr c).sfq = s.sfq := by
  simp [State.refuse]

@[simp] theorem State.refuse_ecc (s : State) (who : Requester) (a : Nat) (wr : Bool) (c : Nat) : (s.refuse who a wr c).ecc = s.ecc := by
  simp [State.refuse]

@[simp] theorem State.refuse_dly (s : State) (who : Requester) (a : Nat) (wr : Bool) (c : Nat) : (s.refuse who a wr c).dly = s.dly := by
  simp [State.refuse]

@[simp] theorem State.refuse_units (s : State) (who : Requester) (a : Nat) (wr : Bool) (c : Nat) : (s.refuse who a wr c).units = s.units := by
  simp [State.refuse]

@[simp] theorem State.refuse_cmp (s : State) (who : Requester) (a : Nat) (wr : Bool) (c : Nat) : (s.refuse who a wr c).cmp = s.cmp := by
  simp [State.refuse]

@[simp] theorem State.refuse_intents (s : State) (who : Requester) (a : Nat) (wr : Bool) (c : Nat) : (s.refuse who a wr c).intents = s.intents := by
  simp [State.refuse]

@[simp] theorem State.refuse_fio (s : State) (who : Requester) (a : Nat) (wr : Bool) (c : Nat) : (s.refuse who a wr c).fio = s.fio := by
  simp [State.refuse]

@[simp] theorem State.refuse_stn (s : State) (who : Requester) (a : Nat) (wr : Bool) (c : Nat) : (s.refuse who a wr c).stn = s.stn := by
  simp [State.refuse]

@[simp] theorem State.refuse_can (s : State) (who : Requester) (a : Nat) (wr : Bool) (c : Nat) : (s.refuse who a wr c).can = s.can := by
  simp [State.refuse]

@[simp] theorem State.refuse_swQ (s : State) (who : Requester) (a : Nat) (wr : Bool) (c : Nat) : (s.refuse who a wr c).swQ = s.swQ := by
  simp [State.refuse]

@[simp] theorem State.refuse_ring (s : State) (who : Requester) (a : Nat) (wr : Bool) (c : Nat) : (s.refuse who a wr c).ring = s.ring := by
  simp [State.refuse]

@[simp] theorem State.refuse_ce (s : State) (who : Requester) (a : Nat) (wr : Bool) (c : Nat) : (s.refuse who a wr c).ce = s.ce := by
  simp [State.refuse]

@[simp] theorem State.refuse_sup (s : State) (who : Requester) (a : Nat) (wr : Bool) (c : Nat) : (s.refuse who a wr c).sup = s.sup := by
  simp [State.refuse]

@[simp] theorem State.refuse_images (s : State) (who : Requester) (a : Nat) (wr : Bool) (c : Nat) : (s.refuse who a wr c).images = s.images := by
  simp [State.refuse]

@[simp] theorem State.refuse_boot (s : State) (who : Requester) (a : Nat) (wr : Bool) (c : Nat) : (s.refuse who a wr c).boot = s.boot := by
  simp [State.refuse]

@[simp] theorem State.refuse_pwr (s : State) (who : Requester) (a : Nat) (wr : Bool) (c : Nat) : (s.refuse who a wr c).pwr = s.pwr := by
  simp [State.refuse]

@[simp] theorem State.refuse_mem (s : State) (who : Requester) (a : Nat) (wr : Bool) (c : Nat) : (s.refuse who a wr c).mem = s.mem := by
  simp [State.refuse]

@[simp] theorem State.refuse_chans (s : State) (who : Requester) (a : Nat) (wr : Bool) (c : Nat) : (s.refuse who a wr c).chans = s.chans := by
  simp [State.refuse]


theorem Requester.receiver_lt (who : Requester) (r : Nat) (h : who.receiver = some r) : 1 ≤ r ∧ r ≤ 3 := by
  cases who <;> simp [Requester.receiver] at h <;> omega

/-- A refused access changes registers of the blocks MBX and DBL only. -/
theorem State.getReg_recordRefusal (s : State) (who : Requester) (a : Nat) (wr : Bool) (c b : Nat) (h : blkOf b ≠ 5 ∧ blkOf b ≠ 6) :
    (s.recordRefusal who a wr c).getReg b = s.getReg b := by
  unfold State.recordRefusal
  split
  · rfl
  · rename_i r hr
    have hr' := Requester.receiver_lt who r hr
    have e1 : b ≠ R.MBX_ERR_LO who.die (r - 1) := ne_of_blk (by rw [R.MBX_ERR_LO, Nat.add_assoc, blkOf_blk _ _ _ (by decide) (by omega)]; exact h.1)
    have e2 : b ≠ R.MBX_ERR_HI who.die (r - 1) := ne_of_blk (by rw [R.MBX_ERR_HI, Nat.add_assoc, blkOf_blk _ _ _ (by decide) (by omega)]; exact h.1)
    have e3 : b ≠ R.MBX_ERR_CNT who.die (r - 1) := ne_of_blk (by rw [R.MBX_ERR_CNT, Nat.add_assoc, blkOf_blk _ _ _ (by decide) (by omega)]; exact h.1)
    simp only []
    rw [State.getReg_aerPosted, State.getReg_dblSet _ _ _ _ _ (by omega) h.2, State.getReg_count, if_neg e3]
    split
    · rfl
    · rw [State.getReg_setReg, if_neg e2, State.getReg_setReg, if_neg e1]

theorem State.getReg_refuse (s : State) (who : Requester) (a : Nat) (wr : Bool) (c b : Nat) (h : blkOf b ≠ 5 ∧ blkOf b ≠ 6) :
    (s.refuse who a wr c).getReg b = s.getReg b := by
  unfold State.refuse
  rw [State.getReg_emit, State.getReg_recordRefusal _ _ _ _ _ _ h]

/-- A checked write that is refused is answered so and changes registers of MBX and DBL only; one that is accepted is its register's own
effect, answered done (R170, R546). -/
theorem State.guardWrite_ok (s t : State) (who : Requester) (a : Nat) (w : Width) (eff : State → Eff) (hc : s.regCheck who a w true = none)
    (he : s.engineRefuses who a = false) (h : eff s = .ok t) : s.guardWrite who a w eff = t.emit (.answer who a .done) := by
  simp [State.guardWrite, hc, he, h]

theorem State.guardWrite_error (s : State) (who : Requester) (a : Nat) (w : Width) (eff : State → Eff) (c : Nat)
    (hc : s.regCheck who a w true = none) (he : s.engineRefuses who a = false) (h : eff s = .error c) :
    s.guardWrite who a w eff = s.refuse who a true c := by
  simp [State.guardWrite, hc, he, h]

theorem State.guardWrite_checked (s : State) (who : Requester) (a : Nat) (w : Width) (eff : State → Eff) (c : Nat)
    (hc : s.regCheck who a w true = some c) : s.guardWrite who a w eff = s.refuse who a true c := by
  simp [State.guardWrite, hc]

theorem State.guardRead_ok (s t : State) (who : Requester) (a : Nat) (w : Width) (eff : State → Except Nat (List Word × State)) (ws : List Word)
    (hc : s.regCheck who a w false = none) (h : eff s = .ok (ws, t)) : s.guardRead who a w eff = t.emit (.answer who a (.data ws)) := by
  simp [State.guardRead, hc, h]

end Sys2Proof.Machine
end

