-- ==== Sys2Proof/WellFormed.lean ====
section
/-! DEFINITION. Which commands can arrive at all: operands whose range their type does not already bound.  A command that is not well-formed has a
meaning too (every meaning is total), but no device that follows the manual sends it. -/

namespace Sys2Proof

/-- An address an access can carry: 40 bits of internal address (R23), an offset within a BAR (R156), a port register of H3 (R167). -/
def AccAddr.wf : AccAddr → Bool
  | .int a => decide (a < 0x100_0000_0000)
  | .bar0 off => decide (off < 0x4_0000)
  | .bar2 off => decide (off < 0x800_0000)
  | .bar4 off => decide (off < 0x200_0000)
  | .h3 _ => true

/-- A request of one line at a bank (R50): it stays within its line, comes by one of the 16 requester ports, and reads or writes. -/
def PoolReq.wf (q : PoolReq) : Bool :=
  let n := if q.isWr then q.wr.length else q.rd
  decide (q.port < 16) && decide (1 ≤ n) && decide (q.addr % 64 + n ≤ 64) && decide (q.addr < 0x400_0000) &&
    (if q.isWr then decide (q.rd = 0) else q.wr.isEmpty)

/-- A request that reaches the bank its address lies in (R24). -/
def PoolReq.wfAt (q : PoolReq) (bank : Nat) : Bool :=
  q.wf && decide ((if q.addr < 0x3C0_0000 then q.addr / 0x4_0000 else 240 + (q.addr - 0x3C0_0000) / 0x2_0000) = bank)

/-- A frame as a MAC delivers it: at least an address pair, a type and an FCS, and no more than the receiver counts (R197). -/
def frameOk (bs : List Byte) : Bool := decide (18 ≤ bs.length) && decide (bs.length ≤ 65_535)

/-- A CAN frame in the layout of the receive window: two header words and up to 16 data words (R340). -/
def canFrameOk (f : List Word) : Bool := decide (2 ≤ f.length) && decide (f.length ≤ 18)

/-- Well-formedness of a command. -/
def Instr.wf : Instr → Bool
  | .duolayTransferRx _ _ _ p corr _ => decide (p.length ≤ 4096) && decide (corr ≤ 0xFFFF)
  | .laneFail _ _ _ => true
  | .linkAckTimeout _ _ => true
  | .laneReturn _ _ => true
  | .duolayLinkTrained => true
  | .die1TrainTimeout => true
  | .poolAccess _ b reqs flips => reqs.all (fun q => q.wfAt b.val) && flips.all (fun f => decide (f.1 < 0x40_0000_0000))
  | .eccWriteBack _ _ => true
  | .scrubLine _ _ => true
  | .scrubForced _ _ => true
  | .bankRetire _ _ => true
  | .retentionEntered _ _ => true
  | .retentionWakeDone _ _ => true
  | .priorityScrubPass _ _ => true
  | .sfqUnitIn _ _ bs ep e => (decide (bs.length = 1) || decide (bs.length = 2) || (e && bs.isEmpty)) && decide (ep < 65_536)
  | .sfqIdleClose _ _ => true
  | .sfqFlush _ _ _ _ => true
  | .sfqClose _ _ _ _ => true
  | .sfqReset _ _ _ _ => true
  | .sfqConfigWrite _ _ _ _ => true
  | .sfqReadLo _ _ _ => true
  | .sfqReadPair _ _ _ => true
  | .sfqStalledReadDone _ _ => true
  | .sfqReadTimeout _ _ => true
  | .sfqDrainWrite _ _ => true
  | .sfqRptrWrite _ _ _ _ => true
  | .plannerEvent _ => true
  | .forecastTimer _ => true
  | .placementLive h => decide (h < 0x1_0000_0000)
  | .flowLive h => decide (h < 0x1_0000_0000)
  | .releaseDrainStart h => decide (h < 0x1_0000_0000)
  | .placementReleased h => decide (h < 0x1_0000_0000)
  | .migrationCodeLoaded h => decide (h < 0x1_0000_0000)
  | .migrationContextCopy h => decide (h < 0x1_0000_0000)
  | .migrationCompare h => decide (h < 0x1_0000_0000)
  | .shadowExtend h => decide (h < 0x1_0000_0000)
  | .migrationAbandon h => decide (h < 0x1_0000_0000)
  | .migrationSwitchOver h => decide (h < 0x1_0000_0000)
  | .flowPathSwitch h => decide (h < 0x1_0000_0000)
  | .flowHoldRelease h => decide (h < 0x1_0000_0000)
  | .plcQueryWindow _ _ _ => true
  | .mailboxGo _ _ _ _ => true
  | .mailboxMessageTaken _ _ => true
  | .packetIncompleteTimeout _ _ => true
  | .inbandCommandFrame _ _ bs => frameOk bs
  | .commandTimeout _ _ seq => decide (seq < 65_536)
  | .devHello _ => true
  | .devStatus _ => true
  | .devBarrier _ => true
  | .barrierComplete _ => true
  | .devIbSet _ => true
  | .pwrState _ => true
  | .pwrMargin _ => true
  | .poolRetain _ => true
  | .plcAdmit _ => true
  | .plcRelease _ => true
  | .plcMigrate _ => true
  | .plcPin _ => true
  | .plcReplace _ => true
  | .plcReserve _ => true
  | .plcQuery _ => true
  | .plcLedger _ => true
  | .plcForecast _ => true
  | .imgInstall _ => true
  | .imgRemove _ => true
  | .imgList _ => true
  | .imgUndercoat _ => true
  | .portAdmit _ => true
  | .portMode _ => true
  | .portLane _ => true
  | .portCounters _ => true
  | .streamGate _ => true
  | .portSample _ => true
  | .timeGet _ => true
  | .timeSet _ => true
  | .timeAdj _ => true
  | .timeRole _ => true
  | .hltTest _ => true
  | .hltService _ => true
  | .hltFreq _ => true
  | .logRead _ => true
  | .logMark _ => true
  | .logLfr _ => true
  | .rstDevice _ => true
  | .rstUnit _ => true
  | .fioOut _ => true
  | .fioMode _ => true
  | .fioRead _ => true
  | .ringSched _ => true
  | .ringClaim _ => true
  | .ringReadmit _ => true
  | .ringStatus _ => true
  | .mbxClaim _ _ _ => true
  | .mbxRelease _ _ _ => true
  | .mbxOutAck _ _ _ => true
  | .h2KeyCommit _ _ => true
  | .dblSetWrite _ _ _ _ => true
  | .doorbellRemote _ _ => true
  | .msixUnmask _ _ _ _ => true
  | .functionLevelReset _ _ => true
  | .pciePerst _ => true
  | .hostPoolTlp _ _ off rd wr w => decide (off < 0x800_0000) && (if w then decide (1 ≤ wr.length) && decide (wr.length ≤ 256) && decide (rd = 0) else decide (1 ≤ rd) && decide (rd ≤ 256) && wr.isEmpty)
  | .registerWrite _ a w _ _ => decide (w ≠ .odd) && a.wf
  | .counterReadClear _ a w => decide (w ≠ .odd) && a.wf
  | .pairLoRead _ a w => decide (w ≠ .odd) && a.wf
  | .h2Write bs _ => !bs.isEmpty
  | .h2Read bs _ => !bs.isEmpty
  | .h2Portstat bs => !bs.isEmpty
  | .h2Open bs _ => !bs.isEmpty
  | .h2Confirm bs _ => !bs.isEmpty
  | .h2Close bs _ => !bs.isEmpty
  | .h2Secure bs _ => !bs.isEmpty
  | .h2FrameAbandon bs _ => !bs.isEmpty
  | .h2SessionTimeout => true
  | .h3DataLRead => true
  | .h3DataHWrite _ => true
  | .frameRx _ _ bs _ _ => frameOk bs
  | .pauseFrameRx _ _ q => decide (q < 65_536)
  | .pauseExpire _ _ => true
  | .pauseWatchdogTrip _ _ => true
  | .pauseWatchdogClear _ _ => true
  | .pauseRefresh _ _ => true
  | .egressTransmit _ _ => true
  | .rsqTimeout _ _ => true
  | .addressAgeOut _ _ => true
  | .pgBucketReturn _ _ _ => true
  | .redDecay _ _ _ => true
  | .cbRecoveryReset _ _ => true
  | .gateEntryAdvance _ _ => true
  | .gclChange _ _ _ _ => true
  | .gclActivate _ _ => true
  | .sidRead _ _ => true
  | .sidWrite _ _ => true
  | .vlanRead _ _ => true
  | .vlanWrite _ _ => true
  | .flowTableSelect _ _ _ => true
  | .macLinkUp _ _ _ _ => true
  | .macLinkLoss _ _ => true
  | .mdioGo _ _ _ => true
  | .mdioDone _ _ => true
  | .cycleFrameRx _ _ bs _ _ => frameOk bs
  | .skimPrefetch _ => true
  | .masterCycleStart _ => true
  | .guardHoldStart _ _ => true
  | .pdelayExchange _ _ => true
  | .pdelayMessageRx _ _ _ => true
  | .rateWindowUpdate _ => true
  | .refSuspect _ _ => true
  | .ringLoss _ => true
  | .addressDead _ _ => true
  | .dualModeExit _ => true
  | .standbyTakeover _ => true
  | .compareFire _ _ => true
  | .trigPulseEnd _ _ => true
  | .slewDone _ => true
  | .tbRateWrite _ _ _ => true
  | .tbSlewWrite _ _ _ => true
  | .tbStepGo _ _ _ => true
  | .holdover _ => true
  | .slaveTimeMessage _ _ => true
  | .slaveLock => true
  | .cmpTargetCommit _ _ _ _ _ => true
  | .cmpArm _ _ _ _ => true
  | .cmpDisarm _ _ _ _ => true
  | .trigConfig _ _ _ _ => true
  | .captureEdge _ _ _ => true
  | .captureConfig _ _ _ _ => true
  | .captureOwnerRead _ _ _ _ => true
  | .tbSnapshot _ _ _ => true
  | .canModeInit _ _ _ => true
  | .canModeNormal _ _ _ => true
  | .canModeListen _ _ _ => true
  | .canModeLoopback _ _ _ => true
  | .canModeSleep _ _ _ => true
  | .canSleepEnter _ _ => true
  | .canBusIntegrated _ _ => true
  | .canSrst _ _ _ => true
  | .canRecover _ _ _ => true
  | .canBoffDelay _ _ => true
  | .canRecovered _ _ => true
  | .canTxReq _ _ _ _ _ => true
  | .canTxAbort _ _ _ _ => true
  | .canTxFrameStart _ _ => true
  | .canTxComplete _ _ _ => true
  | .canFrameRx _ _ f _ _ => canFrameOk f
  | .canBusError _ _ _ _ _ _ => true
  | .canAbrStart _ _ _ _ => true
  | .canAbrTimeout _ _ => true
  | .canWake _ _ f _ => canFrameOk f
  | .canWindowRead _ _ _ _ _ => true
  | .canQueueSkip _ _ _ _ => true
  | .canQueueFlush _ _ _ _ => true
  | .canParityError _ _ => true
  | .ceDispatch _ _ flips => flips.all (fun f => decide (f.1 < 0x40_0000_0000))
  | .ceCycleAbort _ _ _ => true
  | .ceLineFill _ _ _ => true
  | .cePostedWrite _ _ _ => true
  | .ceWaitEnd _ _ _ => true
  | .cycleCommit _ _ _ => true
  | .ceMov _ _ => true
  | .ceMovz _ _ => true
  | .ceMovs _ _ => true
  | .ceAdr _ _ => true
  | .ceClr _ _ => true
  | .ceXch _ _ => true
  | .ceMovm _ _ => true
  | .cePush _ _ => true
  | .cePop _ _ => true
  | .ceAdd _ _ => true
  | .ceAddc _ _ => true
  | .ceSub _ _ => true
  | .ceSubc _ _ => true
  | .ceMul _ _ => true
  | .ceMulhu _ _ => true
  | .ceMulhs _ _ => true
  | .ceDivu _ _ => true
  | .ceDivs _ _ => true
  | .ceRemu _ _ => true
  | .ceRems _ _ => true
  | .ceNeg _ _ => true
  | .ceCmp _ _ => true
  | .ceAnd _ _ => true
  | .ceOr _ _ => true
  | .ceXor _ _ => true
  | .ceAndn _ _ => true
  | .ceNot _ _ => true
  | .ceTst _ _ => true
  | .ceShl _ _ => true
  | .ceShr _ _ => true
  | .ceSar _ _ => true
  | .ceRol _ _ => true
  | .ceRor _ _ => true
  | .ceBtst _ _ => true
  | .ceBset _ _ => true
  | .ceBclr _ _ => true
  | .ceBchg _ _ => true
  | .ceFfs _ _ => true
  | .ceBswap _ _ => true
  | .ceCrcc _ _ => true
  | .ceCrce _ _ => true
  | .ceBcc _ _ => true
  | .ceBsr _ _ => true
  | .ceJmp _ _ => true
  | .ceCall _ _ => true
  | .ceRet _ _ => true
  | .ceRete _ _ => true
  | .ceLoop _ _ => true
  | .ceTrap _ _ => true
  | .ceNop _ _ => true
  | .ceEnd _ _ => true
  | .ceWait _ _ => true
  | .ceQget _ _ => true
  | .ceQput _ _ => true
  | .ceMapf _ _ => true
  | .ceMapg _ _ => true
  | .ceUnmap _ _ => true
  | .ceFlush _ _ => true
  | .ceHalt _ _ _ => true
  | .ceRun _ _ _ => true
  | .ceStep _ _ _ => true
  | .ceSrst _ _ _ => true
  | .lockstepSelfTest _ _ _ => true
  | .lockstepMismatch _ _ _ pos => decide (pos < 256)
  | .mirrorUpdateRx _ _ => true
  | .heartbeatSend _ _ => true
  | .heartbeatLoss _ _ => true
  | .supInterrupt _ _ => true
  | .supIdleWake _ _ => true
  | .supNop _ _ => true
  | .supGetA _ _ => true
  | .supPutA _ _ => true
  | .supGetX _ _ => true
  | .supPutX _ _ => true
  | .supGetY _ _ => true
  | .supPutY _ _ => true
  | .supSethi _ _ => true
  | .supAdd _ _ => true
  | .supAddc _ _ => true
  | .supSub _ _ => true
  | .supSubb _ _ => true
  | .supCmp _ _ => true
  | .supAnd _ _ => true
  | .supOr _ _ => true
  | .supXor _ _ => true
  | .supGetb _ _ => true
  | .supPutb _ _ => true
  | .supCmpX _ _ => true
  | .supCmpY _ _ => true
  | .supAddX _ _ => true
  | .supAddY _ _ => true
  | .supShl _ _ => true
  | .supShr _ _ => true
  | .supSar _ _ => true
  | .supMul _ _ => true
  | .supMovr _ _ => true
  | .supSave _ _ => true
  | .supRestore _ _ => true
  | .supXchg _ _ => true
  | .supFlg _ _ => true
  | .supBcc _ _ => true
  | .supJump _ _ => true
  | .supCall _ _ => true
  | .supRet _ _ => true
  | .supRetx _ _ => true
  | .supTrap _ _ => true
  | .supIdle _ _ => true
  | .supDbg _ _ => true
  | .sprDbgHalt _ _ _ => true
  | .sprDbgStep _ _ _ => true
  | .sprDbgRun _ _ _ => true
  | .stnRun _ _ _ => true
  | .stnStop _ _ _ => true
  | .stnSrst _ _ _ => true
  | .stnGuardFire _ _ => true
  | .stnParityError _ _ => true
  | .stnWaitEnd _ _ => true
  | .stnWaitpTimeout _ _ => true
  | .stnDelay _ _ => true
  | .stnIn _ _ => true
  | .stnOut _ _ => true
  | .stnSet _ _ => true
  | .stnWaitp _ _ => true
  | .stnJcmp _ _ => true
  | .stnJcond _ _ _ => true
  | .stnLdcnt _ _ => true
  | .stnDjnz _ _ => true
  | .stnPush _ _ => true
  | .stnClose _ _ => true
  | .stnPull _ _ => true
  | .stnFlag _ _ => true
  | .stnLdsr _ _ => true
  | .stnNop _ _ => true
  | .stnHalt _ _ => true
  | .stnTxdataWrite _ _ _ _ => true
  | .stnFlagSetWrite _ _ _ => true
  | .stnFlagClrWrite _ _ _ => true
  | .pinCfgWrite _ _ _ _ => true
  | .pinHandoverDone _ _ => true
  | .fioRefresh => true
  | .fioDownlinkRx f => decide (f.length ≤ 64)
  | .fioUplinkTimer => true
  | .fioUplinkRx f => decide (f.length ≤ 64)
  | .fioUplinkMissing => true
  | .fioOvercurrent _ => true
  | .fioInputChange _ _ => true
  | .fioWireBreak _ => true
  | .fioSupplyFault => true
  | .fioOvertemp => true
  | .fioOutWr _ _ _ => true
  | .fioOwnWrite _ _ _ _ => true
  | .powerOnReset => true
  | .resetNAssert => true
  | .resetRelease => true
  | .testenHigh => true
  | .watchdogExpiry _ => true
  | .watchdogKick _ _ _ => true
  | .resetBistDone _ _ _ => true
  | .undercoatVerified _ _ => true
  | .die1ImageTransfer _ => true
  | .undercoatStart _ => true
  | .configRestore _ bad failed => decide (bad < 2 ^ 272) && failed.all (fun u => decide (u.1 < 16) && decide (u.2 < 512))
  | .intentRestore _ _ => true
  | .readyRaise _ => true
  | .configCommit => true
  | .pwrTransitionDone _ => true
  | .pmbusPoll _ _ _ _ _ _ => true
  | .vcoreStep _ _ => true
  | .refLoss _ => true
  | .refReturn _ => true
  | .pwrfailAssert => true
  | .snapshotSealed => true
  | .pwrfailRelease => true
  | .pathDelayReading _ _ _ _ => true
  | .ringOscReading _ _ _ => true
  | .eyeMonitorReading _ _ _ _ => true
  | .driverCalReading _ _ _ => true
  | .tempReading _ t16 => decide (-4096 ≤ t16) && decide (t16 < 4096)
  | .backgroundTestStart _ _ _ => true
  | .testStart _ _ _ => true
  | .bistComplete _ _ _ _ _ => true
  | .testQueueAbort _ => true
  | .ageingRecordWrite => true
  | .logScrub _ _ _ => true
  | .logSuppressSummary _ => true
  | .logStreamPage _ _ => true
  | .counterCheckpoint => true
  | .logLfrClear _ _ _ => true
  | .hltUnitSelect _ _ _ => true
  | .deviceResetStart => true
  | .resetSourceGone _ => true
  | .pllUnlock _ _ => true
  | .stencilTick _ _ _ => true
  | .stnGuardClear _ _ => true
  | .fioSupplyRestored => true
  | .fioWireRestored _ => true
  | .fioTempRestored => true
  | .asyncCommandComplete _ _ seq => decide (seq < 65_536)

end Sys2Proof
end

