-- ==== Sys2Proof/Tests/Slice0.lean ====
section
/-! SUPPORT. Tests: an ill-formed term for each check of WellFormed, and for each statement of the obligations concrete states and operands that meet
the hypotheses of each of its clauses. -/

open Sys2Proof Sys2Proof.Machine

set_option Elab.async false
set_option linter.unusedVariables false

namespace Sys2Proof.Tests

/-! ## Ill-formed commands are refused -/

theorem test_wf_int_address : (Instr.registerWrite .h2s (.int 0x100_0000_0000) .w32 0 0).wf = false ∧
    (Instr.registerWrite .h2s (.int 0xFF_FFFF_FFFF) .w32 0 0).wf = true := by decide +kernel
theorem test_wf_bar0 : (Instr.counterReadClear (.pf0 .d0) (.bar0 0x4_0000) .w32).wf = false := by decide +kernel
theorem test_wf_bar2 : (Instr.pairLoRead (.pf0 .d0) (.bar2 0x800_0000) .w32).wf = false := by decide +kernel
theorem test_wf_bar4 : (Instr.pairLoRead (.pf1 .d0) (.bar4 0x200_0000) .w32).wf = false := by decide +kernel
theorem test_wf_odd_write : (Instr.registerWrite .h2s (.int 0) .odd 0 0).wf = false := by decide +kernel
theorem test_wf_odd_reads : (Instr.counterReadClear .h2s (.int 0) .odd).wf = false ∧ (Instr.pairLoRead .h2s (.int 0) .odd).wf = false := by decide
theorem test_wf_request_port : ({ port := 16, addr := 0, rd := 1, wr := [], isWr := false } : PoolReq).wf = false := by decide
theorem test_wf_request_empty : ({ port := 0, addr := 0, rd := 0, wr := [], isWr := false } : PoolReq).wf = false := by decide
theorem test_wf_request_line : ({ port := 0, addr := 63, rd := 2, wr := [], isWr := false } : PoolReq).wf = false := by decide
theorem test_wf_request_pool : ({ port := 0, addr := 0x400_0000, rd := 1, wr := [], isWr := false } : PoolReq).wf = false := by decide
theorem test_wf_request_kinds : ({ port := 0, addr := 0, rd := 1, wr := [some 0], isWr := false } : PoolReq).wf = false ∧
    ({ port := 0, addr := 0, rd := 1, wr := [some 0], isWr := true } : PoolReq).wf = false := by decide
theorem test_wf_request_bank : ({ port := 0, addr := 0x4_0000, rd := 1, wr := [], isWr := false } : PoolReq).wfAt 0 = false ∧
    ({ port := 0, addr := 0x3C2_0000, rd := 1, wr := [], isWr := false } : PoolReq).wfAt 241 = true := by decide
theorem test_wf_pool_access : (Instr.poolAccess .d0 1 [{ port := 0, addr := 0, rd := 1, wr := [], isWr := false }] []).wf = false ∧
    (Instr.poolAccess .d0 0 [] [(0x40_0000_0000, true)]).wf = false := by decide
theorem test_wf_transfer : (Instr.duolayTransferRx .d0 0 0 (List.replicate 4097 0) 0 false).wf = false ∧
    (Instr.duolayTransferRx .d0 0 0 [] 0x1_0000 false).wf = false := by decide +kernel
theorem test_wf_unit_length : (Instr.sfqUnitIn .d0 0 [1, 2, 3] 0 false).wf = false ∧ (Instr.sfqUnitIn .d0 0 [] 0 false).wf = false ∧
    (Instr.sfqUnitIn .d0 0 [] 0 true).wf = true := by decide
theorem test_wf_unit_epoch : (Instr.sfqUnitIn .d0 0 [1] 65536 false).wf = false := by decide
theorem test_wf_handles : [Instr.placementLive 0x1_0000_0000, .flowLive 0x1_0000_0000, .releaseDrainStart 0x1_0000_0000, .placementReleased 0x1_0000_0000, .migrationCodeLoaded 0x1_0000_0000, .migrationContextCopy 0x1_0000_0000,
    .migrationCompare 0x1_0000_0000, .shadowExtend 0x1_0000_0000, .migrationAbandon 0x1_0000_0000, .migrationSwitchOver 0x1_0000_0000, .flowPathSwitch 0x1_0000_0000, .flowHoldRelease 0x1_0000_0000].all (fun c => !c.wf) = true ∧
    (Instr.flowHoldRelease 0xFFFF_FFFF).wf = true := by decide +kernel
theorem test_wf_frame_short : (Instr.frameRx .d0 0 (List.replicate 17 0) false 0).wf = false ∧ (Instr.cycleFrameRx .d0 true [] 0 0).wf = false ∧
    (Instr.inbandCommandFrame .d0 ⟨.d0, 0⟩ []).wf = false := by decide
theorem test_wf_frame_long (bs : List Byte) (h : bs.length = 65_536) : (Instr.frameRx .d0 0 bs false 0).wf = false := by
  show frameOk bs = false
  simp [frameOk, h]
theorem test_wf_sequence : (Instr.commandTimeout .d0 0 65536).wf = false ∧ (Instr.asyncCommandComplete .d0 0 65536).wf = false := by decide
theorem test_wf_tlp_length : (Instr.hostPoolTlp .d0 0 0 0 [] false).wf = false ∧ (Instr.hostPoolTlp .d0 0 0 0 [] true).wf = false ∧
    (Instr.hostPoolTlp .d0 0 0 1 [some 0] true).wf = false := by decide
theorem test_wf_tlp_offset : (Instr.hostPoolTlp .d0 0 0x800_0000 4 [] false).wf = false := by decide
theorem test_wf_serial_empty : (Instr.h2Write [] 0).wf = false ∧ (Instr.h2Read [] 0).wf = false ∧ (Instr.h2Portstat []).wf = false ∧
    (Instr.h2Open [] 0).wf = false ∧ (Instr.h2Confirm [] 0).wf = false ∧ (Instr.h2Close [] 0).wf = false ∧ (Instr.h2Secure [] 0).wf = false ∧
    (Instr.h2FrameAbandon [] 0).wf = false := by decide
theorem test_wf_pause : (Instr.pauseFrameRx .d0 0 65536).wf = false := by decide
theorem test_wf_can_short : (Instr.canFrameRx .d0 0 [0] 0 0).wf = false ∧ (Instr.canWake .d0 0 [0] 0).wf = false := by decide
theorem test_wf_can_long : (Instr.canFrameRx .d0 0 (List.replicate 19 0) 0 0).wf = false ∧ (Instr.canWake .d0 0 (List.replicate 19 0) 0).wf = false := by decide
theorem test_wf_dispatch_flips : (Instr.ceDispatch .d0 0 [(0x40_0000_0000, false)]).wf = false := by decide
theorem test_wf_mismatch_position : (Instr.lockstepMismatch .d0 0 .mismatch 256).wf = false := by decide
theorem test_wf_field_frames : (Instr.fioDownlinkRx (List.replicate 65 0)).wf = false ∧ (Instr.fioUplinkRx (List.replicate 65 0)).wf = false := by decide
theorem test_wf_restore : (Instr.configRestore .d0 (2 ^ 272) []).wf = false ∧ (Instr.configRestore .d0 0 [(16, 0)]).wf = false ∧
    (Instr.configRestore .d0 0 [(0, 512)]).wf = false := by decide +kernel
theorem test_wf_temperature : (Instr.tempReading .d0 4096).wf = false ∧ (Instr.tempReading .d0 (-4097)).wf = false ∧
    (Instr.tempReading .d0 (-4096)).wf = true := by decide

/-! ## States -/

/-- The state with registers written. -/
def tw (s : State) (l : List (Nat × Nat)) : State := l.foldl (fun s e => s.setReg e.1 (wd e.2)) s

/-- Both dies ready. -/
def tUp : State := tw State.reset [(R.RST_STAT .d0, 3), (R.RST_STAT .d1, 3), (R.SYS_DLY_STAT .d0, 0xF), (R.SYS_DLY_STAT .d1, 0xF)]

def tSup : Requester := .sup .d0 0

/-- A CAN controller of Die 0 in a mode, owned by supervisors. -/
def tCan (ctl stat : Nat) (x : Can := {}) (l : List (Nat × Nat) := []) : State :=
  ((tw tUp ([(R.CAN_CTRL .d0 1, ctl), (R.CAN_STAT .d0 1, stat), (R.CAN_OWNER .d0 1, 0x20)] ++ l)).setCan .d0 1 x)

/-- The state with words of memory written. -/
def tm (s : State) (l : List (Nat × Nat)) : State := l.foldl (fun s e => s.setWord e.1 (wd e.2)) s

/-- A frame of the isolation link, sealed. -/
def tFr (l : List Nat) : List Byte := fioSeal (l.map (BitVec.ofNat 8))


/-- A host command of channel 0 of Die 0. -/
def tCmd (op : Nat) (ps : List Nat := []) (target : Nat := 0) (ch : Nat := 0) (flags : Nat := 0) : HostCmd :=
  { die := .d0, ch := ch, gen := 0, op := op, flags := flags, tag := 0x77, target := wd target, seq := 5, params := ps.map wd, acc := 0, time := 0 }

/-- The state with a command the last one of its channel. -/
def tSeq (s : State) (c : HostCmd) : State := tw s [(R.CMD_CH_STAT c.die c.ch, 0x50000)]

/-- The state with a command accepted and outstanding. -/
def tAsy (s : State) (c : HostCmd) : State := (tSeq s c).setInterp .d0 { async := [c] }

/-- The state with a command at the front of the interpreter's queue. -/
def tNext (s : State) (c : HostCmd) : State := (tSeq s c).setInterp .d0 { normal := [c] }

/-- Stencil 3 of Die 0 running at its last step, whose word is `w`. -/
def tStn (w : Nat) (x : Stn := {}) (l : List (Nat × Nat) := []) : State :=
  (tw tUp ([(R.STN_STAT .d0 3, 0x1F01), (R.STN_PROG .d0 3 31, w), (R.STN_OWNER .d0 3, 0x20), (R.STN_RUNNING .d0, 8), (R.STN_CTRL .d0 3, 1)] ++ l)).setStn .d0 3 x
def tOp (op tgt x y imm : Nat) : Nat := op * 2^28 + tgt * 2^23 + x * 2^20 + y * 2^16 + imm

/-- The state with an intent that has a current placement and, where given, a target. -/
def tInt (h : Nat) (p : Placement) (q : Option Placement := none) (f : Intent → Intent := id) (s : State := tUp) : State :=
  s.setIntent h (f { handle := h, held := true, cur := some p, tgt := q })

/-- A message of channel 9 of Die 0 in MBX_IN, of words. -/
def tMsg (ws : List Word) (s : State := tUp) : State :=
  ((ws.zipIdx.foldl (fun s e => s.setReg (R.MBX_IN .d0 9 e.2) e.1) s).setFlag (R.MBX_CH_STAT .d0 9) 0 true).setChan .d0 9 { msgCount := ws.length }
def tPkt (op seq epoch : Nat) (ps : List Nat := []) (target := 0) (tag := 0x77) : List Word :=
  sealPacket ([wd (op + (ps.length + 5 + 1 - 1 + 1 - 1) * 0x100_0000), wd tag, wd target, wd (seq + epoch * 0x10000)] ++ ps.map wd)
def tMac (n : Nat) : List Byte := (List.range 6).map fun i => BitVec.ofNat 8 (n + i)

def tLe (n : Nat) : List Byte := (List.range 4).map fun i => BitVec.ofNat 8 (n / 256 ^ i)
/-- An installable image of 340 bytes. -/
def tImg : List Byte := ([0x4E565842, 0x10001, 1, 7, 340, 64, 64, 0, 128, 20, 160, 68, 240, 0, 240, 100] ++ List.replicate 16 0 ++
  [64, 0xFF, 0xFF, 0, 64, 0, 0, 0] ++ [0, 1] ++ List.replicate 18 0 ++ List.replicate 25 0).flatMap tLe
def tImgWords : List Nat := [0x4E565842, 0x10001, 1, 7, 340, 64, 64, 0, 128, 20, 160, 68, 240, 0, 240, 100] ++ List.replicate 16 0 ++
  [64, 0xFF, 0xFF, 0, 64, 0, 0, 0] ++ [0, 1] ++ List.replicate 18 0 ++ List.replicate 25 0
def tUcWords : List Nat := [0x4E565842, 0x20001, 1, 7, 340, 64, 64, 0, 128, 20, 160, 68, 240, 0, 240, 100] ++ List.replicate 69 0
/-- A schedule record with one segment, one spare window and one spare entry. -/
def tRec (w0 : Nat) : List Nat := [w0, 0x10000, 1000000, 0, 1, 0, 0, 100, 0x20103, 0x640064, 0, 0, 0x101, 0, 64, 0x40, 0x100000, 0x40000, 0, 0x55]
/-- Both uplinks of Die 0 in mode 5. -/
def tPair : State := tw tUp [(R.MAC_PORT_MODE .d0 12, 1), (R.MAC_PORT_MODE .d0 13, 1)]

def tKey : List Byte := (List.range 32).map fun i => BitVec.ofNat 8 (i * 7 + 1)
def tNh : List Byte := (List.range 16).map fun i => BitVec.ofNat 8 (i + 3)
def tNd : List Byte := (List.range 16).map fun i => BitVec.ofNat 8 (i + 90)
def tKs : List Byte := h2Keys tKey tNh tNd
def tTag (ctr : Nat) (c : List Byte) : List Byte := Crypto.gcmTag (tKs.take 32) (h2Iv tKs ctr) [] c
def tSess : State := {tw tUp [(R.MBX_CH_STAT .d0 9, 0xC0000000)] with h2 := { key := tKey, sess := some (tNh, tNd), hostCtr := 4, devCtr := 9 }}
def tCrypt (ctr : Nat) (b : List Byte) : List Byte := Crypto.gcmText (tKs.take 32) (h2Iv tKs ctr) b

/-- A sealed Ethernet frame. -/
def tEth (dst src ty : Nat) (len : Nat := 46) (fill : Byte := 0x5A) : List Byte :=
  let b := beBytes 6 dst ++ beBytes 6 src ++ beBytes 2 ty ++ List.replicate len fill
  b ++ leBytes 4 (fcs32 b)
/-- Port 2 and port 5 of Die 0 up at 1 Gb/s with VID 1, both members of it. -/
def tSw (l : List (Nat × Nat) := []) : State :=
  {tw tUp ([2, 5, 6].flatMap (fun m => [(R.MAC_PORT_MODE .d0 m, 0x100 + 2*16), (R.SW_PORT_CFG .d0 m, 0xC0010000), (R.SW_PORT_MAXF .d0 m, 1522), (R.SW_PCP_MAP .d0 m, 0)]) ++ l)
    with vlan := [(1, (0x1FFFF, 0x1FFFF))]}
def tFrm (n : Nat) : Machine.Frm := { bytes := tMac 0x10 ++ tMac 0x20 ++ [0x08,0x06] ++ List.replicate n 7, vid := 1, rate := 2 }
/-- The same with the address of `tEth 0x020000000001 …` learned at port 5. -/
def tOne (l : List (Nat × Nat) := []) : State :=
  let m := macAt (tEth 0x020000000001 0x020000000002 0x0806) 0
  (tSw l).setFt .d0 ((tSw l).ftBucket .d0 m 1 * 4) { type := 1, mac := m, vid := 1, target := 32 }

/-- A schedule record of two segments with one window: word 0 and the window's first word. -/
def tRec2 (w0 win : Nat) (w1 : Nat := 0x10010) (w6 : Nat := 0) : List Word :=
  ([w0, w1, 1000000, 0, 1, 0, w6, 100, 0x20103, 0x640064, 0, 0, 1, 0, 64, 0x20040, win, 0x100004, 0x40000, 0] : List Nat).map wd
/-- A cycle frame of ring 0x77, sealed. -/
def tCyc (seg flags cyc ver me : Nat) (x : List Byte := List.replicate 64 3) : List Byte :=
  let b := [1, 0, 0, 0, 0, 0] ++ tMac 0x20 ++ [0x88, 0xB5, 1, 3, 0, 0] ++ beBytes 2 0x77 ++ beBytes 1 seg ++ beBytes 1 flags ++ beBytes 4 cyc ++ beBytes 2 ver ++
    beBytes 2 0 ++ beBytes 2 me ++ beBytes 2 64 ++ List.replicate 24 0 ++ x
  b ++ leBytes 4 (fcs32 b)
/-- A ring pair of Die 0 with a record, both uplinks up. -/
def tRing (r : List Word) (f : Ring → Ring := id) (l : List (Nat × Nat) := []) : State :=
  (tw tUp ([(R.MAC_PORT_MODE .d0 12, 0x101), (R.MAC_PORT_MODE .d0 13, 0x101)] ++ l)).setRing .d0 (f { cur := r })

/-- Engine 3 of Die 0 running slot 0 at image address 0x80, whose code there is the words. -/
def tCe (ws : List Nat) (b : List Nat := []) (l : List (Nat × Nat) := []) (m : List (Nat × Nat) := []) : State :=
  tm (tw tUp ([(R.CE_STAT .d0 3, 0x4001), (R.CE_SLOT_W1 .d0 3 0, 0x400000), (R.CE_PC .d0 3, 0x80), (R.CE_SP_LO .d0 3, 0x18000), (R.CE_SP_HI .d0 3, 0x20000),
      (R.CE_SP .d0 3, 0x1F000)] ++ b.zipIdx.map (fun e => (R.CE_B .d0 3 e.2, e.1)) ++ l))
    (ws.zipIdx.map (fun e => (ceMemAddr .d0 3 (0x80 + 4 * e.2), e.1)) ++ m.map (fun e => (ceMemAddr .d0 3 e.1, e.2)))
/-- Word 0 of an engine's instruction in the operand format. -/
def tCw (op sz s1 s2 dd : Nat) : Nat := op + sz * 0x100 + s1 * 0x400 + s2 * 0x20000 + dd * 0x1000000
/-- `tCe` with the engine's other state, and an intent whose placement is in its slot. -/
def tCeX (c : Ce) (s : State) : State := s.setCe .d0 3 c
def tCeI (s : State) (f : Intent → Intent := id) (tags : Nat := 2) : State :=
  (tInt 1 { st := 4, ce := 3, slot := 0, tags := tags } none (fun i => f { i with qmask := 7, pers := 0 }) s)
/-- A supervisor pair of Die 0 at PC 0x100 with the halfwords as its code; ACC, X, Y, SP. -/
def tSpv (hs : List Nat) (r : List Nat) (fl : Nat := 0) (l : List (Nat × Nat) := []) (m : List (Nat × Nat) := []) : State :=
  let w := (List.range ((hs.length + 1) / 2)).map fun i => (0x100 + 4 * i, hs.getD (2 * i) 0 + 0x10000 * hs.getD (2 * i + 1) 0)
  tm (tw { tUp with boot := [(0, { (State.reset.bootOf .d0) with stage := 3 }), (1, { (State.reset.bootOf .d1) with stage := 3 })] } ([(R.SPR_STAT .d0 0, 0), (R.SPR_STAT .d0 1, 0), (R.SPR_SPL .d0 0, 0x1000), (R.SPR_SPH .d0 0, 0x2000), (R.SPR_FLAGS .d0 0, fl), (R.SPR_ACC .d0 0 + 16, 0x100)] ++
    r.zipIdx.map (fun e => (R.SPR_ACC .d0 0 + 4 * e.2, e.1)) ++ l)) ((w ++ m).map fun e => (0x08000000 + e.1, e.2))
/-- Both dies started, the roles on Die 0. -/
def tDies (l : List (Nat × Nat) := []) : State :=
  tw { tUp with boot := [(0, { (State.reset.bootOf .d0) with stage := 3 }), (1, { (State.reset.bootOf .d1) with stage := 3 })] }
    ([(R.SPR_STAT .d0 0, 0x10), (R.SPR_STAT .d0 1, 0x20), (R.SPR_STAT .d1 0, 0x40), (R.SPR_STAT .d1 1, 0x40), (R.SYS_DLY_STAT .d0, 0x30F), (R.SYS_DLY_STAT .d1, 0x30F), (R.SYS_DIE .d0, 2)] ++ l)

/-! ## Reads of hypotheses -/

/-- The instruction an engine stands at, with its word 0, if it has the opcode. -/
def rdSt (s : State) (d : Die) (k : Fin 24) (op : Nat) : Option (Ins × Nat) :=
  match s.ceReady d k, (s.ceFetchIns d k).1.toOption with
  | true, some (i, w0) => if i.op = op then some (i, w0) else none
  | _, _ => none

/-- What `State.ceReads` says of an engine with this opcode. -/
def rdTwo (s : State) (d : Die) (k : Fin 24) (op : Nat) : Option (Ins × Nat × Nat × Opnd × Nat × Cx) :=
  match rdSt s d k op with
  | none => none
  | some (i, _) => match (s.ceCx d k).val2 i i.size i.size with
    | .ok (a, b, od) y => (match y.getOld od with | .ok old x => some (i, a, b, od, old, x) | _ => none)
    | _ => none

/-- What `State.ceReads1` says. -/
def rdOne (s : State) (d : Die) (k : Fin 24) (op : Nat) (n : Ins → Nat) : Option (Ins × Nat × Opnd × Cx) :=
  match rdSt s d k op with
  | none => none
  | some (i, _) => match (s.ceCx d k).val1 i (n i) with | .ok (a, od) x => some (i, a, od, x) | _ => none

/-- What `State.supAt` says of a pair, with the opcode. -/
def rdSup (s : State) (d : Die) (p : Fin 2) : Option (Nat × SupIns × State) :=
  match s.supFetch d p with
  | .ok i t => if s.supLive d p.val && !s.supIntr d p.val && !(s.supOf d p).idle && supKnown i.op && i.legal then some (i.op, i, t) else none
  | _ => none

/-- An instruction that puts a word to its destination and completes within the limit, whatever follows. -/
def lands (d : Die) (k : Fin 24) (od : Opnd) (old : Nat) (x : Cx) : Bool :=
  match x.put od 4 0 old with | .ok _ y => decide (y.fits d k 34 0x84) | _ => false

/-- `State.sfqCurrent` as a test. -/
def sfqCur (s : State) (d : Die) (n : Nat) : Bool :=
  (s.sfqOf d n).entries.all (fun e => e.epoch == s.sfqAccepted d n) &&
  ((s.sfqOf d n).lanes.isEmpty || (s.sfqOf d n).laneEpoch == s.sfqAccepted d n) &&
  match (s.sfqOf d n).pkt with | none => true | some p => p.epoch == s.sfqAccepted d n

/-- What the test says holds. -/
theorem test_sfqCur {s : State} {d : Die} {n : Nat} (h : sfqCur s d n = true) : s.sfqCurrent d n := by
  simp only [sfqCur, Bool.and_eq_true, List.all_eq_true, beq_iff_eq, Bool.or_eq_true, List.isEmpty_iff] at h
  refine ⟨h.1.1, fun hl => (h.1.2.resolve_left hl), fun p hp => ?_⟩
  have h2 := h.2
  rw [hp] at h2
  simpa using h2

/-- A pool whose 272 banks, asked at their first address, refuse no access refuses none at any address. -/
theorem test_bankRefusal_of_banks (s : State) (d : Die) (port : Nat)
    (h : ((List.range 272).all (fun z => s.bankRefusal d port (bankBase z) == none)) = true) (a : Nat) (ha : a < 0x400_0000) :
    s.bankRefusal d port a = none := by
  have hb : bankOf a < 272 := by unfold bankOf; split <;> omega
  have h1 := List.all_eq_true.1 h (bankOf a) (List.mem_range.2 hb)
  have h2 : bankOf (bankBase (bankOf a)) = bankOf a := by
    generalize bankOf a = b at hb
    unfold bankOf bankBase
    split <;> split <;> omega
  simpa [State.bankRefusal, h2] using h1

theorem test_rdSt (s : State) (d : Die) (k : Fin 24) (op : Nat) (i : Ins) (w0 : Nat) (h : rdSt s d k op = some (i, w0)) :
    s.ceStands d k i w0 ∧ i.op = op := by
  unfold rdSt at h
  split at h
  · next h1 h2 =>
    split at h
    · next hop =>
      simp only [Option.some.injEq, Prod.mk.injEq] at h
      obtain ⟨rfl, rfl⟩ := h
      exact ⟨⟨h1, h2⟩, hop⟩
    · simp at h
  · simp at h

theorem test_rdTwo (s : State) (d : Die) (k : Fin 24) (op : Nat) (i : Ins) (a b : Nat) (od : Opnd) (old : Nat) (x : Cx)
    (h : rdTwo s d k op = some (i, a, b, od, old, x)) : s.ceReads d k op i a b od old x := by
  unfold rdTwo at h
  split at h
  · simp at h
  · next j w0 hj =>
    obtain ⟨h1, h2⟩ := test_rdSt _ _ _ _ _ _ hj
    split at h
    · next a' b' od' y hv =>
      split at h
      · next old' x' ho =>
        simp only [Option.some.injEq, Prod.mk.injEq] at h
        obtain ⟨rfl, rfl, rfl, rfl, rfl, rfl⟩ := h
        exact ⟨⟨w0, h1⟩, h2, y, hv, ho⟩
      · simp at h
    · simp at h

theorem test_rdOne (s : State) (d : Die) (k : Fin 24) (op : Nat) (n : Ins → Nat) (i : Ins) (a : Nat) (od : Opnd) (x : Cx)
    (h : rdOne s d k op n = some (i, a, od, x)) : s.ceReads1 d k op i (n i) a od x := by
  unfold rdOne at h
  split at h
  · simp at h
  · next j w0 hj =>
    obtain ⟨h1, h2⟩ := test_rdSt _ _ _ _ _ _ hj
    split at h
    · next hv =>
      simp only [Option.some.injEq, Prod.mk.injEq] at h
      obtain ⟨rfl, rfl, rfl, rfl⟩ := h
      exact ⟨⟨w0, h1⟩, h2, hv⟩
    · simp at h

theorem test_rdSup (s : State) (d : Die) (p : Fin 2) (op : Nat) (i : SupIns) (t : State) (h : rdSup s d p = some (op, i, t)) : s.supAt d p op i t := by
  unfold rdSup at h
  split at h
  · next hf =>
    split at h
    · next hc =>
      simp only [Option.some.injEq, Prod.mk.injEq] at h
      obtain ⟨rfl, rfl, rfl⟩ := h
      simp only [Bool.and_eq_true, Bool.not_eq_true'] at hc
      exact ⟨hc.1.1.1.1, hc.1.1.1.2, hc.1.1.2, hf, rfl, hc.1.2, hc.2⟩
    · simp at h
  · simp at h

/-! ## The hypotheses of each clause

Clause numbers follow the statements; each `decide` is one hypothesis as the statement writes it, a `match` reads one that names the operands of an
instruction. -/

/-! ### EngineArithmetic, its part EngineSumsAndDifferences -/

def hyp_EngineSumsAndDifferences_0 (d : Die) (k : Fin 24) (s : State) : Bool :=
  (match rdTwo s d k 0x10 with
  | some (i, a, b, od, old, x) =>
    decide (lands d k od old x = true)
  | _ => false)

def hyp_EngineSumsAndDifferences_1 (d : Die) (k : Fin 24) (s : State) : Bool :=
  (match rdTwo s d k 0x11 with
  | some (i, a, b, od, old, x) =>
    decide (lands d k od old x = true)
  | _ => false)

def hyp_EngineSumsAndDifferences_2 (d : Die) (k : Fin 24) (s : State) : Bool :=
  (match rdTwo s d k 0x12 with
  | some (i, a, b, od, old, x) =>
    decide (lands d k od old x = true)
  | _ => false)

def hyp_EngineSumsAndDifferences_3 (d : Die) (k : Fin 24) (s : State) : Bool :=
  (match rdTwo s d k 0x13 with
  | some (i, a, b, od, old, x) =>
    decide (lands d k od old x = true)
  | _ => false)

def hyp_EngineSumsAndDifferences_4 (d : Die) (k : Fin 24) (s : State) : Bool :=
  (match rdTwo s d k 0x1B with
  | some (i, a, b, od, old, x) =>
    decide (lands d k od old x = true)
  | _ => false)

def hyp_EngineSumsAndDifferences_5 (d : Die) (k : Fin 24) (s : State) : Bool :=
  (match rdSt s d k 0x1C with
  | some (i, _) =>
    decide (i.op = 0x1C) &&
    (match (s.ceCx d k).val2 i i.size i.size with
    | .ok (a, b, od) x =>
      decide (Cx.fits x d k 1 (i.next (s.cePc d k)))
    | _ => false)
  | _ => false)

theorem test_hyps_EngineSumsAndDifferences : (
    hyp_EngineSumsAndDifferences_0 (.d0) (3) (tCe [0x1241510, 0xfff8] [0x1f, 0x1f, 0x100f8, 0xffff, 0x7, 0x12345678, 0xff, 0xffff] [(R.CE_FLAGS .d0 3, 13)] []) &&
    hyp_EngineSumsAndDifferences_1 (.d0) (3) (tCe [0xb181211] [0xffffffff, 0xf, 0x12345678, 0x10078, 0x100c0, 0x1, 0x80000001, 0x7] [(R.CE_FLAGS .d0 3, 13)] []) &&
    hyp_EngineSumsAndDifferences_2 (.d0) (3) (tCe [0x1262912, 0xfff8] [0x7f, 0x20, 0x10000, 0x10018, 0x10000, 0xffff, 0x8, 0x7fff] [(R.CE_FLAGS .d0 3, 21)] []) &&
    hyp_EngineSumsAndDifferences_3 (.d0) (3) (tCe [0x414e013, 0x10078] [0x1f, 0x3, 0x100f4, 0xffff, 0xffffffff, 0xf, 0x3, 0xffff] [(R.CE_FLAGS .d0 3, 31)] []) &&
    hyp_EngineSumsAndDifferences_4 (.d0) (3) (tCe [0xb00e01b, 0x10008] [0x1, 0x7fff, 0x0, 0x10024, 0x7, 0x10000, 0xf, 0x3] [(R.CE_FLAGS .d0 3, 20)] []) &&
    hyp_EngineSumsAndDifferences_5 (.d0) (3) (tCe [0xe061c] [0x7f, 0x7f, 0x7f, 0x20, 0x100, 0xff, 0xffffffff, 0x5] [(R.CE_FLAGS .d0 3, 21)] [])) = true := by decide +kernel

/-! ### EngineArithmetic, its part EngineProductsAndQuotients -/

def hyp_EngineProductsAndQuotients_0 (d : Die) (k : Fin 24) (s : State) : Bool :=
  (match rdTwo s d k 0x14 with
  | some (i, a, b, od, old, x) =>
    decide (lands d k od old x = true)
  | _ => false)

def hyp_EngineProductsAndQuotients_1 (d : Die) (k : Fin 24) (s : State) : Bool :=
  (match rdTwo s d k 0x15 with
  | some (i, a, b, od, old, x) =>
    decide (lands d k od old x = true)
  | _ => false)

def hyp_EngineProductsAndQuotients_2 (d : Die) (k : Fin 24) (s : State) : Bool :=
  (match rdTwo s d k 0x16 with
  | some (i, a, b, od, old, x) =>
    decide (lands d k od old x = true)
  | _ => false)

def hyp_EngineProductsAndQuotients_3 (d : Die) (k : Fin 24) (s : State) : Bool :=
  (match rdTwo s d k 0x17 with
  | some (i, a, b, od, old, x) =>
    decide (b ≠ 0) &&
    decide (lands d k od old x = true)
  | _ => false)

def hyp_EngineProductsAndQuotients_4 (d : Die) (k : Fin 24) (s : State) : Bool :=
  (match rdTwo s d k 0x18 with
  | some (i, a, b, od, old, x) =>
    decide (b ≠ 0) &&
    decide (lands d k od old x = true)
  | _ => false)

def hyp_EngineProductsAndQuotients_5 (d : Die) (k : Fin 24) (s : State) : Bool :=
  (match rdTwo s d k 0x19 with
  | some (i, a, b, od, old, x) =>
    decide (b ≠ 0) &&
    decide (lands d k od old x = true)
  | _ => false)

def hyp_EngineProductsAndQuotients_6 (d : Die) (k : Fin 24) (s : State) : Bool :=
  (match rdTwo s d k 0x1A with
  | some (i, a, b, od, old, x) =>
    decide (b ≠ 0) &&
    decide (lands d k od old x = true)
  | _ => false)

def hyp_EngineProductsAndQuotients_7 (d : Die) (k : Fin 24) (s : State) : Bool :=
  (List.any ([0x17, 0x18, 0x19, 0x1A]) fun op =>
    (match rdTwo s d k op with
    | some (i, a, 0, od, old, x) =>
      (match (s.ceFetchIns d k).1.toOption with
      | some (_, w0) =>
        decide (s.ceReady d k = true)
      | _ => false)
    | _ => false))

theorem test_hyps_EngineProductsAndQuotients : (
    hyp_EngineProductsAndQuotients_0 (.d0) (3) (tCe [0x41614] [0xdeadbeef, 0xffffffff, 0xffffffff, 0xdeadbeef, 0x1f, 0x5, 0x80000001, 0x1] [(R.CE_FLAGS .d0 3, 13)] []) &&
    hyp_EngineProductsAndQuotients_1 (.d0) (3) (tCe [0x14002415, 0xfff8] [0x7, 0x10030, 0x8, 0x8000, 0x10030, 0x80000001, 0x0, 0x20] [(R.CE_FLAGS .d0 3, 28)] []) &&
    hyp_EngineProductsAndQuotients_2 (.d0) (3) (tCe [0x80a16] [0xdeadbeef, 0x3f, 0x100, 0x1, 0x8000, 0x80, 0x1f, 0x80000001] [(R.CE_FLAGS .d0 3, 13)] []) &&
    hyp_EngineProductsAndQuotients_3 (.d0) (3) (tCe [0x1305a017, 0xfff8] [0x1, 0xff, 0x7fff, 0x10038, 0xffffffff, 0x21, 0xffff, 0xff] [(R.CE_FLAGS .d0 3, 14)] []) &&
    hyp_EngineProductsAndQuotients_4 (.d0) (3) (tCe [0x4d0a518] [0x20, 0x1003c, 0x3f, 0x20, 0x8000, 0x7, 0xdeadbeef, 0x7] [(R.CE_FLAGS .d0 3, 22)] []) &&
    hyp_EngineProductsAndQuotients_5 (.d0) (3) (tCe [0x7260619, 0xfff8] [0x12345678, 0x1f, 0x7, 0x100f4, 0xdeadbeef, 0x7fffffff, 0x7f, 0x1] [(R.CE_FLAGS .d0 3, 9)] [(0x100ec, 0x5)]) &&
    hyp_EngineProductsAndQuotients_6 (.d0) (3) (tCe [0xb08141a] [0xffff, 0x7, 0x100, 0x10040, 0x1f, 0x7fff, 0x8000, 0x20] [(R.CE_FLAGS .d0 3, 22)] []) &&
    hyp_EngineProductsAndQuotients_7 (.d0) (3) (tCe [0x18081a] [0x10, 0x1, 0x80, 0xf, 0x10088, 0x1f, 0x7fffffff, 0xffff] [(R.CE_FLAGS .d0 3, 30)] [])) = true := by decide +kernel

/-! ### EngineLogicAndShifts -/

def hyp_EngineLogicAndShifts_0 (d : Die) (k : Fin 24) (s : State) : Bool :=
  (match rdTwo s d k 0x20 with
  | some (i, a, b, od, old, x) =>
    decide (lands d k od old x = true)
  | _ => false)

def hyp_EngineLogicAndShifts_1 (d : Die) (k : Fin 24) (s : State) : Bool :=
  (match rdTwo s d k 0x21 with
  | some (i, a, b, od, old, x) =>
    decide (lands d k od old x = true)
  | _ => false)

def hyp_EngineLogicAndShifts_2 (d : Die) (k : Fin 24) (s : State) : Bool :=
  (match rdTwo s d k 0x22 with
  | some (i, a, b, od, old, x) =>
    decide (lands d k od old x = true)
  | _ => false)

def hyp_EngineLogicAndShifts_3 (d : Die) (k : Fin 24) (s : State) : Bool :=
  (match rdTwo s d k 0x23 with
  | some (i, a, b, od, old, x) =>
    decide (lands d k od old x = true)
  | _ => false)

def hyp_EngineLogicAndShifts_4 (d : Die) (k : Fin 24) (s : State) : Bool :=
  (match rdTwo s d k 0x24 with
  | some (i, a, b, od, old, x) =>
    decide (lands d k od old x = true)
  | _ => false)

def hyp_EngineLogicAndShifts_5 (d : Die) (k : Fin 24) (s : State) : Bool :=
  (match rdSt s d k 0x25 with
  | some (i, _) =>
    decide (i.op = 0x25) &&
    (match (s.ceCx d k).val2 i i.size i.size with
    | .ok (a, b, od) x =>
      decide (Cx.fits x d k 1 (i.next (s.cePc d k)))
    | _ => false)
  | _ => false)

def hyp_EngineLogicAndShifts_6 (d : Die) (k : Fin 24) (s : State) : Bool :=
  (match rdTwo s d k 0x26 with
  | some (i, a, b, od, old, x) =>
    decide (lands d k od old x = true)
  | _ => false)

def hyp_EngineLogicAndShifts_7 (d : Die) (k : Fin 24) (s : State) : Bool :=
  (match rdTwo s d k 0x27 with
  | some (i, a, b, od, old, x) =>
    decide (lands d k od old x = true)
  | _ => false)

def hyp_EngineLogicAndShifts_8 (d : Die) (k : Fin 24) (s : State) : Bool :=
  (match rdTwo s d k 0x28 with
  | some (i, a, b, od, old, x) =>
    decide (lands d k od old x = true)
  | _ => false)

def hyp_EngineLogicAndShifts_9 (d : Die) (k : Fin 24) (s : State) : Bool :=
  (match rdTwo s d k 0x29 with
  | some (i, a, b, od, old, x) =>
    decide (lands d k od old x = true)
  | _ => false)

def hyp_EngineLogicAndShifts_10 (d : Die) (k : Fin 24) (s : State) : Bool :=
  (match rdTwo s d k 0x2A with
  | some (i, a, b, od, old, x) =>
    decide (lands d k od old x = true)
  | _ => false)

theorem test_hyps_EngineLogicAndShifts : (
    hyp_EngineLogicAndShifts_0 (.d0) (3) (tCe [0x38c04820, 0xfff8, 0x1c, 0x1009c] [0x7, 0x7, 0x1008c, 0x7fffffff, 0x7fffffff, 0x80000001, 0x80000001, 0xff] [(R.CE_FLAGS .d0 3, 0)] []) &&
    hyp_EngineLogicAndShifts_1 (.d0) (3) (tCe [0x1412c021, 0x3, 0xfff8] [0x80000001, 0x100ec, 0x2, 0xffffffff, 0x10064, 0xff, 0x1f, 0x20] [(R.CE_FLAGS .d0 3, 4)] []) &&
    hyp_EngineLogicAndShifts_2 (.d0) (3) (tCe [0xa042d22] [0x1f, 0x5, 0x100c8, 0x100bc, 0x1, 0x8000, 0x7, 0xdeadbeef] [(R.CE_FLAGS .d0 3, 28)] []) &&
    hyp_EngineLogicAndShifts_3 (.d0) (3) (tCe [0x3806e223, 0x100a0, 0x100b8] [0x5, 0x7, 0x7fff, 0xffffffff, 0x0, 0x7f, 0x10, 0xffffffff] [(R.CE_FLAGS .d0 3, 17)] []) &&
    hyp_EngineLogicAndShifts_4 (.d0) (3) (tCe [0x68000024] [0x80, 0x80, 0x80000000, 0x7fff, 0x7fff, 0xff, 0xf, 0x7fffffff] [(R.CE_FLAGS .d0 3, 0)] []) &&
    hyp_EngineLogicAndShifts_5 (.d0) (3) (tCe [0x1925] [0x3f, 0xdeadbeef, 0x7fff, 0x7fffffff, 0xffff, 0x1, 0x0, 0x3f] [(R.CE_FLAGS .d0 3, 15)] []) &&
    hyp_EngineLogicAndShifts_6 (.d0) (3) (tCe [0x1171a126, 0x100b8, 0xfff8] [0x7fff, 0x10088, 0x10, 0x20, 0x21, 0x2, 0x5, 0x7] [(R.CE_FLAGS .d0 3, 21)] []) &&
    hyp_EngineLogicAndShifts_7 (.d0) (3) (tCe [0x14062627, 0xfff8] [0x10, 0x100c0, 0x8, 0x12345678, 0x100b8, 0x7, 0x1, 0x12345678] [(R.CE_FLAGS .d0 3, 16)] []) &&
    hyp_EngineLogicAndShifts_8 (.d0) (3) (tCe [0x7081228] [0xffff, 0x1, 0xff, 0x7fff, 0x80000001, 0xf, 0xffffffff, 0xf] [(R.CE_FLAGS .d0 3, 8)] []) &&
    hyp_EngineLogicAndShifts_9 (.d0) (3) (tCe [0x68603229, 0x7] [0xf, 0x80, 0x10, 0x1f, 0x100ac, 0x3f, 0x7fff, 0x80000001] [(R.CE_FLAGS .d0 3, 10)] []) &&
    hyp_EngineLogicAndShifts_10 (.d0) (3) (tCe [0xb06a42a] [0x7fffffff, 0x10094, 0x5, 0x100c4, 0x5, 0xdeadbeef, 0x5, 0xf] [(R.CE_FLAGS .d0 3, 16)] [])) = true := by decide +kernel

/-! ### EngineMovesBitsAndChecks, its part EngineMoves -/

def hyp_EngineMoves_0 (d : Die) (k : Fin 24) (s : State) : Bool :=
  (match rdTwo s d k 0x01 with
  | some (i, a, b, od, old, x) =>
    decide (lands d k od old x = true)
  | _ => false)

def hyp_EngineMoves_1 (d : Die) (k : Fin 24) (s : State) : Bool :=
  (match rdOne s d k 0x02 (fun i => i.size) with
  | some (i, a, od, y) =>
    (match y.getOld od with
    | .ok old x =>
      decide (lands d k od old x = true)
    | _ => false)
  | _ => false)

def hyp_EngineMoves_2 (d : Die) (k : Fin 24) (s : State) : Bool :=
  (match rdOne s d k 0x03 (fun i => i.size) with
  | some (i, a, od, y) =>
    (match y.getOld od with
    | .ok old x =>
      decide (lands d k od old x = true)
    | _ => false)
  | _ => false)

def hyp_EngineMoves_3 (d : Die) (k : Fin 24) (s : State) : Bool :=
  (match rdSt s d k 0x04 with
  | some (i, _) =>
    (match (s.ceCx d k).operands i with
    | (o1, o2, od, y) =>
      (match o1 with
      | .mem p =>
        (match y.getOld od with
        | .ok old x =>
          decide (lands d k od old x = true)
        | _ => false)
      | _ => false))
  | _ => false)

def hyp_EngineMoves_4 (d : Die) (k : Fin 24) (s : State) : Bool :=
  (match rdSt s d k 0x05 with
  | some (i, _) =>
    (match (s.ceCx d k).operands i with
    | (o1, o2, od, y) =>
      (match y.getOld od with
      | .ok old x =>
        decide (lands d k od old x = true)
      | _ => false))
  | _ => false)

def hyp_EngineMoves_5 (d : Die) (k : Fin 24) (s : State) : Bool :=
  (match rdSt s d k 0x06 with
  | some (i, _) =>
    (match (s.ceCx d k).operands i with
    | (o1, o2, od, y) =>
      (match y.getBoth o1 i.size with
      | .ok u z =>
        (match z.getBoth od i.size with
        | .ok v x =>
          (match x.put od i.size u.1 v.2 with
          | .ok () y₁ =>
            (match y₁.put o1 i.size v.1 u.2 with
            | .ok () y₂ =>
              decide (Cx.fits y₂ d k 1 (i.next (s.cePc d k)))
            | _ => false)
          | _ => false)
        | _ => false)
      | _ => false))
  | _ => false)

theorem test_hyps_EngineMoves : (
    hyp_EngineMoves_0 (.d0) (3) (tCe [0xa00c101, 0x80000000] [0x0, 0x3, 0x100e0, 0x80, 0x10, 0x7fffffff, 0x1f, 0x80000001] [(R.CE_FLAGS .d0 3, 25)] []) &&
    hyp_EngineMoves_1 (.d0) (3) (tCe [0x4000002] [0x7, 0x3f, 0x3f, 0x7f, 0x12345678, 0x12345678, 0xdeadbeef, 0x7f] [(R.CE_FLAGS .d0 3, 10)] []) &&
    hyp_EngineMoves_2 (.d0) (3) (tCe [0x3014603, 0xb80000] [0xff, 0x100ac, 0x7fffffff, 0x0, 0x100, 0x5, 0x10, 0xf] [(R.CE_FLAGS .d0 3, 18)] []) &&
    hyp_EngineMoves_3 (.d0) (3) (tCe [0xa004404, 0x8] [0x10, 0x10018, 0x1000c, 0x7fffffff, 0x7f, 0x7, 0x1f, 0x2] [(R.CE_FLAGS .d0 3, 4)] []) &&
    hyp_EngineMoves_4 (.d0) (3) (tCe [0x22000005] [0x12345678, 0x8, 0x10004, 0x0, 0x7fff, 0x7fff, 0x80000001, 0xffff] [(R.CE_FLAGS .d0 3, 1)] []) &&
    hyp_EngineMoves_5 (.d0) (3) (tCe [0x3800e206, 0x10030, 0x10024] [0x80000001, 0xff, 0xf, 0x80000000, 0x7f, 0x5, 0x0, 0x3] [(R.CE_FLAGS .d0 3, 18)] [])) = true := by decide +kernel

/-! ### EngineMovesBitsAndChecks, its part EngineBitsAndChecks -/

def hyp_EngineBitsAndChecks_0 (d : Die) (k : Fin 24) (s : State) : Bool :=
  (match rdSt s d k 0x30 with
  | some (i, _) =>
    decide (i.op = 0x30) &&
    (match (s.ceCx d k).val2 i i.size i.size with
    | .ok (a, b, od) x =>
      decide (Cx.fits x d k 1 (i.next (s.cePc d k)))
    | _ => false)
  | _ => false)

def hyp_EngineBitsAndChecks_1 (d : Die) (k : Fin 24) (s : State) : Bool :=
  (match rdOne s d k 0x31 (fun i => i.size) with
  | some (i, a, od, y) =>
    (match y.getBoth od i.size with
    | .ok v x =>
      decide (lands d k od v.2 x = true)
    | _ => false)
  | _ => false)

def hyp_EngineBitsAndChecks_2 (d : Die) (k : Fin 24) (s : State) : Bool :=
  (match rdOne s d k 0x32 (fun i => i.size) with
  | some (i, a, od, y) =>
    (match y.getBoth od i.size with
    | .ok v x =>
      decide (lands d k od v.2 x = true)
    | _ => false)
  | _ => false)

def hyp_EngineBitsAndChecks_3 (d : Die) (k : Fin 24) (s : State) : Bool :=
  (match rdOne s d k 0x33 (fun i => i.size) with
  | some (i, a, od, y) =>
    (match y.getBoth od i.size with
    | .ok v x =>
      decide (lands d k od v.2 x = true)
    | _ => false)
  | _ => false)

def hyp_EngineBitsAndChecks_4 (d : Die) (k : Fin 24) (s : State) : Bool :=
  (match rdTwo s d k 0x35 with
  | some (i, a, b, od, old, x) =>
    decide (lands d k od old x = true)
  | _ => false)

def hyp_EngineBitsAndChecks_5 (d : Die) (k : Fin 24) (s : State) : Bool :=
  (match rdTwo s d k 0x36 with
  | some (i, a, b, od, old, x) =>
    decide (lands d k od old x = true)
  | _ => false)

def hyp_EngineBitsAndChecks_6 (d : Die) (k : Fin 24) (s : State) : Bool :=
  (List.any ([(0x82F6_3B78, 0x37), (0xEDB8_8320, 0x38)]) fun (poly, op) =>
    (match rdSt s d k op with
    | some (i, _) =>
      (match (s.ceCx d k).val2 i 4 i.size with
      | .ok (a, b, od) y =>
        (match y.getOld od with
        | .ok old x =>
          decide (lands d k od old x = true)
        | _ => false)
      | _ => false)
    | _ => false))

theorem test_hyps_EngineBitsAndChecks : (
    hyp_EngineBitsAndChecks_0 (.d0) (3) (tCe [0x422630] [0x8, 0x10070, 0x80000000, 0x1f, 0x3, 0x20, 0x5, 0x8000] [(R.CE_FLAGS .d0 3, 29)] []) &&
    hyp_EngineBitsAndChecks_1 (.d0) (3) (tCe [0x23014e31, 0x5a30000] [0x7fff, 0x7f, 0x3f, 0x100dc, 0x3, 0x0, 0xffff, 0x12345678] [(R.CE_FLAGS .d0 3, 18)] []) &&
    hyp_EngineBitsAndChecks_2 (.d0) (3) (tCe [0x1002d32] [0xffffffff, 0x100, 0x0, 0x10008, 0xffff, 0x10000, 0xdeadbeef, 0x5] [(R.CE_FLAGS .d0 3, 20)] []) &&
    hyp_EngineBitsAndChecks_3 (.d0) (3) (tCe [0x900c033, 0x3] [0xf, 0x10014, 0x20, 0x21, 0x5, 0x7fffffff, 0x0, 0x80] [(R.CE_FLAGS .d0 3, 7)] []) &&
    hyp_EngineBitsAndChecks_4 (.d0) (3) (tCe [0x501a135] [0x3f, 0x100, 0xff, 0x8, 0x8, 0x20, 0xdeadbeef, 0x80] [(R.CE_FLAGS .d0 3, 1)] []) &&
    hyp_EngineBitsAndChecks_5 (.d0) (3) (tCe [0x1002636] [0x7fffffff, 0x10024, 0x80000000, 0xf, 0x80000001, 0x3f, 0x80000001, 0x1f] [(R.CE_FLAGS .d0 3, 28)] []) &&
    hyp_EngineBitsAndChecks_6 (.d0) (3) (tCe [0x90ca638] [0x2, 0x100e4, 0x0, 0xffffffff, 0x80000000, 0x1f, 0x80, 0xff] [(R.CE_FLAGS .d0 3, 0)] [])) = true := by decide +kernel

/-! ### EngineControlFlow, its part EngineControlFlow -/

def hyp_EngineControlFlow_0 (d : Die) (k : Fin 24) (s : State) : Bool :=
  let x := s.ceCx d k
  let pc := s.cePc d k
  (match rdOne s d k 0x08 (fun _ => 4) with
  | some (i, v, od, x) =>
    (match x.push v with
    | .ok () y =>
      decide (Cx.fits y d k 1 (i.next pc))
    | _ => false)
  | _ => false)

def hyp_EngineControlFlow_1 (d : Die) (k : Fin 24) (s : State) : Bool :=
  let x := s.ceCx d k
  (match rdSt s d k 0x09 with
  | some (i, _) =>
    (match x.operands i with
    | (o1, o2, od, y) =>
      (match y.pop with
      | .ok v x₁ =>
        (match x₁.getOld od with
        | .ok old x₂ =>
          decide (lands d k od old x₂ = true)
        | _ => false)
      | _ => false))
  | _ => false)

def hyp_EngineControlFlow_2 (d : Die) (k : Fin 24) (s : State) : Bool :=
  let x := s.ceCx d k
  let pc := s.cePc d k
  (match rdSt s d k 0x40 with
  | some (i, _) =>
    let target := wrapInt 32 ((pc : Int) + 4 * i.disp)
    decide (condHolds i.cond x.fl = true) &&
    decide (Cx.fits x d k 2 target)
  | _ => false)

def hyp_EngineControlFlow_3 (d : Die) (k : Fin 24) (s : State) : Bool :=
  let x := s.ceCx d k
  let pc := s.cePc d k
  (match rdSt s d k 0x40 with
  | some (i, _) =>
    decide (condHolds i.cond x.fl = false) &&
    decide (Cx.fits x d k 1 (i.next pc))
  | _ => false)

def hyp_EngineControlFlow_4 (d : Die) (k : Fin 24) (s : State) : Bool :=
  let x := s.ceCx d k
  let pc := s.cePc d k
  (match rdSt s d k 0x41 with
  | some (i, _) =>
    let target := wrapInt 32 ((pc : Int) + 4 * i.disp)
    (match x.push (pc + 4) with
    | .ok () y =>
      decide (Cx.fits y d k 3 target)
    | _ => false)
  | _ => false)

def hyp_EngineControlFlow_5 (d : Die) (k : Fin 24) (s : State) : Bool :=
  (match rdOne s d k 0x42 (fun _ => 4) with
  | some (i, v, od, y) =>
    decide (Cx.fits y d k 2 v)
  | _ => false)

def hyp_EngineControlFlow_6 (d : Die) (k : Fin 24) (s : State) : Bool :=
  let pc := s.cePc d k
  (match rdOne s d k 0x43 (fun _ => 4) with
  | some (i, v, od, x₁) =>
    (match x₁.push (i.next pc) with
    | .ok () y =>
      decide (Cx.fits y d k 3 v)
    | _ => false)
  | _ => false)

def hyp_EngineControlFlow_7 (d : Die) (k : Fin 24) (s : State) : Bool :=
  let x := s.ceCx d k
  (match rdSt s d k 0x44 with
  | some (i, _) =>
    (match x.pop with
    | .ok v y =>
      decide (Cx.fits y d k 3 v)
    | _ => false)
  | _ => false)

def hyp_EngineControlFlow_8 (d : Die) (k : Fin 24) (s : State) : Bool :=
  let x := s.ceCx d k
  (match rdSt s d k 0x45 with
  | some (i, _) =>
    decide (x.s.ceNested d k = false) &&
    decide (x.canPop 3 = true) &&
    (match x.pop with
    | .ok cw y₁ =>
      (match y₁.pop with
      | .ok f y₂ =>
        (match y₂.pop with
        | .ok v y₃ =>
          decide (Cx.fits y₃ d k 5 v)
        | _ => false)
      | _ => false)
    | _ => false)
  | _ => false)

def hyp_EngineControlFlow_9 (d : Die) (k : Fin 24) (s : State) : Bool :=
  let x := s.ceCx d k
  (match rdSt s d k 0x45 with
  | some (i, _) =>
    decide (x.s.ceNested d k = true) &&
    decide (Cx.fits { x with s := x.s.setFlag (R.CE_STAT d k) 2 false, sp := (x.s.getReg (R.CE_FS d k 3)).toNat } d k 5 (x.s.fld (R.CE_FS d k 0) 0 16))
  | _ => false)

def hyp_EngineControlFlow_10 (d : Die) (k : Fin 24) (s : State) : Bool :=
  let x := s.ceCx d k
  let pc := s.cePc d k
  (match rdSt s d k 0x46 with
  | some (i, _) =>
    let target := wrapInt 32 ((pc : Int) + 4 * i.disp)
    (match x.operands i with
    | (o1, o2, od, y) =>
      (match y.getBoth od i.size with
      | .ok v x₁ =>
        let r := wrapInt (8 * i.size) ((v.1 : Int) - 1)
        (match x₁.put od i.size r v.2 with
        | .ok () x₂ =>
          decide (r ≠ 0) &&
          decide (Cx.fits x₂ d k 2 target)
        | _ => false)
      | _ => false))
  | _ => false)

def hyp_EngineControlFlow_11 (d : Die) (k : Fin 24) (s : State) : Bool :=
  let x := s.ceCx d k
  let pc := s.cePc d k
  (match rdSt s d k 0x46 with
  | some (i, _) =>
    (match x.operands i with
    | (o1, o2, od, y) =>
      (match y.getBoth od i.size with
      | .ok v x₁ =>
        let r := wrapInt (8 * i.size) ((v.1 : Int) - 1)
        (match x₁.put od i.size r v.2 with
        | .ok () x₂ =>
          decide (r = 0) &&
          decide (Cx.fits x₂ d k 1 (i.next pc))
        | _ => false)
      | _ => false))
  | _ => false)

def hyp_EngineControlFlow_12 (d : Die) (k : Fin 24) (s : State) : Bool :=
  (match rdSt s d k 0x47 with
  | some (i, w0) =>
    decide (i.op = 0x47)
  | _ => false)

def hyp_EngineControlFlow_13 (d : Die) (k : Fin 24) (s : State) : Bool :=
  let x := s.ceCx d k
  let pc := s.cePc d k
  (match rdSt s d k 0x48 with
  | some (i, _) =>
    decide (Cx.fits x d k 1 (i.next pc))
  | _ => false)

theorem test_hyps_EngineControlFlow : (
    hyp_EngineControlFlow_0 (.d0) (3) (tCe [0xc08] [0x80, 0x80000000, 0x10, 0x7f, 0x80000000, 0xffff, 0x12345678, 0x7fff] [(R.CE_FLAGS .d0 3, 13)] []) &&
    hyp_EngineControlFlow_1 (.d0) (3) (tCe [0x68000109] [0x80000001, 0x1f, 0x80000000, 0x10000, 0x5, 0xffffffff, 0x10, 0x5] [(R.CE_FLAGS .d0 3, 24)] []) &&
    hyp_EngineControlFlow_2 (.d0) (3) (tCe [0x3040] [0x0, 0x0, 0x0, 0x0, 0x0, 0x0, 0x0, 0x0] [(R.CE_FLAGS .d0 3, 0)] []) &&
    hyp_EngineControlFlow_3 (.d0) (3) (tCe [0x3240] [0x0, 0x0, 0x0, 0x0, 0x0, 0x0, 0x0, 0x0] [(R.CE_FLAGS .d0 3, 5)] []) &&
    hyp_EngineControlFlow_4 (.d0) (3) (tCe [0x3041] [0x0, 0x0, 0x0, 0x0, 0x0, 0x0, 0x0, 0x0] [(R.CE_SP .d0 3, 0x1f000)] []) &&
    hyp_EngineControlFlow_5 (.d0) (3) (tCe [0x3142] [0x7fff, 0x5, 0x7, 0x21, 0x10040, 0x20, 0x8, 0x80] [(R.CE_FLAGS .d0 3, 13)] []) &&
    hyp_EngineControlFlow_6 (.d0) (3) (tCe [0x4d43, 0xfff8] [0x0, 0x5, 0x7fff, 0x1001c, 0x0, 0xff, 0x3, 0x2] [(R.CE_FLAGS .d0 3, 26), (R.CE_SLOT_W4 .d0 3 0, 23)] []) &&
    hyp_EngineControlFlow_7 (.d0) (3) (tCe [0x144] [0x5, 0x10000, 0x5, 0x10000, 0x7fffffff, 0xf, 0x21, 0x1f] [(R.CE_FLAGS .d0 3, 23)] []) &&
    hyp_EngineControlFlow_8 (.d0) (3) (tCe [0x45] [0x0, 0x0, 0x0, 0x0, 0x0, 0x0, 0x0, 0x0] [(R.CE_STAT .d0 3, 0x4001), (R.CE_SP .d0 3, 0x18000), (R.CE_FS .d0 3 0, 0x84), (R.CE_FS .d0 3 1, 0x1B), (R.CE_FS .d0 3 3, 0x18440)] [(0x1F000, 0x5), (0x1F004, 0x1F), (0x1F008, 0x88), (0x84, 0x48), (0x88, 0x48)]) &&
    hyp_EngineControlFlow_9 (.d0) (3) (tCe [0x45] [0x0, 0x0, 0x0, 0x0, 0x0, 0x0, 0x0, 0x0] [(R.CE_STAT .d0 3, 0x4005), (R.CE_SP .d0 3, 0x1fff4), (R.CE_FS .d0 3 0, 0x84), (R.CE_FS .d0 3 1, 0x1B), (R.CE_FS .d0 3 3, 0x18440)] [(0x1F000, 0x5), (0x1F004, 0x1F), (0x1F008, 0x88), (0x84, 0x48), (0x88, 0x48)]) &&
    hyp_EngineControlFlow_10 (.d0) (3) (tCe [0x40c46] [0x0, 0x0, 0x0, 0x2, 0x0, 0x0, 0x0, 0x0] [] []) &&
    hyp_EngineControlFlow_11 (.d0) (3) (tCe [0x40c46] [0x0, 0x0, 0x0, 0x1, 0x0, 0x0, 0x0, 0x0] [] []) &&
    hyp_EngineControlFlow_12 (.d0) (3) (tCe [0x47] [0x0, 0x0, 0x0, 0x0, 0x0, 0x0, 0x0, 0x0] [] [(0x40, 0x90)]) &&
    hyp_EngineControlFlow_13 (.d0) (3) (tCe [0x248] [0x1, 0x2, 0x8000, 0x5, 0x10000, 0x7f, 0x3f, 0x1f] [(R.CE_FLAGS .d0 3, 8)] [])) = true := by decide +kernel

/-! ### EngineControlFlow, its part EngineStackWindow -/

def hyp_EngineStackWindow_0 (x : Cx) (v : Nat) : Bool :=
  let lo := (x.s.getReg (R.CE_SP_LO x.d x.k)).toNat
  let hi := (x.s.getReg (R.CE_SP_HI x.d x.k)).toNat
  decide (0x1_0000 ≤ lo) &&
  decide (hi ≤ 0x3_0000) &&
  decide (x.sp % 4 = 0) &&
  decide (x.sp ≤ hi) &&
  decide (lo + 4 ≤ x.sp) &&
  decide (v < 0x1_0000_0000)

def hyp_EngineStackWindow_1 (x : Cx) : Bool :=
  let lo := (x.s.getReg (R.CE_SP_LO x.d x.k)).toNat
  let hi := (x.s.getReg (R.CE_SP_HI x.d x.k)).toNat
  decide (0x1_0000 ≤ lo) &&
  decide (hi ≤ 0x3_0000) &&
  decide (¬(x.sp % 4 = 0 ∧ x.sp ≤ hi ∧ lo + 4 ≤ x.sp))

def hyp_EngineStackWindow_2 (x : Cx) : Bool :=
  let lo := (x.s.getReg (R.CE_SP_LO x.d x.k)).toNat
  let hi := (x.s.getReg (R.CE_SP_HI x.d x.k)).toNat
  let at_ (a : Nat) : Nat := ceMemAddr x.d x.k a
  decide (0x1_0000 ≤ lo) &&
  decide (hi ≤ 0x3_0000) &&
  decide (x.sp % 4 = 0) &&
  decide (lo ≤ x.sp) &&
  decide (x.sp + 4 ≤ hi) &&
  decide (x.log = []) &&
  decide (x.s.localEcc (at_ x.sp) = 0)

def hyp_EngineStackWindow_3 (x : Cx) : Bool :=
  let lo := (x.s.getReg (R.CE_SP_LO x.d x.k)).toNat
  let hi := (x.s.getReg (R.CE_SP_HI x.d x.k)).toNat
  decide (0x1_0000 ≤ lo) &&
  decide (hi ≤ 0x3_0000) &&
  decide (¬(x.sp % 4 = 0 ∧ lo ≤ x.sp ∧ x.sp + 4 ≤ hi))

theorem test_hyps_EngineStackWindow : (
    hyp_EngineStackWindow_0 ({(tCe [0x48] [] [(R.CE_SP_LO .d0 3, 0x10000), (R.CE_SP_HI .d0 3, 0x30000)] [(0x20000, 0x99887766)]).cx .d0 3 with sp := 0x20000}) (0xDEADBEEF) &&
    hyp_EngineStackWindow_1 ({(tCe [0x48] [] [(R.CE_SP_LO .d0 3, 0x18000), (R.CE_SP_HI .d0 3, 0x20000)] [(0x0, 0x99887766)]).cx .d0 3 with sp := 0x0}) &&
    hyp_EngineStackWindow_2 ({(tCe [0x48] [] [(R.CE_SP_LO .d0 3, 0x10000), (R.CE_SP_HI .d0 3, 0x30000)] [(0x20000, 0x99887766)]).cx .d0 3 with sp := 0x20000}) &&
    hyp_EngineStackWindow_3 ({(tCe [0x48] [] [(R.CE_SP_LO .d0 3, 0x18000), (R.CE_SP_HI .d0 3, 0x20000)] [(0x0, 0x99887766)]).cx .d0 3 with sp := 0x0})) = true := by decide +kernel

/-! ### EngineWindowsAndWaits -/

def hyp_EngineWindowsAndWaits_0 (d : Die) (k : Fin 24) (s : State) : Bool :=
  let x := s.ceCx d k
  let pc := s.cePc d k
  (match rdSt s d k 0x07 with
  | some (i, _) =>
    (match x.operands i with
    | (.mem src, o2, .mem dst, y) =>
      (match y.get o2 4 with
      | .ok n x₁ =>
        decide (n < 0x1_0000) &&
        decide (x₁.rangeFault src n false = none) &&
        decide (x₁.rangeFault dst n true = none) &&
        (match readParts src (movmParts n) [] x₁ with
        | .ok bs x₂ =>
          decide (¬((x₂.keyOf src).1 = (x₂.keyOf dst).1 ∧ (x₂.keyOf src).2 < (x₂.keyOf dst).2 ∧ (x₂.keyOf dst).2 < (x₂.keyOf src).2 + n)) &&
          (match writeParts dst bs (movmParts n) x₂ with
          | .ok () x₃ =>
            decide (Cx.fits x₃ d k (2 + 2 * ((n + 3) / 4)) (i.next pc))
          | _ => false)
        | _ => false)
      | _ => false)
    | _ => false)
  | _ => false)

def hyp_EngineWindowsAndWaits_1 (d : Die) (k : Fin 24) (s : State) : Bool :=
  let x := s.ceCx d k
  let pc := s.cePc d k
  (match rdSt s d k 0x07 with
  | some (i, _) =>
    (match x.operands i with
    | (.mem src, o2, .mem dst, y) =>
      (match y.get o2 4 with
      | .ok n x₁ =>
        decide (n < 0x1_0000) &&
        decide (x₁.rangeFault src n false = none) &&
        decide (x₁.rangeFault dst n true = none) &&
        (match readParts src (movmParts n) [] x₁ with
        | .ok bs x₂ =>
          decide ((x₂.keyOf src).1 = (x₂.keyOf dst).1) &&
          decide ((x₂.keyOf src).2 < (x₂.keyOf dst).2) &&
          decide ((x₂.keyOf dst).2 < (x₂.keyOf src).2 + n) &&
          (match writeParts dst (repeatPattern ((x₂.keyOf dst).2 - (x₂.keyOf src).2) bs) (movmParts n) x₂ with
          | .ok () x₃ =>
            decide (Cx.fits x₃ d k (2 + 2 * ((n + 3) / 4)) (i.next pc))
          | _ => false)
        | _ => false)
      | _ => false)
    | _ => false)
  | _ => false)

def hyp_EngineWindowsAndWaits_2 (d : Die) (k : Fin 24) (s : State) : Bool :=
  (match rdOne s d k 0x50 (fun _ => 4) with
  | some (i, v, od, y) =>
    decide ((Cx.pre (y.spend 4)).ceBeyond d k (Cx.cost (y.spend 4)) = false)
  | _ => false)

def hyp_EngineWindowsAndWaits_3 (d : Die) (k : Fin 24) (s : State) : Bool :=
  let pc := s.cePc d k
  (match rdOne s d k 0x51 (fun i => i.size) with
  | some (i, m, od, y) =>
    decide (y.s.fld (R.CE_EVT d k) 0 8 &&& (m % 256) ≠ 0) &&
    decide (Cx.fits y d k 1 (i.next pc))
  | _ => false)

def hyp_EngineWindowsAndWaits_4 (d : Die) (k : Fin 24) (s : State) : Bool :=
  (match rdOne s d k 0x51 (fun i => i.size) with
  | some (i, m, od, y) =>
    decide (y.s.fld (R.CE_EVT d k) 0 8 &&& (m % 256) = 0) &&
    decide ((Cx.pre y).ceBeyond d k (Cx.cost y) = false)
  | _ => false)

def hyp_EngineWindowsAndWaits_5 (d : Die) (k : Fin 24) (s : State) : Bool :=
  let x := s.ceCx d k
  let pc := s.cePc d k
  (match rdSt s d k 0x54 with
  | some (i, _) =>
    decide (x.s.flag (R.CE_STAT d k) 5 = false) &&
    (match x.operands i with
    | (o1, o2, od, y) =>
      (match y.workAt o1 32 with
      | .ok a =>
        (match y.s.workWords d k a 8 with
        | (.ok ws, t) =>
          (match (t.ceOf d k).taken.find? (fun q => q.2.1 = bits (ws.getD 1 0) 0 18) with
          | some u =>
            let line := bits (ws.getD 1 0) 0 18
            let t' := (t.winDrop d k i.w (some line)).winMap d k i.w (wd (0x8040_0000 + u.1 % 2 * 0x10_0000 + line)) u.2.2
            decide (Cx.fits { y with s := t', pre := t } d k 6 (i.next pc))
          | _ => false)
        | _ => false)
      | _ => false))
  | _ => false)

def hyp_EngineWindowsAndWaits_6 (d : Die) (k : Fin 24) (s : State) : Bool :=
  let x := s.ceCx d k
  let pc := s.cePc d k
  (match rdSt s d k 0x55 with
  | some (i, _) =>
    decide (x.s.flag (R.CE_STAT d k) 5 = false) &&
    (match x.val2 i i.size i.size with
    | .ok (g, n, od) y =>
      let slot := y.s.ceSlot d k
      let w0 := y.s.getReg (R.CE_GRANT_W0 d k slot (g % 8))
      let lines := y.s.fld (R.CE_GRANT_W1 d k slot (g % 8)) 0 20
      let n := n % 0x10_0000
      decide (bit w0 31 = true) &&
      decide (n < lines) && (
        let map := wd (0x8000_0000 + bits w0 20 2 * 0x10_0000 + (bits w0 0 20 + n) % 0x10_0000)
        decide (Cx.fits { y with s := (y.s.winDrop d k i.w none).winMap d k i.w map ((lines - n) * 64) } d k 3 (i.next pc)))
    | _ => false)
  | _ => false)

def hyp_EngineWindowsAndWaits_7 (d : Die) (k : Fin 24) (s : State) : Bool :=
  let x := s.ceCx d k
  let pc := s.cePc d k
  (match rdSt s d k 0x56 with
  | some (i, _) =>
    decide (x.s.flag (R.CE_STAT d k) 5 = false) &&
    decide (Cx.fits { x with s := x.s.winDrop d k i.w none } d k 2 (i.next pc))
  | _ => false)

def hyp_EngineWindowsAndWaits_8 (d : Die) (k : Fin 24) (s : State) : Bool :=
  let x := s.ceCx d k
  let pc := s.cePc d k
  (match rdSt s d k 0x57 with
  | some (i, _) =>
    decide ((x.s.ceOf d k).posted = []) &&
    decide (x.s.flag (R.CE_STAT d k) 5 = false) &&
    decide (Cx.fits x d k 1 (i.next pc))
  | _ => false)

def hyp_EngineWindowsAndWaits_9 (d : Die) (k : Fin 24) (s : State) : Bool :=
  let x := s.ceCx d k
  (match rdSt s d k 0x57 with
  | some (i, _) =>
    decide ((x.s.ceOf d k).posted ≠ []) &&
    decide ((Cx.pre x).ceBeyond d k (Cx.cost x) = false)
  | _ => false)

def hyp_EngineWindowsAndWaits_10 (d : Die) (k : Fin 24) (s : State) : Bool :=
  let x := s.ceCx d k
  (List.any ([0x54, 0x55, 0x56]) fun op =>
    (match rdSt s d k op with
    | some (i, w0) =>
      decide (i.op = op) &&
      decide (x.s.flag (R.CE_STAT d k) 5 = true)
    | _ => false))

theorem test_hyps_EngineWindowsAndWaits : (
    hyp_EngineWindowsAndWaits_0 (.d0) (3) (tCeX {} (tCe [0xa602607, 0x0] [0x0, 0x10000, 0x10040, 0x10004, 0x10006, 0x0, 0x0, 0x0] [(R.CE_WIN_MAP .d0 3 0, 0x80200000), (R.CE_WIN_MAP .d0 3 1, 0x80200040), (R.CE_WIN_MAP .d0 3 2, 0x80200080)] [])) &&
    hyp_EngineWindowsAndWaits_1 (.d0) (3) (tCeX {} (tCe [0xb602607, 0x7] [0x0, 0x10000, 0x10040, 0x10004, 0x10006, 0x0, 0x0, 0x0] [(R.CE_WIN_MAP .d0 3 0, 0x80200000), (R.CE_WIN_MAP .d0 3 1, 0x80200040), (R.CE_WIN_MAP .d0 3 2, 0x80200080)] [])) &&
    hyp_EngineWindowsAndWaits_2 (.d0) (3) (tCe [0xa50] [0x0, 0x0, 0x0] [] []) &&
    hyp_EngineWindowsAndWaits_3 (.d0) (3) (tCe [0x951] [0x0, 0x0, 0x1] [(R.CE_EVT .d0 3, 1)] []) &&
    hyp_EngineWindowsAndWaits_4 (.d0) (3) (tCe [0x951] [0x0, 0x0, 0x0] [(R.CE_EVT .d0 3, 0)] []) &&
    hyp_EngineWindowsAndWaits_5 (.d0) (3) (tCeX {taken := [(1, 0x55, 100), (0, 0x44, 60)]} (tCe [0x2a54] [0x0, 0x0, 0x10020] [(R.CE_STAT .d0 3, 0x4001), (R.CE_WIN_MAP .d0 3 1, 0x80600044), (R.CE_GRANT_W0 .d0 3 0 2, 0x803FFFFF), (R.CE_GRANT_W1 .d0 3 0 2, 9)] [(0x10024, 0x1c0055)])) &&
    hyp_EngineWindowsAndWaits_6 (.d0) (3) (tCeX {taken := [(1, 0x55, 100), (0, 0x44, 60)]} (tCe [0x60a55] [0x0, 0x0, 0x2, 0x0] [(R.CE_STAT .d0 3, 0x4001), (R.CE_WIN_MAP .d0 3 1, 0x80600044), (R.CE_GRANT_W0 .d0 3 0 2, 0x803FFFFF), (R.CE_GRANT_W1 .d0 3 0 2, 9)] [])) &&
    hyp_EngineWindowsAndWaits_7 (.d0) (3) (tCeX {taken := [(1, 0x55, 100), (0, 0x44, 60)]} (tCe [0x56] [] [(R.CE_STAT .d0 3, 0x4001), (R.CE_WIN_MAP .d0 3 1, 0x80600044), (R.CE_GRANT_W0 .d0 3 0 2, 0x803FFFFF), (R.CE_GRANT_W1 .d0 3 0 2, 9)] [])) &&
    hyp_EngineWindowsAndWaits_8 (.d0) (3) (tCeX {taken := [(1, 0x55, 100), (0, 0x44, 60)]} (tCe [0x57] [] [(R.CE_STAT .d0 3, 0x4001), (R.CE_WIN_MAP .d0 3 1, 0x80600044), (R.CE_GRANT_W0 .d0 3 0 2, 0x803FFFFF), (R.CE_GRANT_W1 .d0 3 0 2, 9)] [])) &&
    hyp_EngineWindowsAndWaits_9 (.d0) (3) (tCeX {taken := [(1, 0x55, 100), (0, 0x44, 60)], posted := [(0x40, List.replicate 64 none)]} (tCe [0x57] [] [(R.CE_STAT .d0 3, 0x4001), (R.CE_WIN_MAP .d0 3 1, 0x80600044), (R.CE_GRANT_W0 .d0 3 0 2, 0x803FFFFF), (R.CE_GRANT_W1 .d0 3 0 2, 9)] [])) &&
    hyp_EngineWindowsAndWaits_10 (.d0) (3) (tCeX {taken := [(1, 0x55, 100), (0, 0x44, 60)]} (tCe [0x56] [] [(R.CE_STAT .d0 3, 0x4021), (R.CE_WIN_MAP .d0 3 1, 0x80600044), (R.CE_GRANT_W0 .d0 3 0 2, 0x803FFFFF), (R.CE_GRANT_W1 .d0 3 0 2, 9)] []))) = true := by decide +kernel

/-! ### EngineQueues -/

def hyp_EngineQueues_0 (d : Die) (k : Fin 24) (s : State) : Bool :=
  let pc := s.cePc d k
  (match rdSt s d k 0x52 with
  | some (i, _) =>
    (match (s.ceCx d k).operands i with
    | (o1, o2, od, y) =>
      (match y.get o1 i.size with
      | .ok q x₁ =>
        (match x₁.s.slotIntent d k (x₁.s.ceSlot d k) with
        | some (n, p) =>
          decide (queueBound n (q % 32) = true) &&
          (match x₁.workAt od 32 with
          | .ok a =>
            (match x₁.s.queueTake d k n (q % 32) with
            | (some ws, t) =>
              decide (Cx.fits { x₁ with s := t.setWorkWords d k a ws } d k 12 (i.next pc))
            | _ => false)
          | _ => false)
        | _ => false)
      | _ => false))
  | _ => false)

def hyp_EngineQueues_1 (d : Die) (k : Fin 24) (s : State) : Bool :=
  let pc := s.cePc d k
  (match rdSt s d k 0x52 with
  | some (i, _) =>
    (match (s.ceCx d k).operands i with
    | (o1, o2, od, y) =>
      (match y.get o1 i.size with
      | .ok q x₁ =>
        (match x₁.s.slotIntent d k (x₁.s.ceSlot d k) with
        | some (n, p) =>
          decide (queueBound n (q % 32) = true) &&
          (match x₁.workAt od 32 with
          | .ok a =>
            (match x₁.s.queueTake d k n (q % 32) with
            | (none, t) =>
              decide (Cx.fits { x₁ with s := t } d k 12 (i.next pc))
            | _ => false)
          | _ => false)
        | _ => false)
      | _ => false))
  | _ => false)

def hyp_EngineQueues_2 (d : Die) (k : Fin 24) (s : State) : Bool :=
  let pc := s.cePc d k
  (match rdSt s d k 0x53 with
  | some (i, _) =>
    (match (s.ceCx d k).operands i with
    | (o1, o2, od, y) =>
      (match y.get o1 i.size with
      | .ok q x₁ =>
        (match x₁.s.slotIntent d k (x₁.s.ceSlot d k) with
        | some (n, p) =>
          decide (queueBound n (q % 32) = true) &&
          (match x₁.workAt o2 32 with
          | .ok a =>
            (match x₁.s.workWords d k a 8 with
            | (.ok ws, t) =>
              decide (q % 32 ≠ 1) &&
              decide (q % 32 ≠ 3) &&
              decide (Cx.fits { x₁ with s := t, pre := t } d k 12 (i.next pc))
            | _ => false)
          | _ => false)
        | _ => false)
      | _ => false))
  | _ => false)

def hyp_EngineQueues_3 (d : Die) (k : Fin 24) (s : State) : Bool :=
  let pc := s.cePc d k
  (match rdSt s d k 0x53 with
  | some (i, _) =>
    (match (s.ceCx d k).operands i with
    | (o1, o2, od, y) =>
      (match y.get o1 i.size with
      | .ok q x₁ =>
        (match x₁.s.slotIntent d k (x₁.s.ceSlot d k) with
        | some (n, p) =>
          decide (queueBound n (q % 32) = true) &&
          (match x₁.workAt o2 32 with
          | .ok a =>
            (match x₁.s.workWords d k a 8 with
            | (.ok ws, t) =>
              let slot := x₁.s.ceSlot d k
              let keep := t.recordOutput d k slot (q % 32) (t.putRecord d k (q % 32) ws)
              decide (q % 32 = 1) &&
              decide (t.ceShadow d k = true) &&
              decide (Cx.fits { x₁ with s := keep, pre := t } d k 12 (i.next pc))
            | _ => false)
          | _ => false)
        | _ => false)
      | _ => false))
  | _ => false)

def hyp_EngineQueues_4 (d : Die) (k : Fin 24) (s : State) : Bool :=
  let pc := s.cePc d k
  (match rdSt s d k 0x53 with
  | some (i, _) =>
    (match (s.ceCx d k).operands i with
    | (o1, o2, od, y) =>
      (match y.get o1 i.size with
      | .ok q x₁ =>
        (match x₁.s.slotIntent d k (x₁.s.ceSlot d k) with
        | some (n, p) =>
          decide (queueBound n (q % 32) = true) &&
          (match x₁.workAt o2 32 with
          | .ok a =>
            (match x₁.s.workWords d k a 8 with
            | (.ok ws, t) =>
              decide (q % 32 = 1) &&
              decide (t.ceShadow d k = false) &&
              decide (p.tags ≤ (t.iqOf n.handle).used) &&
              decide (Cx.fits { x₁ with s := t, pre := t } d k 12 (i.next pc))
            | _ => false)
          | _ => false)
        | _ => false)
      | _ => false))
  | _ => false)

def hyp_EngineQueues_5 (d : Die) (k : Fin 24) (s : State) : Bool :=
  let pc := s.cePc d k
  (match rdSt s d k 0x53 with
  | some (i, _) =>
    (match (s.ceCx d k).operands i with
    | (o1, o2, od, y) =>
      (match y.get o1 i.size with
      | .ok q x₁ =>
        (match x₁.s.slotIntent d k (x₁.s.ceSlot d k) with
        | some (n, p) =>
          decide (queueBound n (q % 32) = true) &&
          (match x₁.workAt o2 32 with
          | .ok a =>
            (match x₁.s.workWords d k a 8 with
            | (.ok ws, t) =>
              let slot := x₁.s.ceSlot d k
              let keep := t.recordOutput d k slot (q % 32) (t.putRecord d k (q % 32) ws)
              let epoch := t.fld (R.CE_SLOT_W6 d k slot) 0 16
              decide (q % 32 = 1) &&
              decide (t.ceShadow d k = false) &&
              decide ((t.iqOf n.handle).used < p.tags) &&
              decide (Cx.fits { x₁ with s := (keep.txAccept d k n epoch ws), pre := t } d k 12 (i.next pc))
            | _ => false)
          | _ => false)
        | _ => false)
      | _ => false))
  | _ => false)

def hyp_EngineQueues_6 (d : Die) (k : Fin 24) (s : State) : Bool :=
  let pc := s.cePc d k
  (match rdSt s d k 0x53 with
  | some (i, _) =>
    (match (s.ceCx d k).operands i with
    | (o1, o2, od, y) =>
      (match y.get o1 i.size with
      | .ok q x₁ =>
        (match x₁.s.slotIntent d k (x₁.s.ceSlot d k) with
        | some (n, p) =>
          decide (queueBound n (q % 32) = true) &&
          (match x₁.workAt o2 32 with
          | .ok a =>
            (match x₁.s.workWords d k a 8 with
            | (.ok ws, t) =>
              let slot := x₁.s.ceSlot d k
              let epoch := t.fld (R.CE_SLOT_W6 d k slot) 0 16
              decide (q % 32 = 3) &&
              decide (t.flowBetween n.handle (ws.getD 0 0).toNat = true) &&
              decide (t.ceShadow d k = false) &&
              decide (epoch ≠ n.epoch) &&
              decide (Cx.fits { x₁ with s := (t.fenceDiscard d 2 k 1), pre := t } d k 12 (i.next pc))
            | _ => false)
          | _ => false)
        | _ => false)
      | _ => false))
  | _ => false)

def hyp_EngineQueues_7 (d : Die) (k : Fin 24) (s : State) : Bool :=
  (match rdSt s d k 0x53 with
  | some (i, _) =>
    (match (s.ceCx d k).operands i with
    | (o1, o2, od, y) =>
      (match y.get o1 i.size with
      | .ok q x₁ =>
        (match x₁.s.slotIntent d k (x₁.s.ceSlot d k) with
        | some (n, p) =>
          decide (queueBound n (q % 32) = true) &&
          (match x₁.workAt o2 32 with
          | .ok a =>
            (match x₁.s.workWords d k a 8 with
            | (.ok ws, t) =>
              let slot := x₁.s.ceSlot d k
              let epoch := t.fld (R.CE_SLOT_W6 d k slot) 0 16
              decide (q % 32 = 3) &&
              decide (t.flowBetween n.handle (ws.getD 0 0).toNat = true) &&
              decide (t.ceShadow d k = false) &&
              decide (epoch = n.epoch)
            | _ => false)
          | _ => false)
        | _ => false)
      | _ => false))
  | _ => false)

def hyp_EngineQueues_8 (d : Die) (k : Fin 24) (s : State) : Bool :=
  (List.any ([0x52, 0x53]) fun op =>
    (match rdSt s d k op with
    | some (i, w0) =>
      decide (i.op = op) &&
      (match (s.ceCx d k).operands i with
      | (o1, o2, od, y) =>
        (match y.get o1 i.size with
        | .ok q x₁ =>
          (match x₁.s.slotIntent d k (x₁.s.ceSlot d k) with
          | some (n, p) =>
            decide (queueBound n (q % 32) = false)
          | _ => false)
        | _ => false))
    | _ => false))

theorem test_hyps_EngineQueues : (
    hyp_EngineQueues_0 (.d0) (3) (((tCeI (tm (tCe [0xb000a52] [0x0, 0x0, 0x0, 0x10040] [(R.CE_SLOT_W6 .d0 3 0, 0x1)] []) [(0x1000, 5)]) (fun i => {i with tgt := none}))).setIq 1 {rx := [[wd 0x4064, wd 0x55, 1,2,3,4,5,6, wd 1]], done := [[7,7,7,7,1,2,3,4]], sigin := [[2,8,8,8,8,8,8,8]]}) &&
    hyp_EngineQueues_1 (.d0) (3) (((tCeI (tm (tCe [0xb000a52] [0x0, 0x0, 0x0, 0x10040] [(R.CE_SLOT_W6 .d0 3 0, 0x1)] []) [(0x1000, 5)]) (fun i => {i with tgt := none}))).setIq 1 {}) &&
    hyp_EngineQueues_2 (.d0) (3) (((tCeI (tm (tCe [0x160a53] [0x0, 0x0, 0x0, 0x10040] [(R.CE_SLOT_W6 .d0 3 0, 0x1)] []) [(0x1000, 5)]) (fun i => {i with tgt := none}))).setIq 1 {}) &&
    hyp_EngineQueues_3 (.d0) (3) (((tCeI (tm (tCe [0x160a53] [0x0, 0x0, 0x1, 0x10040] [(R.CE_SLOT_W6 .d0 3 0, 0x800001)] [(0x10040, 0x1004040), (0x10044, 0x10300000), (0x10048,0)]) [(0x1000, 5)]) (fun i => {i with tgt := some {st := 3, ce := 9}}))).setIq 1 {rx := [[wd 0x4064, wd 0x55, 1,2,3,4,5,6, wd 1], [wd 0x4064, wd 0x55, 1,2,3,4,5,6, wd 1]], liveRx := 1, shRx := 0, liveSig := 0, shSig := 0, sigin := [[2,8,8,8,8,8,8,8]]}) &&
    hyp_EngineQueues_4 (.d0) (3) (((tCeI (tm (tCe [0x160a53] [0x0, 0x0, 0x1, 0x10040] [(R.CE_SLOT_W6 .d0 3 0, 0x1)] [(0x10040, 0x1004040), (0x10044, 0x10300000), (0x10048,0)]) [(0x1000, 5)]) (fun i => {i with tgt := none}))).setIq 1 {used := 2}) &&
    hyp_EngineQueues_5 (.d0) (3) (((tCeI (tm (tCe [0x160a53] [0x0, 0x0, 0x1, 0x10040] [(R.CE_SLOT_W6 .d0 3 0, 0x1)] [(0x10040, 0x1004040), (0x10044, 0x10300000), (0x10048,0)]) [(0x1000, 5)]) (fun i => {i with tgt := none}))).setIq 1 {}) &&
    hyp_EngineQueues_6 (.d0) (3) (((((tCeI (tm (tCe [0x160a53] [0x0, 0x0, 0x3, 0x10040] [(R.CE_SLOT_W6 .d0 3 0, 0x2)] [(0x10040, 2), (0x10044, 0x77)]) [(0x1000, 5)]) (fun i => {i with tgt := none}))).setIq 1 {used := 1}).setIntent 2 {handle := 2, held := true, cur := some {st := 4, ce := 8, tags := 1}}).setIntent 0x40000001 {handle := 0x40000001, held := true, cur := some {st := 4}, record := [1,2,3]}) &&
    hyp_EngineQueues_7 (.d0) (3) (((((tCeI (tm (tCe [0x160a53] [0x0, 0x0, 0x3, 0x10040] [(R.CE_SLOT_W6 .d0 3 0, 0x1)] [(0x10040, 2), (0x10044, 0x77)]) [(0x1000, 5)]) (fun i => {i with tgt := none}))).setIq 1 {}).setIntent 2 {handle := 2, held := true, cur := some {st := 4, ce := 8, tags := 1}}).setIntent 0x40000001 {handle := 0x40000001, held := true, cur := some {st := 4}, record := [1,2,3]}) &&
    hyp_EngineQueues_8 (.d0) (3) ((tCeI (tCe [0xb000a52] [0x0, 0x0, 0x20, 0x10040] [] [(0x28, 0x300)]) (fun i => {i with qmask := 0})))) = true := by decide +kernel

/-! ### DispatchTakesTheEarliestDeadline, its part EarliestDeadlineIsDispatched -/

def hyp_EarliestDeadlineIsDispatched_0 (d : Die) (k : Fin 24) (s : State) : Bool :=
  (match s.cePick d k with
  | some n =>
    true
  | _ => false)

def hyp_EarliestDeadlineIsDispatched_1 (d : Die) (k : Fin 24) (s : State) : Bool :=
  let pend_ (n : Nat) : Bool := decide (n < 63 ∧ s.flag (pendReg d k n) (n % 32) = true)
  (match s.cePick d k with
  | some n =>
    (List.any ([7, 62]) fun m =>
      decide (pend_ m))
  | _ => false)

theorem test_hyps_EarliestDeadlineIsDispatched : (
    hyp_EarliestDeadlineIsDispatched_0 (.d0) (3) ({tw tUp [(R.CE_PEND_LO .d0 3, 0xff), (R.CE_PEND_HI .d0 3, 0x7fffffff)] with ceDeadline := [(slotKey .d0 3 0+7,5),(slotKey .d0 3 0+33,4),(slotKey .d0 3 0+62,4)]}) &&
    hyp_EarliestDeadlineIsDispatched_1 (.d0) (3) ({tw tUp [(R.CE_PEND_LO .d0 3, 0xff), (R.CE_PEND_HI .d0 3, 0x7fffffff)] with ceDeadline := [(slotKey .d0 3 0+7,5),(slotKey .d0 3 0+33,4),(slotKey .d0 3 0+62,4)]})) = true := by decide +kernel

/-! ### DispatchTakesTheEarliestDeadline, its part DispatchSetsTheCycleUp -/

def hyp_DispatchSetsTheCycleUp_0 (d : Die) (k : Fin 24) (flips : List (Nat × Bool)) (s : State) (n : Nat) : Bool :=
  let u := s.ceStrike d k flips
  decide (u.ceState d k = 0) &&
  decide (u.cePick d k = some n)

theorem test_hyps_DispatchSetsTheCycleUp : (
    hyp_DispatchSetsTheCycleUp_0 (.d0) (3) ([(0x10000,false),(0x10000,true),(0x20,false)]) (tCe [0x48] [0x9, 0xa, 0xb, 0xc, 0xd, 0xe, 0xf, 0x10] [(R.CE_STAT .d0 3, 0), (R.CE_PEND_LO .d0 3, 0x1), (R.CE_PEND_HI .d0 3, 0x0), (R.CE_SLOT_W0 .d0 3 0, 0x80000080), (R.CE_SLOT_W1 .d0 3 0, 0x400000), (R.CE_SLOT_W2 .d0 3 0, 0x40), (R.CE_SLOT_W3 .d0 3 0, 0x1000), (R.CE_FLAGS .d0 3, 31), (R.CE_CYC_USED .d0 3, 9)] []) (0)) = true := by decide +kernel

/-! ### EngineCycleEvents, its part AbortEndsTheCycle -/

def hyp_AbortEndsTheCycle_0 (d : Die) (k : Fin 24) (s : State) : Bool :=
  decide ((s.ceOf d k).posted = [])

theorem test_hyps_AbortEndsTheCycle : (
    hyp_AbortEndsTheCycle_0 (.d0) (3) (tCeX {stall := 3, halt := true, line := 8, taken := [(0,3,4),(1,5,6)]} (tCe [0x48] [] [(R.CE_STAT .d0 3, 0x4025), (R.CE_SLOT_W26 .d0 3 0, 0x70000), (R.CE_CNT_ABORT .d0 3, 0xffff0000)] []))) = true := by decide +kernel

/-! ### EngineCycleEvents, its part EngineCycleEvents -/

def hyp_EngineCycleEvents_0 (d : Die) (k : Fin 24) (n : Nat) (s : State) : Bool :=
  decide (s.ceState d k = 1) &&
  decide (s.ceLive d k = true) &&
  decide (s.ceLimit d k ≠ 0) &&
  decide (s.ceLimit d k ≤ s.ceUsed d k + n)

def hyp_EngineCycleEvents_1 (d : Die) (k : Fin 24) (n : Nat) (s : State) : Bool :=
  let c := s.ceOf d k
  let u := s.ceStalled d k n
  decide (s.ceState d k = 1) &&
  decide (1 ≤ c.stall) &&
  decide (c.stall ≤ 3) &&
  decide (u.ceAtLimit d k = true)

def hyp_EngineCycleEvents_2 (d : Die) (k : Fin 24) (n : Nat) (s : State) : Bool :=
  let c := s.ceOf d k
  let u := s.ceStalled d k n
  decide (s.ceState d k = 1) &&
  decide (1 ≤ c.stall) &&
  decide (c.stall ≤ 3) &&
  decide (u.ceAtLimit d k = false) &&
  (match u.ceFetch d k (c.stall - 1) c.line with
  | (none, v) =>
    true
  | _ => false)

def hyp_EngineCycleEvents_3 (d : Die) (k : Fin 24) (n : Nat) (s : State) : Bool :=
  let c := s.ceOf d k
  let u := s.ceStalled d k n
  decide (s.ceState d k = 1) &&
  decide (1 ≤ c.stall) &&
  decide (c.stall ≤ 3) &&
  decide (u.ceAtLimit d k = false) &&
  (match u.ceFetch d k (c.stall - 1) c.line with
  | (some cause, v) =>
    true
  | _ => false)

def hyp_EngineCycleEvents_4 (d : Die) (k : Fin 24) (s : State) : Bool :=
  let c := s.ceOf d k
  (match c.posted with
  | p :: rest =>
    decide (c.stall ≠ 6 ∨ rest ≠ [])
  | _ => false)

def hyp_EngineCycleEvents_5 (d : Die) (k : Fin 24) (s : State) : Bool :=
  let c := s.ceOf d k
  (match c.posted with
  | [p] =>
    decide (c.stall = 6)
  | _ => false)

def hyp_EngineCycleEvents_6 (d : Die) (k : Fin 24) (s : State) : Bool :=
  let c := s.ceOf d k
  decide (s.ceState d k = 1) &&
  decide (c.stall = 5) &&
  decide (s.fld (R.CE_EVT d k) 0 8 &&& c.mask ≠ 0)

def hyp_EngineCycleEvents_7 (d : Die) (k : Fin 24) (n : Nat) (s : State) : Bool :=
  let c := s.ceOf d k
  let u := s.ceStalled d k n
  decide (s.ceState d k = 1) &&
  decide (c.stall = 7) &&
  decide (c.posted = []) &&
  decide (u.ceLimit d k = 0 ∨ u.ceUsed d k ≤ u.ceLimit d k) &&
  decide (u.flag (R.CE_STAT d k) 5 = false) &&
  decide (c.lost = false) &&
  decide ((match u.slotIntent d k (u.ceSlot d k) with | none => true | some (i, p) => (u.ceHeader d k i p (wd c.mask)).1) = true)

def hyp_EngineCycleEvents_8 (d : Die) (k : Fin 24) (n : Nat) (s : State) : Bool :=
  let c := s.ceOf d k
  let u := s.ceStalled d k n
  decide (s.ceState d k = 1) &&
  decide (c.stall = 7) &&
  decide (c.posted = []) &&
  decide (u.ceLimit d k = 0 ∨ u.ceUsed d k ≤ u.ceLimit d k) &&
  decide (u.flag (R.CE_STAT d k) 5 = true)

theorem test_hyps_EngineCycleEvents : (
    hyp_EngineCycleEvents_0 (.d0) (3) (5) (tCeX {lens := [0x1000,0x1000,0x1000], stall := 5, line := 0, off := 0x44, mask := 1, posted := [(0x40, List.replicate 64 (some 7))]} (tCe [0xa51] [0x0, 0x0, 0x1] [(R.CE_SLOT_W4 .d0 3 0, 6), (R.CE_CYC_USED .d0 3, 4), (R.CE_WIN_MAP .d0 3 0, 0x80200000), (R.CE_WIN_MAP .d0 3 1, 0x80200040), (R.CE_WIN_MAP .d0 3 2, 0x80300040), (R.CE_EVT .d0 3, 3)] [])) &&
    hyp_EngineCycleEvents_1 (.d0) (3) (5) (tCeX {lens := [0x1000,0x1000,0x1000], stall := 1, line := 0x40, off := 0x44, mask := 1, posted := []} (tCe [0x1010201, 0x44] [0x0, 0x0, 0x1] [(R.CE_SLOT_W4 .d0 3 0, 1), (R.CE_CYC_USED .d0 3, 4), (R.CE_WIN_MAP .d0 3 0, 0x80200000), (R.CE_WIN_MAP .d0 3 1, 0x80200040), (R.CE_WIN_MAP .d0 3 2, 0x80300040), (R.CE_EVT .d0 3, 3)] [])) &&
    hyp_EngineCycleEvents_2 (.d0) (3) (5) (tCeX {lens := [0x1000,0x1000,0x1000], stall := 1, line := 0x40, off := 0x44, mask := 1, posted := []} (tCe [0x1010201, 0x44] [0x0, 0x0, 0x1] [(R.CE_SLOT_W4 .d0 3 0, 6), (R.CE_CYC_USED .d0 3, 0), (R.CE_WIN_MAP .d0 3 0, 0x80200000), (R.CE_WIN_MAP .d0 3 1, 0x80200040), (R.CE_WIN_MAP .d0 3 2, 0x80300040), (R.CE_EVT .d0 3, 3)] [])) &&
    hyp_EngineCycleEvents_3 (.d0) (3) (5) (tw (tCeX {lens := [0x1000,0x1000,0x1000], stall := 1, line := 0x40, off := 0x44, mask := 1, posted := []} (tCe [0x1010201, 0x44] [0x0, 0x0, 0x1] [(R.CE_SLOT_W4 .d0 3 0, 0), (R.CE_CYC_USED .d0 3, 0), (R.CE_WIN_MAP .d0 3 0, 0x80200000), (R.CE_WIN_MAP .d0 3 1, 0x80200040), (R.CE_WIN_MAP .d0 3 2, 0x80300040), (R.CE_EVT .d0 3, 3)] [])) [(R.PWR_STAT .d0, 0x4)]) &&
    hyp_EngineCycleEvents_4 (.d0) (3) (tCeX {lens := [0x1000,0x1000,0x1000], stall := 5, line := 0, off := 0x44, mask := 1, posted := [(0x40, List.replicate 64 (some 7))]} (tCe [0xa51] [0x0, 0x0, 0x1] [(R.CE_SLOT_W4 .d0 3 0, 6), (R.CE_CYC_USED .d0 3, 4), (R.CE_WIN_MAP .d0 3 0, 0x80200000), (R.CE_WIN_MAP .d0 3 1, 0x80200040), (R.CE_WIN_MAP .d0 3 2, 0x80300040), (R.CE_EVT .d0 3, 3)] [])) &&
    hyp_EngineCycleEvents_5 (.d0) (3) (tCeX {lens := [0x1000,0x1000,0x1000], stall := 6, line := 0, off := 0x44, mask := 1, posted := [(0x40, List.replicate 64 (some 7))]} (tCe [0x57] [0x0, 0x0, 0x1] [(R.CE_SLOT_W4 .d0 3 0, 1), (R.CE_CYC_USED .d0 3, 0), (R.CE_WIN_MAP .d0 3 0, 0x80200000), (R.CE_WIN_MAP .d0 3 1, 0x80200040), (R.CE_WIN_MAP .d0 3 2, 0x80300040), (R.CE_EVT .d0 3, 3)] [])) &&
    hyp_EngineCycleEvents_6 (.d0) (3) (tCeX {lens := [0x1000,0x1000,0x1000], stall := 5, line := 0, off := 0x44, mask := 1, posted := [(0x40, List.replicate 64 (some 7))]} (tCe [0xa51] [0x0, 0x0, 0x1] [(R.CE_SLOT_W4 .d0 3 0, 6), (R.CE_CYC_USED .d0 3, 4), (R.CE_WIN_MAP .d0 3 0, 0x80200000), (R.CE_WIN_MAP .d0 3 1, 0x80200040), (R.CE_WIN_MAP .d0 3 2, 0x80300040), (R.CE_EVT .d0 3, 3)] [])) &&
    hyp_EngineCycleEvents_7 (.d0) (3) (5) (tCeX {lens := [0x1000,0x1000,0x1000], stall := 7, line := 0, off := 0x44, mask := 1, posted := []} (tCe [0xa50] [0x0, 0x0, 0x1] [(R.CE_SLOT_W4 .d0 3 0, 0), (R.CE_CYC_USED .d0 3, 0), (R.CE_WIN_MAP .d0 3 0, 0x80200000), (R.CE_WIN_MAP .d0 3 1, 0x80200040), (R.CE_WIN_MAP .d0 3 2, 0x80300040), (R.CE_EVT .d0 3, 3)] [])) &&
    hyp_EngineCycleEvents_8 (.d0) (3) (5) ((tw (tCeX {lens := [0x1000,0x1000,0x1000], stall := 7, mask := 0x30055} (tCeI (tCeX {lens := [0x1000,0x1000,0x1000], stall := 7, line := 0, off := 0x44, mask := 1, posted := []} (tCe [0xa50] [0x0, 0x0, 0x1] [(R.CE_SLOT_W4 .d0 3 0, 0), (R.CE_CYC_USED .d0 3, 4), (R.CE_WIN_MAP .d0 3 0, 0x80200000), (R.CE_WIN_MAP .d0 3 1, 0x80200040), (R.CE_WIN_MAP .d0 3 2, 0x80300040), (R.CE_EVT .d0 3, 3)] [])))) [(R.CE_STAT .d0 3, 0x4021), (R.CE_WIN_MAP .d0 3 0, 0x80200000), (R.SYS_DLY_STAT .d0, 15)]))) = true := by decide +kernel

/-! ### EngineExceptionsAndNesting, its part EngineExceptionEntry -/

def hyp_EngineExceptionEntry_0 (d : Die) (k : Fin 24) (s : State) (cause : Nat) (pc : Nat) : Bool :=
  let at_ := s.ceCodeAddr d k (4 * cause)
  let v := ofLe (s.load at_ 4)
  let sp := (s.getReg (R.CE_SP d k)).toNat
  decide (s.ceNested d k = false) &&
  decide (4 * cause + 4 ≤ s.ceClen d k) &&
  decide (s.localEcc at_ = 0) &&
  decide (pc < 0x1_0000) &&
  decide (cause < 32) &&
  decide (v ≠ 0) &&
  decide (sp % 4 = 0) &&
  decide (sp ≤ (s.getReg (R.CE_SP_HI d k)).toNat) &&
  decide ((s.getReg (R.CE_SP_LO d k)).toNat + 12 ≤ sp) &&
  decide (0x1_0000 ≤ (s.getReg (R.CE_SP_LO d k)).toNat) &&
  decide ((s.getReg (R.CE_SP_HI d k)).toNat ≤ 0x3_0000) &&
  decide (s.ceLimit d k = 0 ∨ s.ceUsed d k + 6 ≤ s.ceLimit d k)

def hyp_EngineExceptionEntry_1 (d : Die) (k : Fin 24) (s : State) (cause : Nat) (pc : Nat) : Bool :=
  let at_ := s.ceCodeAddr d k (4 * cause)
  let v := ofLe (s.load at_ 4)
  let sp := (s.getReg (R.CE_SP d k)).toNat
  let stack (a : Nat) : Nat := ceMemAddr d k a
  decide (s.ceNested d k = false) &&
  decide (4 * cause + 4 ≤ s.ceClen d k) &&
  decide (s.localEcc at_ = 0) &&
  decide (pc < 0x1_0000) &&
  decide (cause < 32) &&
  decide (v ≠ 0) &&
  decide (sp % 4 = 0) &&
  decide (sp ≤ (s.getReg (R.CE_SP_HI d k)).toNat) &&
  decide ((s.getReg (R.CE_SP_LO d k)).toNat + 12 ≤ sp) &&
  decide (0x1_0000 ≤ (s.getReg (R.CE_SP_LO d k)).toNat) &&
  decide ((s.getReg (R.CE_SP_HI d k)).toNat ≤ 0x3_0000) &&
  decide (s.ceLimit d k = 0 ∨ s.ceUsed d k + 6 ≤ s.ceLimit d k) &&
  (List.any ([0]) fun a =>
    decide ((a < stack (sp - 12) ∨ stack sp ≤ a)))

def hyp_EngineExceptionEntry_2 (d : Die) (k : Fin 24) (s : State) (cause : Nat) (pc : Nat) : Bool :=
  let at_ := s.ceCodeAddr d k (4 * cause)
  let v := ofLe (s.load at_ 4)
  decide (s.ceNested d k = false) &&
  decide (4 * cause + 4 ≤ s.ceClen d k) &&
  decide (s.localEcc at_ = 0) &&
  decide (pc < 0x1_0000) &&
  decide (cause < 32) &&
  decide (v = 0) &&
  decide ((s.ceOf d k).posted = [])

theorem test_hyps_EngineExceptionEntry : (
    hyp_EngineExceptionEntry_0 (.d0) (3) (tCe [0x48] [] [(R.CE_SP .d0 3, 0x1f000), (R.CE_SLOT_W4 .d0 3 0, 0), (R.CE_FLAGS .d0 3, 0x1F)] [(0x14, 0x200), (0x4, 0x200)]) (5) (0x80) &&
    hyp_EngineExceptionEntry_1 (.d0) (3) (tCe [0x48] [] [(R.CE_SP .d0 3, 0x1f000), (R.CE_SLOT_W4 .d0 3 0, 0), (R.CE_FLAGS .d0 3, 0x1F)] [(0x14, 0x200), (0x4, 0x200)]) (5) (0x80) &&
    hyp_EngineExceptionEntry_2 (.d0) (3) (tCe [0x48] [] [(R.CE_SP .d0 3, 0x1f002), (R.CE_SLOT_W4 .d0 3 0, 5), (R.CE_FLAGS .d0 3, 0x1F)] [(0x14, 0x0), (0x4, 0x0)]) (5) (0x80)) = true := by decide +kernel

/-! ### EngineExceptionsAndNesting, its part EngineFaultStackEntry -/

def hyp_EngineFaultStackEntry_0 (d : Die) (k : Fin 24) (s : State) (cause : Nat) : Bool :=
  let code (a : Nat) : Nat := s.ceCodeAddr d k a
  let sp := (s.getReg (R.CE_SP d k)).toNat
  decide (s.ceNested d k = false) &&
  decide (4 * cause + 4 ≤ s.ceClen d k) &&
  decide (52 ≤ s.ceClen d k) &&
  decide (s.localEcc (code (4 * cause)) = 0) &&
  decide (s.localEcc (code 48) = 0) &&
  decide (ofLe (s.load (code (4 * cause)) 4) ≠ 0) &&
  decide (ofLe (s.load (code 48) 4) ≠ 0) &&
  decide (¬(sp % 4 = 0 ∧ sp ≤ (s.getReg (R.CE_SP_HI d k)).toNat ∧ (s.getReg (R.CE_SP_LO d k)).toNat + 12 ≤ sp)) &&
  decide (s.ceLimit d k = 0 ∨ s.ceUsed d k + 4 ≤ s.ceLimit d k)

theorem test_hyps_EngineFaultStackEntry : (
    hyp_EngineFaultStackEntry_0 (.d0) (3) (tCe [0x48] [] [(R.CE_SP .d0 3, 0x0), (R.CE_SLOT_W4 .d0 3 0, 0), (R.CE_FLAGS .d0 3, 0x1F)] [(0x4, 0x10200), (48, 0x20088)]) (1)) = true := by decide +kernel

/-! ### EngineExceptionsAndNesting, its part NestedExceptionHaltsTheEngine -/

def hyp_NestedExceptionHaltsTheEngine_0 (d : Die) (k : Fin 24) (s : State) : Bool :=
  decide (s.ceNested d k = true) &&
  decide ((s.hunit d 2 k).st ≠ 4)

def hyp_NestedExceptionHaltsTheEngine_1 (d : Die) (k : Fin 24) (s : State) : Bool :=
  decide (s.ceNested d k = true) &&
  decide ((s.hunit d 2 k).st ≠ 4) &&
  (List.any ((List.range (8)).reverse) fun j =>
    true)

theorem test_hyps_NestedExceptionHaltsTheEngine : (
    hyp_NestedExceptionHaltsTheEngine_0 (.d0) (3) (tCe [0x48] [] [(R.CE_STAT .d0 3, 0x4005), (R.CE_FS .d0 3 2, 7)] []) &&
    hyp_NestedExceptionHaltsTheEngine_1 (.d0) (3) (tCe [0x48] [] [(R.CE_STAT .d0 3, 0x4005), (R.CE_FS .d0 3 2, 7)] [])) = true := by decide +kernel

/-! ### EngineHaltRunStepReset -/

def hyp_EngineHaltRunStepReset_0 (d : Die) (e : Die) (k : Fin 24) (p : Fin 2) (s : State) : Bool :=
  let who := Requester.sup e p
  decide (s.accepts who (R.CE_CTRL d k)) &&
  decide (s.ceState d k = 0) &&
  decide (s.ceLive d k = false)

def hyp_EngineHaltRunStepReset_1 (d : Die) (e : Die) (k : Fin 24) (p : Fin 2) (s : State) : Bool :=
  let who := Requester.sup e p
  decide (s.accepts who (R.CE_CTRL d k)) &&
  decide (s.ceState d k = 1) &&
  decide (s.ceLive d k = true) &&
  decide ((s.ceOf d k).stall = 0) &&
  decide (s.ceAtLimit d k = false)

def hyp_EngineHaltRunStepReset_2 (d : Die) (e : Die) (k : Fin 24) (p : Fin 2) (s : State) : Bool :=
  let who := Requester.sup e p
  decide (s.accepts who (R.CE_CTRL d k)) &&
  decide (s.ceState d k = 1) &&
  decide (s.ceLive d k = true) &&
  decide ((s.ceOf d k).stall ≠ 0)

def hyp_EngineHaltRunStepReset_3 (d : Die) (e : Die) (k : Fin 24) (p : Fin 2) (s : State) : Bool :=
  let who := Requester.sup e p
  let nested := s.flag (R.CE_HALT_CAUSE d k) 8
  decide (s.accepts who (R.CE_CTRL d k)) &&
  decide (s.ceState d k = 2) &&
  decide (nested = false) &&
  decide (s.ceLive d k = false)

def hyp_EngineHaltRunStepReset_4 (d : Die) (e : Die) (k : Fin 24) (p : Fin 2) (s : State) : Bool :=
  let who := Requester.sup e p
  let nested := s.flag (R.CE_HALT_CAUSE d k) 8
  decide (s.accepts who (R.CE_CTRL d k)) &&
  decide (s.ceState d k = 2) &&
  decide (nested = false) &&
  decide (s.ceLive d k = true)

def hyp_EngineHaltRunStepReset_5 (d : Die) (e : Die) (k : Fin 24) (p : Fin 2) (s : State) : Bool :=
  let who := Requester.sup e p
  let nested := s.flag (R.CE_HALT_CAUSE d k) 8
  decide (s.accepts who (R.CE_CTRL d k)) &&
  decide (s.ceState d k = 2) &&
  decide (nested = true)

def hyp_EngineHaltRunStepReset_6 (d : Die) (e : Die) (k : Fin 24) (p : Fin 2) (s : State) : Bool :=
  let who := Requester.sup e p
  decide (s.accepts who (R.CE_CTRL d k))

theorem test_hyps_EngineHaltRunStepReset : (
    hyp_EngineHaltRunStepReset_0 (.d0) (.d1) (3) (1) (tCe [0x48] [] [(R.CE_STAT .d0 3, 0)] []) &&
    hyp_EngineHaltRunStepReset_1 (.d0) (.d0) (3) (0) (tCeX {} (tCe [0x48] [0x1, 0x2, 0x3, 0x4, 0x5, 0x6, 0x7, 0x8] [(R.CE_STAT .d0 3, 0x4001), (R.CE_HALT_CAUSE .d0 3, 0), (R.CE_SLOT_W4 .d0 3 0, 0), (R.CE_CYC_USED .d0 3, 4), (R.CE_PEND_LO .d0 3, 5), (R.CE_SLOT_W0 .d0 3 0, 0x80000080), (R.CE_SLOT_W0 .d0 3 62, 0x80000080), (R.CE_WIN_MAP .d0 3 1, 0x80600044), (R.CE_FS .d0 3 7, 3)] [])) &&
    hyp_EngineHaltRunStepReset_2 (.d0) (.d0) (3) (0) (tCeX {stall := 5, mask := 4} (tCe [0x48] [0x1, 0x2, 0x3, 0x4, 0x5, 0x6, 0x7, 0x8] [(R.CE_STAT .d0 3, 0x4001), (R.CE_HALT_CAUSE .d0 3, 0), (R.CE_SLOT_W4 .d0 3 0, 0), (R.CE_CYC_USED .d0 3, 4), (R.CE_PEND_LO .d0 3, 5), (R.CE_SLOT_W0 .d0 3 0, 0x80000080), (R.CE_SLOT_W0 .d0 3 62, 0x80000080), (R.CE_WIN_MAP .d0 3 1, 0x80600044), (R.CE_FS .d0 3 7, 3)] [])) &&
    hyp_EngineHaltRunStepReset_3 (.d0) (.d0) (3) (0) (tCeX {} (tCe [0x48] [0x1, 0x2, 0x3, 0x4, 0x5, 0x6, 0x7, 0x8] [(R.CE_STAT .d0 3, 0x2), (R.CE_HALT_CAUSE .d0 3, 0), (R.CE_SLOT_W4 .d0 3 0, 0), (R.CE_CYC_USED .d0 3, 4), (R.CE_PEND_LO .d0 3, 5), (R.CE_SLOT_W0 .d0 3 0, 0x80000080), (R.CE_SLOT_W0 .d0 3 62, 0x80000080), (R.CE_WIN_MAP .d0 3 1, 0x80600044), (R.CE_FS .d0 3 7, 3)] [])) &&
    hyp_EngineHaltRunStepReset_4 (.d0) (.d0) (3) (0) (tCeX {} (tCe [0x48] [0x1, 0x2, 0x3, 0x4, 0x5, 0x6, 0x7, 0x8] [(R.CE_STAT .d0 3, 0x4002), (R.CE_HALT_CAUSE .d0 3, 0), (R.CE_SLOT_W4 .d0 3 0, 0), (R.CE_CYC_USED .d0 3, 4), (R.CE_PEND_LO .d0 3, 5), (R.CE_SLOT_W0 .d0 3 0, 0x80000080), (R.CE_SLOT_W0 .d0 3 62, 0x80000080), (R.CE_WIN_MAP .d0 3 1, 0x80600044), (R.CE_FS .d0 3 7, 3)] [])) &&
    hyp_EngineHaltRunStepReset_5 (.d0) (.d0) (3) (0) (tCeX {} (tCe [0x48] [0x1, 0x2, 0x3, 0x4, 0x5, 0x6, 0x7, 0x8] [(R.CE_STAT .d0 3, 0x2), (R.CE_HALT_CAUSE .d0 3, 259), (R.CE_SLOT_W4 .d0 3 0, 0), (R.CE_CYC_USED .d0 3, 4), (R.CE_PEND_LO .d0 3, 5), (R.CE_SLOT_W0 .d0 3 0, 0x80000080), (R.CE_SLOT_W0 .d0 3 62, 0x80000080), (R.CE_WIN_MAP .d0 3 1, 0x80600044), (R.CE_FS .d0 3 7, 3)] [])) &&
    hyp_EngineHaltRunStepReset_6 (.d0) (.d1) (3) (1) (tCe [0x48] [] [(R.CE_STAT .d0 3, 0)] [])) = true := by decide +kernel

/-! ### EngineRegisterFormFrame -/

def hyp_EngineRegisterFormFrame_0 (x : Cx) (od : Opnd) (size : Nat) (r : Nat) (old : Nat) : Bool :=
  decide ((match od with | .base _ => true | .sp => true | _ => false) = true) &&
  (match x.put od size r old with
  | .ok () y =>
    true
  | _ => false)

theorem test_hyps_EngineRegisterFormFrame : (
    hyp_EngineRegisterFormFrame_0 ({(tCe [0x48] [0x1, 0x2, 0x3, 0x4, 0x5, 0x6, 0x7, 0x8] [] []).cx .d0 3 with cost := 9}) (.sp) (1) (5) (0)) = true := by decide +kernel

/-! ### SupervisorArithmeticAndMoves, its part SupervisorArithmetic -/

def hyp_SupervisorArithmetic_0 (d : Die) (p : Fin 2) (s : State) : Bool :=
  (match rdSup s d p with
  | some (op, i, t) =>
    (match t.supOperand d p i 4 with
    | .ok v u =>
      decide (op = 0x01)
    | _ => false)
  | _ => false)

def hyp_SupervisorArithmetic_1 (d : Die) (p : Fin 2) (s : State) : Bool :=
  (match rdSup s d p with
  | some (op, i, t) =>
    (match t.supOperand d p i 4 with
    | .ok v u =>
      decide (op = 0x03)
    | _ => false)
  | _ => false)

def hyp_SupervisorArithmetic_2 (d : Die) (p : Fin 2) (s : State) : Bool :=
  (match rdSup s d p with
  | some (op, i, t) =>
    (match t.supOperand d p i 4 with
    | .ok v u =>
      decide (op = 0x05)
    | _ => false)
  | _ => false)

def hyp_SupervisorArithmetic_3 (d : Die) (p : Fin 2) (s : State) : Bool :=
  (match rdSup s d p with
  | some (op, i, t) =>
    (match t.supOperand d p i 4 with
    | .ok v u =>
      decide (op = 0x08)
    | _ => false)
  | _ => false)

def hyp_SupervisorArithmetic_4 (d : Die) (p : Fin 2) (s : State) : Bool :=
  (match rdSup s d p with
  | some (op, i, t) =>
    (match t.supOperand d p i 4 with
    | .ok v u =>
      decide (op = 0x09)
    | _ => false)
  | _ => false)

def hyp_SupervisorArithmetic_5 (d : Die) (p : Fin 2) (s : State) : Bool :=
  (match rdSup s d p with
  | some (op, i, t) =>
    (match t.supOperand d p i 4 with
    | .ok v u =>
      decide (op = 0x0A)
    | _ => false)
  | _ => false)

def hyp_SupervisorArithmetic_6 (d : Die) (p : Fin 2) (s : State) : Bool :=
  (match rdSup s d p with
  | some (op, i, t) =>
    (match t.supOperand d p i 4 with
    | .ok v u =>
      decide (op = 0x0B)
    | _ => false)
  | _ => false)

def hyp_SupervisorArithmetic_7 (d : Die) (p : Fin 2) (s : State) : Bool :=
  (match rdSup s d p with
  | some (op, i, t) =>
    (match t.supOperand d p i 4 with
    | .ok v u =>
      decide (op = 0x0C)
    | _ => false)
  | _ => false)

def hyp_SupervisorArithmetic_8 (d : Die) (p : Fin 2) (s : State) : Bool :=
  (match rdSup s d p with
  | some (op, i, t) =>
    (match t.supOperand d p i 4 with
    | .ok v u =>
      decide (op = 0x12)
    | _ => false)
  | _ => false)

def hyp_SupervisorArithmetic_9 (d : Die) (p : Fin 2) (s : State) : Bool :=
  (match rdSup s d p with
  | some (op, i, t) =>
    (match t.supOperand d p i 4 with
    | .ok v u =>
      decide (op = 0x13)
    | _ => false)
  | _ => false)

def hyp_SupervisorArithmetic_10 (d : Die) (p : Fin 2) (s : State) : Bool :=
  (match rdSup s d p with
  | some (op, i, t) =>
    (match t.supOperand d p i 4 with
    | .ok v u =>
      decide (op = 0x0D)
    | _ => false)
  | _ => false)

def hyp_SupervisorArithmetic_11 (d : Die) (p : Fin 2) (s : State) : Bool :=
  (match rdSup s d p with
  | some (op, i, t) =>
    (match t.supOperand d p i 4 with
    | .ok v u =>
      decide (op = 0x0E)
    | _ => false)
  | _ => false)

def hyp_SupervisorArithmetic_12 (d : Die) (p : Fin 2) (s : State) : Bool :=
  (match rdSup s d p with
  | some (op, i, t) =>
    (match t.supOperand d p i 4 with
    | .ok v u =>
      decide (op = 0x0F)
    | _ => false)
  | _ => false)

def hyp_SupervisorArithmetic_13 (d : Die) (p : Fin 2) (s : State) : Bool :=
  (match rdSup s d p with
  | some (op, i, t) =>
    (match t.supOperand d p i 4 with
    | .ok v u =>
      decide (op = 0x19)
    | _ => false)
  | _ => false)

def hyp_SupervisorArithmetic_14 (d : Die) (p : Fin 2) (s : State) : Bool :=
  (match rdSup s d p with
  | some (op, i, t) =>
    (match t.supOperand d p i 4 with
    | .ok v u =>
      decide (op = 0x14)
    | _ => false)
  | _ => false)

def hyp_SupervisorArithmetic_15 (d : Die) (p : Fin 2) (s : State) : Bool :=
  (match rdSup s d p with
  | some (op, i, t) =>
    (match t.supOperand d p i 4 with
    | .ok v u =>
      decide (op = 0x15)
    | _ => false)
  | _ => false)

theorem test_hyps_SupervisorArithmetic : (
    hyp_SupervisorArithmetic_0 (.d0) (0) (tSpv [0x2c4] [0xffff, 0x2, 0x3fc, 0x1800] 3 [(R.DBL_STAT .d0 0, 0)] []) &&
    hyp_SupervisorArithmetic_1 (.d0) (0) (tSpv [0x780] [0x1, 0x470, 0x3, 0x1800] 3 [(R.DBL_STAT .d0 0, 1)] []) &&
    hyp_SupervisorArithmetic_2 (.d0) (0) (tSpv [0xb03] [0x20, 0x3, 0x8, 0x1800] 8 [(R.DBL_STAT .d0 0, 0)] []) &&
    hyp_SupervisorArithmetic_3 (.d0) (0) (tSpv [0x1180] [0x8, 0x400, 0x3f, 0x1800] 3 [(R.DBL_STAT .d0 0, 1)] []) &&
    hyp_SupervisorArithmetic_4 (.d0) (0) (tSpv [0x12c4] [0x20, 0xf, 0x4dc, 0x1800] 2 [(R.DBL_STAT .d0 0, 1)] []) &&
    hyp_SupervisorArithmetic_5 (.d0) (0) (tSpv [0x1580] [0x0, 0x4d4, 0x3f, 0x1800] 2 [(R.DBL_STAT .d0 0, 1)] []) &&
    hyp_SupervisorArithmetic_6 (.d0) (0) (tSpv [0x16c4] [0x1, 0x3f, 0x4b8, 0x1800] 9 [(R.DBL_STAT .d0 0, 1)] []) &&
    hyp_SupervisorArithmetic_7 (.d0) (0) (tSpv [0x1800] [0x80, 0x100, 0x2, 0x1800] 9 [(R.DBL_STAT .d0 0, 1)] []) &&
    hyp_SupervisorArithmetic_8 (.d0) (0) (tSpv [0x24c4] [0x2, 0x1, 0x4a4, 0x1800] 9 [(R.DBL_STAT .d0 0, 1)] []) &&
    hyp_SupervisorArithmetic_9 (.d0) (0) (tSpv [0x261f] [0x1f, 0x21, 0x21, 0x1800] 1 [(R.DBL_STAT .d0 0, 0)] []) &&
    hyp_SupervisorArithmetic_10 (.d0) (0) (tSpv [0x1ac4] [0x7f, 0x3, 0x440, 0x1800] 8 [(R.DBL_STAT .d0 0, 0)] []) &&
    hyp_SupervisorArithmetic_11 (.d0) (0) (tSpv [0x1cc4] [0x3, 0x20, 0x4c4, 0x1800] 0 [(R.DBL_STAT .d0 0, 0)] []) &&
    hyp_SupervisorArithmetic_12 (.d0) (0) (tSpv [0x1f80] [0x3, 0x424, 0x80, 0x1800] 0 [(R.DBL_STAT .d0 0, 1)] []) &&
    hyp_SupervisorArithmetic_13 (.d0) (0) (tSpv [0x32be] [0x80, 0x454, 0x1, 0x1800] 5 [(R.DBL_STAT .d0 0, 1)] []) &&
    hyp_SupervisorArithmetic_14 (.d0) (0) (tSpv [0x2980] [0x8, 0x4e4, 0x7, 0x1800] 11 [(R.DBL_STAT .d0 0, 1)] []) &&
    hyp_SupervisorArithmetic_15 (.d0) (0) (tSpv [0x2b03] [0x0, 0x7, 0x1f, 0x1800] 9 [(R.DBL_STAT .d0 0, 1)] [])) = true := by decide +kernel

/-! ### SupervisorArithmeticAndMoves, its part SupervisorShifts -/

def hyp_SupervisorShifts_0 (d : Die) (p : Fin 2) (s : State) : Bool :=
  (match rdSup s d p with
  | some (op, i, t) =>
    (match t.supOperand d p i 4 with
    | .ok v u =>
      let n := v % 32
      decide (op = 0x16) &&
      decide (n ≠ 0)
    | _ => false)
  | _ => false)

def hyp_SupervisorShifts_1 (d : Die) (p : Fin 2) (s : State) : Bool :=
  (match rdSup s d p with
  | some (op, i, t) =>
    (match t.supOperand d p i 4 with
    | .ok v u =>
      let n := v % 32
      decide (op = 0x17) &&
      decide (n ≠ 0)
    | _ => false)
  | _ => false)

def hyp_SupervisorShifts_2 (d : Die) (p : Fin 2) (s : State) : Bool :=
  (match rdSup s d p with
  | some (op, i, t) =>
    (match t.supOperand d p i 4 with
    | .ok v u =>
      let n := v % 32
      decide (op = 0x18) &&
      decide (n ≠ 0)
    | _ => false)
  | _ => false)

def hyp_SupervisorShifts_3 (d : Die) (p : Fin 2) (s : State) : Bool :=
  (match rdSup s d p with
  | some (op, i, t) =>
    (match t.supOperand d p i 4 with
    | .ok v u =>
      let n := v % 32
      decide (op ∈ [0x16, 0x17, 0x18]) &&
      decide (n = 0)
    | _ => false)
  | _ => false)

theorem test_hyps_SupervisorShifts : (
    hyp_SupervisorShifts_0 (.d0) (0) (tSpv [0xac00, 0x1] [0x100, 0x0, 0x0, 0x1800] 10 [] []) &&
    hyp_SupervisorShifts_1 (.d0) (0) (tSpv [0xae00, 0x1] [0x8, 0x0, 0x0, 0x1800] 0 [] []) &&
    hyp_SupervisorShifts_2 (.d0) (0) (tSpv [0xb000, 0x1] [0x21, 0x0, 0x0, 0x1800] 1 [] []) &&
    hyp_SupervisorShifts_3 (.d0) (0) (tSpv [0xac00, 0x0] [0x3, 0x0, 0x0, 0x1800] 15 [] [])) = true := by decide +kernel

/-! ### SupervisorArithmeticAndMoves, its part SupervisorMovesAndStores -/

def hyp_SupervisorMovesAndStores_0 (d : Die) (p : Fin 2) (s : State) : Bool :=
  (match rdSup s d p with
  | some (op, i, t) =>
    let ea := t.supEa d p i
    (List.any ([(0x02, 0), (0x04, 1), (0x06, 2)]) fun (op_, r) =>
      decide (op_ = op) &&
      (match (t.supStep d p i 4).supPut d p ea 4 ((t.supStep d p i 4).sreg d p r) with
      | .ok () u =>
        true
      | _ => false))
  | _ => false)

def hyp_SupervisorMovesAndStores_1 (d : Die) (p : Fin 2) (s : State) : Bool :=
  (match rdSup s d p with
  | some (op, i, t) =>
    let ea := t.supEa d p i
    let reg (r : Nat) : Nat := t.sreg d p r
    decide (op = 0x11) &&
    (match (t.supStep d p i 1).supPut d p ea 1 (reg 0 % 256) with
    | .ok () u =>
      true
    | _ => false)
  | _ => false)

def hyp_SupervisorMovesAndStores_2 (d : Die) (p : Fin 2) (s : State) : Bool :=
  (match rdSup s d p with
  | some (op, i, t) =>
    decide (op = 0x10) &&
    (match t.supOperand d p i 1 with
    | .ok v u =>
      true
    | _ => false)
  | _ => false)

def hyp_SupervisorMovesAndStores_3 (d : Die) (p : Fin 2) (s : State) : Bool :=
  (match rdSup s d p with
  | some (op, i, t) =>
    let ea := t.supEa d p i
    decide (op = 0x1D) &&
    decide (ea % 4 = 0) &&
    decide (ea < 0x20_0000) &&
    (match t.supGet d p ea 4 with
    | .ok v w =>
      (match w.supPut d p ea 4 (w.sreg d p 0) with
      | .ok () u =>
        true
      | _ => false)
    | _ => false)
  | _ => false)

def hyp_SupervisorMovesAndStores_4 (d : Die) (p : Fin 2) (s : State) : Bool :=
  (match rdSup s d p with
  | some (op, i, t) =>
    let ea := t.supEa d p i
    decide (op = 0x1D) &&
    decide (ea % 4 = 0) &&
    decide (0x20_0000 ≤ ea)
  | _ => false)

def hyp_SupervisorMovesAndStores_5 (d : Die) (p : Fin 2) (s : State) : Bool :=
  (match rdSup s d p with
  | some (op, i, t) =>
    decide (op = 0x07)
  | _ => false)

def hyp_SupervisorMovesAndStores_6 (d : Die) (p : Fin 2) (s : State) : Bool :=
  (match rdSup s d p with
  | some (op, i, t) =>
    let rd := i.field / 8 % 8
    decide (op = 0x1A) &&
    decide (rd ≠ 3)
  | _ => false)

def hyp_SupervisorMovesAndStores_7 (d : Die) (p : Fin 2) (s : State) : Bool :=
  (match rdSup s d p with
  | some (op, i, t) =>
    let reg (r : Nat) : Nat := t.sreg d p r
    let rd := i.field / 8 % 8
    decide (op = 0x1A) &&
    decide (rd = 3) && (
      let m := reg (i.field % 8)
      let ok : Bool := decide (m % 4 = 0 ∧ (t.getReg (R.SPR_SPL d p)).toNat ≤ m ∧ m ≤ (t.getReg (R.SPR_SPH d p)).toNat)
      decide (ok))
  | _ => false)

def hyp_SupervisorMovesAndStores_8 (d : Die) (p : Fin 2) (s : State) : Bool :=
  (match rdSup s d p with
  | some (op, i, t) =>
    let reg (r : Nat) : Nat := t.sreg d p r
    let rd := i.field / 8 % 8
    decide (op = 0x1A) &&
    decide (rd = 3) && (
      let m := reg (i.field % 8)
      let ok : Bool := decide (m % 4 = 0 ∧ (t.getReg (R.SPR_SPL d p)).toNat ≤ m ∧ m ≤ (t.getReg (R.SPR_SPH d p)).toNat)
      decide (¬ok))
  | _ => false)

def hyp_SupervisorMovesAndStores_9 (d : Die) (p : Fin 2) (s : State) : Bool :=
  (match rdSup s d p with
  | some (op, i, t) =>
    decide (op = 0x1E) &&
    decide (i.field.testBit 5 = true)
  | _ => false)

def hyp_SupervisorMovesAndStores_10 (d : Die) (p : Fin 2) (s : State) : Bool :=
  (match rdSup s d p with
  | some (op, i, t) =>
    decide (op = 0x1E) &&
    decide (i.field.testBit 5 = false)
  | _ => false)

def hyp_SupervisorMovesAndStores_11 (d : Die) (p : Fin 2) (s : State) : Bool :=
  (match rdSup s d p with
  | some (op, i, t) =>
    decide (op = 0x00)
  | _ => false)

theorem test_hyps_SupervisorMovesAndStores : (
    hyp_SupervisorMovesAndStores_0 (.d0) (0) (tSpv [0x903] [0x3, 0x7f, 0x8, 0x1800] 2 [] []) &&
    hyp_SupervisorMovesAndStores_1 (.d0) (0) (tSpv [0x2380] [0x0, 0x478, 0x7, 0x1800] 4 [] []) &&
    hyp_SupervisorMovesAndStores_2 (.d0) (0) (tSpv [0x2180] [0x3, 0x4a0, 0x5, 0x1800] 2 [] []) &&
    hyp_SupervisorMovesAndStores_3 (.d0) (0) (tSpv [0x3b80] [0x3, 0x46c, 0x7, 0x1800] 7 [] []) &&
    hyp_SupervisorMovesAndStores_4 (.d0) (0) (tSpv [0xba80, 0x0] [0x5, 0x200008, 0x0, 0x1800] 3 [] []) &&
    hyp_SupervisorMovesAndStores_5 (.d0) (0) (tSpv [0x8e00, 0x8001] [0x20, 0x20, 0x20, 0x20] 0 [] []) &&
    hyp_SupervisorMovesAndStores_6 (.d0) (0) (tSpv [0x340b] [0xf, 0xffc, 0x1ffc, 0x1800] 8 [] []) &&
    hyp_SupervisorMovesAndStores_7 (.d0) (0) (tSpv [0x341a] [0x1, 0xffc, 0x1000, 0x1800] 15 [] []) &&
    hyp_SupervisorMovesAndStores_8 (.d0) (0) (tSpv [0x3418] [0x1, 0x2004, 0x1000, 0x1800] 7 [] []) &&
    hyp_SupervisorMovesAndStores_9 (.d0) (0) (tSpv [0x3c28] [0x1, 0x2, 0x3, 0x1800] 8 [] []) &&
    hyp_SupervisorMovesAndStores_10 (.d0) (0) (tSpv [0x3c18] [0x1, 0x2, 0x3, 0x1800] 0 [] []) &&
    hyp_SupervisorMovesAndStores_11 (.d0) (0) (tSpv [0x0] [0x1, 0x2, 0x3, 0x1800] 0 [] [])) = true := by decide +kernel

/-! ### SupervisorControlFlow -/

def hyp_SupervisorControlFlow_0 (d : Die) (p : Fin 2) (s : State) : Bool :=
  (match rdSup s d p with
  | some (op, i, t) =>
    decide (op = 0x20) &&
    decide (condHolds i.cond (t.sflags d p) = true)
  | _ => false)

def hyp_SupervisorControlFlow_1 (d : Die) (p : Fin 2) (s : State) : Bool :=
  (match rdSup s d p with
  | some (op, i, t) =>
    decide (op = 0x20) &&
    decide (condHolds i.cond (t.sflags d p) = false)
  | _ => false)

def hyp_SupervisorControlFlow_2 (d : Die) (p : Fin 2) (s : State) : Bool :=
  (match rdSup s d p with
  | some (op, i, t) =>
    let ea := t.supEa d p i
    decide (op = 0x21) &&
    decide (ea % 2 = 0)
  | _ => false)

def hyp_SupervisorControlFlow_3 (d : Die) (p : Fin 2) (s : State) : Bool :=
  (match rdSup s d p with
  | some (op, i, t) =>
    let next := t.supNext d p i
    let ea := t.supEa d p i
    decide (op = 0x22) &&
    decide (ea % 2 = 0) &&
    (match t.supPush d p [next] with
    | .ok () u =>
      true
    | _ => false)
  | _ => false)

def hyp_SupervisorControlFlow_4 (d : Die) (p : Fin 2) (s : State) : Bool :=
  (match rdSup s d p with
  | some (op, i, t) =>
    let ea := t.supEa d p i
    decide (op ∈ [0x21, 0x22]) &&
    decide (ea % 2 = 1)
  | _ => false)

def hyp_SupervisorControlFlow_5 (d : Die) (p : Fin 2) (s : State) : Bool :=
  (match rdSup s d p with
  | some (op, i, t) =>
    decide (op = 0x23) &&
    (match t.supPop d p 1 with
    | .ok [a] u =>
      decide (a % 2 = 0)
    | _ => false)
  | _ => false)

def hyp_SupervisorControlFlow_6 (d : Die) (p : Fin 2) (s : State) : Bool :=
  (match rdSup s d p with
  | some (op, i, t) =>
    decide (op = 0x24) &&
    (match t.supPop d p 2 with
    | .ok [f, a] u =>
      decide (a % 2 = 0)
    | _ => false)
  | _ => false)

def hyp_SupervisorControlFlow_7 (d : Die) (p : Fin 2) (s : State) : Bool :=
  (match rdSup s d p with
  | some (op, i, t) =>
    let value (n : Nat) : Nat := if n = 3 then t.sflags d p else t.sreg d p n
    let set := (List.range 4).filter fun n => i.field.testBit n
    decide (op = 0x1B) &&
    (match t.supPush d p (set.map value) with
    | .ok () u =>
      true
    | _ => false)
  | _ => false)

def hyp_SupervisorControlFlow_8 (d : Die) (p : Fin 2) (s : State) : Bool :=
  (match rdSup s d p with
  | some (op, i, t) =>
    let set := (List.range 4).filter fun n => i.field.testBit n
    decide (op = 0x1C) &&
    (match t.supPop d p set.length with
    | .ok vs u =>
      true
    | _ => false)
  | _ => false)

def hyp_SupervisorControlFlow_9 (d : Die) (p : Fin 2) (s : State) : Bool :=
  (match rdSup s d p with
  | some (op, i, t) =>
    decide (op = 0x26) &&
    decide (t.supPend d = true)
  | _ => false)

def hyp_SupervisorControlFlow_10 (d : Die) (p : Fin 2) (s : State) : Bool :=
  (match rdSup s d p with
  | some (op, i, t) =>
    decide (op = 0x26) &&
    decide (t.supPend d = false)
  | _ => false)

def hyp_SupervisorControlFlow_11 (d : Die) (p : Fin 2) (s : State) : Bool :=
  (match rdSup s d p with
  | some (op, i, t) =>
    decide (op = 0x27) &&
    decide (t.flag (R.SPR_DBG_CTRL d p) 8 = true)
  | _ => false)

def hyp_SupervisorControlFlow_12 (d : Die) (p : Fin 2) (s : State) : Bool :=
  (match rdSup s d p with
  | some (op, i, t) =>
    decide (op = 0x27) &&
    decide (t.flag (R.SPR_DBG_CTRL d p) 8 = false)
  | _ => false)

def hyp_SupervisorControlFlow_13 (d : Die) (p : Fin 2) (s : State) : Bool :=
  (match rdSup s d p with
  | some (op, i, t) =>
    decide (op = 0x25)
  | _ => false)

theorem test_hyps_SupervisorControlFlow : (
    hyp_SupervisorControlFlow_0 (.d0) (0) (tSpv [0x405b] [0x1, 0x2, 0x3, 0x1800] 0 [] []) &&
    hyp_SupervisorControlFlow_1 (.d0) (0) (tSpv [0x411c] [0x1, 0x2, 0x3, 0x1800] 5 [] []) &&
    hyp_SupervisorControlFlow_2 (.d0) (0) (tSpv [0xc240, 0x3ff0] [0x1, 0x0, 0x3, 0x1004] 12 [] [(0x400, 0x80), (0x404, 0x7fff), (0x408, 0xffffffff), (0x40c, 0x80), (0x410, 0x80), (0x414, 0x100), (0x418, 0x8000), (0x41c, 0x8), (0x420, 0x7), (0x424, 0xdeadbeef), (0x428, 0x100), (0x42c, 0xff), (0x430, 0x10000), (0x434, 0xffff), (0x438, 0xdeadbeef), (0x43c, 0x7), (0x440, 0x3), (0x444, 0x80), (0x448, 0x1f), (0x44c, 0x5), (0x450, 0x2), (0x454, 0x7fff), (0x458, 0xdeadbeef), (0x45c, 0x80000000), (0x460, 0x10000), (0x464, 0x1), (0x468, 0xffff), (0x46c, 0x3f), (0x470, 0x80), (0x474, 0x10000), (0x478, 0x80000001), (0x47c, 0xffff), (0x480, 0x10000), (0x484, 0x7), (0x488, 0xffff), (0x48c, 0x0), (0x490, 0x12345678), (0x494, 0x100), (0x498, 0x2), (0x49c, 0x1), (0x4a0, 0x1), (0x4a4, 0x8), (0x4a8, 0xf), (0x4ac, 0xffff), (0x4b0, 0x0), (0x4b4, 0xffffffff), (0x4b8, 0x80), (0x4bc, 0x20), (0x4c0, 0x80), (0x4c4, 0x8000), (0x4c8, 0x12345678), (0x4cc, 0x8), (0x4d0, 0x100), (0x4d4, 0xf), (0x4d8, 0x10000), (0x4dc, 0x1f), (0x4e0, 0xff), (0x4e4, 0x0), (0x4e8, 0x7fffffff), (0x4ec, 0x2), (0x4f0, 0x80), (0x4f4, 0x10000), (0x4f8, 0x10), (0x4fc, 0x7f), (0x1000,0x1e), (0x1004,0x200), (0x1008,0x200), (0x100c,0xffffffff), (0x1fe8,0x201), (0x1fec,0x200), (0x1ff0,0x201), (0x1ff4,0x1e), (0x1ff8,0x200), (0x1ffc,0x200), (0x1800, 0x2F), (0x1804, 0x208), (0x1808, 9), (0x180C, 8), (4, 0x301)]) &&
    hyp_SupervisorControlFlow_3 (.d0) (0) (tSpv [0xc440, 0x3ff0] [0x1, 0x0, 0x3, 0x1ff0] 14 [] [(0x400, 0x80), (0x404, 0x7fff), (0x408, 0xffffffff), (0x40c, 0x80), (0x410, 0x80), (0x414, 0x100), (0x418, 0x8000), (0x41c, 0x8), (0x420, 0x7), (0x424, 0xdeadbeef), (0x428, 0x100), (0x42c, 0xff), (0x430, 0x10000), (0x434, 0xffff), (0x438, 0xdeadbeef), (0x43c, 0x7), (0x440, 0x3), (0x444, 0x80), (0x448, 0x1f), (0x44c, 0x5), (0x450, 0x2), (0x454, 0x7fff), (0x458, 0xdeadbeef), (0x45c, 0x80000000), (0x460, 0x10000), (0x464, 0x1), (0x468, 0xffff), (0x46c, 0x3f), (0x470, 0x80), (0x474, 0x10000), (0x478, 0x80000001), (0x47c, 0xffff), (0x480, 0x10000), (0x484, 0x7), (0x488, 0xffff), (0x48c, 0x0), (0x490, 0x12345678), (0x494, 0x100), (0x498, 0x2), (0x49c, 0x1), (0x4a0, 0x1), (0x4a4, 0x8), (0x4a8, 0xf), (0x4ac, 0xffff), (0x4b0, 0x0), (0x4b4, 0xffffffff), (0x4b8, 0x80), (0x4bc, 0x20), (0x4c0, 0x80), (0x4c4, 0x8000), (0x4c8, 0x12345678), (0x4cc, 0x8), (0x4d0, 0x100), (0x4d4, 0xf), (0x4d8, 0x10000), (0x4dc, 0x1f), (0x4e0, 0xff), (0x4e4, 0x0), (0x4e8, 0x7fffffff), (0x4ec, 0x2), (0x4f0, 0x80), (0x4f4, 0x10000), (0x4f8, 0x10), (0x4fc, 0x7f), (0x1000,0x1e), (0x1004,0xffffffff), (0x1008,0xffffffff), (0x100c,0xffffffff), (0x1fe8,0x200), (0x1fec,0xffffffff), (0x1ff0,0x201), (0x1ff4,0x201), (0x1ff8,0x200), (0x1ffc,0x1e), (0x1800, 0x2F), (0x1804, 0x208), (0x1808, 9), (0x180C, 8), (4, 0x301)]) &&
    hyp_SupervisorControlFlow_4 (.d0) (0) (tSpv [0xc480, 0x201] [0x1, 0x100, 0x3, 0x1004] 5 [] [(0x400, 0x80), (0x404, 0x7fff), (0x408, 0xffffffff), (0x40c, 0x80), (0x410, 0x80), (0x414, 0x100), (0x418, 0x8000), (0x41c, 0x8), (0x420, 0x7), (0x424, 0xdeadbeef), (0x428, 0x100), (0x42c, 0xff), (0x430, 0x10000), (0x434, 0xffff), (0x438, 0xdeadbeef), (0x43c, 0x7), (0x440, 0x3), (0x444, 0x80), (0x448, 0x1f), (0x44c, 0x5), (0x450, 0x2), (0x454, 0x7fff), (0x458, 0xdeadbeef), (0x45c, 0x80000000), (0x460, 0x10000), (0x464, 0x1), (0x468, 0xffff), (0x46c, 0x3f), (0x470, 0x80), (0x474, 0x10000), (0x478, 0x80000001), (0x47c, 0xffff), (0x480, 0x10000), (0x484, 0x7), (0x488, 0xffff), (0x48c, 0x0), (0x490, 0x12345678), (0x494, 0x100), (0x498, 0x2), (0x49c, 0x1), (0x4a0, 0x1), (0x4a4, 0x8), (0x4a8, 0xf), (0x4ac, 0xffff), (0x4b0, 0x0), (0x4b4, 0xffffffff), (0x4b8, 0x80), (0x4bc, 0x20), (0x4c0, 0x80), (0x4c4, 0x8000), (0x4c8, 0x12345678), (0x4cc, 0x8), (0x4d0, 0x100), (0x4d4, 0xf), (0x4d8, 0x10000), (0x4dc, 0x1f), (0x4e0, 0xff), (0x4e4, 0x0), (0x4e8, 0x7fffffff), (0x4ec, 0x2), (0x4f0, 0x80), (0x4f4, 0x10000), (0x4f8, 0x10), (0x4fc, 0x7f), (0x1000,0x1e), (0x1004,0x200), (0x1008,0x200), (0x100c,0xffffffff), (0x1fe8,0x201), (0x1fec,0x200), (0x1ff0,0x201), (0x1ff4,0x1e), (0x1ff8,0x200), (0x1ffc,0x200), (0x1800, 0x2F), (0x1804, 0x208), (0x1808, 9), (0x180C, 8), (4, 0x301)]) &&
    hyp_SupervisorControlFlow_5 (.d0) (0) (tSpv [0x4600] [0x1, 0x2, 0x3, 0x1004] 7 [] [(0x400, 0x80), (0x404, 0x7fff), (0x408, 0xffffffff), (0x40c, 0x80), (0x410, 0x80), (0x414, 0x100), (0x418, 0x8000), (0x41c, 0x8), (0x420, 0x7), (0x424, 0xdeadbeef), (0x428, 0x100), (0x42c, 0xff), (0x430, 0x10000), (0x434, 0xffff), (0x438, 0xdeadbeef), (0x43c, 0x7), (0x440, 0x3), (0x444, 0x80), (0x448, 0x1f), (0x44c, 0x5), (0x450, 0x2), (0x454, 0x7fff), (0x458, 0xdeadbeef), (0x45c, 0x80000000), (0x460, 0x10000), (0x464, 0x1), (0x468, 0xffff), (0x46c, 0x3f), (0x470, 0x80), (0x474, 0x10000), (0x478, 0x80000001), (0x47c, 0xffff), (0x480, 0x10000), (0x484, 0x7), (0x488, 0xffff), (0x48c, 0x0), (0x490, 0x12345678), (0x494, 0x100), (0x498, 0x2), (0x49c, 0x1), (0x4a0, 0x1), (0x4a4, 0x8), (0x4a8, 0xf), (0x4ac, 0xffff), (0x4b0, 0x0), (0x4b4, 0xffffffff), (0x4b8, 0x80), (0x4bc, 0x20), (0x4c0, 0x80), (0x4c4, 0x8000), (0x4c8, 0x12345678), (0x4cc, 0x8), (0x4d0, 0x100), (0x4d4, 0xf), (0x4d8, 0x10000), (0x4dc, 0x1f), (0x4e0, 0xff), (0x4e4, 0x0), (0x4e8, 0x7fffffff), (0x4ec, 0x2), (0x4f0, 0x80), (0x4f4, 0x10000), (0x4f8, 0x10), (0x4fc, 0x7f), (0x1000,0x1e), (0x1004,0x200), (0x1008,0x200), (0x100c,0xffffffff), (0x1fe8,0x201), (0x1fec,0x200), (0x1ff0,0x201), (0x1ff4,0x1e), (0x1ff8,0x200), (0x1ffc,0x200), (0x1800, 0x2F), (0x1804, 0x208), (0x1808, 9), (0x180C, 8), (4, 0x301)]) &&
    hyp_SupervisorControlFlow_6 (.d0) (0) (tSpv [0x4800] [0x1, 0x2, 0x3, 0x1004] 0 [] [(0x400, 0x80), (0x404, 0x7fff), (0x408, 0xffffffff), (0x40c, 0x80), (0x410, 0x80), (0x414, 0x100), (0x418, 0x8000), (0x41c, 0x8), (0x420, 0x7), (0x424, 0xdeadbeef), (0x428, 0x100), (0x42c, 0xff), (0x430, 0x10000), (0x434, 0xffff), (0x438, 0xdeadbeef), (0x43c, 0x7), (0x440, 0x3), (0x444, 0x80), (0x448, 0x1f), (0x44c, 0x5), (0x450, 0x2), (0x454, 0x7fff), (0x458, 0xdeadbeef), (0x45c, 0x80000000), (0x460, 0x10000), (0x464, 0x1), (0x468, 0xffff), (0x46c, 0x3f), (0x470, 0x80), (0x474, 0x10000), (0x478, 0x80000001), (0x47c, 0xffff), (0x480, 0x10000), (0x484, 0x7), (0x488, 0xffff), (0x48c, 0x0), (0x490, 0x12345678), (0x494, 0x100), (0x498, 0x2), (0x49c, 0x1), (0x4a0, 0x1), (0x4a4, 0x8), (0x4a8, 0xf), (0x4ac, 0xffff), (0x4b0, 0x0), (0x4b4, 0xffffffff), (0x4b8, 0x80), (0x4bc, 0x20), (0x4c0, 0x80), (0x4c4, 0x8000), (0x4c8, 0x12345678), (0x4cc, 0x8), (0x4d0, 0x100), (0x4d4, 0xf), (0x4d8, 0x10000), (0x4dc, 0x1f), (0x4e0, 0xff), (0x4e4, 0x0), (0x4e8, 0x7fffffff), (0x4ec, 0x2), (0x4f0, 0x80), (0x4f4, 0x10000), (0x4f8, 0x10), (0x4fc, 0x7f), (0x1000,0x1e), (0x1004,0x200), (0x1008,0x200), (0x100c,0xffffffff), (0x1fe8,0x201), (0x1fec,0x200), (0x1ff0,0x201), (0x1ff4,0x1e), (0x1ff8,0x200), (0x1ffc,0x200), (0x1800, 0x2F), (0x1804, 0x208), (0x1808, 9), (0x180C, 8), (4, 0x301)]) &&
    hyp_SupervisorControlFlow_7 (.d0) (0) (tSpv [0x3607] [0x11, 0x22, 0x33, 0x1ff0] 9 [] [(0x400, 0x80), (0x404, 0x7fff), (0x408, 0xffffffff), (0x40c, 0x80), (0x410, 0x80), (0x414, 0x100), (0x418, 0x8000), (0x41c, 0x8), (0x420, 0x7), (0x424, 0xdeadbeef), (0x428, 0x100), (0x42c, 0xff), (0x430, 0x10000), (0x434, 0xffff), (0x438, 0xdeadbeef), (0x43c, 0x7), (0x440, 0x3), (0x444, 0x80), (0x448, 0x1f), (0x44c, 0x5), (0x450, 0x2), (0x454, 0x7fff), (0x458, 0xdeadbeef), (0x45c, 0x80000000), (0x460, 0x10000), (0x464, 0x1), (0x468, 0xffff), (0x46c, 0x3f), (0x470, 0x80), (0x474, 0x10000), (0x478, 0x80000001), (0x47c, 0xffff), (0x480, 0x10000), (0x484, 0x7), (0x488, 0xffff), (0x48c, 0x0), (0x490, 0x12345678), (0x494, 0x100), (0x498, 0x2), (0x49c, 0x1), (0x4a0, 0x1), (0x4a4, 0x8), (0x4a8, 0xf), (0x4ac, 0xffff), (0x4b0, 0x0), (0x4b4, 0xffffffff), (0x4b8, 0x80), (0x4bc, 0x20), (0x4c0, 0x80), (0x4c4, 0x8000), (0x4c8, 0x12345678), (0x4cc, 0x8), (0x4d0, 0x100), (0x4d4, 0xf), (0x4d8, 0x10000), (0x4dc, 0x1f), (0x4e0, 0xff), (0x4e4, 0x0), (0x4e8, 0x7fffffff), (0x4ec, 0x2), (0x4f0, 0x80), (0x4f4, 0x10000), (0x4f8, 0x10), (0x4fc, 0x7f), (0x1000,0x1e), (0x1004,0xffffffff), (0x1008,0xffffffff), (0x100c,0xffffffff), (0x1fe8,0x200), (0x1fec,0xffffffff), (0x1ff0,0x201), (0x1ff4,0x201), (0x1ff8,0x200), (0x1ffc,0x1e), (0x1800, 0x2F), (0x1804, 0x208), (0x1808, 9), (0x180C, 8), (4, 0x301)]) &&
    hyp_SupervisorControlFlow_8 (.d0) (0) (tSpv [0x3803] [0x11, 0x22, 0x33, 0x1004] 9 [] [(0x400, 0x80), (0x404, 0x7fff), (0x408, 0xffffffff), (0x40c, 0x80), (0x410, 0x80), (0x414, 0x100), (0x418, 0x8000), (0x41c, 0x8), (0x420, 0x7), (0x424, 0xdeadbeef), (0x428, 0x100), (0x42c, 0xff), (0x430, 0x10000), (0x434, 0xffff), (0x438, 0xdeadbeef), (0x43c, 0x7), (0x440, 0x3), (0x444, 0x80), (0x448, 0x1f), (0x44c, 0x5), (0x450, 0x2), (0x454, 0x7fff), (0x458, 0xdeadbeef), (0x45c, 0x80000000), (0x460, 0x10000), (0x464, 0x1), (0x468, 0xffff), (0x46c, 0x3f), (0x470, 0x80), (0x474, 0x10000), (0x478, 0x80000001), (0x47c, 0xffff), (0x480, 0x10000), (0x484, 0x7), (0x488, 0xffff), (0x48c, 0x0), (0x490, 0x12345678), (0x494, 0x100), (0x498, 0x2), (0x49c, 0x1), (0x4a0, 0x1), (0x4a4, 0x8), (0x4a8, 0xf), (0x4ac, 0xffff), (0x4b0, 0x0), (0x4b4, 0xffffffff), (0x4b8, 0x80), (0x4bc, 0x20), (0x4c0, 0x80), (0x4c4, 0x8000), (0x4c8, 0x12345678), (0x4cc, 0x8), (0x4d0, 0x100), (0x4d4, 0xf), (0x4d8, 0x10000), (0x4dc, 0x1f), (0x4e0, 0xff), (0x4e4, 0x0), (0x4e8, 0x7fffffff), (0x4ec, 0x2), (0x4f0, 0x80), (0x4f4, 0x10000), (0x4f8, 0x10), (0x4fc, 0x7f), (0x1000,0x1e), (0x1004,0x200), (0x1008,0x200), (0x100c,0xffffffff), (0x1fe8,0x201), (0x1fec,0x200), (0x1ff0,0x201), (0x1ff4,0x1e), (0x1ff8,0x200), (0x1ffc,0x200), (0x1800, 0x2F), (0x1804, 0x208), (0x1808, 9), (0x180C, 8), (4, 0x301)]) &&
    hyp_SupervisorControlFlow_9 (.d0) (0) (tSpv [0x4c00] [0x11, 0x22, 0x33, 0x1004] 9 [(R.DBL_STAT .d0 0, 3), (R.DBL_MASK .d0 0, 2)] [(0x400, 0x80), (0x404, 0x7fff), (0x408, 0xffffffff), (0x40c, 0x80), (0x410, 0x80), (0x414, 0x100), (0x418, 0x8000), (0x41c, 0x8), (0x420, 0x7), (0x424, 0xdeadbeef), (0x428, 0x100), (0x42c, 0xff), (0x430, 0x10000), (0x434, 0xffff), (0x438, 0xdeadbeef), (0x43c, 0x7), (0x440, 0x3), (0x444, 0x80), (0x448, 0x1f), (0x44c, 0x5), (0x450, 0x2), (0x454, 0x7fff), (0x458, 0xdeadbeef), (0x45c, 0x80000000), (0x460, 0x10000), (0x464, 0x1), (0x468, 0xffff), (0x46c, 0x3f), (0x470, 0x80), (0x474, 0x10000), (0x478, 0x80000001), (0x47c, 0xffff), (0x480, 0x10000), (0x484, 0x7), (0x488, 0xffff), (0x48c, 0x0), (0x490, 0x12345678), (0x494, 0x100), (0x498, 0x2), (0x49c, 0x1), (0x4a0, 0x1), (0x4a4, 0x8), (0x4a8, 0xf), (0x4ac, 0xffff), (0x4b0, 0x0), (0x4b4, 0xffffffff), (0x4b8, 0x80), (0x4bc, 0x20), (0x4c0, 0x80), (0x4c4, 0x8000), (0x4c8, 0x12345678), (0x4cc, 0x8), (0x4d0, 0x100), (0x4d4, 0xf), (0x4d8, 0x10000), (0x4dc, 0x1f), (0x4e0, 0xff), (0x4e4, 0x0), (0x4e8, 0x7fffffff), (0x4ec, 0x2), (0x4f0, 0x80), (0x4f4, 0x10000), (0x4f8, 0x10), (0x4fc, 0x7f), (0x1000,0x1e), (0x1004,0x200), (0x1008,0x200), (0x100c,0xffffffff), (0x1fe8,0x201), (0x1fec,0x200), (0x1ff0,0x201), (0x1ff4,0x1e), (0x1ff8,0x200), (0x1ffc,0x200), (0x1800, 0x2F), (0x1804, 0x208), (0x1808, 9), (0x180C, 8), (4, 0x301)]) &&
    hyp_SupervisorControlFlow_10 (.d0) (0) (tSpv [0x4c00] [0x11, 0x22, 0x33, 0x1ffc] 9 [(R.DBL_STAT .d0 0, 1), (R.DBL_MASK .d0 0, 2)] [(0x400, 0x80), (0x404, 0x7fff), (0x408, 0xffffffff), (0x40c, 0x80), (0x410, 0x80), (0x414, 0x100), (0x418, 0x8000), (0x41c, 0x8), (0x420, 0x7), (0x424, 0xdeadbeef), (0x428, 0x100), (0x42c, 0xff), (0x430, 0x10000), (0x434, 0xffff), (0x438, 0xdeadbeef), (0x43c, 0x7), (0x440, 0x3), (0x444, 0x80), (0x448, 0x1f), (0x44c, 0x5), (0x450, 0x2), (0x454, 0x7fff), (0x458, 0xdeadbeef), (0x45c, 0x80000000), (0x460, 0x10000), (0x464, 0x1), (0x468, 0xffff), (0x46c, 0x3f), (0x470, 0x80), (0x474, 0x10000), (0x478, 0x80000001), (0x47c, 0xffff), (0x480, 0x10000), (0x484, 0x7), (0x488, 0xffff), (0x48c, 0x0), (0x490, 0x12345678), (0x494, 0x100), (0x498, 0x2), (0x49c, 0x1), (0x4a0, 0x1), (0x4a4, 0x8), (0x4a8, 0xf), (0x4ac, 0xffff), (0x4b0, 0x0), (0x4b4, 0xffffffff), (0x4b8, 0x80), (0x4bc, 0x20), (0x4c0, 0x80), (0x4c4, 0x8000), (0x4c8, 0x12345678), (0x4cc, 0x8), (0x4d0, 0x100), (0x4d4, 0xf), (0x4d8, 0x10000), (0x4dc, 0x1f), (0x4e0, 0xff), (0x4e4, 0x0), (0x4e8, 0x7fffffff), (0x4ec, 0x2), (0x4f0, 0x80), (0x4f4, 0x10000), (0x4f8, 0x10), (0x4fc, 0x7f), (0x1000,0x1e), (0x1004,0x200), (0x1008,0x1e), (0x100c,0x201), (0x1fe8,0x200), (0x1fec,0x1e), (0x1ff0,0x200), (0x1ff4,0x201), (0x1ff8,0xffffffff), (0x1ffc,0x200), (0x1800, 0x2F), (0x1804, 0x208), (0x1808, 9), (0x180C, 8), (0x4, 0x300), (0x8, 0x300), (0xc, 0x300), (0x10, 0x300), (0x14, 0x300), (0x18, 0x300), (0x1c, 0x300), (0x20, 0x300), (0x24, 0x300), (0x28, 0x300), (0x2c, 0x300), (0x30, 0x300), (0x34, 0x300), (0x38, 0x300), (0x3c, 0x300)]) &&
    hyp_SupervisorControlFlow_11 (.d0) (0) (tSpv [0x4e00] [0x11, 0x22, 0x33, 0x1004] 9 [(R.SPR_DBG_CTRL .d0 0, 256)] [(0x400, 0x80), (0x404, 0x7fff), (0x408, 0xffffffff), (0x40c, 0x80), (0x410, 0x80), (0x414, 0x100), (0x418, 0x8000), (0x41c, 0x8), (0x420, 0x7), (0x424, 0xdeadbeef), (0x428, 0x100), (0x42c, 0xff), (0x430, 0x10000), (0x434, 0xffff), (0x438, 0xdeadbeef), (0x43c, 0x7), (0x440, 0x3), (0x444, 0x80), (0x448, 0x1f), (0x44c, 0x5), (0x450, 0x2), (0x454, 0x7fff), (0x458, 0xdeadbeef), (0x45c, 0x80000000), (0x460, 0x10000), (0x464, 0x1), (0x468, 0xffff), (0x46c, 0x3f), (0x470, 0x80), (0x474, 0x10000), (0x478, 0x80000001), (0x47c, 0xffff), (0x480, 0x10000), (0x484, 0x7), (0x488, 0xffff), (0x48c, 0x0), (0x490, 0x12345678), (0x494, 0x100), (0x498, 0x2), (0x49c, 0x1), (0x4a0, 0x1), (0x4a4, 0x8), (0x4a8, 0xf), (0x4ac, 0xffff), (0x4b0, 0x0), (0x4b4, 0xffffffff), (0x4b8, 0x80), (0x4bc, 0x20), (0x4c0, 0x80), (0x4c4, 0x8000), (0x4c8, 0x12345678), (0x4cc, 0x8), (0x4d0, 0x100), (0x4d4, 0xf), (0x4d8, 0x10000), (0x4dc, 0x1f), (0x4e0, 0xff), (0x4e4, 0x0), (0x4e8, 0x7fffffff), (0x4ec, 0x2), (0x4f0, 0x80), (0x4f4, 0x10000), (0x4f8, 0x10), (0x4fc, 0x7f), (0x1000,0x1e), (0x1004,0x200), (0x1008,0x200), (0x100c,0xffffffff), (0x1fe8,0x201), (0x1fec,0x200), (0x1ff0,0x201), (0x1ff4,0x1e), (0x1ff8,0x200), (0x1ffc,0x200), (0x1800, 0x2F), (0x1804, 0x208), (0x1808, 9), (0x180C, 8), (4, 0x301)]) &&
    hyp_SupervisorControlFlow_12 (.d0) (0) (tSpv [0x4e00] [0x11, 0x22, 0x33, 0x2000] 9 [(R.SPR_DBG_CTRL .d0 0, 0)] [(0x400, 0x80), (0x404, 0x7fff), (0x408, 0xffffffff), (0x40c, 0x80), (0x410, 0x80), (0x414, 0x100), (0x418, 0x8000), (0x41c, 0x8), (0x420, 0x7), (0x424, 0xdeadbeef), (0x428, 0x100), (0x42c, 0xff), (0x430, 0x10000), (0x434, 0xffff), (0x438, 0xdeadbeef), (0x43c, 0x7), (0x440, 0x3), (0x444, 0x80), (0x448, 0x1f), (0x44c, 0x5), (0x450, 0x2), (0x454, 0x7fff), (0x458, 0xdeadbeef), (0x45c, 0x80000000), (0x460, 0x10000), (0x464, 0x1), (0x468, 0xffff), (0x46c, 0x3f), (0x470, 0x80), (0x474, 0x10000), (0x478, 0x80000001), (0x47c, 0xffff), (0x480, 0x10000), (0x484, 0x7), (0x488, 0xffff), (0x48c, 0x0), (0x490, 0x12345678), (0x494, 0x100), (0x498, 0x2), (0x49c, 0x1), (0x4a0, 0x1), (0x4a4, 0x8), (0x4a8, 0xf), (0x4ac, 0xffff), (0x4b0, 0x0), (0x4b4, 0xffffffff), (0x4b8, 0x80), (0x4bc, 0x20), (0x4c0, 0x80), (0x4c4, 0x8000), (0x4c8, 0x12345678), (0x4cc, 0x8), (0x4d0, 0x100), (0x4d4, 0xf), (0x4d8, 0x10000), (0x4dc, 0x1f), (0x4e0, 0xff), (0x4e4, 0x0), (0x4e8, 0x7fffffff), (0x4ec, 0x2), (0x4f0, 0x80), (0x4f4, 0x10000), (0x4f8, 0x10), (0x4fc, 0x7f), (0x1000,0x201), (0x1004,0x200), (0x1008,0x200), (0x100c,0x200), (0x1fe8,0x201), (0x1fec,0x201), (0x1ff0,0x201), (0x1ff4,0x200), (0x1ff8,0x201), (0x1ffc,0x200), (0x1800, 0x2F), (0x1804, 0x208), (0x1808, 9), (0x180C, 8), (0x4, 0x300), (0x8, 0x300), (0xc, 0x300), (0x10, 0x300), (0x14, 0x300), (0x18, 0x300), (0x1c, 0x300), (0x20, 0x300), (0x24, 0x300), (0x28, 0x300), (0x2c, 0x300), (0x30, 0x300), (0x34, 0x300), (0x38, 0x300), (0x3c, 0x300)]) &&
    hyp_SupervisorControlFlow_13 (.d0) (0) (tSpv [0x4a03] [0x11, 0x22, 0x33, 0x1004] 9 [] [(0x400, 0x80), (0x404, 0x7fff), (0x408, 0xffffffff), (0x40c, 0x80), (0x410, 0x80), (0x414, 0x100), (0x418, 0x8000), (0x41c, 0x8), (0x420, 0x7), (0x424, 0xdeadbeef), (0x428, 0x100), (0x42c, 0xff), (0x430, 0x10000), (0x434, 0xffff), (0x438, 0xdeadbeef), (0x43c, 0x7), (0x440, 0x3), (0x444, 0x80), (0x448, 0x1f), (0x44c, 0x5), (0x450, 0x2), (0x454, 0x7fff), (0x458, 0xdeadbeef), (0x45c, 0x80000000), (0x460, 0x10000), (0x464, 0x1), (0x468, 0xffff), (0x46c, 0x3f), (0x470, 0x80), (0x474, 0x10000), (0x478, 0x80000001), (0x47c, 0xffff), (0x480, 0x10000), (0x484, 0x7), (0x488, 0xffff), (0x48c, 0x0), (0x490, 0x12345678), (0x494, 0x100), (0x498, 0x2), (0x49c, 0x1), (0x4a0, 0x1), (0x4a4, 0x8), (0x4a8, 0xf), (0x4ac, 0xffff), (0x4b0, 0x0), (0x4b4, 0xffffffff), (0x4b8, 0x80), (0x4bc, 0x20), (0x4c0, 0x80), (0x4c4, 0x8000), (0x4c8, 0x12345678), (0x4cc, 0x8), (0x4d0, 0x100), (0x4d4, 0xf), (0x4d8, 0x10000), (0x4dc, 0x1f), (0x4e0, 0xff), (0x4e4, 0x0), (0x4e8, 0x7fffffff), (0x4ec, 0x2), (0x4f0, 0x80), (0x4f4, 0x10000), (0x4f8, 0x10), (0x4fc, 0x7f), (0x1000,0x1e), (0x1004,0x200), (0x1008,0x200), (0x100c,0xffffffff), (0x1fe8,0x201), (0x1fec,0x200), (0x1ff0,0x201), (0x1ff4,0x1e), (0x1ff8,0x200), (0x1ffc,0x200), (0x1800, 0x2F), (0x1804, 0x208), (0x1808, 9), (0x180C, 8), (4, 0x301)])) = true := by decide +kernel

/-! ### SupervisorExceptionsAndStack, its part SupervisorExceptionEntry -/

def hyp_SupervisorExceptionEntry_0 (d : Die) (p : Fin 2) (s : State) (cause : Nat) (detail : Nat) (pc : Nat) : Bool :=
  let s₁ := (s.setReg (R.SPR_EXC d p) (wd (cause + (if cause = 3 then detail else 0) * 0x100))).setReg (R.SPR_EXC_PC d p) (wd pc)
  (match s₁.supPush d p [pc, s.sflags d p] with
  | .ok () t =>
    (match (t.setSflags d p (t.sflags d p % 16)).supGet d p (4 * cause) 4 with
    | .ok v u =>
      decide (v ≠ 0) &&
      decide (v % 2 = 0) &&
      decide (v < 0x1_0000_0000)
    | _ => false)
  | _ => false)

def hyp_SupervisorExceptionEntry_1 (d : Die) (p : Fin 2) (s : State) (cause : Nat) (detail : Nat) (pc : Nat) : Bool :=
  let s₁ := (s.setReg (R.SPR_EXC d p) (wd (cause + (if cause = 3 then detail else 0) * 0x100))).setReg (R.SPR_EXC_PC d p) (wd pc)
  (match s₁.supPush d p [pc, s.sflags d p] with
  | .ok () t =>
    (match (t.setSflags d p (t.sflags d p % 16)).supGet d p (4 * cause) 4 with
    | .ok v u =>
      decide (v = 0 ∨ v % 2 = 1)
    | _ => false)
  | _ => false)

theorem test_hyps_SupervisorExceptionEntry : (
    hyp_SupervisorExceptionEntry_0 (.d0) (0) (tSpv [0x0] [0x1, 0x2, 0x3, 0x1008] 31 [] [(0x4,0x300)]) (1) (7) (0x123) &&
    hyp_SupervisorExceptionEntry_1 (.d0) (0) (tSpv [0x0] [0x1, 0x2, 0x3, 0x1008] 31 [] [(0x4,0x0)]) (1) (7) (0x123)) = true := by decide +kernel

/-! ### SupervisorExceptionsAndStack, its part SupervisorStackWindow -/

def hyp_SupervisorStackWindow_0 (d : Die) (p : Fin 2) (s : State) : Bool :=
  let sp := s.sreg d p 3
  let lo := (s.getReg (R.SPR_SPL d p)).toNat
  let hi := (s.getReg (R.SPR_SPH d p)).toNat
  decide (¬(sp % 4 = 0 ∧ sp ≤ hi ∧ lo + 8 ≤ sp))

def hyp_SupervisorStackWindow_1 (d : Die) (p : Fin 2) (s : State) (a : Nat) (b : Nat) : Bool :=
  let sp := s.sreg d p 3
  let lo := (s.getReg (R.SPR_SPL d p)).toNat
  let hi := (s.getReg (R.SPR_SPH d p)).toNat
  decide (sp % 4 = 0) &&
  decide (sp ≤ hi) &&
  decide (lo + 8 ≤ sp) &&
  decide (hi ≤ 0x20_0000) &&
  decide (a < 0x1_0000_0000) &&
  decide (b < 0x1_0000_0000)

def hyp_SupervisorStackWindow_2 (d : Die) (p : Fin 2) (s : State) : Bool :=
  let sp := s.sreg d p 3
  let lo := (s.getReg (R.SPR_SPL d p)).toNat
  let hi := (s.getReg (R.SPR_SPH d p)).toNat
  (List.any ([1, 2]) fun n =>
    decide (¬(sp % 4 = 0 ∧ lo ≤ sp ∧ sp + 4 * n ≤ hi)))

theorem test_hyps_SupervisorStackWindow : (
    hyp_SupervisorStackWindow_0 (.d0) (0) (tSpv [0x0] [0x1, 0x2, 0x3, 0xffc] 0 [] []) &&
    hyp_SupervisorStackWindow_1 (.d0) (0) (tSpv [0x0] [0x1, 0x2, 0x3, 0x1008] 0 [] []) (0xAABBCCDD) (0x100) &&
    hyp_SupervisorStackWindow_2 (.d0) (0) (tSpv [0x0] [0x1, 0x2, 0x3, 0xffc] 0 [] [])) = true := by decide +kernel

/-! ### SupervisorInterruptsAndDebug -/

def hyp_SupervisorInterruptsAndDebug_0 (d : Die) (p : Fin 2) (s : State) : Bool :=
  decide (s.supLive d p = true) &&
  decide (s.supIntr d p = true) &&
  decide ((s.supOf d p).idle = false)

def hyp_SupervisorInterruptsAndDebug_1 (d : Die) (p : Fin 2) (s : State) : Bool :=
  decide (s.supLive d p = true) &&
  decide ((s.supOf d p).idle = true) &&
  decide (s.supPend d = true) &&
  (match (s.setSup d p { s.supOf d p with idle := false }).supFetch d p with
  | .ok i t =>
    true
  | _ => false)

def hyp_SupervisorInterruptsAndDebug_2 (d : Die) (p : Fin 2) (who : Requester) (s : State) : Bool :=
  let st := R.SPR_STAT d p
  let ctl := R.SPR_DBG_CTRL d p
  let may : Bool := decide (s.accepts who ctl ∧ s.pairDebug who d p = true)
  decide (may) &&
  decide (s.fld st 0 3 = 4)

def hyp_SupervisorInterruptsAndDebug_3 (d : Die) (p : Fin 2) (who : Requester) (s : State) : Bool :=
  let st := R.SPR_STAT d p
  let ctl := R.SPR_DBG_CTRL d p
  let may : Bool := decide (s.accepts who ctl ∧ s.pairDebug who d p = true)
  decide (may) &&
  decide (s.fld st 0 3 = 1)

def hyp_SupervisorInterruptsAndDebug_4 (d : Die) (p : Fin 2) (who : Requester) (s : State) : Bool :=
  let ctl := R.SPR_DBG_CTRL d p
  decide (s.accepts who ctl) &&
  decide (s.pairDebug who d p = false)

theorem test_hyps_SupervisorInterruptsAndDebug : (
    hyp_SupervisorInterruptsAndDebug_0 (.d0) (0) (((tSpv [0x4c00] [0x1, 0x2, 0x3, 0x1800] 16 [(R.SPR_STAT .d0 0, 4), (R.DBL_STAT .d0 0, 2), (R.DBL_MASK .d0 0, 2), (R.SPR_DBG_CTRL .d0 0, 0x100)] [(0x18, 0x300)]).setSup .d0 0 {idle := false})) &&
    hyp_SupervisorInterruptsAndDebug_1 (.d0) (0) (((tSpv [0x4c00] [0x1, 0x2, 0x3, 0x1800] 0 [(R.SPR_STAT .d0 0, 0), (R.DBL_STAT .d0 0, 2), (R.DBL_MASK .d0 0, 2), (R.SPR_DBG_CTRL .d0 0, 0x100)] [(0x18, 0x300)]).setSup .d0 0 {idle := true})) &&
    hyp_SupervisorInterruptsAndDebug_2 (.d0) (0) (.pf1 .d0) (((tSpv [0x4c00] [0x1, 0x2, 0x3, 0x1800] 16 [(R.SPR_STAT .d0 0, 4), (R.DBL_STAT .d0 0, 2), (R.DBL_MASK .d0 0, 2), (R.SPR_DBG_CTRL .d0 0, 0x100)] [(0x18, 0x300)]).setSup .d0 0 {idle := false})) &&
    hyp_SupervisorInterruptsAndDebug_3 (.d0) (0) (.pf1 .d0) ((tSpv [0x4c00] [0x1, 0x2, 0x3, 0x1800] 0 [(R.SPR_STAT .d0 0, 1)] []).setUnit .d0 3 0 {st := 4}) &&
    hyp_SupervisorInterruptsAndDebug_4 (.d0) (0) (.pf1 .d0) (((tSpv [0x4c00] [0x1, 0x2, 0x3, 0x1800] 0 [(R.SPR_STAT .d0 0, 0), (R.DBL_STAT .d0 0, 2), (R.DBL_MASK .d0 0, 2), (R.SPR_DBG_CTRL .d0 0, 0x100)] [(0x18, 0x300)]).setSup .d0 0 {idle := true}))) = true := by decide +kernel

/-! ### LockstepTestsAndVerdicts -/

def hyp_LockstepTestsAndVerdicts_0 (d : Die) (p : Fin 2) (s : State) : Bool :=
  let i := p.val
  decide (s.pairClocked d i = true) &&
  decide ((s.supOf d i).trust = 0)

def hyp_LockstepTestsAndVerdicts_1 (d : Die) (p : Fin 2) (s : State) : Bool :=
  let i := p.val
  let st := R.SPR_STAT d i
  decide (s.pairClocked d i = true) &&
  decide ((s.supOf d i).trust = 0) &&
  decide (s.fld st 4 2 ≠ 0) &&
  decide (s.linkUp = true) &&
  decide ((s.mirrorOf i).held ≠ [])

def hyp_LockstepTestsAndVerdicts_2 (d : Die) (p : Fin 2) (s : State) : Bool :=
  let i := p.val
  decide (s.pairClocked d i = true) &&
  decide ((s.supOf d i).trust = 1)

def hyp_LockstepTestsAndVerdicts_3 (d : Die) (p : Fin 2) (s : State) : Bool :=
  let i := p.val
  let st := R.SPR_STAT d i
  decide (s.pairClocked d i = true) &&
  decide (s.fld st 4 2 = 0) &&
  decide (s.pairRuns d (1 - i) = true) &&
  decide (s.fld (R.RST_STAT d) 0 2 ≠ 0)

theorem test_hyps_LockstepTestsAndVerdicts : (
    hyp_LockstepTestsAndVerdicts_0 (.d1) (1) (tDies) &&
    hyp_LockstepTestsAndVerdicts_1 (.d0) (0) ((tDies.setMirror 0 {held := [{}, {planQ := [(0,[])]}]})) &&
    hyp_LockstepTestsAndVerdicts_2 (.d0) (0) (((tDies [(R.SPR_STAT .d0 0, 0x901), (R.SPR_STAT .d0 (1-0), 0), (R.SYS_DLY_STAT .d0, 0x20), (R.SYS_DLY_STAT .d1, 0x20), (R.SPR_LS_NEXT .d0 0, 0x0)]).setSup .d0 0 {trust := 1}).setMirror 0 {held := [{}, {planQ := [(0,[])]}]}) &&
    hyp_LockstepTestsAndVerdicts_3 (.d1) (1) (tDies)) = true := by decide +kernel

/-! ### PrimaryRolesMirrorAndMove -/

def hyp_PrimaryRolesMirrorAndMove_0 (d : Die) (p : Fin 2) (s : State) : Bool :=
  let e := d.other
  decide (s.linkUp = true) &&
  decide (s.primary = e) &&
  decide (s.pairRuns d p.val = true) &&
  decide (s.pairRuns e p.val = true)

def hyp_PrimaryRolesMirrorAndMove_1 (d : Die) (p : Fin 2) (s : State) : Bool :=
  decide (s.linkUp = true) &&
  decide (s.primary = d) &&
  decide (s.pairRuns d p.val = true) &&
  decide (s.fld (R.SPR_STAT d p.val) 4 2 ≠ 0)

def hyp_PrimaryRolesMirrorAndMove_2 (d : Die) (s : State) : Bool :=
  let e := d.other
  decide (s.linkUp = true) &&
  decide (s.primary = d) &&
  decide (s.running e = true)

def hyp_PrimaryRolesMirrorAndMove_3 (d : Die) (p : Fin 2) (s : State) : Bool :=
  decide (s.pairClocked d p.val = true) &&
  decide (s.fld (R.SPR_STAT d p.val) 4 2 ≠ 0) &&
  decide (s.canTake d = true)

theorem test_hyps_PrimaryRolesMirrorAndMove : (
    hyp_PrimaryRolesMirrorAndMove_0 (.d1) (0) (tDies) &&
    hyp_PrimaryRolesMirrorAndMove_1 (.d0) (0) (tDies) &&
    hyp_PrimaryRolesMirrorAndMove_2 (.d0) (tDies) &&
    hyp_PrimaryRolesMirrorAndMove_3 (.d0) (0) (tDies)) = true := by decide +kernel

/-! ### DuolayDeliveryLanesAndLink, its part DuolayDeliversOnceInOrder -/

def hyp_DuolayDeliversOnceInOrder_0 (d : Die) (s : State) : Bool :=
  let x := s.dlyOf d
  decide (s.rxLanes d ≠ 0) &&
  decide (s.linkUp = true) &&
  decide (x.nextSeq.length = 4)

def hyp_DuolayDeliversOnceInOrder_1 (d : Die) (cls : Fin 4) (seq : Nat) (s : State) : Bool :=
  let x := s.dlyOf d
  let k := x.nextSeq.getD cls.val 0
  decide (s.rxLanes d ≠ 0) &&
  decide (s.linkUp = true) &&
  decide (x.nextSeq.length = 4) &&
  decide (seq < k)

def hyp_DuolayDeliversOnceInOrder_2 (d : Die) (cls : Fin 4) (seq : Nat) (s : State) : Bool :=
  let x := s.dlyOf d
  let k := x.nextSeq.getD cls.val 0
  decide (s.rxLanes d ≠ 0) &&
  decide (s.linkUp = true) &&
  decide (x.nextSeq.length = 4) &&
  decide (k < seq) &&
  decide ((∀ h ∈ x.held, h.1 = cls.val → h.2.1 ≠ k ∧ h.2.1 ≠ seq))

def hyp_DuolayDeliversOnceInOrder_3 (d : Die) (cls : Fin 4) (s : State) : Bool :=
  let x := s.dlyOf d
  decide (s.rxLanes d ≠ 0) &&
  decide (s.linkUp = true) &&
  decide (x.nextSeq.length = 4) &&
  decide ((∀ h ∈ x.held, h.1 ≠ cls.val))

theorem test_hyps_DuolayDeliversOnceInOrder : (
    hyp_DuolayDeliversOnceInOrder_0 (.d0) ((tDies.setDly .d0 {nextSeq := [5,5,5,5], held := []})) &&
    hyp_DuolayDeliversOnceInOrder_1 (.d0) (0) (0) ((tDies.setDly .d0 {nextSeq := [5,5,5,5], held := []})) &&
    hyp_DuolayDeliversOnceInOrder_2 (.d0) (0) (6) ((tDies.setDly .d0 {nextSeq := [5,5,5,5], held := []})) &&
    hyp_DuolayDeliversOnceInOrder_3 (.d0) (0) ((tDies.setDly .d0 {nextSeq := [5,5,5,5], held := []}))) = true := by decide +kernel

/-! ### DuolayDeliveryLanesAndLink, its part DuolayLanesAndLink -/

def hyp_DuolayLanesAndLink_0 (d : Die) (lane : Fin 2) (s : State) : Bool :=
  let l := lane.val
  let st := R.SYS_DLY_STAT
  decide (s.linkUp = true) &&
  decide (s.flag (st d) (2 + l) = true) &&
  decide (s.flag (st d) (3 - l) = true)

def hyp_DuolayLanesAndLink_1 (d : Die) (lane : Fin 2) (s : State) : Bool :=
  let l := lane.val
  let st := R.SYS_DLY_STAT
  decide (s.linkUp = false) &&
  decide (s.flag (st d) (2 + l) = true)

def hyp_DuolayLanesAndLink_2 (d : Die) (lane : Fin 2) (s : State) : Bool :=
  let l := lane.val
  let st := R.SYS_DLY_STAT
  decide (s.linkUp = true) &&
  decide (s.flag (st d) (2 + l) = true) &&
  decide (s.flag (st d) (3 - l) = false)

def hyp_DuolayLanesAndLink_3 (s : State) : Bool :=
  decide (s.linkUp = true)

def hyp_DuolayLanesAndLink_4 (d : Die) (lane : Fin 2) (s : State) : Bool :=
  let e := d.other
  let l := lane.val
  let st := R.SYS_DLY_STAT
  decide (s.fld (st .d0) 4 2 = 2) &&
  decide (s.flag (st d) (2 + l) = false) &&
  decide (s.rxLanes e ≠ 0)

def hyp_DuolayLanesAndLink_5 (d : Die) (lane : Fin 2) (s : State) : Bool :=
  let e := d.other
  let l := lane.val
  let st := R.SYS_DLY_STAT
  decide (s.linkUp = true) &&
  decide (s.flag (st d) (2 + l) = false) &&
  decide (s.flag (st d) (3 - l) = true) &&
  decide (s.rxLanes e = 3)

def hyp_DuolayLanesAndLink_6 (s : State) : Bool :=
  let st := R.SYS_DLY_STAT
  decide (s.fld (st .d0) 4 2 = 3) &&
  decide (s.rst.kind = 0)

def hyp_DuolayLanesAndLink_7 (s : State) : Bool :=
  decide (s.linkUp = false) &&
  decide ((s.bootOf .d1).stage < 3)

theorem test_hyps_DuolayLanesAndLink : (
    hyp_DuolayLanesAndLink_0 (.d0) (0) ({tDies with dlyBuf := [(1, [(0,5,[9]),(1,3,[7])])]}) &&
    hyp_DuolayLanesAndLink_1 (.d0) (0) (tDies [(R.SYS_DLY_STAT .d0, 0x3f), (R.SYS_DLY_STAT .d1, 0x30), (R.SYS_DLY_DOWNCNT .d0, 0xFFFF), (R.SYS_DIE .d0, 6), (R.SYS_DIE .d1, 4)]) &&
    hyp_DuolayLanesAndLink_2 (.d0) (0) (tDies [(R.SYS_DLY_STAT .d0, 0x307), (R.SYS_DLY_STAT .d1, 0x20), (R.SYS_DLY_DOWNCNT .d0, 0xFFFF), (R.SYS_DIE .d0, 6), (R.SYS_DIE .d1, 4)]) &&
    hyp_DuolayLanesAndLink_3 ({tDies with dlyBuf := [(1, [(0,5,[9]),(1,3,[7])])]}) &&
    hyp_DuolayLanesAndLink_4 (.d0) (1) (tDies [(R.SYS_DLY_STAT .d0, 0x20), (R.SYS_DLY_STAT .d1, 0x2c), (R.SYS_DLY_DOWNCNT .d0, 0xFFFF), (R.SYS_DIE .d0, 6), (R.SYS_DIE .d1, 4)]) &&
    hyp_DuolayLanesAndLink_5 (.d1) (0) (tDies [(R.SYS_DLY_STAT .d0, 0x30f), (R.SYS_DLY_STAT .d1, 0x28), (R.SYS_DLY_DOWNCNT .d0, 0xFFFF), (R.SYS_DIE .d0, 6), (R.SYS_DIE .d1, 4)]) &&
    hyp_DuolayLanesAndLink_6 (State.reset) &&
    hyp_DuolayLanesAndLink_7 (State.reset)) = true := by decide +kernel

/-! ### StencilPrograms -/

def hyp_StencilPrograms_0 (d : Die) (n : Fin 16) (s : State) : Bool :=
  let i := n.val
  decide (s.stnStands d i 0)

def hyp_StencilPrograms_1 (d : Die) (n : Fin 16) (s : State) : Bool :=
  let i := n.val
  decide (s.stnStands d i 1)

def hyp_StencilPrograms_2 (d : Die) (n : Fin 16) (s : State) : Bool :=
  let i := n.val
  decide (s.stnStands d i 2)

def hyp_StencilPrograms_3 (d : Die) (n : Fin 16) (s : State) : Bool :=
  let i := n.val
  decide (s.stnStands d i 3)

def hyp_StencilPrograms_4 (d : Die) (n : Fin 16) (s : State) : Bool :=
  let i := n.val
  decide (s.stnStands d i 4)

def hyp_StencilPrograms_5 (d : Die) (n : Fin 16) (s : State) : Bool :=
  let i := n.val
  decide (s.stnStands d i 11)

def hyp_StencilPrograms_6 (d : Die) (n : Fin 16) (s : State) : Bool :=
  let i := n.val
  let w := s.stnWord d i
  decide (s.stnStands d i 12) &&
  decide (2 ≤ stnX w)

def hyp_StencilPrograms_7 (d : Die) (n : Fin 16) (s : State) : Bool :=
  let i := n.val
  let w := s.stnWord d i
  decide (s.stnStands d i 12) &&
  decide (stnX w < 2)

def hyp_StencilPrograms_8 (d : Die) (n : Fin 16) (s : State) : Bool :=
  let i := n.val
  decide (s.stnStands d i 5)

def hyp_StencilPrograms_9 (d : Die) (n : Fin 16) (s : State) : Bool :=
  let i := n.val
  decide (s.stnStands d i 6)

def hyp_StencilPrograms_10 (d : Die) (n : Fin 16) (s : State) : Bool :=
  let i := n.val
  decide (s.stnStands d i 7)

def hyp_StencilPrograms_11 (d : Die) (n : Fin 16) (s : State) : Bool :=
  let i := n.val
  decide (s.stnStands d i 8)

def hyp_StencilPrograms_12 (d : Die) (n : Fin 16) (s : State) : Bool :=
  let i := n.val
  decide (s.stnStands d i 9) &&
  decide (s.stnFifo d i = none) &&
  decide (s.flag (R.STN_CFG d i) 28 = false)

def hyp_StencilPrograms_13 (d : Die) (n : Fin 16) (s : State) : Bool :=
  let i := n.val
  decide (s.stnStands d i 9) &&
  (match s.stnFifo d i with
  | some q =>
    true
  | _ => false)

def hyp_StencilPrograms_14 (d : Die) (n : Fin 16) (s : State) : Bool :=
  let i := n.val
  decide (s.stnStands d i 10) &&
  (match s.stnFifo d i with
  | some q =>
    true
  | _ => false)

def hyp_StencilPrograms_15 (d : Die) (n : Fin 16) (s : State) : Bool :=
  let i := n.val
  decide (s.stnStands d i 10) &&
  decide (s.stnFifo d i = none) &&
  decide (s.flag (R.STN_CFG d i) 28 = false)

def hyp_StencilPrograms_16 (d : Die) (n : Fin 16) (s : State) : Bool :=
  let i := n.val
  decide (s.stnStands d i 13)

def hyp_StencilPrograms_17 (d : Die) (n : Fin 16) (s : State) : Bool :=
  let i := n.val
  decide (s.stnStands d i 14)

def hyp_StencilPrograms_18 (d : Die) (n : Fin 16) (s : State) : Bool :=
  let i := n.val
  decide (s.stnStands d i 15) &&
  decide (s.flag (R.STN_CFG d i) 28 = false)

theorem test_hyps_StencilPrograms : (
    hyp_StencilPrograms_0 (.d0) (3) (tStn (tOp 0 7 0 0 9)) &&
    hyp_StencilPrograms_1 (.d0) (3) (tStn (tOp 1 7 0 0 9)) &&
    hyp_StencilPrograms_2 (.d0) (3) (tStn (tOp 2 7 0 0 9)) &&
    hyp_StencilPrograms_3 (.d0) (3) (tStn (tOp 3 7 0 0 9)) &&
    hyp_StencilPrograms_4 (.d0) (3) (tStn (tOp 4 7 0 0 9)) &&
    hyp_StencilPrograms_5 (.d0) (3) (tStn (tOp 11 7 0 0 9)) &&
    hyp_StencilPrograms_6 (.d0) (3) (tStn (tOp 12 7 3 5 0xFFFF) {} [(R.STN_SR .d0 3, 0x81234567), (R.STN_CNT .d0 3, 1), (R.STN_CMP .d0 3, 0x5567), (R.STN_FLAG_SET .d0, 0x8101), (R.STN_STAT .d0 3, 0x1F11)]) &&
    hyp_StencilPrograms_7 (.d0) (3) (tStn (tOp 12 7 0 0 9)) &&
    hyp_StencilPrograms_8 (.d0) (3) (tStn (tOp 5 7 0 0 9)) &&
    hyp_StencilPrograms_9 (.d0) (3) (tStn (tOp 6 7 0 0 9)) &&
    hyp_StencilPrograms_10 (.d0) (3) (tStn (tOp 7 7 0 0 9)) &&
    hyp_StencilPrograms_11 (.d0) (3) (tStn (tOp 8 7 0 0 9)) &&
    hyp_StencilPrograms_12 (.d0) (3) (tStn (tOp 9 7 0 0 9)) &&
    hyp_StencilPrograms_13 (.d0) (3) (tStn (tOp 9 0 0 0 0) {} [(R.STN_SR .d0 3, 0x81234567), (R.STN_OWNER .d0 3, 0x10020), (R.SFQ_CTRL .d0 4, 49)]) &&
    hyp_StencilPrograms_14 (.d0) (3) ((tStn (tOp 10 0 0 0 0) {} [(R.SFQ_CTRL .d0 4, 0x31)]).setSfq .d0 4 {lanes := [1,2]}) &&
    hyp_StencilPrograms_15 (.d0) (3) (tStn (tOp 10 7 0 0 9)) &&
    hyp_StencilPrograms_16 (.d0) (3) (tStn (tOp 13 7 0 0 9)) &&
    hyp_StencilPrograms_17 (.d0) (3) (tStn (tOp 14 7 0 0 9)) &&
    hyp_StencilPrograms_18 (.d0) (3) (tStn (tOp 15 7 0 0 9))) = true := by decide +kernel

/-! ### StencilTicksAndWaits -/

def hyp_StencilTicksAndWaits_0 (d : Die) (n : Fin 16) (s : State) : Bool :=
  let i := n.val
  let x := s.stnOf d i
  let period := if s.stnRuns d i then x.div else s.stnD d i
  decide (s.unitsRun d = true) &&
  decide (x.acc < period)

def hyp_StencilTicksAndWaits_1 (d : Die) (n : Fin 16) (s : State) : Bool :=
  let i := n.val
  let x := s.stnOf d i
  decide (s.stnInside d i 0) &&
  decide (x.left ≤ 1)

def hyp_StencilTicksAndWaits_2 (d : Die) (n : Fin 16) (s : State) : Bool :=
  let i := n.val
  let x := s.stnOf d i
  decide (s.stnInside d i 0) &&
  decide (1 < x.left)

def hyp_StencilTicksAndWaits_3 (d : Die) (n : Fin 16) (s : State) : Bool :=
  let i := n.val
  let x := s.stnOf d i
  decide (s.stnInside d i 1) &&
  decide (1 < x.sub)

def hyp_StencilTicksAndWaits_4 (d : Die) (n : Fin 16) (s : State) : Bool :=
  let i := n.val
  let x := s.stnOf d i
  decide (s.stnInside d i 1) &&
  decide (x.sub ≤ 1) &&
  decide (x.left ≤ 1)

def hyp_StencilTicksAndWaits_5 (d : Die) (n : Fin 16) (s : State) : Bool :=
  let i := n.val
  let x := s.stnOf d i
  decide (s.stnInside d i 1) &&
  decide (x.sub ≤ 1) &&
  decide (1 < x.left)

def hyp_StencilTicksAndWaits_6 (d : Die) (n : Fin 16) (s : State) : Bool :=
  let i := n.val
  let x := s.stnOf d i
  decide (s.stnInside d i 2) &&
  decide (1 < x.sub)

def hyp_StencilTicksAndWaits_7 (d : Die) (n : Fin 16) (s : State) : Bool :=
  let i := n.val
  let x := s.stnOf d i
  decide (s.stnInside d i 2) &&
  decide (x.sub ≤ 1) &&
  decide (x.left ≤ 1)

def hyp_StencilTicksAndWaits_8 (d : Die) (n : Fin 16) (s : State) : Bool :=
  let i := n.val
  let x := s.stnOf d i
  decide (s.stnInside d i 2) &&
  decide (x.sub ≤ 1) &&
  decide (1 < x.left)

def hyp_StencilTicksAndWaits_9 (d : Die) (n : Fin 16) (s : State) : Bool :=
  let i := n.val
  decide (s.stnInside d i 3)

def hyp_StencilTicksAndWaits_10 (d : Die) (n : Fin 16) (s : State) : Bool :=
  let i := n.val
  decide (s.stnInside d i 3) &&
  (match s.stnOutPin d i with
  | some k =>
    decide (s.flag (R.PIN_CFG d k) 25 = false) &&
    decide (s.padIsHeld d k = false)
  | _ => false)

def hyp_StencilTicksAndWaits_11 (d : Die) (n : Fin 16) (s : State) : Bool :=
  let i := n.val
  decide (s.stnInside d i 4)

def hyp_StencilTicksAndWaits_12 (d : Die) (n : Fin 16) (s : State) : Bool :=
  let i := n.val
  let w := s.stnWord d i
  let x := s.stnOf d i
  decide (s.stnInside d i 4) &&
  decide (stnImm w ≠ 0) &&
  decide (x.left = 0)

def hyp_StencilTicksAndWaits_13 (d : Die) (n : Fin 16) (s : State) : Bool :=
  let i := n.val
  decide (s.stnInside d i 4)

def hyp_StencilTicksAndWaits_14 (d : Die) (n : Fin 16) (s : State) : Bool :=
  let i := n.val
  decide (s.stnInside d i 11) &&
  decide (s.flag (R.STN_STAT d i) 4 = true)

def hyp_StencilTicksAndWaits_15 (d : Die) (n : Fin 16) (s : State) : Bool :=
  let i := n.val
  let w := s.stnWord d i
  decide (s.stnInside d i 12) &&
  decide (((s.fld (R.STN_FLAG_SET d) 0 16).testBit (stnImm w % 16) ↔ stnX w = 2))

theorem test_hyps_StencilTicksAndWaits : (
    hyp_StencilTicksAndWaits_0 (.d0) (3) (tStn (tOp 4 7 6 2 0x8) { busy := true, left := 0, sub := 0 } [(R.STN_SR .d0 3, 0x81234567), (R.STN_TXDATA .d0 3, 99), (R.STN_STAT .d0 3, 7953), (R.STN_FLAG_SET .d0, 0), (R.STN_PINS .d0 3, 0x2A0505), (R.PIN_CFG .d0 5, 0x32), (R.STN_DIV .d0 3, 0x100)]) &&
    hyp_StencilTicksAndWaits_1 (.d0) (3) (tStn (tOp 0 7 1 2 0x8) { busy := true, left := 1, sub := 0 } [(R.STN_SR .d0 3, 0x81234567), (R.STN_TXDATA .d0 3, 99), (R.STN_STAT .d0 3, 7953), (R.STN_FLAG_SET .d0, 0), (R.STN_PINS .d0 3, 0x2A0505), (R.PIN_CFG .d0 5, 0x32), (R.STN_DIV .d0 3, 0x100)]) &&
    hyp_StencilTicksAndWaits_2 (.d0) (3) (tStn (tOp 0 7 1 2 0x8) { busy := true, left := 8, sub := 0 } [(R.STN_SR .d0 3, 0x81234567), (R.STN_TXDATA .d0 3, 99), (R.STN_STAT .d0 3, 7953), (R.STN_FLAG_SET .d0, 0), (R.STN_PINS .d0 3, 0x2A0505), (R.PIN_CFG .d0 5, 0x32), (R.STN_DIV .d0 3, 0x100)]) &&
    hyp_StencilTicksAndWaits_3 (.d0) (3) (tStn (tOp 1 7 1 2 0x8) { busy := true, left := 8, sub := 2 } [(R.STN_SR .d0 3, 0x81234567), (R.STN_TXDATA .d0 3, 99), (R.STN_STAT .d0 3, 7953), (R.STN_FLAG_SET .d0, 0), (R.STN_PINS .d0 3, 0x2A0505), (R.PIN_CFG .d0 5, 0x32), (R.STN_DIV .d0 3, 0x100)]) &&
    hyp_StencilTicksAndWaits_4 (.d0) (3) (tStn (tOp 1 7 0 2 0x8) { busy := true, left := 1, sub := 0 } [(R.STN_SR .d0 3, 0x81234567), (R.STN_TXDATA .d0 3, 99), (R.STN_STAT .d0 3, 7953), (R.STN_FLAG_SET .d0, 0), (R.STN_PINS .d0 3, 0x2A0505), (R.PIN_CFG .d0 5, 0x32), (R.STN_DIV .d0 3, 0x100)]) &&
    hyp_StencilTicksAndWaits_5 (.d0) (3) (tStn (tOp 1 7 1 2 0x8) { busy := true, left := 8, sub := 0 } [(R.STN_SR .d0 3, 0x81234567), (R.STN_TXDATA .d0 3, 99), (R.STN_STAT .d0 3, 7953), (R.STN_FLAG_SET .d0, 0), (R.STN_PINS .d0 3, 0x2A0505), (R.PIN_CFG .d0 5, 0x32), (R.STN_DIV .d0 3, 0x100)]) &&
    hyp_StencilTicksAndWaits_6 (.d0) (3) (tStn (tOp 2 7 1 2 0x8) { busy := true, left := 1, sub := 2 } [(R.STN_SR .d0 3, 0x81234567), (R.STN_TXDATA .d0 3, 99), (R.STN_STAT .d0 3, 7953), (R.STN_FLAG_SET .d0, 0), (R.STN_PINS .d0 3, 0x2A0505), (R.PIN_CFG .d0 5, 0x32), (R.STN_DIV .d0 3, 0x100)]) &&
    hyp_StencilTicksAndWaits_7 (.d0) (3) (tStn (tOp 2 7 1 2 0x8) { busy := true, left := 0, sub := 1 } [(R.STN_SR .d0 3, 0x81234567), (R.STN_TXDATA .d0 3, 99), (R.STN_STAT .d0 3, 7953), (R.STN_FLAG_SET .d0, 0), (R.STN_PINS .d0 3, 0x2A0505), (R.PIN_CFG .d0 5, 0x32), (R.STN_DIV .d0 3, 0x100)]) &&
    hyp_StencilTicksAndWaits_8 (.d0) (3) (tStn (tOp 2 7 1 2 0x8) { busy := true, left := 8, sub := 1 } [(R.STN_SR .d0 3, 0x81234567), (R.STN_TXDATA .d0 3, 99), (R.STN_STAT .d0 3, 7953), (R.STN_FLAG_SET .d0, 0), (R.STN_PINS .d0 3, 0x2A0505), (R.PIN_CFG .d0 5, 0x32), (R.STN_DIV .d0 3, 0x100)]) &&
    hyp_StencilTicksAndWaits_9 (.d0) (3) (tStn (tOp 3 7 3 2 0x8) { busy := true, left := 1, sub := 0 } [(R.STN_SR .d0 3, 0x81234567), (R.STN_TXDATA .d0 3, 99), (R.STN_STAT .d0 3, 7953), (R.STN_FLAG_SET .d0, 0), (R.STN_PINS .d0 3, 0x2A0505), (R.PIN_CFG .d0 5, 0x32), (R.STN_DIV .d0 3, 0x100)]) &&
    hyp_StencilTicksAndWaits_10 (.d0) (3) (tStn (tOp 3 7 3 2 0x8) { busy := true, left := 1, sub := 0 } [(R.STN_SR .d0 3, 0x81234567), (R.STN_TXDATA .d0 3, 99), (R.STN_STAT .d0 3, 7953), (R.STN_FLAG_SET .d0, 0), (R.STN_PINS .d0 3, 0x2A0505), (R.PIN_CFG .d0 5, 0x32), (R.STN_DIV .d0 3, 0x100)]) &&
    hyp_StencilTicksAndWaits_11 (.d0) (3) (tStn (tOp 4 7 6 2 0x8) { busy := true, left := 0, sub := 0 } [(R.STN_SR .d0 3, 0x81234567), (R.STN_TXDATA .d0 3, 99), (R.STN_STAT .d0 3, 7953), (R.STN_FLAG_SET .d0, 0), (R.STN_PINS .d0 3, 0x2A0505), (R.PIN_CFG .d0 5, 0x32), (R.STN_DIV .d0 3, 0x100)]) &&
    hyp_StencilTicksAndWaits_12 (.d0) (3) (tStn (tOp 4 7 6 2 0x8) { busy := true, left := 0, sub := 0 } [(R.STN_SR .d0 3, 0x81234567), (R.STN_TXDATA .d0 3, 99), (R.STN_STAT .d0 3, 7953), (R.STN_FLAG_SET .d0, 0), (R.STN_PINS .d0 3, 0x2A0505), (R.PIN_CFG .d0 5, 0x32), (R.STN_DIV .d0 3, 0x100)]) &&
    hyp_StencilTicksAndWaits_13 (.d0) (3) (tStn (tOp 4 7 6 2 0x8) { busy := true, left := 0, sub := 0 } [(R.STN_SR .d0 3, 0x81234567), (R.STN_TXDATA .d0 3, 99), (R.STN_STAT .d0 3, 7953), (R.STN_FLAG_SET .d0, 0), (R.STN_PINS .d0 3, 0x2A0505), (R.PIN_CFG .d0 5, 0x32), (R.STN_DIV .d0 3, 0x100)]) &&
    hyp_StencilTicksAndWaits_14 (.d0) (3) (tStn (tOp 11 7 7 2 0x8) { busy := true, left := 1, sub := 0 } [(R.STN_SR .d0 3, 0x81234567), (R.STN_TXDATA .d0 3, 99), (R.STN_STAT .d0 3, 7953), (R.STN_FLAG_SET .d0, 0), (R.STN_PINS .d0 3, 0x2A0505), (R.PIN_CFG .d0 5, 0x32), (R.STN_DIV .d0 3, 0x100)]) &&
    hyp_StencilTicksAndWaits_15 (.d0) (3) (tStn (tOp 12 7 3 2 0x8) { busy := true, left := 1, sub := 0 } [(R.STN_SR .d0 3, 0x81234567), (R.STN_TXDATA .d0 3, 99), (R.STN_STAT .d0 3, 7953), (R.STN_FLAG_SET .d0, 0), (R.STN_PINS .d0 3, 0x2A0505), (R.PIN_CFG .d0 5, 0x32), (R.STN_DIV .d0 3, 0x100)])) = true := by decide +kernel

/-! ### StencilControlAndPins -/

def hyp_StencilControlAndPins_0 (who : Requester) (d : Die) (n : Fin 16) (s : State) : Bool :=
  let i := n.val
  let ctl := R.STN_CTRL d i
  let own (a : Nat) : Bool := decide (s.writes who a ∧ s.fld (R.STN_OWNER d i) 0 8 = who.unitOwner d)
  decide (own ctl) &&
  decide (s.stnState d i ≠ 3) &&
  decide ((s.fld (R.STN_PINS d i) 8 6 = 0x3F ∨ (s.stnOutPin d i).isSome = true))

def hyp_StencilControlAndPins_1 (who : Requester) (d : Die) (n : Fin 16) (s : State) : Bool :=
  let i := n.val
  let ctl := R.STN_CTRL d i
  let own (a : Nat) : Bool := decide (s.writes who a ∧ s.fld (R.STN_OWNER d i) 0 8 = who.unitOwner d)
  decide (own ctl) &&
  decide (s.stnState d i = 3)

def hyp_StencilControlAndPins_2 (who : Requester) (d : Die) (n : Fin 16) (s : State) : Bool :=
  let i := n.val
  let ctl := R.STN_CTRL d i
  let own (a : Nat) : Bool := decide (s.writes who a ∧ s.fld (R.STN_OWNER d i) 0 8 = who.unitOwner d)
  decide (own ctl) &&
  decide (s.stnRuns d i = true)

def hyp_StencilControlAndPins_3 (who : Requester) (d : Die) (n : Fin 16) (s : State) : Bool :=
  let i := n.val
  let ctl := R.STN_CTRL d i
  let own (a : Nat) : Bool := decide (s.writes who a ∧ s.fld (R.STN_OWNER d i) 0 8 = who.unitOwner d)
  decide (own ctl)

def hyp_StencilControlAndPins_4 (d : Die) (n : Fin 16) (s : State) : Bool :=
  let i := n.val
  let st := R.STN_STAT d i
  decide (s.unitsRun d = true) &&
  decide (s.stnRuns d i = true) &&
  decide (s.flag (R.STN_CFG d i) 0 = true) &&
  decide (s.flag st 6 = false) &&
  decide (s.fld (R.STN_PINS d i) 16 6 < 48)

def hyp_StencilControlAndPins_5 (d : Die) (n : Fin 16) (s : State) : Bool :=
  let i := n.val
  let st := R.STN_STAT d i
  decide (s.stnRuns d i = true) &&
  decide ((s.hunit d 7 i).st ≠ 4)

def hyp_StencilControlAndPins_6 (who : Requester) (d : Die) (n : Fin 16) (s : State) : Bool :=
  let i := n.val
  let st := R.STN_STAT d i
  let own (a : Nat) : Bool := decide (s.writes who a ∧ s.fld (R.STN_OWNER d i) 0 8 = who.unitOwner d)
  decide (own (R.STN_TXDATA d i)) &&
  decide (s.flag st 4 = false)

def hyp_StencilControlAndPins_7 (who : Requester) (d : Die) (n : Fin 16) (s : State) : Bool :=
  let i := n.val
  let st := R.STN_STAT d i
  let own (a : Nat) : Bool := decide (s.writes who a ∧ s.fld (R.STN_OWNER d i) 0 8 = who.unitOwner d)
  decide (own (R.STN_TXDATA d i)) &&
  decide (s.flag st 4 = true)

def hyp_StencilControlAndPins_8 (who : Requester) (d : Die) (s : State) : Bool :=
  decide (s.writes who (R.STN_FLAG_SET d)) &&
  decide (s.stnFlagWriter who d = true)

def hyp_StencilControlAndPins_9 (who : Requester) (d : Die) (s : State) : Bool :=
  decide (s.writes who (R.STN_FLAG_CLR d)) &&
  decide (s.stnFlagWriter who d = true)

def hyp_StencilControlAndPins_10 (who : Requester) (d : Die) (k : Fin 48) (v : Word) (s : State) : Bool :=
  let pin := R.PIN_CFG d k.val
  let cfg := (s.getReg pin &&& ~~~(0x00033FF7 : Word)) ||| (v &&& 0x00033FF7)
  let change : Bool := decide (bits (s.getReg pin) 0 3 ≠ bits cfg 0 3 ∨ bits (s.getReg pin) 4 4 ≠ bits cfg 4 4)
  decide (s.writes who pin) &&
  decide ((match who with | .ce _ _ => false | _ => true) = true) &&
  decide (bits v 0 3 ≤ 2) &&
  decide ((bit v 10 && bit v 11) = false) &&
  decide (s.flag pin 25 = false) &&
  decide ((!change || ([s.getReg pin, cfg].all (fun w => bits w 0 3 != 2 || !s.stnRuns d (bits w 4 4)) && (bits cfg 0 3 != 2 || s.fld (R.STN_OWNER d (bits cfg 4 4)) 0 8 == 0x20 || s.stnState d (bits cfg 4 4) == 0))) = true)

def hyp_StencilControlAndPins_11 (who : Requester) (d : Die) (k : Fin 48) (v : Word) (s : State) : Bool :=
  let pin := R.PIN_CFG d k.val
  decide (s.writes who pin) &&
  decide ((match who with | .ce _ _ => false | _ => true) = true) &&
  decide (2 < bits v 0 3)

def hyp_StencilControlAndPins_12 (d : Die) (k : Fin 48) (s : State) : Bool :=
  let pin := R.PIN_CFG d k.val
  decide (s.flag pin 25 = true) &&
  decide (s.padIsHeld d k = false)

def hyp_StencilControlAndPins_13 (d : Die) (k : Fin 48) (s : State) : Bool :=
  decide (s.padIsHeld d k = true)

theorem test_hyps_StencilControlAndPins : (
    hyp_StencilControlAndPins_0 (tSup) (.d0) (3) (tStn 0 {} []) &&
    hyp_StencilControlAndPins_1 (tSup) (.d0) (3) (tStn 0 {} [(R.STN_STAT .d0 3, 0x1F13), (R.STN_PINS .d0 3, 0x3F3F)]) &&
    hyp_StencilControlAndPins_2 (tSup) (.d0) (3) (tStn 0 {} []) &&
    hyp_StencilControlAndPins_3 (tSup) (.d0) (3) (tStn 0 {} []) &&
    hyp_StencilControlAndPins_4 (.d0) (3) (tStn 0 {} [(R.STN_CFG .d0 3, 0x1F0001), (R.STN_PINS .d0 3, 0x90000), (R.STN_SR .d0 3, 5)]) &&
    hyp_StencilControlAndPins_5 (.d0) (3) (tStn 0 {} []) &&
    hyp_StencilControlAndPins_6 (tSup) (.d0) (3) (tStn 0 {} []) &&
    hyp_StencilControlAndPins_7 (tSup) (.d0) (3) (tStn 0 {} [(R.STN_STAT .d0 3, 0x1F13), (R.STN_PINS .d0 3, 0x3F3F)]) &&
    hyp_StencilControlAndPins_8 (tSup) (.d0) (tStn 0 {} []) &&
    hyp_StencilControlAndPins_9 (tSup) (.d0) (tStn 0 {} []) &&
    hyp_StencilControlAndPins_10 (tSup) (.d0) (9) (0) (tStn 0 {} []) &&
    hyp_StencilControlAndPins_11 (tSup) (.d0) (9) (3) (tUp) &&
    hyp_StencilControlAndPins_12 (.d0) (9) (tw tUp [(R.PIN_CFG .d0 9, 0x2010001)]) &&
    hyp_StencilControlAndPins_13 (.d0) (9) ({tw tUp [(R.PIN_CFG .d0 9, 0x2010001)] with padHeld := [(9,true)]})) = true := by decide +kernel

/-! ### StreamFifosPackUnits -/

def hyp_StreamFifosPackUnits_0 (d : Die) (n : Fin 32) (epoch : Nat) (s : State) : Bool :=
  let i := n.val
  let q := s.sfqOf d i
  let on : Bool := decide (s.unitsRun d = true ∧ s.flag (R.SFQ_CTRL d i) 0 = true)
  let live : Bool := decide (on ∧ epoch = s.sfqAccepted d i ∧ sfqCur s d i = true ∧ q.skip = false)
  decide (live) &&
  decide (s.flag (R.SFQ_CTRL d i) 2 = false) &&
  decide (q.pkt = none) &&
  decide (q.entries.length < 64) &&
  decide (q.lanes.length < 7)

def hyp_StreamFifosPackUnits_1 (d : Die) (n : Fin 32) (epoch : Nat) (s : State) : Bool :=
  let i := n.val
  let q := s.sfqOf d i
  let on : Bool := decide (s.unitsRun d = true ∧ s.flag (R.SFQ_CTRL d i) 0 = true)
  let live : Bool := decide (on ∧ epoch = s.sfqAccepted d i ∧ sfqCur s d i = true ∧ q.skip = false)
  decide (live) &&
  decide (s.flag (R.SFQ_CTRL d i) 2 = false) &&
  decide (q.pkt = none) &&
  decide (q.entries.length < 64) &&
  decide (q.lanes.length = 7)

def hyp_StreamFifosPackUnits_2 (d : Die) (n : Fin 32) (epoch : Nat) (s : State) : Bool :=
  let i := n.val
  let q := s.sfqOf d i
  let on : Bool := decide (s.unitsRun d = true ∧ s.flag (R.SFQ_CTRL d i) 0 = true)
  let live : Bool := decide (on ∧ epoch = s.sfqAccepted d i ∧ sfqCur s d i = true ∧ q.skip = false)
  decide (live) &&
  decide (s.flag (R.SFQ_CTRL d i) 2 = true) &&
  decide (q.pkt = none) &&
  decide (q.lanes = []) &&
  decide (q.entries.length < 63)

def hyp_StreamFifosPackUnits_3 (d : Die) (n : Fin 32) (epoch : Nat) (s : State) : Bool :=
  let i := n.val
  let q := s.sfqOf d i
  let on : Bool := decide (s.unitsRun d = true ∧ s.flag (R.SFQ_CTRL d i) 0 = true)
  let live : Bool := decide (on ∧ epoch = s.sfqAccepted d i ∧ sfqCur s d i = true ∧ q.skip = false)
  decide (live) &&
  decide (64 ≤ q.entries.length)

def hyp_StreamFifosPackUnits_4 (d : Die) (n : Fin 32) (epoch : Nat) (s : State) : Bool :=
  let i := n.val
  let src := s.sfqSource d i
  let on : Bool := decide (s.unitsRun d = true ∧ s.flag (R.SFQ_CTRL d i) 0 = true)
  decide (on) &&
  decide (epoch ≠ s.sfqAccepted d i) &&
  decide ((s.hunit d src.1 src.2).fenceSec = some (s.now d).sec)

def hyp_StreamFifosPackUnits_5 (d : Die) (n : Fin 32) (s : State) : Bool :=
  let i := n.val
  let q := s.sfqOf d i
  decide (s.unitsRun d = true) &&
  decide (s.fld (R.SFQ_IDLE d i) 0 16 ≠ 0) &&
  decide (q.pkt = none) &&
  decide (q.skip = false) &&
  decide (q.lanes ≠ []) &&
  decide (q.entries.length < 64)

def hyp_StreamFifosPackUnits_6 (d : Die) (n : Fin 32) (s : State) : Bool :=
  let i := n.val
  let q := s.sfqOf d i
  decide (s.unitsRun d = true) &&
  decide (s.fld (R.SFQ_IDLE d i) 0 16 ≠ 0) &&
  (match q.pkt with
  | some p =>
    decide (q.lanes = [])
  | _ => false)

theorem test_hyps_StreamFifosPackUnits : (
    hyp_StreamFifosPackUnits_0 (.d0) (4) (1) ((tw tUp [(R.SFQ_CTRL .d0 4, 0x31), (R.SFQ_IDLE .d0 4, 5)]).setSfq .d0 4 {lanes := [1,2,3], laneEpoch := 1}) &&
    hyp_StreamFifosPackUnits_1 (.d0) (4) (1) ((tw tUp [(R.SFQ_CTRL .d0 4, 0x31)]).setSfq .d0 4 {lanes := [1,2,3,4,5,6,7], laneEpoch := 1, entries := List.replicate 63 ⟨5,8,1,false,false,false,true,false⟩}) &&
    hyp_StreamFifosPackUnits_2 (.d0) (4) (1) ((tw tUp [(R.SFQ_CTRL .d0 4, 0x37)]).setSfq .d0 4 {entries := List.replicate 62 ⟨5,8,1,false,false,false,true,false⟩}) &&
    hyp_StreamFifosPackUnits_3 (.d0) (4) (1) ((tw tUp [(R.SFQ_CTRL .d0 4, 0x31)]).setSfq .d0 4 {lanes := [1,2], laneEpoch := 1, entries := List.replicate 64 ⟨5,8,1,false,false,false,true,false⟩}) &&
    hyp_StreamFifosPackUnits_4 (.d0) (4) (2) ((tw tUp [(R.SFQ_CTRL .d0 4, 0x37)]).setUnit .d0 7 3 {fenceSec := some 0}) &&
    hyp_StreamFifosPackUnits_5 (.d0) (4) ((tw tUp [(R.SFQ_CTRL .d0 4, 0x31), (R.SFQ_IDLE .d0 4, 5)]).setSfq .d0 4 {lanes := [1,2,3], laneEpoch := 1}) &&
    hyp_StreamFifosPackUnits_6 (.d0) (4) ((tw tUp [(R.SFQ_CTRL .d0 4, 0x37), (R.SFQ_IDLE .d0 4, 5)]).setSfq .d0 4 {pkt := some ⟨9,true,1⟩, seq := 65535, entries := [⟨5,8,1,false,false,false,true,false⟩, ⟨0,8,1,false,false,true,false,false⟩, ⟨5,8,1,false,false,false,true,false⟩]})) = true := by decide +kernel

/-! ### StreamFifoReadsAndDrains -/

def hyp_StreamFifoReadsAndDrains_0 (who : Requester) (d : Die) (n : Fin 32) (v : Word) (s : State) : Bool :=
  let i := n.val
  let q := s.sfqOf d i
  let ctl := R.SFQ_CTRL d i
  let mine : Bool := decide (s.fld (R.SFQ_OWNER d i) 0 8 = who.unitOwner d)
  let fit : Bool := decide (mine ∧ (bit v 2 = true → bit v 1 = true) ∧ bits v 4 5 ≤ 19 ∧ bits v 16 3 = 0)
  let runs : Bool := decide (bit v 0 = true ∧ s.flag ctl 0 = true)
  decide (s.accepts who ctl) &&
  decide (fit) &&
  decide (runs) &&
  decide (q.lanes ≠ []) &&
  decide (q.entries.length < 64)

def hyp_StreamFifoReadsAndDrains_1 (who : Requester) (d : Die) (n : Fin 32) (v : Word) (s : State) : Bool :=
  let i := n.val
  let q := s.sfqOf d i
  let ctl := R.SFQ_CTRL d i
  let mine : Bool := decide (s.fld (R.SFQ_OWNER d i) 0 8 = who.unitOwner d)
  let fit : Bool := decide (mine ∧ (bit v 2 = true → bit v 1 = true) ∧ bits v 4 5 ≤ 19 ∧ bits v 16 3 = 0)
  let runs : Bool := decide (bit v 0 = true ∧ s.flag ctl 0 = true)
  decide (s.accepts who ctl) &&
  decide (fit) &&
  decide (runs) &&
  decide (q.lanes = []) &&
  (match q.pkt with
  | some p =>
    true
  | _ => false)

def hyp_StreamFifoReadsAndDrains_2 (who : Requester) (d : Die) (n : Fin 32) (v : Word) (s : State) : Bool :=
  let i := n.val
  let ctl := R.SFQ_CTRL d i
  let mine : Bool := decide (s.fld (R.SFQ_OWNER d i) 0 8 = who.unitOwner d)
  let fit : Bool := decide (mine ∧ (bit v 2 = true → bit v 1 = true) ∧ bits v 4 5 ≤ 19 ∧ bits v 16 3 = 0)
  decide (s.accepts who ctl) &&
  decide (fit)

def hyp_StreamFifoReadsAndDrains_3 (who : Requester) (d : Die) (n : Fin 32) (v : Word) (s : State) : Bool :=
  let i := n.val
  let ctl := R.SFQ_CTRL d i
  let mine : Bool := decide (s.fld (R.SFQ_OWNER d i) 0 8 = who.unitOwner d)
  let fit : Bool := decide (mine ∧ (bit v 2 = true → bit v 1 = true) ∧ bits v 4 5 ≤ 19 ∧ bits v 16 3 = 0)
  let runs : Bool := decide (bit v 0 = true ∧ s.flag ctl 0 = true)
  decide (s.accepts who ctl) &&
  decide (fit) &&
  decide (runs)

def hyp_StreamFifoReadsAndDrains_4 (who : Requester) (d : Die) (n : Fin 32) (v : Word) (s : State) : Bool :=
  let i := n.val
  let ctl := R.SFQ_CTRL d i
  let mine : Bool := decide (s.fld (R.SFQ_OWNER d i) 0 8 = who.unitOwner d)
  decide (s.accepts who ctl) &&
  decide (mine) &&
  decide (bit v 2 = true) &&
  decide (bit v 1 = false)

def hyp_StreamFifoReadsAndDrains_5 (who : Requester) (d : Die) (n : Fin 32) (s : State) : Bool :=
  let i := n.val
  let ctl := R.SFQ_CTRL d i
  let mine : Bool := decide (s.fld (R.SFQ_OWNER d i) 0 8 = who.unitOwner d)
  decide (s.accepts who ctl) &&
  decide (¬mine)

def hyp_StreamFifoReadsAndDrains_6 (who : Requester) (d : Die) (n : Fin 32) (s : State) : Bool :=
  let i := n.val
  let q := s.sfqOf d i
  let lo := R.SFQ_RDATA_LO d i
  let mine : Bool := decide (s.fld (R.SFQ_OWNER d i) 0 8 = who.unitOwner d)
  let current : Bool := sfqCur s d i
  let port : Bool := decide (who ≠ .h2 ∧ who ≠ .h2s ∧ who ≠ .h3)
  decide (mine) &&
  decide (port) &&
  decide (current) &&
  decide (q.stalled = []) &&
  (match q.entries with
  | e :: es =>
    decide (s.acceptsRead who lo)
  | _ => false)

def hyp_StreamFifoReadsAndDrains_7 (who : Requester) (d : Die) (n : Fin 32) (s : State) : Bool :=
  let i := n.val
  let q := s.sfqOf d i
  let lo := R.SFQ_RDATA_LO d i
  let mine : Bool := decide (s.fld (R.SFQ_OWNER d i) 0 8 = who.unitOwner d)
  let current : Bool := sfqCur s d i
  let port : Bool := decide (who ≠ .h2 ∧ who ≠ .h2s ∧ who ≠ .h3)
  decide (mine) &&
  decide (port) &&
  decide (current) &&
  decide (q.stalled = []) &&
  (match q.entries with
  | e :: es =>
    decide (s.regCheck who lo .w64 false = none)
  | _ => false)

def hyp_StreamFifoReadsAndDrains_8 (who : Requester) (d : Die) (n : Fin 32) (s : State) : Bool :=
  let i := n.val
  let q := s.sfqOf d i
  let ctl := R.SFQ_CTRL d i
  let lo := R.SFQ_RDATA_LO d i
  let mine : Bool := decide (s.fld (R.SFQ_OWNER d i) 0 8 = who.unitOwner d)
  let current : Bool := sfqCur s d i
  let port : Bool := decide (who ≠ .h2 ∧ who ≠ .h2s ∧ who ≠ .h3)
  decide (s.acceptsRead who lo) &&
  decide (mine) &&
  decide (port) &&
  decide (current) &&
  decide ((q.entries = [] ∧ s.flag ctl 0 = true ∨ q.stalled ≠ []))

def hyp_StreamFifoReadsAndDrains_9 (who : Requester) (d : Die) (n : Fin 32) (s : State) : Bool :=
  let i := n.val
  let q := s.sfqOf d i
  let ctl := R.SFQ_CTRL d i
  let lo := R.SFQ_RDATA_LO d i
  let mine : Bool := decide (s.fld (R.SFQ_OWNER d i) 0 8 = who.unitOwner d)
  let current : Bool := sfqCur s d i
  let port : Bool := decide (who ≠ .h2 ∧ who ≠ .h2s ∧ who ≠ .h3)
  decide (s.acceptsRead who lo) &&
  decide (mine) &&
  decide (port) &&
  decide (current) &&
  decide (q.stalled = []) &&
  decide (q.entries = []) &&
  decide (s.flag ctl 0 = false)

def hyp_StreamFifoReadsAndDrains_10 (d : Die) (n : Fin 32) (s : State) : Bool :=
  let i := n.val
  let q := s.sfqOf d i
  let current : Bool := sfqCur s d i
  (match q.stalled with
  | (w, wide) :: rest =>
    decide (current) &&
    (match q.entries with
    | e :: es =>
      true
    | _ => false)
  | _ => false)

def hyp_StreamFifoReadsAndDrains_11 (d : Die) (n : Fin 32) (s : State) : Bool :=
  let i := n.val
  let q := s.sfqOf d i
  (match q.stalled with
  | (w, wide) :: rest =>
    true
  | _ => false)

def hyp_StreamFifoReadsAndDrains_12 (d : Die) (n : Fin 32) (s : State) : Bool :=
  let i := n.val
  let q := s.sfqOf d i
  let ctl := R.SFQ_CTRL d i
  let current : Bool := sfqCur s d i
  decide (s.unitsRun d = true) &&
  decide (s.flag ctl 1 = true) &&
  decide (q.stopped = false) &&
  decide (current) &&
  decide ((∀ e ∈ q.entries, e.len = false)) && (
    let size := s.sfqBuf d i
    let part := drainTake size q.drainPos (s.fld (R.SFQ_RPTR d i) 0 20) q.entries
    let write := s.poolWrite d 11 (s.fld (R.SFQ_BUF_BASE d i) 6 20 * 64 + q.drainPos) ((part.flatMap fun e => leBytes 8 e.word).map some)
    decide (part ≠ []) &&
    decide (((q.drainPos + 8 * part.length) % 64 = 0 ∨ ∃ e ∈ part, e.brk = true)) &&
    decide (write.1 = .ok ()))

def hyp_StreamFifoReadsAndDrains_13 (d : Die) (n : Fin 32) (s : State) : Bool :=
  let i := n.val
  let q := s.sfqOf d i
  let ctl := R.SFQ_CTRL d i
  let current : Bool := sfqCur s d i
  decide (s.unitsRun d = true) &&
  decide (s.flag ctl 1 = true) &&
  decide (q.stopped = false) &&
  decide (current) &&
  decide ((∀ e ∈ q.entries, e.len = false)) && (
    let size := s.sfqBuf d i
    let part := drainTake size q.drainPos (s.fld (R.SFQ_RPTR d i) 0 20) q.entries
    let write := s.poolWrite d 11 (s.fld (R.SFQ_BUF_BASE d i) 6 20 * 64 + q.drainPos) ((part.flatMap fun e => leBytes 8 e.word).map some)
    decide (part ≠ []) &&
    decide (((q.drainPos + 8 * part.length) % 64 = 0 ∨ ∃ e ∈ part, e.brk = true)) &&
    (match write.1 with
    | .error c =>
      true
    | _ => false))

def hyp_StreamFifoReadsAndDrains_14 (who : Requester) (d : Die) (n : Fin 32) (s : State) : Bool :=
  let i := n.val
  let mine : Bool := decide (s.fld (R.SFQ_OWNER d i) 0 8 = who.unitOwner d)
  decide (s.accepts who (R.SFQ_RPTR d i)) &&
  decide (mine)

theorem test_hyps_StreamFifoReadsAndDrains : (
    hyp_StreamFifoReadsAndDrains_0 (tSup) (.d0) (4) (0x131) ((tw tUp [(R.SFQ_OWNER .d0 4, 0x20), (R.SFQ_CTRL .d0 4, 0x31)]).setSfq .d0 4 {lanes := [1,2,3], laneEpoch := 1, stalled := [(.ce .d0 4, true)]}) &&
    hyp_StreamFifoReadsAndDrains_1 (tSup) (.d0) (4) (0x37) ((tw tUp [(R.SFQ_OWNER .d0 4, 0x20), (R.SFQ_CTRL .d0 4, 0x37)]).setSfq .d0 4 {pkt := some ⟨9,true,1⟩, seq := 65535, entries := [⟨0,8,1,false,false,true,false,false⟩, ⟨5,8,1,false,true,false,true,true⟩]}) &&
    hyp_StreamFifoReadsAndDrains_2 (tSup) (.d0) (4) (0x131) ((tw tUp [(R.SFQ_OWNER .d0 4, 0x20), (R.SFQ_CTRL .d0 4, 0x31)]).setSfq .d0 4 {lanes := [1,2,3], laneEpoch := 1, stalled := [(.ce .d0 4, true)]}) &&
    hyp_StreamFifoReadsAndDrains_3 (tSup) (.d0) (4) (0x131) ((tw tUp [(R.SFQ_OWNER .d0 4, 0x20), (R.SFQ_CTRL .d0 4, 0x31)]).setSfq .d0 4 {lanes := [1,2,3], laneEpoch := 1, stalled := [(.ce .d0 4, true)]}) &&
    hyp_StreamFifoReadsAndDrains_4 (tSup) (.d0) (4) (4) (tw tUp [(R.SFQ_OWNER .d0 4, 0x20), (R.SFQ_CTRL .d0 4, 0x31)]) &&
    hyp_StreamFifoReadsAndDrains_5 (tSup) (.d0) (4) (tw tUp [(R.SFQ_OWNER .d0 4, 3), (R.SFQ_CTRL .d0 4, 0x31)]) &&
    hyp_StreamFifoReadsAndDrains_6 (tSup) (.d0) (4) ((tw tUp [(R.SFQ_OWNER .d0 4, 0x20), (R.SFQ_CTRL .d0 4, 0x33), (R.SFQ_BUF_BASE .d0 4, 0x40000)]).setSfq .d0 4 {drainPos := 0, entries := List.replicate 9 ⟨5*2^32+8,8,1,false,false,false,true,false⟩}) &&
    hyp_StreamFifoReadsAndDrains_7 (tSup) (.d0) (4) ((tw tUp [(R.SFQ_OWNER .d0 4, 0x20), (R.SFQ_CTRL .d0 4, 0x33), (R.SFQ_BUF_BASE .d0 4, 0x40000)]).setSfq .d0 4 {drainPos := 0, entries := List.replicate 9 ⟨5*2^32+8,8,1,false,false,false,true,false⟩}) &&
    hyp_StreamFifoReadsAndDrains_8 (tSup) (.d0) (4) ((tw tUp [(R.SFQ_OWNER .d0 4, 0x20), (R.SFQ_CTRL .d0 4, 0x31)]).setSfq .d0 4 {lanes := [1,2,3], laneEpoch := 1, stalled := [(.ce .d0 4, true)]}) &&
    hyp_StreamFifoReadsAndDrains_9 (tSup) (.d0) (4) (tw tUp [(R.SFQ_OWNER .d0 4, 0x20)]) &&
    hyp_StreamFifoReadsAndDrains_10 (.d0) (4) ((tw tUp [(R.SFQ_OWNER .d0 4, 0x20), (R.SFQ_CTRL .d0 4, 0x31)]).setSfq .d0 4 {stalled := [(.sup .d0 1, false)], entries := [⟨5*2^32+8,3,1,false,true,false,true,true⟩]}) &&
    hyp_StreamFifoReadsAndDrains_11 (.d0) (4) ((tw tUp [(R.SFQ_OWNER .d0 4, 0x20), (R.SFQ_CTRL .d0 4, 0x31)]).setSfq .d0 4 {lanes := [1,2,3], laneEpoch := 1, stalled := [(.ce .d0 4, true)]}) &&
    hyp_StreamFifoReadsAndDrains_12 (.d0) (4) ((tw tUp [(R.SFQ_OWNER .d0 4, 0x20), (R.SFQ_CTRL .d0 4, 0x33), (R.SFQ_BUF_BASE .d0 4, 0x40000)]).setSfq .d0 4 {drainPos := 0, entries := List.replicate 9 ⟨5*2^32+8,8,1,false,false,false,true,false⟩}) &&
    hyp_StreamFifoReadsAndDrains_13 (.d0) (4) ((tw tUp [(R.SFQ_OWNER .d0 4, 0x20), (R.SFQ_CTRL .d0 4, 0x33), (R.SFQ_BUF_BASE .d0 4, 0x40000), (R.POOL_RET_STAT .d0, 1)]).setSfq .d0 4 {drainPos := 16, entries := [⟨5*2^32+8,8,1,false,true,false,true,true⟩]}) &&
    hyp_StreamFifoReadsAndDrains_14 (tSup) (.d0) (4) ((tw tUp [(R.SFQ_OWNER .d0 4, 0x20), (R.SFQ_CTRL .d0 4, 0x31)]).setSfq .d0 4 {lanes := [1,2,3], laneEpoch := 1, stalled := [(.ce .d0 4, true)]})) = true := by decide +kernel

/-! ### PoolAccessesAndUpkeep -/

def hyp_PoolAccessesAndUpkeep_0 (d : Die) (bank : Fin 272) (r : PoolReq) (s : State) : Bool :=
  let b := bank.val
  let alone : Bool := decide (s.waiting d b = [] ∧ s.holdOf d b = {} ∧ s.groupOff d (b / 16) = false)
  decide (alone) &&
  decide (s.bankRefusal d r.port r.addr = none) &&
  decide (r.isWr = false) &&
  decide ((s.ecc = []))

def hyp_PoolAccessesAndUpkeep_1 (d : Die) (bank : Fin 272) (r : PoolReq) (s : State) : Bool :=
  let b := bank.val
  let alone : Bool := decide (s.waiting d b = [] ∧ s.holdOf d b = {} ∧ s.groupOff d (b / 16) = false)
  decide (alone) &&
  decide (s.bankRefusal d r.port r.addr = none) &&
  decide (r.isWr = true) &&
  decide ((s.ecc = []))

def hyp_PoolAccessesAndUpkeep_2 (d : Die) (bank : Fin 272) (r : PoolReq) (s : State) : Bool :=
  let b := bank.val
  let alone : Bool := decide (s.waiting d b = [] ∧ s.holdOf d b = {} ∧ s.groupOff d (b / 16) = false)
  decide (alone) &&
  decide (b < 240) &&
  (List.any ([({ port := 15, addr := 0x140010, isWr := true, rd := 0, wr := [some 3] } : PoolReq), ({ port := 2, addr := 0x140004, isWr := true, rd := 0, wr := [some 3] } : PoolReq), ({ port := 4, addr := 0x140008, isWr := false, rd := 3, wr := [] } : PoolReq)]) fun r' =>
    decide (rrDist (Tab.get (fun _ => 0) s.bankPtr (bankKey d b)) r.port < rrDist (Tab.get (fun _ => 0) s.bankPtr (bankKey d b)) r'.port))

def hyp_PoolAccessesAndUpkeep_3 (d : Die) (bank : Fin 272) (r : PoolReq) (s : State) : Bool :=
  let b := bank.val
  let alone : Bool := decide (s.waiting d b = [] ∧ s.holdOf d b = {} ∧ s.groupOff d (b / 16) = false)
  decide (alone) &&
  decide (240 ≤ b) &&
  decide (r.isWr = true) &&
  (List.any ([({ port := 15, addr := 0x140010, isWr := true, rd := 0, wr := [some 3] } : PoolReq), ({ port := 2, addr := 0x140004, isWr := true, rd := 0, wr := [some 3] } : PoolReq), ({ port := 4, addr := 0x140008, isWr := false, rd := 3, wr := [] } : PoolReq)]) fun r' =>
    decide (r'.isWr = true) &&
    decide (sameWord r r' = true) &&
    decide (rrDist (Tab.get (fun _ => 0) s.bankPtr (bankKey d b)) r.port < rrDist (Tab.get (fun _ => 0) s.bankPtr (bankKey d b)) r'.port))

def hyp_PoolAccessesAndUpkeep_4 (d : Die) (bank : Fin 272) (r : PoolReq) (s : State) : Bool :=
  let b := bank.val
  decide (s.waiting d b = []) &&
  (List.any ([({ port := 15, addr := 0x140010, isWr := true, rd := 0, wr := [some 3] } : PoolReq), ({ port := 2, addr := 0x140004, isWr := true, rd := 0, wr := [some 3] } : PoolReq), ({ port := 4, addr := 0x140008, isWr := false, rd := 3, wr := [] } : PoolReq)]) fun r' =>
    decide (s.holdOf d b = { held := some r' }) &&
    decide (s.groupOff d (b / 16) = false) &&
    decide (b < 240) &&
    decide (r.port ≠ r'.port))

def hyp_PoolAccessesAndUpkeep_5 (d : Die) (bank : Fin 272) (r : PoolReq) (s : State) : Bool :=
  let b := bank.val
  decide (s.waiting d b = []) &&
  decide (s.groupOff d (b / 16) = true) &&
  decide (bankOf r.addr = b)

def hyp_PoolAccessesAndUpkeep_6 (d : Die) (bank : Fin 272) (s : State) : Bool :=
  let b := bank.val
  decide (s.groupOff d (b / 16) = false) &&
  decide (s.powerEff d < 3) &&
  (match s.wbOf d b with
  | w + 1 =>
    true
  | _ => false)

def hyp_PoolAccessesAndUpkeep_7 (d : Die) (bank : Fin 272) (s : State) : Bool :=
  let b := bank.val
  let a := s.scrubAddr d b
  let word (x : Nat) : Nat := wordNo d x
  decide (s.groupOff d (b / 16) = false) &&
  decide ((∀ j ∈ List.range 8, s.eccAt (word (a + 8 * j)) = 0))

def hyp_PoolAccessesAndUpkeep_8 (d : Die) (bank : Fin 272) (s : State) : Bool :=
  let b := bank.val
  let a := s.scrubAddr d b
  let word (x : Nat) : Nat := wordNo d x
  (List.any ((List.range (8)).reverse) fun j =>
    decide (s.groupOff d (b / 16) = false) &&
    decide (s.eccAt (word (a + 8 * j)) = 1) &&
    decide ((∀ i ∈ List.range 8, i ≠ j → s.eccAt (word (a + 8 * i)) = 0)) &&
    decide ((Tab.get (fun _ => []) s.corr (bankKey d (bankOf (a + 8 * j)))).length < 64) &&
    decide (s.wbOf d (bankOf (a + 8 * j)) = 0))

def hyp_PoolAccessesAndUpkeep_9 (d : Die) (bank : Fin 272) (s : State) : Bool :=
  let b := bank.val
  decide (s.groupOff d (b / 16) = false)

def hyp_PoolAccessesAndUpkeep_10 (d : Die) (g : Fin 17) (s : State) : Bool :=
  let bit (t : List (Nat × Nat)) : Bool := (Tab.get (fun _ => 0) t d.idx).testBit g.val
  decide (bit s.retEnter = true) &&
  decide (s.asyncCmds = [])

def hyp_PoolAccessesAndUpkeep_11 (d : Die) (g : Fin 17) (s : State) : Bool :=
  decide (s.flag (R.POOL_RET_WAKE d) g.val = true) &&
  decide (s.asyncCmds = [])

def hyp_PoolAccessesAndUpkeep_12 (d : Die) (g : Fin 17) (s : State) : Bool :=
  let bit (t : List (Nat × Nat)) : Bool := (Tab.get (fun _ => 0) t d.idx).testBit g.val
  decide (bit s.retPrio = true) &&
  decide (s.groupOff d g.val = false)

theorem test_hyps_PoolAccessesAndUpkeep : (
    hyp_PoolAccessesAndUpkeep_0 (.d0) (5) ({port := 3, addr := 0x140004, isWr := false, rd := 7, wr := []}) (tm tUp [(0x140004, 77)]) &&
    hyp_PoolAccessesAndUpkeep_1 (.d0) (241) ({port := 3, addr := 0x140012, isWr := true, rd := 0, wr := [some 5]}) (tUp) &&
    hyp_PoolAccessesAndUpkeep_2 (.d0) (5) ({port := 3, addr := 0x140004, isWr := false, rd := 7, wr := []}) (tm tUp [(0x140004, 77)]) &&
    hyp_PoolAccessesAndUpkeep_3 (.d0) (241) ({port := 3, addr := 0x140012, isWr := true, rd := 0, wr := [some 5]}) (tUp) &&
    hyp_PoolAccessesAndUpkeep_4 (.d0) (5) ({port := 3, addr := 0x140012, isWr := true, rd := 0, wr := [some 5]}) ({tUp with bankHold := [(bankKey .d0 5, {held := some { port := 15, addr := 0x140010, isWr := true, rd := 0, wr := [some 3] }})]}) &&
    hyp_PoolAccessesAndUpkeep_5 (.d0) (5) ({port := 3, addr := 0x140004, isWr := false, rd := 7, wr := []}) ({tUp with retEnter := [(0, 1)]}) &&
    hyp_PoolAccessesAndUpkeep_6 (.d0) (5) ({tUp with bankWb := [(5, 9)], ecc := [(8,1),(9,1)]}) &&
    hyp_PoolAccessesAndUpkeep_7 (.d0) (241) (tUp) &&
    hyp_PoolAccessesAndUpkeep_8 (.d0) (5) ({tUp with scrubPos := [(5, 2)], ecc := [((0x140000+128)/8 + 7, 1)]}) &&
    hyp_PoolAccessesAndUpkeep_9 (.d0) (241) (tUp) &&
    hyp_PoolAccessesAndUpkeep_10 (.d0) (0) ({tUp with retEnter := [(0, 1)]}) &&
    hyp_PoolAccessesAndUpkeep_11 (.d0) (0) (tw tUp [(R.POOL_RET_WAKE .d0, 1), (R.POOL_RET_STAT .d0, 1)]) &&
    hyp_PoolAccessesAndUpkeep_12 (.d0) (16) ({tUp with retPrio := [(0, 0x10001)], ecc := [(0x3E00040/8, 1)]})) = true := by decide +kernel

/-! ### PlannerServesEventsByRank -/

def hyp_PlannerServesEventsByRank_0 (d : Die) (s : State) : Bool :=
  let q := s.planEvents d
  decide (q ≠ [])

def hyp_PlannerServesEventsByRank_1 (d : Die) (s : State) : Bool :=
  let q := s.planEvents d
  (match q with
  | [e] =>
    decide (e.kind = .forecast) &&
    decide (s.plannedDies d = [d])
  | _ => false)

def hyp_PlannerServesEventsByRank_2 (d : Die) (s : State) : Bool :=
  let q := s.planEvents d
  decide ((q.any fun e => e.kind = .forecast) = false) &&
  decide ((q.any fun e => e.kind = .rebalance) = false)

def hyp_PlannerServesEventsByRank_3 (d : Die) (s : State) : Bool :=
  let q := s.planEvents d
  decide ((q.any fun e => e.kind = .forecast) = true) &&
  decide ((q.any fun e => e.kind = .rebalance) = true)

def hyp_PlannerServesEventsByRank_4 (who : Requester) (d : Die) (s : State) : Bool :=
  decide (s.accepts who (R.PLC_QRY_HANDLE d))

theorem test_hyps_PlannerServesEventsByRank : (
    hyp_PlannerServesEventsByRank_0 (.d0) ({tUp with planQ := [(0,[⟨7,.d0,.forecast⟩,⟨7,.d0,.rebalance⟩])]}) &&
    hyp_PlannerServesEventsByRank_1 (.d0) ({tw tUp [(R.SYS_DLY_STAT .d0, 0x20), (R.SYS_DLY_STAT .d1, 0x20), (R.PLC_STAT .d0, 0xFFFF0001)] with planQ := [(0, [⟨7, .d0, .forecast⟩])]}) &&
    hyp_PlannerServesEventsByRank_2 (.d0) (tUp) &&
    hyp_PlannerServesEventsByRank_3 (.d0) ({tUp with planQ := [(0,[⟨7,.d0,.forecast⟩,⟨7,.d0,.rebalance⟩])]}) &&
    hyp_PlannerServesEventsByRank_4 (tSup) (.d0) ({tUp with planQ := [(0,[⟨7,.d0,.forecast⟩,⟨7,.d0,.rebalance⟩])]})) = true := by decide +kernel

/-! ### PlacementsLiveAndAreReleased -/

def hyp_PlacementsLiveAndAreReleased_0 (h : Nat) (p : Placement) (s : State) : Bool :=
  let i := s.intent h
  decide (s.handleHeld h = true) &&
  decide (i.isFlow = false) &&
  decide (i.cur = some p) &&
  decide (p.st = 2) &&
  decide (s.running p.die = true)

def hyp_PlacementsLiveAndAreReleased_1 (h : Nat) (p : Placement) (s : State) : Bool :=
  let i := s.intent h
  decide (s.handleHeld h = true) &&
  decide (i.isFlow = true) &&
  decide (i.cur = some p) &&
  decide (p.st = 2) &&
  decide (s.running p.die = true)

def hyp_PlacementsLiveAndAreReleased_2 (h : Nat) (p : Placement) (s : State) : Bool :=
  let i := s.intent h
  decide (i.cur = some p) &&
  decide (i.releasing = true) &&
  decide ((p.st = 4 ∨ p.st = 5))

def hyp_PlacementsLiveAndAreReleased_3 (h : Nat) (q : Placement) (s : State) : Bool :=
  let i := s.intent h
  decide (i.tgt = some q) &&
  decide (q.st = 6) &&
  decide (i.isFlow = false) &&
  decide (s.runSlot q.die q.ce ≠ some q.slot)

def hyp_PlacementsLiveAndAreReleased_4 (h : Nat) (p : Placement) (s : State) : Bool :=
  let i := s.intent h
  decide (i.tgt = none) &&
  decide (i.cur = some p) &&
  decide (p.st = 6) &&
  decide (i.isFlow = false) &&
  decide ((s.iqOf h).used = 0) &&
  decide (s.runSlot p.die p.ce ≠ some p.slot)

def hyp_PlacementsLiveAndAreReleased_5 (h : Nat) (p : Placement) (s : State) : Bool :=
  let i := s.intent h
  decide (i.tgt = none) &&
  decide (i.cur = some p) &&
  decide (p.st = 6) &&
  decide (i.isFlow = true) &&
  decide (s.flowQueued h p.hops = false)

def hyp_PlacementsLiveAndAreReleased_6 (h : Nat) (p : Placement) (q : Placement) (s : State) : Bool :=
  let i := s.intent h
  decide (s.handleHeld h = true) &&
  decide (i.isFlow = true) &&
  decide (i.tgt = some q) &&
  decide (i.cur = some p) &&
  decide (q.st = 2)

def hyp_PlacementsLiveAndAreReleased_7 (h : Nat) (q : Placement) (s : State) : Bool :=
  let i := s.intent h
  decide (i.isFlow = true) &&
  decide (i.tgt = some q) &&
  decide (i.stage = 1) &&
  decide (s.flowQueued h q.hops = false) &&
  decide (Tab.get (fun _ => []) s.flowHold (intentKey h) = [])

theorem test_hyps_PlacementsLiveAndAreReleased : (
    hyp_PlacementsLiveAndAreReleased_0 (1) ({st := 2, ce := 4}) ({tUp with intents := [(1, {handle := 1, held := true, cur := some {st := 2, ce := 4}})]}) &&
    hyp_PlacementsLiveAndAreReleased_1 (0x40000001) ({st := 2, ce := 4}) ({tUp with intents := [(intentKey 0x40000001, {handle := 0x40000001, held := true, cur := some {st := 2, ce := 4}})]}) &&
    hyp_PlacementsLiveAndAreReleased_2 (1) ({st := 4, ce := 4, cmps := [0, 63, 5]}) (tw (tInt 1 {st := 4, ce := 4, cmps := [0, 63, 5]} none fun i => {i with releasing := true}) [(R.TB_CMP_STAT .d0 63, 1), (R.TB_CMP_CTRL .d0 63, 1)]) &&
    hyp_PlacementsLiveAndAreReleased_3 (1) ({st := 6, ce := 5, cmps := [3], ctx := 0x1000, ctxLen := 64}) (tInt 1 {st := 4, ce := 4} (some {st := 6, ce := 5, cmps := [3], ctx := 0x1000, ctxLen := 64})) &&
    hyp_PlacementsLiveAndAreReleased_4 (1) ({st := 6, ce := 4}) (tInt 1 {st := 6, ce := 4}) &&
    hyp_PlacementsLiveAndAreReleased_5 (0x40000001) ({st := 6, ce := 4}) (tInt 0x40000001 {st := 6, ce := 4}) &&
    hyp_PlacementsLiveAndAreReleased_6 (0x40000001) ({st := 4, ce := 4, hops := [(0,3)]}) ({st := 2, hops := [(1,3)]}) (tInt 0x40000001 {st := 4, ce := 4, hops := [(0,3)]} (some {st := 2, hops := [(1,3)]})) &&
    hyp_PlacementsLiveAndAreReleased_7 (0x40000001) ({st := 6, ce := 4, hops := [(0,3)]}) (tInt 0x40000001 {st := 4} (some {st := 6, ce := 4, hops := [(0,3)]}) fun i => {i with stage := 1})) = true := by decide +kernel

/-! ### MigrationsStepByStep -/

def hyp_MigrationsStepByStep_0 (h : Nat) (p : Placement) (q : Placement) (s : State) : Bool :=
  let i := s.intent h
  let mig (st stage : Nat) : Bool := decide (i.isFlow = false ∧ i.tgt = some q ∧ i.cur = some p ∧ q.st = st ∧ i.stage = stage)
  decide (mig 2 0) &&
  decide (q.ce < 24) &&
  decide (q.slot < 63) &&
  decide (q.cmps.headD 0 < 64) &&
  decide (q.epoch < 65536)

def hyp_MigrationsStepByStep_1 (h : Nat) (p : Placement) (q : Placement) (s : State) : Bool :=
  let i := s.intent h
  let mig (st stage : Nat) : Bool := decide (i.isFlow = false ∧ i.tgt = some q ∧ i.cur = some p ∧ q.st = st ∧ i.stage = stage)
  let read := s.scanLines (dieOfAddr p.ctx) 13 (p.ctx % 2 ^ 39) (p.ctxLen / 64)
  decide (mig 2 1) &&
  decide (i.repCur = true) &&
  decide (read.1 = true)

def hyp_MigrationsStepByStep_2 (h : Nat) (p : Placement) (q : Placement) (s : State) : Bool :=
  let i := s.intent h
  let mig (st stage : Nat) : Bool := decide (i.isFlow = false ∧ i.tgt = some q ∧ i.cur = some p ∧ q.st = st ∧ i.stage = stage)
  let read := s.scanLines (dieOfAddr p.ctx) 13 (p.ctx % 2 ^ 39) (p.ctxLen / 64)
  decide (mig 2 1) &&
  decide (i.repCur = true) &&
  decide (read.1 = false)

def hyp_MigrationsStepByStep_3 (h : Nat) (p : Placement) (q : Placement) (s : State) : Bool :=
  let i := s.intent h
  let mig (st stage : Nat) : Bool := decide (i.isFlow = false ∧ i.tgt = some q ∧ i.cur = some p ∧ q.st = st ∧ i.stage = stage)
  decide (mig 3 2) &&
  decide (i.repTgt = true) &&
  decide (i.repCur = true) &&
  decide (i.nocmp = false) &&
  decide (outsMatch i.outCur i.outTgt = true)

def hyp_MigrationsStepByStep_4 (h : Nat) (p : Placement) (q : Placement) (s : State) : Bool :=
  let i := s.intent h
  let mig (st stage : Nat) : Bool := decide (i.isFlow = false ∧ i.tgt = some q ∧ i.cur = some p ∧ q.st = st ∧ i.stage = stage)
  decide (mig 3 2) &&
  decide (i.repTgt = true) &&
  decide (i.nocmp = true) &&
  decide (i.tgtLate = false)

def hyp_MigrationsStepByStep_5 (h : Nat) (p : Placement) (q : Placement) (s : State) : Bool :=
  let i := s.intent h
  let mig (st stage : Nat) : Bool := decide (i.isFlow = false ∧ i.tgt = some q ∧ i.cur = some p ∧ q.st = st ∧ i.stage = stage)
  decide (mig 3 2) &&
  decide (i.repTgt = true) &&
  decide (i.repCur = true) &&
  decide (i.nocmp = false) &&
  decide (outsMatch i.outCur i.outTgt = false)

def hyp_MigrationsStepByStep_6 (h : Nat) (p : Placement) (q : Placement) (s : State) : Bool :=
  let i := s.intent h
  let mig (st stage : Nat) : Bool := decide (i.isFlow = false ∧ i.tgt = some q ∧ i.cur = some p ∧ q.st = st ∧ i.stage = stage)
  decide (mig 3 2) &&
  decide (i.shadows < 4)

def hyp_MigrationsStepByStep_7 (h : Nat) (p : Placement) (q : Placement) (s : State) : Bool :=
  let i := s.intent h
  let mig (st stage : Nat) : Bool := decide (i.isFlow = false ∧ i.tgt = some q ∧ i.cur = some p ∧ q.st = st ∧ i.stage = stage)
  decide (mig 3 2) &&
  decide (4 ≤ i.shadows)

def hyp_MigrationsStepByStep_8 (h : Nat) (p : Placement) (q : Placement) (s : State) : Bool :=
  let i := s.intent h
  let mig (st stage : Nat) : Bool := decide (i.isFlow = false ∧ i.tgt = some q ∧ i.cur = some p ∧ q.st = st ∧ i.stage = stage)
  decide (mig 3 4) &&
  decide (i.handle = h) &&
  decide (h / 2 ^ 30 % 4 = 0)

theorem test_hyps_MigrationsStepByStep : (
    hyp_MigrationsStepByStep_0 (1) ({st := 4, ce := 4}) ({st := 2, die := .d1, ce := 23, slot := 62, epoch := 65535}) (tInt 1 {st := 4, ce := 4} (some {st := 2, die := .d1, ce := 23, slot := 62, epoch := 65535}) fun i => {i with record := (List.range 64).map wd}) &&
    hyp_MigrationsStepByStep_1 (1) ({st := 4, ce := 4, ctx := 0x1000, ctxLen := 128, commit := 6}) ({st := 2, die := .d1, ce := 23, slot := 62, ctx := 0x8000001000, ctxLen := 128}) ({tm (tInt 1 {st := 4, ce := 4, ctx := 0x1000, ctxLen := 128, commit := 6} (some {st := 2, die := .d1, ce := 23, slot := 62, ctx := 0x8000001000, ctxLen := 128}) fun i => {i with stage := 1, repCur := true}) [(0x1004, 7), (0x107C, 0x77665544), (0x8000001000, 99)] with ecc := [(0x1040/8,2)]}) &&
    hyp_MigrationsStepByStep_2 (1) ({st := 4, ce := 4, ctx := 0x1000, ctxLen := 128, commit := 6}) ({st := 2, die := .d0, ce := 23, slot := 62, ctx := 0x1040, ctxLen := 128}) (tm (tInt 1 {st := 4, ce := 4, ctx := 0x1000, ctxLen := 128, commit := 6} (some {st := 2, die := .d0, ce := 23, slot := 62, ctx := 0x1040, ctxLen := 128}) fun i => {i with stage := 1, repCur := true}) [(0x1004, 7), (0x107C, 0x77665544), (0x8000001000, 99)]) &&
    hyp_MigrationsStepByStep_3 (1) ({st := 4, ce := 4}) ({st := 3, ce := 5}) (tInt 1 {st := 4, ce := 4} (some {st := 3, ce := 5}) fun i => {i with stage := 2, repTgt := true, repCur := true, outCur := [(0,[1]),(1,[2])], outTgt := [(0,[1]),(1,[2])]}) &&
    hyp_MigrationsStepByStep_4 (1) ({st := 4, ce := 4}) ({st := 3, ce := 5, cmps := [3]}) (tInt 1 {st := 4, ce := 4} (some {st := 3, ce := 5, cmps := [3]}) fun i => {i with stage := 2, nocmp := true, repTgt := true, repCur := true, outCur := [(0,[1]),(1,[2])], outTgt := [(0,[1]),(1,[3])]}) &&
    hyp_MigrationsStepByStep_5 (1) ({st := 4, ce := 4}) ({st := 3, ce := 5}) (tInt 1 {st := 4, ce := 4} (some {st := 3, ce := 5}) fun i => {i with stage := 2, repTgt := true, repCur := true, outCur := [(0,[1]),(1,[2])], outTgt := [(1,[2]),(0,[1])]}) &&
    hyp_MigrationsStepByStep_6 (1) ({st := 4, ce := 4}) ({st := 3, ce := 5}) (tInt 1 {st := 4, ce := 4} (some {st := 3, ce := 5}) fun i => {i with stage := 2, repTgt := true, repCur := true, outCur := [(0,[1]),(1,[2])], outTgt := [(1,[2]),(0,[1])]}) &&
    hyp_MigrationsStepByStep_7 (1) ({st := 4, ce := 4}) ({st := 3, ce := 5, cmps := [3]}) (tInt 1 {st := 4, ce := 4} (some {st := 3, ce := 5, cmps := [3]}) fun i => {i with stage := 2, shadows := 4, migCmd := some (tCmd 0x202 [1,5] 0)}) &&
    hyp_MigrationsStepByStep_8 (1) ({st := 4, ce := 4, cmps := [1]}) ({st := 3, die := .d1, ce := 5, cmps := [3], epoch := 7}) (tInt 1 {st := 4, ce := 4, cmps := [1]} (some {st := 3, die := .d1, ce := 5, cmps := [3], epoch := 7}) fun i => {i with stage := 4, shadows := 2})) = true := by decide +kernel

/-! ### MailboxesAndDoorbells -/

def hyp_MailboxesAndDoorbells_0 (who : Requester) (d : Die) (c : Fin 32) (v : Word) (s : State) : Bool :=
  let i := c.val
  let st := R.MBX_CH_STAT d i
  let open_ : Bool := decide ((8 ≤ i ∨ who.secure = true) ∧ who.owner ≠ 0)
  let owned : Bool := decide (open_ ∧ s.fld st 29 3 = who.owner)
  let go := R.MBX_GO d i
  decide (s.accepts who go) &&
  decide (owned) &&
  decide (s.flag st 0 = false) &&
  decide (bit v 31 = true) &&
  decide (8 ≤ bits v 0 5) &&
  decide (bits v 0 5 ≤ 16)

def hyp_MailboxesAndDoorbells_1 (who : Requester) (d : Die) (c : Fin 32) (v : Word) (s : State) : Bool :=
  let i := c.val
  let st := R.MBX_CH_STAT d i
  let open_ : Bool := decide ((8 ≤ i ∨ who.secure = true) ∧ who.owner ≠ 0)
  let owned : Bool := decide (open_ ∧ s.fld st 29 3 = who.owner)
  let go := R.MBX_GO d i
  decide (s.accepts who go) &&
  decide (owned) &&
  decide ((s.flag st 0 = true ∨ (bit v 31 = true ∧ (bits v 0 5 < 8 ∨ 16 < bits v 0 5))))

def hyp_MailboxesAndDoorbells_2 (who : Requester) (d : Die) (c : Fin 32) (s : State) : Bool :=
  let i := c.val
  let st := R.MBX_CH_STAT d i
  let open_ : Bool := decide ((8 ≤ i ∨ who.secure = true) ∧ who.owner ≠ 0)
  let claim := R.MBX_CH_CLAIM d i
  decide (s.accepts who claim) &&
  decide (open_) &&
  decide (s.fld st 29 3 = 0)

def hyp_MailboxesAndDoorbells_3 (who : Requester) (d : Die) (c : Fin 32) (s : State) : Bool :=
  let i := c.val
  let st := R.MBX_CH_STAT d i
  let open_ : Bool := decide ((8 ≤ i ∨ who.secure = true) ∧ who.owner ≠ 0)
  let claim := R.MBX_CH_CLAIM d i
  decide (s.accepts who claim) &&
  decide (open_) &&
  decide (s.fld st 29 3 ≠ 0)

def hyp_MailboxesAndDoorbells_4 (who : Requester) (d : Die) (c : Fin 32) (s : State) : Bool :=
  let i := c.val
  let st := R.MBX_CH_STAT d i
  let open_ : Bool := decide ((8 ≤ i ∨ who.secure = true) ∧ who.owner ≠ 0)
  let owned : Bool := decide (open_ ∧ s.fld st 29 3 = who.owner)
  let claim := R.MBX_CH_CLAIM d i
  decide (s.accepts who claim) &&
  decide (owned)

def hyp_MailboxesAndDoorbells_5 (who : Requester) (d : Die) (c : Fin 32) (s : State) : Bool :=
  let i := c.val
  let st := R.MBX_CH_STAT d i
  let open_ : Bool := decide ((8 ≤ i ∨ who.secure = true) ∧ who.owner ≠ 0)
  let claim := R.MBX_CH_CLAIM d i
  decide (s.accepts who claim) &&
  decide (open_) &&
  decide (s.fld st 29 3 ≠ who.owner)

def hyp_MailboxesAndDoorbells_6 (who : Requester) (d : Die) (c : Fin 32) (s : State) : Bool :=
  let i := c.val
  let st := R.MBX_CH_STAT d i
  let open_ : Bool := decide ((8 ≤ i ∨ who.secure = true) ∧ who.owner ≠ 0)
  let owned : Bool := decide (open_ ∧ s.fld st 29 3 = who.owner)
  let ack := R.MBX_OUT_ACK d i
  decide (s.accepts who ack) &&
  decide (owned) &&
  decide (s.flag st 8 = true) &&
  decide ((s.chan d i).replies = [])

def hyp_MailboxesAndDoorbells_7 (who : Requester) (d : Die) (c : Fin 32) (s : State) : Bool :=
  let i := c.val
  let st := R.MBX_CH_STAT d i
  let open_ : Bool := decide ((8 ≤ i ∨ who.secure = true) ∧ who.owner ≠ 0)
  let owned : Bool := decide (open_ ∧ s.fld st 29 3 = who.owner)
  let ack := R.MBX_OUT_ACK d i
  decide (s.accepts who ack) &&
  decide (owned) &&
  decide (s.flag st 8 = true) &&
  (match (s.chan d i).replies with
  | [x :: xs] =>
    decide (xs.length < 16)
  | _ => false)

def hyp_MailboxesAndDoorbells_8 (who : Requester) (d : Die) (s : State) : Bool :=
  decide (s.accepts who (R.MBX_H2KEY_CTRL d)) &&
  decide (keyAnswers who d = true)

def hyp_MailboxesAndDoorbells_9 (who : Requester) (d : Die) (r : Fin 4) (v : Word) (s : State) : Bool :=
  decide (s.accepts who (R.DBL_SET d r.val)) &&
  decide ((if who.isSup d then r.val = 0 else who.die = d ∧ who.receiver = some r.val)) &&
  decide (v ≠ 0)

def hyp_MailboxesAndDoorbells_10 (s : State) : Bool :=
  decide (s.linkUp = true)

def hyp_MailboxesAndDoorbells_11 (s : State) : Bool :=
  decide (s.linkUp = false)

def hyp_MailboxesAndDoorbells_12 (d : Die) (fn : Fin 2) (vec : Fin 32) (s : State) : Bool :=
  let fnKey := d.idx * 2 + fn.val
  decide (Tab.get (fun _ => 0) s.msixCtl fnKey = 1) &&
  decide (bit (Tab.get (fun _ => (0 : Word)) s.msixPba fnKey) vec.val = true) &&
  decide (s.flag (R.DBL_STAT d (fn.val + 1)) vec.val = true) &&
  decide (s.flag (R.DBL_MASK d (fn.val + 1)) vec.val = true)

theorem test_hyps_MailboxesAndDoorbells : (
    hyp_MailboxesAndDoorbells_0 (.pf1 .d0) (.d0) (9) (0x80000008) ({tw tUp [(R.DBL_STAT .d0 2, 0x20), (R.DBL_MASK .d0 2, 0x20), (R.MBX_CH_STAT .d0 9, 0x40000100), (R.MBX_CH_STAT .d0 31, 0x20000100)] with msixCtl := [(0,3),(1, 1)], msixPba := [(1, 0x20)]}) &&
    hyp_MailboxesAndDoorbells_1 (.pf1 .d0) (.d0) (9) (0x80000008) ((tw tUp [(R.MBX_CH_STAT .d0 9, 0x40000101), (R.MBX_CH_DROP .d0 9, 3), (R.CMD_CH_STAT .d0 9, 0x58001)]).setChan .d0 9 {gen := 4, replies := [[1]], part := [3]}) &&
    hyp_MailboxesAndDoorbells_2 (.pf1 .d0) (.d0) (9) ({tw tUp [(R.SYS_DLY_STAT .d0, 0x20)] with dblRemote := [(2, 0x81)]}) &&
    hyp_MailboxesAndDoorbells_3 (.pf1 .d0) (.d0) (9) ({tw tUp [(R.DBL_STAT .d0 2, 0x20), (R.DBL_MASK .d0 2, 0x20), (R.MBX_CH_STAT .d0 9, 0x40000100), (R.MBX_CH_STAT .d0 31, 0x20000100)] with msixCtl := [(0,3),(1, 1)], msixPba := [(1, 0x20)]}) &&
    hyp_MailboxesAndDoorbells_4 (.pf1 .d0) (.d0) (9) ({tw tUp [(R.DBL_STAT .d0 2, 0x20), (R.DBL_MASK .d0 2, 0x20), (R.MBX_CH_STAT .d0 9, 0x40000100), (R.MBX_CH_STAT .d0 31, 0x20000100)] with msixCtl := [(0,3),(1, 1)], msixPba := [(1, 0x20)]}) &&
    hyp_MailboxesAndDoorbells_5 (.pf1 .d0) (.d0) (9) ({tw tUp [(R.SYS_DLY_STAT .d0, 0x20)] with dblRemote := [(2, 0x81)]}) &&
    hyp_MailboxesAndDoorbells_6 (.pf1 .d0) (.d0) (9) ({tw tUp [(R.DBL_STAT .d0 2, 0x20), (R.DBL_MASK .d0 2, 0x20), (R.MBX_CH_STAT .d0 9, 0x40000100), (R.MBX_CH_STAT .d0 31, 0x20000100)] with msixCtl := [(0,3),(1, 1)], msixPba := [(1, 0x20)]}) &&
    hyp_MailboxesAndDoorbells_7 (.pf1 .d0) (.d0) (9) ((tw tUp [(R.MBX_CH_STAT .d0 9, 0x40000101), (R.MBX_CH_DROP .d0 9, 3), (R.CMD_CH_STAT .d0 9, 0x58001)]).setChan .d0 9 {gen := 4, replies := [[1]], part := [3]}) &&
    hyp_MailboxesAndDoorbells_8 (.pf1 .d0) (.d0) ({tw tUp [(R.DBL_STAT .d0 2, 0x20), (R.DBL_MASK .d0 2, 0x20), (R.MBX_CH_STAT .d0 9, 0x40000100), (R.MBX_CH_STAT .d0 31, 0x20000100)] with msixCtl := [(0,3),(1, 1)], msixPba := [(1, 0x20)]}) &&
    hyp_MailboxesAndDoorbells_9 (.pf1 .d0) (.d0) (2) (0x80000008) ({tw tUp [(R.DBL_STAT .d0 2, 0x20), (R.DBL_MASK .d0 2, 0x20), (R.MBX_CH_STAT .d0 9, 0x40000100), (R.MBX_CH_STAT .d0 31, 0x20000100)] with msixCtl := [(0,3),(1, 1)], msixPba := [(1, 0x20)]}) &&
    hyp_MailboxesAndDoorbells_10 ({tw tUp [(R.DBL_STAT .d0 2, 0x20), (R.DBL_MASK .d0 2, 0x20), (R.MBX_CH_STAT .d0 9, 0x40000100), (R.MBX_CH_STAT .d0 31, 0x20000100)] with msixCtl := [(0,3),(1, 1)], msixPba := [(1, 0x20)]}) &&
    hyp_MailboxesAndDoorbells_11 ({tw tUp [(R.SYS_DLY_STAT .d0, 0x20)] with dblRemote := [(2, 0x81)]}) &&
    hyp_MailboxesAndDoorbells_12 (.d0) (1) (5) ({tw tUp [(R.DBL_STAT .d0 2, 0x20), (R.DBL_MASK .d0 2, 0x20), (R.MBX_CH_STAT .d0 9, 0x40000100), (R.MBX_CH_STAT .d0 31, 0x20000100)] with msixCtl := [(0,3),(1, 1)], msixPba := [(1, 0x20)]})) = true := by decide +kernel

/-! ### PacketsBecomeCommands -/

def hyp_PacketsBecomeCommands_0 (d : Die) (c : Fin 32) (s : State) : Bool :=
  let i := c.val
  let st := R.MBX_CH_STAT d i
  let k := s.chan d i
  let e := s.interpDie d
  let ws := (List.range k.msgCount).map fun n => s.getReg (R.MBX_IN d i n)
  let len := bits (ws.headD 0) 24 8
  decide (s.flag st 0 = true) &&
  decide (s.running d = true) &&
  decide (s.running e = true) &&
  decide (k.part = []) &&
  decide (ws ≠ []) &&
  decide (5 ≤ len) &&
  decide (ws.length < len)

def hyp_PacketsBecomeCommands_1 (d : Die) (c : Fin 32) (s : State) : Bool :=
  let i := c.val
  let st := R.MBX_CH_STAT d i
  let k := s.chan d i
  let e := s.interpDie d
  let ws := (List.range k.msgCount).map fun n => s.getReg (R.MBX_IN d i n)
  let len := bits (ws.headD 0) 24 8
  let pkt := ws.take len
  let whole : Bool := decide (s.flag st 0 = true ∧ s.running d = true ∧ s.running e = true ∧ k.part = [] ∧ 5 ≤ len ∧ len ≤ ws.length)
  let good : Bool := decide (pkt.getLastD 0 = wd (crc32c (wordBytes pkt.dropLast)))
  decide (whole) &&
  decide (¬good)

def hyp_PacketsBecomeCommands_2 (d : Die) (c : Fin 32) (s : State) : Bool :=
  let i := c.val
  let st := R.MBX_CH_STAT d i
  let k := s.chan d i
  let e := s.interpDie d
  let ws := (List.range k.msgCount).map fun n => s.getReg (R.MBX_IN d i n)
  let len := bits (ws.headD 0) 24 8
  let pkt := ws.take len
  let w (n : Nat) : Word := pkt.getD n 0
  let whole : Bool := decide (s.flag st 0 = true ∧ s.running d = true ∧ s.running e = true ∧ k.part = [] ∧ 5 ≤ len ∧ len ≤ ws.length)
  let good : Bool := decide (pkt.getLastD 0 = wd (crc32c (wordBytes pkt.dropLast)))
  decide (whole) &&
  decide (good) &&
  decide (bits (w 0) 0 16 ≠ 0x0100) &&
  decide (bits (w 3) 16 16 ≠ s.cmdEpoch e)

def hyp_PacketsBecomeCommands_3 (d : Die) (c : Fin 32) (s : State) : Bool :=
  let i := c.val
  let st := R.MBX_CH_STAT d i
  let k := s.chan d i
  let e := s.interpDie d
  let ws := (List.range k.msgCount).map fun n => s.getReg (R.MBX_IN d i n)
  let len := bits (ws.headD 0) 24 8
  let pkt := ws.take len
  let w (n : Nat) : Word := pkt.getD n 0
  let whole : Bool := decide (s.flag st 0 = true ∧ s.running d = true ∧ s.running e = true ∧ k.part = [] ∧ 5 ≤ len ∧ len ≤ ws.length)
  let good : Bool := decide (pkt.getLastD 0 = wd (crc32c (wordBytes pkt.dropLast)))
  let last := s.fld (R.CMD_CH_STAT d i) 16 16
  decide (whole) &&
  decide (good) &&
  decide (bits (w 0) 0 16 ≠ 0x0100) &&
  decide (bits (w 3) 16 16 = s.cmdEpoch e) &&
  decide (s.flag (R.CMD_CH_STAT d i) 15 = true) &&
  decide (bits (w 3) 0 16 ≠ (last + 1) % 65536) &&
  decide (bits (w 3) 0 16 ≠ last)

def hyp_PacketsBecomeCommands_4 (d : Die) (c : Fin 32) (s : State) : Bool :=
  let i := c.val
  let st := R.MBX_CH_STAT d i
  let k := s.chan d i
  let e := s.interpDie d
  let ws := (List.range k.msgCount).map fun n => s.getReg (R.MBX_IN d i n)
  let len := bits (ws.headD 0) 24 8
  let pkt := ws.take len
  let w (n : Nat) : Word := pkt.getD n 0
  let whole : Bool := decide (s.flag st 0 = true ∧ s.running d = true ∧ s.running e = true ∧ k.part = [] ∧ 5 ≤ len ∧ len ≤ ws.length)
  let good : Bool := decide (pkt.getLastD 0 = wd (crc32c (wordBytes pkt.dropLast)))
  let last := s.fld (R.CMD_CH_STAT d i) 16 16
  decide (whole) &&
  decide (good) &&
  decide (bits (w 0) 0 16 ≠ 0x0100) &&
  decide (bits (w 3) 16 16 = s.cmdEpoch e) &&
  decide (s.flag (R.CMD_CH_STAT d i) 15 = true) &&
  decide (bits (w 3) 0 16 = (last + 1) % 65536)

def hyp_PacketsBecomeCommands_5 (d : Die) (c : Fin 32) (s : State) : Bool :=
  let i := c.val
  let k := s.chan d i
  let e := s.interpDie d
  decide (k.part ≠ []) &&
  decide (s.running d = true) &&
  decide (s.running e = true)

def hyp_PacketsBecomeCommands_6 (d : Die) (bytes : List Byte) (s : State) : Bool :=
  let e := s.interpDie d
  let mine : Bool := decide (s.running d = true ∧ s.running e = true ∧ s.flag (R.CMD_IB_MAC_HI d) 31 = true ∧
      macAt bytes 0 = s.macReg (R.CMD_IB_MAC_LO d) (R.CMD_IB_MAC_HI d) ∧ etype bytes = 0x88B5)
  decide (mine) &&
  decide (s.ibEntry d (macAt bytes 6) = none)

def hyp_PacketsBecomeCommands_7 (d : Die) (bytes : List Byte) (s : State) : Bool :=
  let e := s.interpDie d
  let mine : Bool := decide (s.running d = true ∧ s.running e = true ∧ s.flag (R.CMD_IB_MAC_HI d) 31 = true ∧
      macAt bytes 0 = s.macReg (R.CMD_IB_MAC_LO d) (R.CMD_IB_MAC_HI d) ∧ etype bytes = 0x88B5)
  decide (mine) &&
  (match s.ibEntry d (macAt bytes 6) with
  | some n =>
    decide (etOff bytes = 12) &&
    decide (byteAt bytes 14 = 1) &&
    decide (byteAt bytes 15 = 1) &&
    decide (beAt bytes 16 2 = 0) &&
    decide ((s.interpOf d).ibMs ≠ s.lin d / 1_000_000) &&
    decide (0 < s.fld (R.CMD_IB_RATE d) 0 11) && (
      let p := bytes.drop 18
      let xs := bytesWords (p.take (p.length / 4 * 4))
      decide (5 ≤ bits (xs.headD 0) 24 8) &&
      decide (bits (xs.headD 0) 24 8 ≤ xs.length))
  | _ => false)

def hyp_PacketsBecomeCommands_8 (d : Die) (s : State) : Bool :=
  (List.any ([([] : List Byte)]) fun b =>
    decide (macAt b 0 ≠ s.macReg (R.CMD_IB_MAC_LO d) (R.CMD_IB_MAC_HI d)))

def hyp_PacketsBecomeCommands_9 (d : Die) (seq : Nat) (s : State) : Bool :=
  (List.any ([(0 : Fin 40), 9, 31, 39]) fun ch =>
    (match s.asyncOf d ch.val seq with
    | some x =>
      decide (x.op ≠ 0x0A01) &&
      decide (s.latest x)
    | _ => false))

def hyp_PacketsBecomeCommands_10 (d : Die) (s : State) : Bool :=
  (match (s.interpOf d).async.find? (fun z => z.op = 0x0102 && (!bit (z.par 0) 1 || s.settled d z)) with
  | some x =>
    decide (bit (x.par 0) 0 = false) &&
    decide (s.linkUp = true) &&
    decide (s.latest x)
  | _ => false)

theorem test_hyps_PacketsBecomeCommands : (
    hyp_PacketsBecomeCommands_0 (.d0) (9) (tMsg [wd 0x20000500, 7, 7, 7, 7, 7, 7, 8]) &&
    hyp_PacketsBecomeCommands_1 (.d0) (9) (tMsg (((tPkt 0x500 6 0).take 4) ++ [0,0,0,0])) &&
    hyp_PacketsBecomeCommands_2 (.d0) (9) (tw (tMsg (tPkt 0x500 6 1)) [(R.CMD_CH_STAT .d0 9, 0x58000)]) &&
    hyp_PacketsBecomeCommands_3 (.d0) (9) (tw (tMsg (tPkt 0x500 7 0)) [(R.CMD_CH_STAT .d0 9, 0x58000)]) &&
    hyp_PacketsBecomeCommands_4 (.d0) (9) (tw (tMsg (tPkt 0x500 6 0)) [(R.CMD_CH_STAT .d0 9, 0x58000)]) &&
    hyp_PacketsBecomeCommands_5 (.d0) (9) (tUp.setChan .d0 9 {part := [1,2,3]}) &&
    hyp_PacketsBecomeCommands_6 (.d0) (tMac 0x10 ++ tMac 0x20 ++ [0x88,0xB5,1,1,0,0] ++ wordBytes (tPkt 0x101 6 0)) (tw tUp [(R.CMD_IB_MAC_LO .d0, 0x13121110), (R.CMD_IB_MAC_HI .d0, 0x80001514)]) &&
    hyp_PacketsBecomeCommands_7 (.d0) (tMac 0x10 ++ tMac 0x20 ++ [0x88,0xB5,1,1,0,0] ++ wordBytes (tPkt 0x101 6 0)) ((tw tUp [(R.CMD_IB_MAC_LO .d0, 0x13121110), (R.CMD_IB_MAC_HI .d0, 0x80001514), (R.CMD_IB_ALLOW_LO .d0 7, 0x23222120), (R.CMD_IB_ALLOW_HI .d0 7, 0x80002524), (R.CMD_IB_RATE .d0, 1)]).setNow .d0 {sec := 5}) &&
    hyp_PacketsBecomeCommands_8 (.d0) (tw tUp [(R.CMD_IB_MAC_LO .d0, 0x13121110), (R.CMD_IB_MAC_HI .d0, 0x80001514)]) &&
    hyp_PacketsBecomeCommands_9 (.d0) (5) (tAsy tUp (tCmd 0x102 [2] 0)) &&
    hyp_PacketsBecomeCommands_10 (.d0) (tAsy tUp (tCmd 0x102 [2] 0))) = true := by decide +kernel

/-! ### HostQueriesAreAnswered -/

def hyp_HostQueriesAreAnswered_0 (d : Die) (c : HostCmd) (s : State) : Bool :=
  decide (s.front d c 0x0100)

def hyp_HostQueriesAreAnswered_1 (d : Die) (c : HostCmd) (s : State) : Bool :=
  decide (s.front d c 0x0101)

def hyp_HostQueriesAreAnswered_2 (d : Die) (c : HostCmd) (s : State) : Bool :=
  let handle := (c.par 0).toNat
  decide (s.handleHeld handle = true) &&
  decide (s.front d c 0x0206)

def hyp_HostQueriesAreAnswered_3 (d : Die) (c : HostCmd) (s : State) : Bool :=
  let handle := (c.par 0).toNat
  decide (s.handleHeld handle = false) &&
  decide (s.front d c 0x0206)

def hyp_HostQueriesAreAnswered_4 (d : Die) (c : HostCmd) (s : State) : Bool :=
  (List.any ([Die.d0, Die.d1]) fun f =>
    (List.any ([(0 : Fin 16), (2 : Fin 16), (11 : Fin 16)]) fun m =>
      decide (c.par 0 = wd (5 + f.idx * 2 ^ 8 + m.val * 2 ^ 16)) &&
      decide (s.front d c 0x0207)))

def hyp_HostQueriesAreAnswered_5 (d : Die) (c : HostCmd) (s : State) : Bool :=
  decide (bits (c.par 0) 0 8 = 0 ∨ 12 < bits (c.par 0) 0 8) &&
  decide (s.front d c 0x0207)

def hyp_HostQueriesAreAnswered_6 (d : Die) (c : HostCmd) (s : State) : Bool :=
  decide (s.flashOff c = false) &&
  decide (s.front d c 0x0302)

def hyp_HostQueriesAreAnswered_7 (d : Die) (c : HostCmd) (s : State) : Bool :=
  decide (s.flashOff c = true) &&
  decide (s.front d c 0x0302)

def hyp_HostQueriesAreAnswered_8 (d : Die) (c : HostCmd) (s : State) : Bool :=
  decide (s.front d c 0x0403)

def hyp_HostQueriesAreAnswered_9 (d : Die) (c : HostCmd) (s : State) : Bool :=
  decide (s.front d c 0x0500)

def hyp_HostQueriesAreAnswered_10 (d : Die) (c : HostCmd) (s : State) : Bool :=
  decide (s.front d c 0x0602)

def hyp_HostQueriesAreAnswered_11 (d : Die) (c : HostCmd) (s : State) : Bool :=
  let e := c.tdie
  let head := (s.getReg (R.LOG_HEAD e)).toNat
  let old := (s.getReg (R.LOG_OLDEST e)).toNat
  let first := (c.par 0).toNat
  decide ((s.logOf e).primOk = true) &&
  decide (old ≤ first) &&
  decide (first < head) &&
  decide (head - first ≤ 16384) &&
  decide ((c.par 1).toNat ≤ head - first) &&
  decide (s.front d c 0x0700)

def hyp_HostQueriesAreAnswered_12 (d : Die) (c : HostCmd) (s : State) : Bool :=
  let e := c.tdie
  let head := (s.getReg (R.LOG_HEAD e)).toNat
  let old := (s.getReg (R.LOG_OLDEST e)).toNat
  let first := (c.par 0).toNat
  decide ((s.logOf e).primOk = true) &&
  decide (old ≤ first) &&
  decide (first = head) &&
  decide (s.front d c 0x0700)

def hyp_HostQueriesAreAnswered_13 (d : Die) (c : HostCmd) (s : State) : Bool :=
  let e := c.tdie
  let head := (s.getReg (R.LOG_HEAD e)).toNat
  let first := (c.par 0).toNat
  decide ((s.logOf e).primOk = true) &&
  decide (head < first) &&
  decide (first - head < 2 ^ 31) &&
  decide (s.front d c 0x0700)

def hyp_HostQueriesAreAnswered_14 (d : Die) (c : HostCmd) (s : State) : Bool :=
  decide (s.front d c 0x0702)

def hyp_HostQueriesAreAnswered_15 (d : Die) (c : HostCmd) (s : State) : Bool :=
  decide (s.front d c 0x0902)

def hyp_HostQueriesAreAnswered_16 (d : Die) (c : HostCmd) (s : State) : Bool :=
  decide (s.front d c 0x0A03)

theorem test_hyps_HostQueriesAreAnswered : (
    hyp_HostQueriesAreAnswered_0 (.d0) (tCmd 0x100 [] 0 0) (tNext (tUp) (tCmd 0x100 [] 0 0)) &&
    hyp_HostQueriesAreAnswered_1 (.d0) (tCmd 0x101 [] 0 0) (tNext (tUp) (tCmd 0x101 [] 0 0)) &&
    hyp_HostQueriesAreAnswered_2 (.d0) (tCmd 0x206 [1] 0 0) (tNext (tInt 1 {st := 4, ce := 3}) (tCmd 0x206 [1] 0 0)) &&
    hyp_HostQueriesAreAnswered_3 (.d0) (tCmd 0x206 [1] 0 0) (tNext (tUp) (tCmd 0x206 [1] 0 0)) &&
    hyp_HostQueriesAreAnswered_4 (.d0) (tCmd 0x207 [0xB0005] 0 0) (tNext (tUp) (tCmd 0x207 [0xB0005] 0 0)) &&
    hyp_HostQueriesAreAnswered_5 (.d0) (tCmd 0x207 [0] 0 0) (tNext (tUp) (tCmd 0x207 [0] 0 0)) &&
    hyp_HostQueriesAreAnswered_6 (.d0) (tCmd 0x302 [] 0 0) (tNext (tUp) (tCmd 0x302 [] 0 0)) &&
    hyp_HostQueriesAreAnswered_7 (.d1) ({tCmd 0x302 [] 0 with die := .d1}) ((tw (tw tUp [(R.SYS_DLY_STAT .d0, 0x20)]) [(R.CMD_CH_STAT .d1 0, 0x50000)]).setInterp .d1 {normal := [{tCmd 0x302 [] 0 with die := .d1}]}) &&
    hyp_HostQueriesAreAnswered_8 (.d0) (tCmd 0x403 [] 5 0) (tNext (tUp) (tCmd 0x403 [] 5 0)) &&
    hyp_HostQueriesAreAnswered_9 (.d0) (tCmd 0x500 [] 257 0) (tNext (tUp.setNow .d1 {sec := 5, ns := 7, frac := 0x12345678}) (tCmd 0x500 [] 257 0)) &&
    hyp_HostQueriesAreAnswered_10 (.d0) (tCmd 0x602 [3] 1 0) (tNext (tUp) (tCmd 0x602 [3] 1 0)) &&
    hyp_HostQueriesAreAnswered_11 (.d0) (tCmd 0x700 [5,0] 1 0) (tNext (tw tUp [(R.LOG_HEAD .d0, 9)]) (tCmd 0x700 [5,0] 1 0)) &&
    hyp_HostQueriesAreAnswered_12 (.d0) (tCmd 0x700 [9,2] 1 0) (tNext (tw tUp [(R.LOG_HEAD .d0, 9)]) (tCmd 0x700 [9,2] 1 0)) &&
    hyp_HostQueriesAreAnswered_13 (.d0) (tCmd 0x700 [10,2] 1 0) (tNext (tw tUp [(R.LOG_HEAD .d0, 9), (R.LOG_OLDEST .d0, 7)]) (tCmd 0x700 [10,2] 1 0)) &&
    hyp_HostQueriesAreAnswered_14 (.d0) (tCmd 0x702 [] 1 0) (tNext (tw tUp [(R.LOG_LFR .d0 15, 9)]) (tCmd 0x702 [] 1 0)) &&
    hyp_HostQueriesAreAnswered_15 (.d0) (tCmd 0x902 [] 8 0) (tNext (tw tUp [(R.FIO_IN .d0, 9), (R.FIO_OUT .d0, 0xFF55), (R.FIO_STAT .d0, 0x11)]) (tCmd 0x902 [] 8 0)) &&
    hyp_HostQueriesAreAnswered_16 (.d0) (tCmd 0xa03 [] 5 0) (tNext (tw tUp [(R.TFR_OFFSET .d0, 9)]) (tCmd 0xa03 [] 5 0))) = true := by decide +kernel

/-! ### HostSettingsTakeEffect -/

def hyp_HostSettingsTakeEffect_0 (d : Die) (c : HostCmd) (s : State) : Bool :=
  decide (s.front d c 0x0103) &&
  decide (bits (c.par 0) 0 4 = 8)

def hyp_HostSettingsTakeEffect_1 (d : Die) (c : HostCmd) (s : State) : Bool :=
  decide (s.front d c 0x0103) &&
  (List.any ([(0 : Fin 8), 7, 3]) fun k =>
    decide (bits (c.par 0) 0 4 = k.val))

def hyp_HostSettingsTakeEffect_2 (d : Die) (c : HostCmd) (s : State) : Bool :=
  let p (n : Nat) : Nat := (c.par n).toNat
  decide (s.front d c 0x0203) &&
  decide (s.handleHeld (p 0) = true)

def hyp_HostSettingsTakeEffect_3 (d : Die) (c : HostCmd) (s : State) : Bool :=
  let p (n : Nat) : Nat := (c.par n).toNat
  decide (s.front d c 0x0203) &&
  decide (s.handleHeld (p 0) = false)

def hyp_HostSettingsTakeEffect_4 (d : Die) (c : HostCmd) (s : State) : Bool :=
  let e := c.tdie
  let m := c.mac
  let port : Bool := decide (c.cls = 4 ∨ c.cls = 5)
  decide (s.front d c 0x0400) &&
  decide (port) &&
  decide (s.flag (R.SW_PORT_CFG e m) 31 ≠ bit (c.par 0) 0)

def hyp_HostSettingsTakeEffect_5 (d : Die) (c : HostCmd) (s : State) : Bool :=
  let e := c.tdie
  let m := c.mac
  let port : Bool := decide (c.cls = 4 ∨ c.cls = 5)
  decide (s.front d c 0x0400) &&
  decide (port) &&
  decide (s.flag (R.SW_PORT_CFG e m) 31 = bit (c.par 0) 0)

def hyp_HostSettingsTakeEffect_6 (d : Die) (c : HostCmd) (s : State) : Bool :=
  let p (n : Nat) : Nat := (c.par n).toNat
  decide (s.front d c 0x0404) &&
  decide (p 0 < 4096)

def hyp_HostSettingsTakeEffect_7 (d : Die) (c : HostCmd) (s : State) : Bool :=
  let port : Bool := decide (c.cls = 4 ∨ c.cls = 5)
  decide (s.front d c 0x0405) &&
  decide (port)

def hyp_HostSettingsTakeEffect_8 (d : Die) (c : HostCmd) (s : State) : Bool :=
  let e := c.tdie
  decide (s.front d c 0x0501) &&
  decide (s.steered e = false)

def hyp_HostSettingsTakeEffect_9 (d : Die) (c : HostCmd) (s : State) : Bool :=
  let e := c.tdie
  decide (s.front d c 0x0502) &&
  decide (s.steered e = false)

def hyp_HostSettingsTakeEffect_10 (d : Die) (c : HostCmd) (s : State) : Bool :=
  let e := c.tdie
  decide (s.front d c 0x0501) &&
  decide (s.steered e = true)

def hyp_HostSettingsTakeEffect_11 (d : Die) (c : HostCmd) (s : State) : Bool :=
  let e := c.tdie
  decide (s.front d c 0x0502) &&
  decide (s.steered e = true)

def hyp_HostSettingsTakeEffect_12 (d : Die) (c : HostCmd) (s : State) : Bool :=
  let e := c.tdie
  let log := ((s.logRefill e).logOf e).allow
  decide (s.front d c 0x0701) &&
  decide (0 < log) &&
  decide ((s.logOf e).primOk = true)

def hyp_HostSettingsTakeEffect_13 (d : Die) (c : HostCmd) (s : State) : Bool :=
  let e := c.tdie
  let log := ((s.logRefill e).logOf e).allow
  decide (s.front d c 0x0701) &&
  decide (log = 0)

def hyp_HostSettingsTakeEffect_14 (d : Die) (c : HostCmd) (s : State) : Bool :=
  decide (s.front d c 0x0800)

def hyp_HostSettingsTakeEffect_15 (d : Die) (c : HostCmd) (s : State) : Bool :=
  decide (s.front d c 0x0900)

def hyp_HostSettingsTakeEffect_16 (d : Die) (c : HostCmd) (s : State) : Bool :=
  decide (s.front d c 0x0901) &&
  decide ((c.par 0 = 0 → s.flag fioStat 0 = true ∧ s.flag fioStat 2 = false ∧ s.flag fioStat 3 = false))

def hyp_HostSettingsTakeEffect_17 (d : Die) (c : HostCmd) (s : State) : Bool :=
  decide (s.front d c 0x0901) &&
  decide (c.par 0 = 0) &&
  decide (s.flag fioStat 0 = false)

theorem test_hyps_HostSettingsTakeEffect : (
    hyp_HostSettingsTakeEffect_0 (.d0) (tCmd 0x103 [0x80000008,2,3,9] 0 0) (tNext (tUp) (tCmd 0x103 [0x80000008,2,3,9] 0 0)) &&
    hyp_HostSettingsTakeEffect_1 (.d0) (tCmd 0x103 [0,2,3,9] 0 0) (tNext (tUp) (tCmd 0x103 [0,2,3,9] 0 0)) &&
    hyp_HostSettingsTakeEffect_2 (.d0) (tCmd 0x203 [1,1] 0 0) (tNext (tInt 1 {st := 4, ce := 3}) (tCmd 0x203 [1,1] 0 0)) &&
    hyp_HostSettingsTakeEffect_3 (.d0) (tCmd 0x203 [1,2] 0 0) (tNext (tUp) (tCmd 0x203 [1,2] 0 0)) &&
    hyp_HostSettingsTakeEffect_4 (.d0) (tCmd 0x400 [0] 131076 0) (tNext (tUp) (tCmd 0x400 [0] 131076 0)) &&
    hyp_HostSettingsTakeEffect_5 (.d0) (tCmd 0x400 [1] 5 0) (tNext (tUp) (tCmd 0x400 [1] 5 0)) &&
    hyp_HostSettingsTakeEffect_6 (.d0) (tCmd 0x404 [0,1] 1 0) (tNext (tUp) (tCmd 0x404 [0,1] 1 0)) &&
    hyp_HostSettingsTakeEffect_7 (.d0) (tCmd 0x405 [65535] 131076 0) (tNext (tUp) (tCmd 0x405 [65535] 131076 0)) &&
    hyp_HostSettingsTakeEffect_8 (.d0) (tCmd 0x501 [5,0x10003,7] 1 0) (tNext (tUp) (tCmd 0x501 [5,0x10003,7] 1 0)) &&
    hyp_HostSettingsTakeEffect_9 (.d0) (tCmd 0x502 [2000000,3] 1 0) (tNext (tUp) (tCmd 0x502 [2000000,3] 1 0)) &&
    hyp_HostSettingsTakeEffect_10 (.d0) (tCmd 0x501 [5,3,7] 1 0) (tNext (tw tUp [(R.TB_STAT .d0, 4)]) (tCmd 0x501 [5,3,7] 1 0)) &&
    hyp_HostSettingsTakeEffect_11 (.d0) (tCmd 0x502 [5,3] 1 0) (tNext (tw {tUp with steerSet := true, clockCe := [(0,3)]} [(R.TB_STAT .d0, 1)]) (tCmd 0x502 [5,3] 1 0)) &&
    hyp_HostSettingsTakeEffect_12 (.d0) (tCmd 0x701 [5,0x10003] 1 0) (tNext (tUp) (tCmd 0x701 [5,0x10003] 1 0)) &&
    hyp_HostSettingsTakeEffect_13 (.d0) (tCmd 0x701 [5,3] 1 0) (tNext ((tw tUp []).setLog .d0 {allow := 0}) (tCmd 0x701 [5,3] 1 0)) &&
    hyp_HostSettingsTakeEffect_14 (.d0) (tCmd 0x800 [1] 0 0) (tNext (tUp) (tCmd 0x800 [1] 0 0)) &&
    hyp_HostSettingsTakeEffect_15 (.d0) (tCmd 0x900 [0x0F,0xAA,1] 8 0) (tNext (tw tUp [(R.FIO_OUT .d0, 0xF00055)]) (tCmd 0x900 [0x0F,0xAA,1] 8 0)) &&
    hyp_HostSettingsTakeEffect_16 (.d0) (tCmd 0x901 [1] 8 0) (tNext (tUp) (tCmd 0x901 [1] 8 0)) &&
    hyp_HostSettingsTakeEffect_17 (.d0) (tCmd 0x901 [0] 8 0) (tNext (tUp) (tCmd 0x901 [0] 8 0))) = true := by decide +kernel

/-! ### HostCommandsAreAccepted -/

def hyp_HostCommandsAreAccepted_0 (d : Die) (c : HostCmd) (s : State) : Bool :=
  decide (s.front d c 0x0200)

def hyp_HostCommandsAreAccepted_1 (d : Die) (c : HostCmd) (s : State) : Bool :=
  decide (s.front d c 0x0201)

def hyp_HostCommandsAreAccepted_2 (d : Die) (c : HostCmd) (s : State) : Bool :=
  decide (s.front d c 0x0202)

def hyp_HostCommandsAreAccepted_3 (d : Die) (c : HostCmd) (s : State) : Bool :=
  decide (s.front d c 0x0204)

def hyp_HostCommandsAreAccepted_4 (d : Die) (c : HostCmd) (s : State) : Bool :=
  decide (s.front d c 0x0205)

def hyp_HostCommandsAreAccepted_5 (d : Die) (c : HostCmd) (s : State) : Bool :=
  decide (s.front d c 0x0208)

def hyp_HostCommandsAreAccepted_6 (d : Die) (c : HostCmd) (s : State) : Bool :=
  decide (s.front d c 0x0102)

def hyp_HostCommandsAreAccepted_7 (d : Die) (c : HostCmd) (s : State) : Bool :=
  let e := c.tdie
  let p (n : Nat) : Nat := (c.par n).toNat
  decide (s.front d c 0x0A01) &&
  (match s.claimRecord e with
  | some r =>
    decide (p 0 < rcSpares r) &&
    decide (firstSpareWin r (p 0) ≠ none) &&
    decide (s.flag (R.TFR_CLAIM e) 31 = false)
  | _ => false)

def hyp_HostCommandsAreAccepted_8 (d : Die) (c : HostCmd) (s : State) : Bool :=
  let e := c.tdie
  decide (s.front d c 0x0A01) &&
  decide (s.claimRecord e = none ∨ s.flag (R.TFR_CLAIM e) 31 = true)

def hyp_HostCommandsAreAccepted_9 (d : Die) (c : HostCmd) (s : State) : Bool :=
  let dies := s.dies c
  let goal := c.pwrTarget
  let idle := dies.all fun f => !s.flag (R.PWR_STAT f) 7
  let refused := dies.any fun f => s.pwrRefuses f (decide (c.cls = 0)) goal
  decide (s.front d c 0x0110) &&
  decide (idle = true) &&
  decide (refused = true)

def hyp_HostCommandsAreAccepted_10 (d : Die) (c : HostCmd) (s : State) : Bool :=
  let dies := s.dies c
  let goal := c.pwrTarget
  let idle := dies.all fun f => !s.flag (R.PWR_STAT f) 7
  let refused := dies.any fun f => s.pwrRefuses f (decide (c.cls = 0)) goal
  decide (s.front d c 0x0110) &&
  decide (idle = true) &&
  decide (refused = false) &&
  decide ((dies.all fun f => s.power f = goal) = true)

def hyp_HostCommandsAreAccepted_11 (d : Die) (c : HostCmd) (s : State) : Bool :=
  let dies := s.dies c
  let goal := c.pwrTarget
  let idle := dies.all fun f => !s.flag (R.PWR_STAT f) 7
  let refused := dies.any fun f => s.pwrRefuses f (decide (c.cls = 0)) goal
  decide (s.front d c 0x0110) &&
  decide (idle = true) &&
  decide (refused = false) &&
  decide (goal < 2) &&
  decide ((dies.all fun f => s.power f = goal) = false)

def hyp_HostCommandsAreAccepted_12 (d : Die) (c : HostCmd) (s : State) : Bool :=
  let dies := s.dies c
  let idle := dies.all fun f => !s.flag (R.PWR_STAT f) 7
  decide (s.front d c 0x0110) &&
  decide (idle = false)

def hyp_HostCommandsAreAccepted_13 (d : Die) (c : HostCmd) (s : State) : Bool :=
  decide (s.front d c 0x0111) &&
  decide (s.proposalDie c = none)

def hyp_HostCommandsAreAccepted_14 (d : Die) (c : HostCmd) (s : State) : Bool :=
  decide (s.front d c 0x0111) &&
  (match s.proposalDie c with
  | some f =>
    decide (bit (c.par 1) 0 = true) &&
    decide ((s.pwrOf f).mv ≠ s.fld (R.PWR_PROP f) 0 10)
  | _ => false)

def hyp_HostCommandsAreAccepted_15 (d : Die) (c : HostCmd) (s : State) : Bool :=
  decide (s.front d c 0x0111) &&
  (match s.proposalDie c with
  | some f =>
    decide (bit (c.par 1) 0 = false)
  | _ => false)

def hyp_HostCommandsAreAccepted_16 (d : Die) (c : HostCmd) (s : State) : Bool :=
  let dies := s.dies c
  decide (s.front d c 0x0112) &&
  decide (((s.dies c).all fun f => (retainGroups c).all fun g => s.groupDone f (bit (c.par 1) 0) g) = true)

def hyp_HostCommandsAreAccepted_17 (d : Die) (c : HostCmd) (s : State) : Bool :=
  let e := c.tdie
  let dies := s.dies c
  decide (s.front d c 0x0112) &&
  decide (s.dies c = [e]) &&
  (List.any ([(0 : Fin 17), 16, 3, 1, 2]) fun g =>
    decide (retainGroups c = [g.val]) &&
    decide (s.groupDone e (bit (c.par 1) 0) g.val = false) &&
    decide (s.groupMoving e g.val = false) &&
    decide ((bit (c.par 1) 0 = true → s.retainBlock e g.val = none)))

def hyp_HostCommandsAreAccepted_18 (d : Die) (c : HostCmd) (s : State) : Bool :=
  decide (s.front d c 0x0600) &&
  decide (s.rolePair c = true)

def hyp_HostCommandsAreAccepted_19 (d : Die) (c : HostCmd) (s : State) : Bool :=
  let e := c.tdie
  let u := c.unit
  let st := (s.hunit e c.cls u).st
  let others := (s.waitingTests e).filter fun q => q.cls = c.cls && q.unit = u
  decide (s.front d c 0x0600) &&
  decide (s.rolePair c = false) &&
  decide (st ≠ 1) &&
  decide (s.testingUnit e c.cls u = false) &&
  decide (others = [])

def hyp_HostCommandsAreAccepted_20 (d : Die) (c : HostCmd) (s : State) : Bool :=
  let e := c.tdie
  let u := c.unit
  let st := (s.hunit e c.cls u).st
  decide (s.front d c 0x0600) &&
  decide (s.rolePair c = false) &&
  decide (st = 1)

def hyp_HostCommandsAreAccepted_21 (d : Die) (c : HostCmd) (s : State) : Bool :=
  let e := c.tdie
  let u := c.unit
  let st := (s.hunit e c.cls u).st
  decide (s.front d c 0x0601) &&
  decide (bit (c.par 0) 0 = false) &&
  decide (st = 0) &&
  decide (s.rolePair c = false) &&
  decide (s.vacated e c.cls u = false)

def hyp_HostCommandsAreAccepted_22 (d : Die) (c : HostCmd) (s : State) : Bool :=
  let e := c.tdie
  let u := c.unit
  let st := (s.hunit e c.cls u).st
  decide (s.front d c 0x0601) &&
  decide (bit (c.par 0) 0 = true) &&
  decide (st = 0)

def hyp_HostCommandsAreAccepted_23 (d : Die) (c : HostCmd) (s : State) : Bool :=
  let e := c.tdie
  let u := c.unit
  let st := (s.hunit e c.cls u).st
  decide (s.front d c 0x0601) &&
  decide (bit (c.par 0) 0 = false) &&
  decide (st = 0) &&
  decide (s.rolePair c = true)

theorem test_hyps_HostCommandsAreAccepted : (
    hyp_HostCommandsAreAccepted_0 (.d0) (tCmd 0x200 [1,1] 0 0) (tNext (tUp) (tCmd 0x200 [1,1] 0 0)) &&
    hyp_HostCommandsAreAccepted_1 (.d0) (tCmd 0x201 [1,5] 0 0) (tNext (tUp) (tCmd 0x201 [1,5] 0 0)) &&
    hyp_HostCommandsAreAccepted_2 (.d0) (tCmd 0x202 [1,5] 0 0) (tNext (tUp) (tCmd 0x202 [1,5] 0 0)) &&
    hyp_HostCommandsAreAccepted_3 (.d0) (tCmd 0x204 [1] 0 0) (tNext (tUp) (tCmd 0x204 [1] 0 0)) &&
    hyp_HostCommandsAreAccepted_4 (.d0) (tCmd 0x205 [1,2,3] 0 0) (tNext (tUp) (tCmd 0x205 [1,2,3] 0 0)) &&
    hyp_HostCommandsAreAccepted_5 (.d0) (tCmd 0x208 [] 0 0) (tNext (tUp) (tCmd 0x208 [] 0 0)) &&
    hyp_HostCommandsAreAccepted_6 (.d0) (tCmd 0x102 [2] 0 0) (tNext (tUp) (tCmd 0x102 [2] 0 0)) &&
    hyp_HostCommandsAreAccepted_7 (.d0) (tCmd 0xa01 [0] 5 0) (tNext (tPair.setRing .d0 {pend := (tRec 0x80050000).map wd}) (tCmd 0xa01 [0] 5 0)) &&
    hyp_HostCommandsAreAccepted_8 (.d0) (tCmd 0xa01 [0] 5 0) (tNext (tUp) (tCmd 0xa01 [0] 5 0)) &&
    hyp_HostCommandsAreAccepted_9 (.d0) (tCmd 0x110 [4] 0 0) (tNext (tUp) (tCmd 0x110 [4] 0 0)) &&
    hyp_HostCommandsAreAccepted_10 (.d0) (tCmd 0x110 [0] 0 0) (tNext (tUp) (tCmd 0x110 [0] 0 0)) &&
    hyp_HostCommandsAreAccepted_11 (.d0) (tCmd 0x110 [1] 0 0) (tNext (tUp) (tCmd 0x110 [1] 0 0)) &&
    hyp_HostCommandsAreAccepted_12 (.d0) (tCmd 0x110 [1] 0 0) (tNext (tw tUp [(R.PWR_STAT .d1, 0x180)]) (tCmd 0x110 [1] 0 0)) &&
    hyp_HostCommandsAreAccepted_13 (.d0) (tCmd 0x111 [1,1] 1 0) (tNext (tUp) (tCmd 0x111 [1,1] 1 0)) &&
    hyp_HostCommandsAreAccepted_14 (.d0) (tCmd 0x111 [1,1] 1 0) (tNext (tw tUp [(R.PWR_PROP .d0, 0x10000 + 0x1000 + 760)]) (tCmd 0x111 [1,1] 1 0)) &&
    hyp_HostCommandsAreAccepted_15 (.d0) (tCmd 0x111 [1,0] 1 0) (tNext (tw tUp [(R.PWR_PROP .d0, 0x10000 + 0x1000 + 760)]) (tCmd 0x111 [1,0] 1 0)) &&
    hyp_HostCommandsAreAccepted_16 (.d0) (tCmd 0x112 [1,0] 1 0) (tNext (tUp) (tCmd 0x112 [1,0] 1 0)) &&
    hyp_HostCommandsAreAccepted_17 (.d0) (tCmd 0x112 [1,1] 1 0) (tNext (tUp) (tCmd 0x112 [1,1] 1 0)) &&
    hyp_HostCommandsAreAccepted_18 (.d0) (tCmd 0x600 [] 3 0) (tNext (tUp) (tCmd 0x600 [] 3 0)) &&
    hyp_HostCommandsAreAccepted_19 (.d0) (tCmd 0x600 [] 2 0) (tNext (tUp) (tCmd 0x600 [] 2 0)) &&
    hyp_HostCommandsAreAccepted_20 (.d0) (tCmd 0x600 [] 2 0) (tNext (tUp.setUnit .d0 2 0 {st := 1}) (tCmd 0x600 [] 2 0)) &&
    hyp_HostCommandsAreAccepted_21 (.d0) (tCmd 0x601 [0] 196610 0) (tNext (tInt 1 {st := 4, ce := 3}) (tCmd 0x601 [0] 196610 0)) &&
    hyp_HostCommandsAreAccepted_22 (.d0) (tCmd 0x601 [1] 2 0) (tNext (tUp) (tCmd 0x601 [1] 2 0)) &&
    hyp_HostCommandsAreAccepted_23 (.d0) (tCmd 0x601 [0] 3 0) (tNext (tUp) (tCmd 0x601 [0] 3 0))) = true := by decide +kernel

/-! ### AcceptedCommandsComplete -/

def hyp_AcceptedCommandsComplete_0 (d : Die) (ch : Fin 40) (seq : Nat) (s : State) : Bool :=
  decide (s.asyncOf d ch.val seq = none)

def hyp_AcceptedCommandsComplete_2 (d : Die) (ch : Fin 40) (seq : Nat) (c : HostCmd) (s : State) : Bool :=
  let p (n : Nat) : Nat := (c.par n).toNat
  let due (op : Nat) : Bool := decide (s.asyncOf d ch.val seq = some c ∧ s.latest c ∧ c.op = op)
  let img := (wordBytes (c.params.drop 2)).take (p 1)
  decide (due 0x0300) &&
  decide (s.installBad c = none) &&
  decide (imageOk img (p 1) = false)

def hyp_AcceptedCommandsComplete_4 (d : Die) (ch : Fin 40) (seq : Nat) (c : HostCmd) (s : State) : Bool :=
  let due (op : Nat) : Bool := decide (s.asyncOf d ch.val seq = some c ∧ s.latest c ∧ c.op = op)
  decide (due 0x0301) &&
  decide (s.removeBad c = none)

def hyp_AcceptedCommandsComplete_6 (d : Die) (ch : Fin 40) (seq : Nat) (c : HostCmd) (s : State) : Bool :=
  let p (n : Nat) : Nat := (c.par n).toNat
  let due (op : Nat) : Bool := decide (s.asyncOf d ch.val seq = some c ∧ s.latest c ∧ c.op = op)
  let uc := (wordBytes (c.params.drop 1)).take (p 0)
  decide (due 0x0303) &&
  decide (s.flashOff c = false) &&
  decide (undercoatOk uc (p 0) = false)

def hyp_AcceptedCommandsComplete_7 (d : Die) (ch : Fin 40) (seq : Nat) (c : HostCmd) (s : State) : Bool :=
  let due (op : Nat) : Bool := decide (s.asyncOf d ch.val seq = some c ∧ s.latest c ∧ c.op = op)
  decide (due 0x0401) &&
  decide (c.cls = 4 ∨ c.cls = 5) &&
  decide (s.modeBad c = none)

def hyp_AcceptedCommandsComplete_8 (d : Die) (ch : Fin 40) (seq : Nat) (c : HostCmd) (s : State) : Bool :=
  let p (n : Nat) : Nat := (c.par n).toNat
  let due (op : Nat) : Bool := decide (s.asyncOf d ch.val seq = some c ∧ s.latest c ∧ c.op = op)
  decide (due 0x0402) &&
  decide (p 0 < 3) &&
  decide (s.laneBad c = none)

def hyp_AcceptedCommandsComplete_9 (d : Die) (ch : Fin 40) (seq : Nat) (c : HostCmd) (s : State) : Bool :=
  let p (n : Nat) : Nat := (c.par n).toNat
  let due (op : Nat) : Bool := decide (s.asyncOf d ch.val seq = some c ∧ s.latest c ∧ c.op = op)
  decide (due 0x0503) &&
  decide (c.cls = 4 ∨ c.cls = 5) &&
  decide (s.roleBad c = none) &&
  decide (p 0 < 5)

def hyp_AcceptedCommandsComplete_10 (d : Die) (ch : Fin 40) (seq : Nat) (c : HostCmd) (s : State) : Bool :=
  let e := c.tdie
  let u := c.unit
  let due (op : Nat) : Bool := decide (s.asyncOf d ch.val seq = some c ∧ s.latest c ∧ c.op = op)
  decide (due 0x0601) &&
  decide (bit (c.par 0) 0 = false) &&
  decide ((s.hunit e c.cls u).st = 0) &&
  decide (c.cls ≠ 3) &&
  decide (s.vacated e c.cls u = true)

def hyp_AcceptedCommandsComplete_11 (d : Die) (ch : Fin 40) (seq : Nat) (c : HostCmd) (s : State) : Bool :=
  let u := c.unit
  let due (op : Nat) : Bool := decide (s.asyncOf d ch.val seq = some c ∧ s.latest c ∧ c.op = op)
  decide (due 0x0801) &&
  decide (c.cls = 9) &&
  decide (u < 64) &&
  decide (s.resetBad c = none)

def hyp_AcceptedCommandsComplete_12 (d : Die) (ch : Fin 40) (seq : Nat) (c : HostCmd) (s : State) : Bool :=
  let due (op : Nat) : Bool := decide (s.asyncOf d ch.val seq = some c ∧ s.latest c ∧ c.op = op)
  decide (due 0x0801) &&
  decide (c.cls = 8) &&
  decide (s.resetBad c = none)

def hyp_AcceptedCommandsComplete_13 (d : Die) (ch : Fin 40) (seq : Nat) (c : HostCmd) (s : State) : Bool :=
  let due (op : Nat) : Bool := decide (s.asyncOf d ch.val seq = some c ∧ s.latest c ∧ c.op = op)
  decide (due 0x0A00) &&
  decide (s.schedBad c = none)

def hyp_AcceptedCommandsComplete_14 (d : Die) (ch : Fin 40) (seq : Nat) (c : HostCmd) (s : State) : Bool :=
  let e := c.tdie
  let p (n : Nat) : Nat := (c.par n).toNat
  let due (op : Nat) : Bool := decide (s.asyncOf d ch.val seq = some c ∧ s.latest c ∧ c.op = op)
  let r := s.ringOf e
  decide (due 0x0A01) &&
  decide (s.flag (R.TFR_CLAIM e) 31 = false) &&
  decide (s.fld (R.TFR_CLAIM e) 28 3 = 4) &&
  decide (s.fld (R.TFR_STAT e) 11 2 ≠ 3) &&
  (match firstSpareWin r.cur (p 0) with
  | some w =>
    true
  | _ => false)

def hyp_AcceptedCommandsComplete_15 (d : Die) (ch : Fin 40) (seq : Nat) (c : HostCmd) (s : State) : Bool :=
  let due (op : Nat) : Bool := decide (s.asyncOf d ch.val seq = some c ∧ s.latest c ∧ c.op = op)
  decide (due 0x0A02) &&
  decide (s.readmitBad c = none)

theorem test_hyps_AcceptedCommandsComplete : (
    hyp_AcceptedCommandsComplete_0 (.d0) (0) (5) (tUp) &&
    hyp_AcceptedCommandsComplete_2 (.d0) (0) (5) (tCmd 0x300 [3,4,5] 0 0) (tAsy (tUp) (tCmd 0x300 [3,4,5] 0 0)) &&
    hyp_AcceptedCommandsComplete_4 (.d0) (0) (5) (tCmd 0x301 [3] 0 0) (tAsy ({tUp with images := [(3,[1,2,3]),(9,[1])]}) (tCmd 0x301 [3] 0 0)) &&
    hyp_AcceptedCommandsComplete_6 (.d0) (0) (5) (tCmd 0x303 [4,5] 0 0) (tAsy (tUp) (tCmd 0x303 [4,5] 0 0)) &&
    hyp_AcceptedCommandsComplete_7 (.d0) (0) (5) (tCmd 0x401 [0] 5 0) (tAsy (tUp) (tCmd 0x401 [0] 5 0)) &&
    hyp_AcceptedCommandsComplete_8 (.d0) (0) (5) (tCmd 0x402 [2,1] 1 0) (tAsy (tUp) (tCmd 0x402 [2,1] 1 0)) &&
    hyp_AcceptedCommandsComplete_9 (.d0) (0) (5) (tCmd 0x503 [3,0x105] 5 0) (tAsy (tUp) (tCmd 0x503 [3,0x105] 5 0)) &&
    hyp_AcceptedCommandsComplete_10 (.d0) (0) (5) (tCmd 0x601 [0] 2 0) (tAsy (tUp) (tCmd 0x601 [0] 2 0)) &&
    hyp_AcceptedCommandsComplete_11 (.d0) (0) (5) (tCmd 0x801 [] 4128777 0) (tAsy (tUp) (tCmd 0x801 [] 4128777 0)) &&
    hyp_AcceptedCommandsComplete_12 (.d0) (0) (5) (tCmd 0x801 [] 8 0) (tAsy (tw {tUp with fio := {dnSeq := 3, badUp := 2, trip := true}} [(R.FIO_STAT .d0, 0x3F), (R.FIO_OUT .d0, 0x10005)]) (tCmd 0x801 [] 8 0)) &&
    hyp_AcceptedCommandsComplete_13 (.d0) (0) (5) (tCmd 0xA00 (tRec 0x10050000) 5) (tAsy (tPair) (tCmd 0xA00 (tRec 0x10050000) 5)) &&
    hyp_AcceptedCommandsComplete_14 (.d0) (0) (5) (tCmd 0xa01 [0] 5 0) (tAsy ((tw tPair [(R.TFR_CLAIM .d0, 0x40000000)]).setRing .d0 {cur := (tRec 0x80050000).map wd}) (tCmd 0xa01 [0] 5 0)) &&
    hyp_AcceptedCommandsComplete_15 (.d0) (0) (5) (tCmd 0xa02 [3] 5 0) (tAsy ((tw tUp [(R.TFR_STAT .d0, 0x80)]).setRing .d0 {cand := [(3,5),(4,5)], mem := [(3,(2,65535))]}) (tCmd 0xa02 [3] 5 0))) = true := by decide +kernel

/-! ### DeviceTimeIsSteered -/

def hyp_DeviceTimeIsSteered_0 (d : Die) (s : State) : Bool :=
  let now := s.now d
  let base := incOf (s.rate d)
  decide (now.slew ≠ 0) &&
  decide (now.slew.natAbs ≤ (incOf (s.rate d + s.slewRate d) - base).natAbs)

def hyp_DeviceTimeIsSteered_1 (who : Requester) (d : Die) (v : Word) (s : State) : Bool :=
  decide (s.accepts who (R.TB_RATE d)) &&
  decide (s.steers who d = true) &&
  decide (-500_000 ≤ v.toInt) &&
  decide (v.toInt ≤ 500_000)

def hyp_DeviceTimeIsSteered_2 (who : Requester) (d : Die) (v : Word) (s : State) : Bool :=
  decide (s.accepts who (R.TB_RATE d)) &&
  decide ((s.steers who d = false ∨ v.toInt < -500_000 ∨ 500_000 < v.toInt))

def hyp_DeviceTimeIsSteered_3 (who : Requester) (d : Die) (s : State) : Bool :=
  decide (s.accepts who (R.TB_SLEW d)) &&
  decide (s.steers who d = true)

def hyp_DeviceTimeIsSteered_4 (who : Requester) (d : Die) (s : State) : Bool :=
  decide (s.accepts who (R.TB_SLEW d)) &&
  decide (s.steers who d = false)

def hyp_DeviceTimeIsSteered_5 (who : Requester) (d : Die) (v : Word) (s : State) : Bool :=
  let ns := s.fld (R.TB_STEP_NS d) 0 30
  let step := R.TB_STEP_CTRL d
  decide (s.accepts who step) &&
  decide (s.steers who d = true) &&
  decide (bit v 0 = true) &&
  decide (bit v 1 = false) &&
  decide (ns < 1_000_000_000)

def hyp_DeviceTimeIsSteered_6 (who : Requester) (d : Die) (v : Word) (s : State) : Bool :=
  let step := R.TB_STEP_CTRL d
  decide (s.accepts who step) &&
  decide (s.steers who d = true) &&
  decide (bit v 0 = true) &&
  decide (bit v 1 = true)

def hyp_DeviceTimeIsSteered_7 (who : Requester) (d : Die) (v : Word) (s : State) : Bool :=
  let ns := s.fld (R.TB_STEP_NS d) 0 30
  let step := R.TB_STEP_CTRL d
  decide (s.accepts who step) &&
  decide ((s.steers who d = false ∨ (bit v 0 = true ∧ bit v 1 = false ∧ 1_000_000_000 ≤ ns)))

def hyp_DeviceTimeIsSteered_8 (d : Die) (s : State) : Bool :=
  let stat := R.TB_STAT d
  let src := s.fld stat 0 3
  decide (src = 1 ∨ src = 2)

def hyp_DeviceTimeIsSteered_9 (d : Die) (s : State) : Bool :=
  let stat := R.TB_STAT d
  let src := s.fld stat 0 3
  decide (src ≠ 1) &&
  decide (src ≠ 2)

def hyp_DeviceTimeIsSteered_10 (off : Int) (s : State) : Bool :=
  let slave : Bool := decide (s.linkUp = true ∧ s.fld (R.TB_STAT .d1) 0 3 = 3)
  decide (slave) &&
  decide (off.natAbs ≤ 64)

def hyp_DeviceTimeIsSteered_11 (off : Int) (s : State) : Bool :=
  let slave : Bool := decide (s.linkUp = true ∧ s.fld (R.TB_STAT .d1) 0 3 = 3)
  let slaved := s.flag (R.SYS_DLY_STAT .d1) 8
  decide (slave) &&
  decide (slaved = true) &&
  decide (64 < off.natAbs)

def hyp_DeviceTimeIsSteered_12 (off : Int) (s : State) : Bool :=
  let slave : Bool := decide (s.linkUp = true ∧ s.fld (R.TB_STAT .d1) 0 3 = 3)
  decide (slave) &&
  decide (16_000 < off.natAbs)

def hyp_DeviceTimeIsSteered_13 (s : State) : Bool :=
  let slave : Bool := decide (s.linkUp = true ∧ s.fld (R.TB_STAT .d1) 0 3 = 3)
  decide (¬slave)

def hyp_DeviceTimeIsSteered_14 (s : State) : Bool :=
  let slaved := s.flag (R.SYS_DLY_STAT .d1) 8
  decide (1000 ≤ s.slvRun) &&
  decide (s.linkUp = true) &&
  decide (slaved = false)

def hyp_DeviceTimeIsSteered_15 (s : State) : Bool :=
  decide (s.slvRun < 1000)

def hyp_DeviceTimeIsSteered_16 (who : Requester) (d : Die) (v : Word) (s : State) : Bool :=
  decide (s.accepts who (R.TB_SNAP_CTRL d)) &&
  decide (bit v 0 = true)

theorem test_hyps_DeviceTimeIsSteered : (
    hyp_DeviceTimeIsSteered_0 (.d0) (tw (tUp.setNow .d0 {slew := 9}) [(R.TB_STAT .d0, 1)]) &&
    hyp_DeviceTimeIsSteered_1 (tSup) (.d0) (0) (tw (tUp.setNow .d1 {sec := 4}) [(R.TB_STAT .d1, 3), (R.SYS_DLY_STAT .d1, 0x10F)]) &&
    hyp_DeviceTimeIsSteered_2 (tSup) (.d0) (1) (tw (tUp.setNow .d0 {slew := 9}) [(R.TB_STAT .d0, 1)]) &&
    hyp_DeviceTimeIsSteered_3 (tSup) (.d0) (tw (tUp.setNow .d1 {sec := 4}) [(R.TB_STAT .d1, 3), (R.SYS_DLY_STAT .d1, 0x10F)]) &&
    hyp_DeviceTimeIsSteered_4 (tSup) (.d0) (tw (tUp.setNow .d0 {slew := 9}) [(R.TB_STAT .d0, 1)]) &&
    hyp_DeviceTimeIsSteered_5 (tSup) (.d0) (500001) (tw tUp [(R.TB_STAT .d0, 0x200008)]) &&
    hyp_DeviceTimeIsSteered_6 (tSup) (.d0) (3) (tw (tUp.setNow .d0 {sec := 9, ns := 5, slew := 7}) [(R.TB_STAT .d0, 0x200008), (R.TB_STEP_NS .d0, 1073741823)]) &&
    hyp_DeviceTimeIsSteered_7 (tSup) (.d0) (1) (tw (tUp.setNow .d0 {slew := 9}) [(R.TB_STAT .d0, 1)]) &&
    hyp_DeviceTimeIsSteered_8 (.d0) (tw (tUp.setNow .d0 {slew := 9}) [(R.TB_STAT .d0, 1)]) &&
    hyp_DeviceTimeIsSteered_9 (.d0) (tw (tUp.setNow .d1 {sec := 4}) [(R.TB_STAT .d1, 3), (R.SYS_DLY_STAT .d1, 0x10F)]) &&
    hyp_DeviceTimeIsSteered_10 (-32) (tw tUp [(R.TB_STAT .d1, 3)]) &&
    hyp_DeviceTimeIsSteered_11 (16001) (tw (tUp.setNow .d1 {sec := 4}) [(R.TB_STAT .d1, 3), (R.SYS_DLY_STAT .d1, 0x10F)]) &&
    hyp_DeviceTimeIsSteered_12 (16001) (tw (tUp.setNow .d1 {sec := 4}) [(R.TB_STAT .d1, 3), (R.SYS_DLY_STAT .d1, 0x10F)]) &&
    hyp_DeviceTimeIsSteered_13 (tw (tUp.setNow .d0 {slew := 9}) [(R.TB_STAT .d0, 1)]) &&
    hyp_DeviceTimeIsSteered_14 ({tUp with slvRun := 1000}) &&
    hyp_DeviceTimeIsSteered_15 (tw (tUp.setNow .d0 {slew := 9}) [(R.TB_STAT .d0, 1)]) &&
    hyp_DeviceTimeIsSteered_16 (tSup) (.d0) (1) (tw (tUp.setNow .d0 {slew := 9}) [(R.TB_STAT .d0, 1)])) = true := by decide +kernel

/-! ### CompareTriggerAndCapture -/

def hyp_CompareTriggerAndCapture_0 (d : Die) (u : Fin 64) (s : State) : Bool :=
  let i := u.val
  let lin := s.lin d
  let tgt := s.cmpTgt d i
  let due : Bool := decide (s.cmpArmed d i = true ∧ tgt ≤ lin ∧ lin < tgt + 2 ^ 62)
  decide (due)

def hyp_CompareTriggerAndCapture_1 (d : Die) (u : Fin 64) (s : State) : Bool :=
  let i := u.val
  let lin := s.lin d
  let tgt := s.cmpTgt d i
  decide (s.cmpArmed d i = false ∨ lin < tgt ∧ tgt ≤ lin + 2 ^ 62)

def hyp_CompareTriggerAndCapture_2 (who : Requester) (d : Die) (u : Fin 64) (lo : Option Word) (s : State) : Bool :=
  let i := u.val
  let own := s.cmpOwner d i
  let mine : Bool := decide (own = who.unitOwner d)
  let hiReg := R.TB_CMP_TGT_HI d i
  decide (lo = none) &&
  decide (s.accepts who hiReg) &&
  decide (mine) &&
  decide (s.cmpArmed d i = false)

def hyp_CompareTriggerAndCapture_3 (who : Requester) (d : Die) (u : Fin 64) (lo : Option Word) (hi : Word) (s : State) : Bool :=
  let i := u.val
  let lin := s.lin d
  let own := s.cmpOwner d i
  let mine : Bool := decide (own = who.unitOwner d)
  let new := (lo.getD (s.cmpU d i).lo).toNat + hi.toNat * 2 ^ 32
  let hiReg := R.TB_CMP_TGT_HI d i
  let near (x : Nat) : Bool := decide (0 < sdiff x lin ∧ sdiff x lin ≤ 2 ^ 62)
  decide (lo = none) &&
  decide (s.accepts who hiReg) &&
  decide (mine) &&
  decide (s.cmpArmed d i = true) &&
  decide (near new)

def hyp_CompareTriggerAndCapture_4 (who : Requester) (d : Die) (u : Fin 64) (lo : Option Word) (hi : Word) (s : State) : Bool :=
  let i := u.val
  let lin := s.lin d
  let own := s.cmpOwner d i
  let mine : Bool := decide (own = who.unitOwner d)
  let new := (lo.getD (s.cmpU d i).lo).toNat + hi.toNat * 2 ^ 32
  let hiReg := R.TB_CMP_TGT_HI d i
  let far (x : Nat) : Bool := decide (2 ^ 62 < sdiff x lin ∨ sdiff x lin ≤ -2 ^ 62)
  decide (lo = none) &&
  decide (s.accepts who hiReg) &&
  decide (mine) &&
  decide (s.cmpArmed d i = true) &&
  decide (far new)

def hyp_CompareTriggerAndCapture_5 (who : Requester) (d : Die) (u : Fin 64) (lo : Option Word) (s : State) : Bool :=
  let i := u.val
  let own := s.cmpOwner d i
  let mine : Bool := decide (own = who.unitOwner d)
  (match lo with
  | some l =>
    decide (s.regCheck who (R.TB_CMP_TGT_LO d i) .w64 true = none) &&
    decide (s.engineRefuses who (R.TB_CMP_TGT_LO d i) = false) &&
    decide (mine) &&
    decide (s.cmpArmed d i = false)
  | _ => false)

def hyp_CompareTriggerAndCapture_6 (who : Requester) (d : Die) (u : Fin 64) (s : State) : Bool :=
  let i := u.val
  let lin := s.lin d
  let ctrl := R.TB_CMP_CTRL d i
  let own := s.cmpOwner d i
  let mine : Bool := decide (own = who.unitOwner d)
  let old := (s.cmpU d i).written
  let near (x : Nat) : Bool := decide (0 < sdiff x lin ∧ sdiff x lin ≤ 2 ^ 62)
  decide (s.accepts who ctrl) &&
  decide (mine) &&
  decide (s.cmpArmed d i = false) &&
  decide (old < 2 ^ 64) &&
  decide (near old)

def hyp_CompareTriggerAndCapture_7 (who : Requester) (d : Die) (u : Fin 64) (s : State) : Bool :=
  let i := u.val
  let lin := s.lin d
  let ctrl := R.TB_CMP_CTRL d i
  let own := s.cmpOwner d i
  let mine : Bool := decide (own = who.unitOwner d)
  let old := (s.cmpU d i).written
  decide (s.accepts who ctrl) &&
  decide (mine) &&
  decide (s.cmpArmed d i = false) &&
  decide (sdiff old lin ≤ 0) &&
  decide (-2 ^ 62 < sdiff old lin)

def hyp_CompareTriggerAndCapture_8 (who : Requester) (d : Die) (u : Fin 64) (s : State) : Bool :=
  let i := u.val
  let lin := s.lin d
  let ctrl := R.TB_CMP_CTRL d i
  let own := s.cmpOwner d i
  let mine : Bool := decide (own = who.unitOwner d)
  let old := (s.cmpU d i).written
  let far (x : Nat) : Bool := decide (2 ^ 62 < sdiff x lin ∨ sdiff x lin ≤ -2 ^ 62)
  decide (s.accepts who ctrl) &&
  decide (mine) &&
  decide (s.cmpArmed d i = false) &&
  decide (far old)

def hyp_CompareTriggerAndCapture_9 (who : Requester) (d : Die) (u : Fin 64) (s : State) : Bool :=
  let i := u.val
  let ctrl := R.TB_CMP_CTRL d i
  let own := s.cmpOwner d i
  let mine : Bool := decide (own = who.unitOwner d)
  decide (s.accepts who ctrl) &&
  decide (mine)

def hyp_CompareTriggerAndCapture_10 (who : Requester) (d : Die) (u : Fin 64) (s : State) : Bool :=
  let i := u.val
  let ctrl := R.TB_CMP_CTRL d i
  let own := s.cmpOwner d i
  let mine : Bool := decide (own = who.unitOwner d)
  decide (s.accepts who ctrl) &&
  decide (¬mine)

def hyp_CompareTriggerAndCapture_11 (d : Die) (n : Fin 16) (s : State) : Bool :=
  decide (Tab.get (fun _ => false) s.trigRun (d.idx * 16 + n.val) = true)

def hyp_CompareTriggerAndCapture_12 (d : Die) (n : Fin 16) (s : State) : Bool :=
  decide (Tab.get (fun _ => false) s.trigRun (d.idx * 16 + n.val) = false)

def hyp_CompareTriggerAndCapture_13 (who : Requester) (d : Die) (n : Fin 16) (v : Word) (s : State) : Bool :=
  let trig := R.TB_TRIG_CFG d n.val
  let me := who.unitOwner d
  let from_ := bits v 16 6
  decide (s.accepts who trig) &&
  decide (bit v 15 = true) &&
  decide (me = s.cmpOwner d from_) &&
  decide (s.fld trig 24 8 = 0xFF)

def hyp_CompareTriggerAndCapture_14 (who : Requester) (d : Die) (n : Fin 16) (v : Word) (s : State) : Bool :=
  let trig := R.TB_TRIG_CFG d n.val
  let me := who.unitOwner d
  let from_ := bits v 16 6
  decide (s.accepts who trig) &&
  decide (bit v 15 = true) &&
  decide (me ≠ s.cmpOwner d from_)

def hyp_CompareTriggerAndCapture_15 (who : Requester) (d : Die) (n : Fin 16) (v : Word) (s : State) : Bool :=
  let trig := R.TB_TRIG_CFG d n.val
  let me := who.unitOwner d
  decide (s.accepts who trig) &&
  decide (bit v 15 = false) &&
  decide (s.fld trig 24 8 = me)

def hyp_CompareTriggerAndCapture_16 (d : Die) (c : Fin 32) (rise : Bool) (s : State) : Bool :=
  let cap := R.TB_CAP_STAT d c.val
  let cfg := s.getReg (R.TB_CAP_CFG d c.val)
  let held := Tab.get (fun _ => false) s.capLvl (d.idx * 32 + c.val)
  let edge : Bool := decide (held ≠ rise ∧ (if rise then bit cfg 8 else bit cfg 9) = true)
  decide (edge) &&
  decide (s.flag cap 0 = false)

def hyp_CompareTriggerAndCapture_17 (d : Die) (c : Fin 32) (rise : Bool) (s : State) : Bool :=
  let cap := R.TB_CAP_STAT d c.val
  let cfg := s.getReg (R.TB_CAP_CFG d c.val)
  let held := Tab.get (fun _ => false) s.capLvl (d.idx * 32 + c.val)
  let edge : Bool := decide (held ≠ rise ∧ (if rise then bit cfg 8 else bit cfg 9) = true)
  decide (edge) &&
  decide (s.flag cap 0 = true)

def hyp_CompareTriggerAndCapture_18 (d : Die) (c : Fin 32) (rise : Bool) (s : State) : Bool :=
  let held := Tab.get (fun _ => false) s.capLvl (d.idx * 32 + c.val)
  decide (held = rise)

def hyp_CompareTriggerAndCapture_19 (who : Requester) (d : Die) (c : Fin 32) (s : State) : Bool :=
  let me := who.unitOwner d
  let capOwn := s.fld (R.TB_CAP_OWNER d c.val) 0 8
  decide (s.accepts who (R.TB_CAP_CFG d c.val)) &&
  decide (capOwn = me)

def hyp_CompareTriggerAndCapture_20 (who : Requester) (d : Die) (c : Fin 32) (s : State) : Bool :=
  let me := who.unitOwner d
  let capOwn := s.fld (R.TB_CAP_OWNER d c.val) 0 8
  decide (s.accepts who (R.TB_CAP_CFG d c.val)) &&
  decide (capOwn ≠ me)

def hyp_CompareTriggerAndCapture_21 (who : Requester) (d : Die) (c : Fin 32) (s : State) : Bool :=
  let capLo := R.TB_CAP_LO d c.val
  decide (s.acceptsRead who capLo)

def hyp_CompareTriggerAndCapture_22 (who : Requester) (d : Die) (c : Fin 32) (s : State) : Bool :=
  let capLo := R.TB_CAP_LO d c.val
  decide (s.regCheck who capLo .w64 false = none)

theorem test_hyps_CompareTriggerAndCapture : (
    hyp_CompareTriggerAndCapture_0 (.d0) (3) (tw (tUp.setNow .d0 {ns := 100}) [(R.TB_CMP_OWNER .d0 3, 0x20), (R.TB_CMP_STAT .d0 3, 1), (R.TB_CMP_CTRL .d0 3, 1)]) &&
    hyp_CompareTriggerAndCapture_1 (.d0) (3) (tUp) &&
    hyp_CompareTriggerAndCapture_2 (tSup) (.d0) (3) (none) (tUp) &&
    hyp_CompareTriggerAndCapture_3 (tSup) (.d0) (3) (none) (1) (tw (tUp.setNow .d0 {ns := 100}) [(R.TB_CMP_OWNER .d0 3, 0x20), (R.TB_CMP_STAT .d0 3, 1), (R.TB_CMP_CTRL .d0 3, 1), (R.TB_CMP_TGT_LO .d0 3, 200)]) &&
    hyp_CompareTriggerAndCapture_4 (tSup) (.d0) (3) (none) (0x60000000) (tw (tUp.setNow .d0 {ns := 100}) [(R.TB_CMP_OWNER .d0 3, 0x20), (R.TB_CMP_STAT .d0 3, 1), (R.TB_CMP_CTRL .d0 3, 1)]) &&
    hyp_CompareTriggerAndCapture_5 (tSup) (.d0) (3) (some 7) (tw (tUp.setNow .d0 {ns := 100}) [(R.TB_CMP_OWNER .d0 3, 0x20)]) &&
    hyp_CompareTriggerAndCapture_6 (tSup) (.d0) (3) ((tw (tUp.setNow .d0 {ns := 100}) [(R.TB_CMP_OWNER .d0 3, 0x20)]).setCmpU .d0 3 {written := 101}) &&
    hyp_CompareTriggerAndCapture_7 (tSup) (.d0) (3) (tUp) &&
    hyp_CompareTriggerAndCapture_8 (tSup) (.d0) (3) ((tw (tUp.setNow .d0 {ns := 100}) [(R.TB_CMP_OWNER .d0 3, 0x20)]).setCmpU .d0 3 {written := 101 + 2^62}) &&
    hyp_CompareTriggerAndCapture_9 (tSup) (.d0) (3) (tUp) &&
    hyp_CompareTriggerAndCapture_10 (tSup) (.d0) (3) (tw tUp [(R.TB_TRIG_CFG .d0 2, 0xFF000000), (R.TB_CMP_OWNER .d0 3, 4)]) &&
    hyp_CompareTriggerAndCapture_11 (.d0) (2) ({tw tUp [(R.TB_TRIG_CFG .d0 2, 0xC001)] with trigRun := [(2, true)]}) &&
    hyp_CompareTriggerAndCapture_12 (.d0) (2) (tUp) &&
    hyp_CompareTriggerAndCapture_13 (tSup) (.d0) (2) (0xE000 + 0x30000) (tw tUp [(R.TB_TRIG_CFG .d0 2, 0xFF000000), (R.TB_CMP_OWNER .d0 3, 0x20)]) &&
    hyp_CompareTriggerAndCapture_14 (tSup) (.d0) (2) (0xE000 + 0x30000) (tw tUp [(R.TB_TRIG_CFG .d0 2, 0xFF000000), (R.TB_CMP_OWNER .d0 3, 4)]) &&
    hyp_CompareTriggerAndCapture_15 (tSup) (.d0) (2) (0x4000) (tw tUp [(R.TB_TRIG_CFG .d0 2, 0x20008000)]) &&
    hyp_CompareTriggerAndCapture_16 (.d0) (5) (true) (tw (tUp.setNow .d0 {sec := 40, ns := 100}) [(R.TB_CAP_CFG .d0 5, 0x900), (R.TB_CAP_OWNER .d0 5, 4)]) &&
    hyp_CompareTriggerAndCapture_17 (.d0) (5) (true) (tw (tUp.setNow .d0 {ns := 100}) [(R.TB_CAP_CFG .d0 5, 0x900), (R.TB_CAP_STAT .d0 5, 0xFFFFFF01)]) &&
    hyp_CompareTriggerAndCapture_18 (.d0) (5) (false) (tUp) &&
    hyp_CompareTriggerAndCapture_19 (tSup) (.d0) (5) (tUp) &&
    hyp_CompareTriggerAndCapture_20 (tSup) (.d0) (5) (tw (tUp.setNow .d0 {sec := 40, ns := 100}) [(R.TB_CAP_CFG .d0 5, 0x900), (R.TB_CAP_OWNER .d0 5, 4)]) &&
    hyp_CompareTriggerAndCapture_21 (tSup) (.d0) (5) (tUp) &&
    hyp_CompareTriggerAndCapture_22 (tSup) (.d0) (5) (tUp)) = true := by decide +kernel

/-! ### FieldLinkRunsAndTrips -/

def hyp_FieldLinkRunsAndTrips_0 (s : State) : Bool :=
  decide (3 ≤ s.power .d0)

def hyp_FieldLinkRunsAndTrips_1 (s : State) : Bool :=
  let f := s.fio
  decide (s.power .d0 < 3) &&
  decide (f.test = 0)

def hyp_FieldLinkRunsAndTrips_2 (s : State) : Bool :=
  let f := s.fio
  decide (s.power .d0 < 3) &&
  decide (f.test = 1)

def hyp_FieldLinkRunsAndTrips_3 (fr : List Byte) (s : State) : Bool :=
  let f := s.fio
  let seq := fioSeq fr
  let goodDn : Bool := decide (fioGood 0xA fr = true ∧ f.lastDn ≠ some seq)
  decide (goodDn)

def hyp_FieldLinkRunsAndTrips_4 (fr : List Byte) (s : State) : Bool :=
  let f := s.fio
  let seq := fioSeq fr
  decide (¬(fioGood 0xA fr = true ∧ f.lastDn ≠ some seq))

def hyp_FieldLinkRunsAndTrips_5 (fr : List Byte) (s : State) : Bool :=
  let f := s.fio
  let seq := fioSeq fr
  let goodUp : Bool := decide (fioGood 0x5 fr = true ∧ f.lastUp ≠ some seq ∧ f.test = 0)
  decide (goodUp) &&
  decide ((byteAt fr 4).testBit 2 = false) &&
  decide (s.flag fioStat 1 = false)

def hyp_FieldLinkRunsAndTrips_6 (fr : List Byte) (s : State) : Bool :=
  let f := s.fio
  let seq := fioSeq fr
  let goodUp : Bool := decide (fioGood 0x5 fr = true ∧ f.lastUp ≠ some seq ∧ f.test = 0)
  decide (goodUp) &&
  decide ((byteAt fr 4).testBit 2 = false) &&
  decide (s.flag fioStat 1 = true)

def hyp_FieldLinkRunsAndTrips_7 (fr : List Byte) (s : State) : Bool :=
  let f := s.fio
  let seq := fioSeq fr
  let goodUp : Bool := decide (fioGood 0x5 fr = true ∧ f.lastUp ≠ some seq ∧ f.test = 0)
  decide (goodUp) &&
  decide ((byteAt fr 4).testBit 2 = true) &&
  decide (f.trip = false)

def hyp_FieldLinkRunsAndTrips_8 (fr : List Byte) (s : State) : Bool :=
  let f := s.fio
  let seq := fioSeq fr
  let badUp : Bool := decide ((fioGood 0x5 fr = false ∨ f.lastUp = some seq) ∧ f.test = 0)
  decide (badUp)

def hyp_FieldLinkRunsAndTrips_9 (s : State) : Bool :=
  let f := s.fio
  decide (f.test = 0)

def hyp_FieldLinkRunsAndTrips_10 (fr : List Byte) (s : State) : Bool :=
  let f := s.fio
  let seq := fioSeq fr
  decide (f.test = 6) &&
  decide (fioGood 0x5 fr = true) &&
  decide (f.lastUp ≠ some seq)

def hyp_FieldLinkRunsAndTrips_11 (k : Fin 8) (s : State) : Bool :=
  let f := s.fio
  decide (f.applied.testBit k.val = true)

def hyp_FieldLinkRunsAndTrips_12 (k : Fin 8) (s : State) : Bool :=
  let f := s.fio
  decide (f.applied.testBit k.val = false)

def hyp_FieldLinkRunsAndTrips_13 (n : Fin 16) (s : State) : Bool :=
  let f := s.fio
  decide (f.cosMode = false) &&
  decide (f.wbEn.testBit n.val = true)

def hyp_FieldLinkRunsAndTrips_14 (n : Fin 16) (s : State) : Bool :=
  let f := s.fio
  decide (f.cosMode = true ∨ f.wbEn.testBit n.val = false)

theorem test_hyps_FieldLinkRunsAndTrips : (
    hyp_FieldLinkRunsAndTrips_0 (tw tUp [(R.PWR_STAT .d0, 3)]) &&
    hyp_FieldLinkRunsAndTrips_1 ({tUp with fio := {outs := 0x80}}) &&
    hyp_FieldLinkRunsAndTrips_2 ({tUp with fio := {test := 1}}) &&
    hyp_FieldLinkRunsAndTrips_3 (tFr [0xA3,0x81,0,0,0,0]) ({tUp with fio := {tripped := true, goodDn := 1, upSeq := 15}}) &&
    hyp_FieldLinkRunsAndTrips_4 ([]) (tw tUp [(R.PWR_STAT .d0, 3)]) &&
    hyp_FieldLinkRunsAndTrips_5 (tFr [0x50,0x34,0x12,0x80,2,0]) (tw {tUp with fio := {lastUp := some 15, testFail := true}} [(R.FIO_STAT .d0, 0)]) &&
    hyp_FieldLinkRunsAndTrips_6 (tFr [0x5F,0x34,0x12,0x80,1,0]) ({tUp with fio := {lastUp := some 3}}) &&
    hyp_FieldLinkRunsAndTrips_7 (tFr [0x50,0x34,0x12,0x80,4,0]) (tw tUp [(R.FIO_OUT .d0, 0x80FF), (R.FIO_STAT .d0, 0x21)]) &&
    hyp_FieldLinkRunsAndTrips_8 ([]) (tw tUp [(R.PWR_STAT .d0, 3)]) &&
    hyp_FieldLinkRunsAndTrips_9 (tw tUp [(R.PWR_STAT .d0, 3)]) &&
    hyp_FieldLinkRunsAndTrips_10 (tFr [0x50,0,0,0xAA,0,0]) ({tUp with fio := {test := 6, dnOut := 0xAA}}) &&
    hyp_FieldLinkRunsAndTrips_11 (7) ({tUp with fio := {outs := 0x80}}) &&
    hyp_FieldLinkRunsAndTrips_12 (7) (tw tUp [(R.PWR_STAT .d0, 3)]) &&
    hyp_FieldLinkRunsAndTrips_13 (15) ({tUp with fio := {cosMode := false, wbEn := 0x8000, broken := 0x8001, inputs := 0x8001}}) &&
    hyp_FieldLinkRunsAndTrips_14 (15) (tw tUp [(R.PWR_STAT .d0, 3)])) = true := by decide +kernel

/-! ### FieldOutputsFollowTheirOwners -/

def hyp_FieldOutputsFollowTheirOwners_0 (e : Die) (d : Die) (p : Fin 2) (s : State) : Bool :=
  let a := R.FIO_OUT_WR d
  decide (s.accepts (.sup e p) a)

def hyp_FieldOutputsFollowTheirOwners_1 (e : Die) (d : Die) (ce : Fin 24) (v : Word) (slot : Nat) (s : State) : Bool :=
  let a := R.FIO_OUT_WR d
  let engine : Bool := decide (s.accepts (.ce e ce) a ∧ s.runSlot e ce = some slot)
  let owns : Bool := decide (∀ j : Fin 8, bit v j.val = true → s.fioOwns e ce slot j.val = true)
  decide (engine) &&
  decide (owns) &&
  decide (s.slotShadow e ce slot = false) &&
  decide (s.slotStale e ce slot = false)

def hyp_FieldOutputsFollowTheirOwners_2 (e : Die) (d : Die) (ce : Fin 24) (v : Word) (slot : Nat) (s : State) : Bool :=
  let a := R.FIO_OUT_WR d
  let engine : Bool := decide (s.accepts (.ce e ce) a ∧ s.runSlot e ce = some slot)
  let owns : Bool := decide (∀ j : Fin 8, bit v j.val = true → s.fioOwns e ce slot j.val = true)
  decide (engine) &&
  decide (¬owns)

def hyp_FieldOutputsFollowTheirOwners_3 (e : Die) (d : Die) (ce : Fin 24) (v : Word) (slot : Nat) (s : State) : Bool :=
  let a := R.FIO_OUT_WR d
  let engine : Bool := decide (s.accepts (.ce e ce) a ∧ s.runSlot e ce = some slot)
  let owns : Bool := decide (∀ j : Fin 8, bit v j.val = true → s.fioOwns e ce slot j.val = true)
  decide (engine) &&
  decide (owns) &&
  decide (s.slotShadow e ce slot = true)

def hyp_FieldOutputsFollowTheirOwners_4 (who : Requester) (d : Die) (ce : Fin 24) (s : State) : Bool :=
  let a := R.FIO_OUT_WR d
  let host : Bool := match who with | .ce _ _ => false | _ => true
  decide (host) &&
  decide ((match who with | .sup _ _ => false | _ => true) = true) &&
  decide (s.accepts who a)

def hyp_FieldOutputsFollowTheirOwners_5 (who : Requester) (d : Die) (ce : Fin 24) (k : Fin 8) (v : Word) (s : State) : Bool :=
  let own := R.FIO_OWN d k.val
  let host : Bool := match who with | .ce _ _ => false | _ => true
  decide (host) &&
  decide (s.accepts who own) &&
  decide (s.fioHeld.testBit k.val = true) &&
  decide ((v = 0 ∨ s.handleHeld v.toNat = true))

def hyp_FieldOutputsFollowTheirOwners_6 (who : Requester) (d : Die) (ce : Fin 24) (k : Fin 8) (v : Word) (s : State) : Bool :=
  let own := R.FIO_OWN d k.val
  let host : Bool := match who with | .ce _ _ => false | _ => true
  decide (host) &&
  decide (s.accepts who own) &&
  decide ((s.fioHeld.testBit k.val = false ∨ (v ≠ 0 ∧ s.handleHeld v.toNat = false)))

def hyp_FieldOutputsFollowTheirOwners_7 (e : Die) (d : Die) (ce : Fin 24) (k : Fin 8) (s : State) : Bool :=
  let own := R.FIO_OWN d k.val
  decide (s.accepts (.ce e ce) own)

theorem test_hyps_FieldOutputsFollowTheirOwners : (
    hyp_FieldOutputsFollowTheirOwners_0 (.d0) (.d0) (0) (tw {tUp with intents := [(1, {handle := 1, held := true, cur := some {st := 4, die := .d0, ce := 4, slot := 0}})]} [(R.CE_STAT .d0 4, 0x4001), (R.FIO_OWN .d0 3, 2)]) &&
    hyp_FieldOutputsFollowTheirOwners_1 (.d0) (.d0) (4) (0x0808) (0) (tw {tUp with intents := [(1, {handle := 1, held := true, cur := some {st := 4, die := .d0, ce := 4, slot := 0}})]} [(R.CE_STAT .d0 4, 0x4001), (R.FIO_OWN .d0 3, 1), (R.CE_SLOT_W6 .d0 4 0, 1)]) &&
    hyp_FieldOutputsFollowTheirOwners_2 (.d0) (.d0) (4) (0x0808) (0) (tw {tUp with intents := [(1, {handle := 1, held := true, cur := some {st := 4, die := .d0, ce := 4, slot := 0}})]} [(R.CE_STAT .d0 4, 0x4001), (R.FIO_OWN .d0 3, 2)]) &&
    hyp_FieldOutputsFollowTheirOwners_3 (.d0) (.d0) (4) (0x0808) (0) (tw {tUp with intents := [(1, {handle := 1, held := true, cur := some {st := 4, die := .d0, ce := 4, slot := 0}})]} [(R.CE_STAT .d0 4, 0x4001), (R.FIO_OWN .d0 3, 1), (R.CE_SLOT_W6 .d0 4 0, 1), (R.CE_SLOT_W6 .d0 4 0, 0x800001)]) &&
    hyp_FieldOutputsFollowTheirOwners_4 (.pf1 .d0) (.d0) (4) (tw {tUp with intents := [(1, {handle := 1, held := true, cur := some {st := 4, die := .d0, ce := 4, slot := 0}})]} [(R.CE_STAT .d0 4, 0x4001), (R.FIO_OWN .d0 3, 2)]) &&
    hyp_FieldOutputsFollowTheirOwners_5 (.pf1 .d0) (.d0) (4) (3) (5) (tw {tUp with intents := [(5, {handle := 5, held := true})]} [(R.FIO_OUT .d0, 0x80000)]) &&
    hyp_FieldOutputsFollowTheirOwners_6 (.pf1 .d0) (.d0) (4) (3) (0x0808) (tw {tUp with intents := [(1, {handle := 1, held := true, cur := some {st := 4, die := .d0, ce := 4, slot := 0}})]} [(R.CE_STAT .d0 4, 0x4001), (R.FIO_OWN .d0 3, 2)]) &&
    hyp_FieldOutputsFollowTheirOwners_7 (.d0) (.d0) (4) (3) (tw {tUp with intents := [(1, {handle := 1, held := true, cur := some {st := 4, die := .d0, ce := 4, slot := 0}})]} [(R.CE_STAT .d0 4, 0x4001), (R.FIO_OWN .d0 3, 2)])) = true := by decide +kernel

/-! ### ResetsByKindAndPrecedence -/

def hyp_ResetsByKindAndPrecedence_0 (s : State) : Bool :=
  let r := s.rst
  decide (r.kind < 3)

def hyp_ResetsByKindAndPrecedence_1 (s : State) : Bool :=
  let r := s.rst
  let free : Bool := decide (r.kind = 0 ∧ r.snap = none)
  decide (free)

def hyp_ResetsByKindAndPrecedence_2 (s : State) : Bool :=
  let r := s.rst
  decide (r.kind ≠ 0)

def hyp_ResetsByKindAndPrecedence_3 (s : State) : Bool :=
  let r := s.rst
  decide (r.kind = 0) &&
  decide (r.snap ≠ none)

def hyp_ResetsByKindAndPrecedence_4 (d : Die) (s : State) : Bool :=
  let r := s.rst
  let free : Bool := decide (r.kind = 0 ∧ r.snap = none)
  decide (free) &&
  decide ((s.bootOf d).stage ≠ 0)

def hyp_ResetsByKindAndPrecedence_5 (d : Die) (s : State) : Bool :=
  decide ((s.bootOf d).stage = 0)

def hyp_ResetsByKindAndPrecedence_6 (d : Die) (p : Fin 2) (v : Word) (s : State) : Bool :=
  let kick := R.RST_WD_KICK d
  decide (s.accepts (.sup d p) kick) &&
  decide (bit v 0 = true)

def hyp_ResetsByKindAndPrecedence_7 (who : Requester) (d : Die) (s : State) : Bool :=
  let kick := R.RST_WD_KICK d
  decide (s.accepts who kick) &&
  decide (who.isSup d = false)

def hyp_ResetsByKindAndPrecedence_8 (s : State) : Bool :=
  let r := s.rst
  let free : Bool := decide (r.kind = 0 ∧ r.snap = none)
  decide (free) &&
  (List.any ([(1 : Fin 3), 2]) fun k =>
    decide (r.asked = some k.val) &&
    decide (k ≠ 0))

def hyp_ResetsByKindAndPrecedence_9 (s : State) : Bool :=
  let r := s.rst
  decide (r.asked = none)

def hyp_ResetsByKindAndPrecedence_10 (s : State) : Bool :=
  let r := s.rst
  decide (r.kind ≠ 0) &&
  decide (r.rails = false) &&
  decide (r.testen = false) &&
  decide (r.pin = false)

def hyp_ResetsByKindAndPrecedence_11 (s : State) : Bool :=
  let r := s.rst
  decide (r.kind = 0 ∨ r.rails = true ∨ r.testen = true ∨ r.pin = true)

def hyp_ResetsByKindAndPrecedence_12 (s : State) : Bool :=
  let r := s.rst
  decide (r.kind ≠ 3) &&
  decide (r.pfLow = false) &&
  decide (s.running .d0 = true)

def hyp_ResetsByKindAndPrecedence_13 (s : State) : Bool :=
  let r := s.rst
  decide (r.kind ≠ 3) &&
  decide (r.pfLow = false) &&
  decide (s.running .d0 = false)

def hyp_ResetsByKindAndPrecedence_14 (s : State) : Bool :=
  let r := s.rst
  decide (r.kind = 3 ∨ r.pfLow = true)

def hyp_ResetsByKindAndPrecedence_15 (s : State) : Bool :=
  let r := s.rst
  (match r.snap with
  | some x =>
    decide (r.deferred = [])
  | _ => false)

def hyp_ResetsByKindAndPrecedence_16 (s : State) : Bool :=
  let r := s.rst
  decide (r.kind = 0) &&
  (match r.snap with
  | some x =>
    (match r.deferred with
    | [⟨2, 1, cause⟩] =>
      true
    | _ => false)
  | _ => false)

def hyp_ResetsByKindAndPrecedence_17 (s : State) : Bool :=
  let r := s.rst
  decide (r.snap = none)

def hyp_ResetsByKindAndPrecedence_18 (s : State) : Bool :=
  let r := s.rst
  decide (r.pfLow = true)

def hyp_ResetsByKindAndPrecedence_19 (s : State) : Bool :=
  let r := s.rst
  decide (r.pfLow = false)

theorem test_hyps_ResetsByKindAndPrecedence : (
    hyp_ResetsByKindAndPrecedence_0 (tUp) &&
    hyp_ResetsByKindAndPrecedence_1 (tUp) &&
    hyp_ResetsByKindAndPrecedence_2 ({(tUp.setBoot .d0 {stage := 0}).setBoot .d1 {stage := 0} with rst := {kind := 1}}) &&
    hyp_ResetsByKindAndPrecedence_3 ({tw tUp [(R.SFQ_IDLE .d0 2, 3)] with rst := {snap := some {sec := 4}, deferred := [⟨2, 1, 5⟩], pfLow := true}}) &&
    hyp_ResetsByKindAndPrecedence_4 (.d0) (tUp) &&
    hyp_ResetsByKindAndPrecedence_5 (.d0) ({(tUp.setBoot .d0 {stage := 0}).setBoot .d1 {stage := 0} with rst := {kind := 1}}) &&
    hyp_ResetsByKindAndPrecedence_6 (.d0) (0) (1) (tUp) &&
    hyp_ResetsByKindAndPrecedence_7 (.pf1 .d0) (.d0) (tUp) &&
    hyp_ResetsByKindAndPrecedence_8 ({tw tUp [(R.SFQ_IDLE .d0 2, 3)] with rst := {asked := some 1}}) &&
    hyp_ResetsByKindAndPrecedence_9 (tUp) &&
    hyp_ResetsByKindAndPrecedence_10 ({(tUp.setBoot .d0 {stage := 0}).setBoot .d1 {stage := 0} with rst := {kind := 1}}) &&
    hyp_ResetsByKindAndPrecedence_11 (tUp) &&
    hyp_ResetsByKindAndPrecedence_12 (tUp) &&
    hyp_ResetsByKindAndPrecedence_13 ({tw tUp [(R.RST_STAT .d0, 1)] with rst := {}}) &&
    hyp_ResetsByKindAndPrecedence_14 ({tw tUp [(R.SFQ_IDLE .d0 2, 3)] with rst := {snap := some {sec := 4}, deferred := [⟨2, 1, 5⟩], pfLow := true}}) &&
    hyp_ResetsByKindAndPrecedence_15 ({tUp with rst := {snap := some {sec := 4}}}) &&
    hyp_ResetsByKindAndPrecedence_16 ({tw tUp [(R.SFQ_IDLE .d0 2, 3)] with rst := {snap := some {sec := 4}, deferred := [⟨2, 1, 5⟩], pfLow := true}}) &&
    hyp_ResetsByKindAndPrecedence_17 (tUp) &&
    hyp_ResetsByKindAndPrecedence_18 ({tw tUp [(R.SFQ_IDLE .d0 2, 3)] with rst := {snap := some {sec := 4}, deferred := [⟨2, 1, 5⟩], pfLow := true}}) &&
    hyp_ResetsByKindAndPrecedence_19 (tUp)) = true := by decide +kernel

/-! ### StartUpStepByStep -/

def hyp_StartUpStepByStep_0 (d : Die) (ok : Bool) (ok' : Bool) (s : State) : Bool :=
  let b := s.bootOf d
  let pairs : Bool := decide (∀ p : Fin 2, (s.hunit d 3 p.val).st = 0)
  decide (b.stage = 1) &&
  decide ((b.warm = true ∨ b.ref = true)) &&
  decide (b.p4 = []) &&
  decide (pairs) &&
  decide ((ok || ok') = true)

def hyp_StartUpStepByStep_1 (d : Die) (s : State) : Bool :=
  let b := s.bootOf d
  let pairs : Bool := decide (∀ p : Fin 2, (s.hunit d 3 p.val).st = 0)
  decide (b.stage = 1) &&
  decide ((b.warm = true ∨ b.ref = true)) &&
  decide (pairs)

def hyp_StartUpStepByStep_2 (d : Die) (s : State) : Bool :=
  let b := s.bootOf d
  decide (b.stage ≠ 1 ∨ (b.warm = false ∧ b.ref = false))

def hyp_StartUpStepByStep_3 (ok : Bool) (ok' : Bool) (s : State) : Bool :=
  let f := s.flash
  decide ((s.bootOf .d0).stage = 2) &&
  decide (s.rst.img = false) &&
  decide ((if f.bootB then ok' else ok) = true)

def hyp_StartUpStepByStep_4 (ok : Bool) (ok' : Bool) (s : State) : Bool :=
  let f := s.flash
  decide ((s.bootOf .d0).stage = 2) &&
  decide (s.rst.img = false) &&
  decide ((if f.bootB then ok' else ok) = false) &&
  decide ((if f.bootB then ok else ok') = true)

def hyp_StartUpStepByStep_5 (s : State) : Bool :=
  decide ((s.bootOf .d0).stage = 2) &&
  decide (s.rst.img = false)

def hyp_StartUpStepByStep_6 (s : State) : Bool :=
  decide ((s.bootOf .d1).stage = 2) &&
  decide (s.rst.img = true) &&
  decide (s.linkUp = true) &&
  decide (s.rst.sent = false)

def hyp_StartUpStepByStep_7 (d : Die) (s : State) : Bool :=
  let b := s.bootOf d
  let image := if d = .d0 then s.rst.img else s.rst.sent
  decide (b.stage = 2) &&
  decide (image = true)

def hyp_StartUpStepByStep_8 (d : Die) (s : State) : Bool :=
  let b := s.bootOf d
  let image := if d = .d0 then s.rst.img else s.rst.sent
  decide (b.stage ≠ 2 ∨ image = false)

def hyp_StartUpStepByStep_9 (d : Die) (bad : Nat) (s : State) : Bool :=
  let b := s.bootOf d
  let f := s.flash
  decide (b.stage = 3) &&
  decide (f.found bad = none)

def hyp_StartUpStepByStep_10 (d : Die) (bad : Nat) (s : State) : Bool :=
  let b := s.bootOf d
  let f := s.flash
  decide (b.stage = 3) &&
  (match f.found bad with
  | some (gen, slot, cfg) =>
    (match Tab.get cfgNone cfg (R.RST_WD_TMO d) with
    | w :: ws =>
      true
    | _ => false)
  | _ => false)

def hyp_StartUpStepByStep_11 (d : Die) (s : State) : Bool :=
  let b := s.bootOf d
  decide (b.stage ≠ 3)

def hyp_StartUpStepByStep_12 (d : Die) (s : State) : Bool :=
  let b := s.bootOf d
  let o := (s.bootOf d.other).stage
  let mine : Bool := decide (s.plannerOf d = d)
  decide (b.stage = 4) &&
  decide ((mine → o ≠ 3))

def hyp_StartUpStepByStep_13 (d : Die) (s : State) : Bool :=
  let b := s.bootOf d
  let o := (s.bootOf d.other).stage
  let mine : Bool := decide (s.plannerOf d = d)
  decide (b.stage ≠ 4 ∨ (mine ∧ o = 3))

def hyp_StartUpStepByStep_14 (d : Die) (s : State) : Bool :=
  let b := s.bootOf d
  let o := (s.bootOf d.other).stage
  decide (b.stage = 5) &&
  decide (o = 5) &&
  decide (s.rst.pfWait = false)

def hyp_StartUpStepByStep_15 (d : Die) (s : State) : Bool :=
  let b := s.bootOf d
  let o := (s.bootOf d.other).stage
  decide (b.stage ≠ 5 ∨ (o ≠ 5 ∧ o ≠ 6 ∧ s.rst.absent = false))

def hyp_StartUpStepByStep_16 (s : State) : Bool :=
  decide ((s.flag (R.RST_CFG_STAT .d0) 0 || s.flag (R.RST_CFG_STAT .d1) 0) = true)

def hyp_StartUpStepByStep_17 (s : State) : Bool :=
  decide (s.flag (R.RST_CFG_STAT .d0) 0 = false) &&
  decide (s.flag (R.RST_CFG_STAT .d1) 0 = false)

theorem test_hyps_StartUpStepByStep : (
    hyp_StartUpStepByStep_0 (.d0) (true) (true) ({tw tUp [(R.RST_CFG_STAT .d1, 1), (R.RST_WD_TMO .d0, 100)] with flash := {copies := [{gen := 0xFFFFFFFF}]}}) &&
    hyp_StartUpStepByStep_1 (.d0) ({tw tUp [(R.RST_CFG_STAT .d1, 1), (R.RST_WD_TMO .d0, 100)] with flash := {copies := [{gen := 0xFFFFFFFF}]}}) &&
    hyp_StartUpStepByStep_2 (.d0) (State.reset.setBoot .d0 {stage := 2}) &&
    hyp_StartUpStepByStep_3 (true) (true) (State.reset.setBoot .d0 {stage := 2}) &&
    hyp_StartUpStepByStep_4 (false) (true) (State.reset.setBoot .d0 {stage := 2}) &&
    hyp_StartUpStepByStep_5 (State.reset.setBoot .d0 {stage := 2}) &&
    hyp_StartUpStepByStep_6 ({(tw tUp [(R.RST_STAT .d0, 0xE3)]).setBoot .d1 {stage := 2} with rst := {img := true}}) &&
    hyp_StartUpStepByStep_7 (.d0) ({State.reset.setBoot .d0 {stage := 2} with rst := {img := true}}) &&
    hyp_StartUpStepByStep_8 (.d0) (State.reset.setBoot .d0 {stage := 2}) &&
    hyp_StartUpStepByStep_9 (.d0) (0) (State.reset.setBoot .d0 {stage := 3}) &&
    hyp_StartUpStepByStep_10 (.d0) (0) ({State.reset.setBoot .d0 {stage := 3} with flash := {copies := [{gen := 4, slot := 1, body := [(R.RST_WD_TMO .d0, [500])]}], now := [(R.RST_WD_TMO .d0, [500])]}}) &&
    hyp_StartUpStepByStep_11 (.d0) (State.reset.setBoot .d0 {stage := 2}) &&
    hyp_StartUpStepByStep_12 (.d0) ((tUp.setBoot .d0 {stage := 4}).setBoot .d1 {stage := 4}) &&
    hyp_StartUpStepByStep_13 (.d0) (State.reset.setBoot .d0 {stage := 2}) &&
    hyp_StartUpStepByStep_14 (.d0) ((tw State.reset [(R.RST_STAT .d0, 2), (R.RST_STAT .d1, 2), (R.SYS_DLY_STAT .d0, 0xF),(R.SYS_DLY_STAT .d1, 0xF)]).setBoot .d0 {stage := 5} |>.setBoot .d1 {stage := 5}) &&
    hyp_StartUpStepByStep_15 (.d0) (State.reset.setBoot .d0 {stage := 2}) &&
    hyp_StartUpStepByStep_16 ({tw tUp [(R.RST_CFG_STAT .d1, 1), (R.RST_WD_TMO .d0, 100)] with flash := {copies := [{gen := 0xFFFFFFFF}]}}) &&
    hyp_StartUpStepByStep_17 (State.reset.setBoot .d0 {stage := 2})) = true := by decide +kernel

/-! ### PowerRegulatorAndClocks -/

def hyp_PowerRegulatorAndClocks_0 (d : Die) (s : State) : Bool :=
  let p := s.pwrOf d
  let due : Bool := decide (s.pwrBusy d = true ∧ s.pwrReached d = true ∧ s.power d ≠ 4 ∧ p.wait = [])
  decide (due)

def hyp_PowerRegulatorAndClocks_1 (d : Die) (c : HostCmd) (s : State) : Bool :=
  let p := s.pwrOf d
  let due : Bool := decide (s.pwrBusy d = true ∧ s.pwrReached d = true ∧ s.power d ≠ 4 ∧ p.wait = [])
  let waits : Bool := decide (s.latest c ∧ c ∈ s.asyncCmds)
  decide (due) &&
  decide (waits) &&
  decide (p.cmds = [c]) &&
  decide (c ∉ (s.pwrOf d.other).cmds)

def hyp_PowerRegulatorAndClocks_2 (d : Die) (s : State) : Bool :=
  decide (s.pwrBusy d = false ∨ s.pwrReached d = false)

def hyp_PowerRegulatorAndClocks_3 (d : Die) (mv : Fin 1024) (s : State) : Bool :=
  let p := s.pwrOf d
  let target := s.fld (R.PWR_VCORE d) 16 10
  decide (p.mv = target)

def hyp_PowerRegulatorAndClocks_4 (d : Die) (mv : Fin 1024) (s : State) : Bool :=
  let p := s.pwrOf d
  let target := s.fld (R.PWR_VCORE d) 16 10
  decide (p.mv ≠ target) &&
  decide (p.margin = none)

def hyp_PowerRegulatorAndClocks_5 (d : Die) (mv : Fin 1024) (c : HostCmd) (s : State) : Bool :=
  let p := s.pwrOf d
  let target := s.fld (R.PWR_VCORE d) 16 10
  let waits : Bool := decide (s.latest c ∧ c ∈ s.asyncCmds)
  decide (p.mv ≠ target) &&
  decide (waits) &&
  decide (p.margin = some c) &&
  decide (p.mv ≤ target + 5) &&
  decide (target ≤ p.mv + 5)

def hyp_PowerRegulatorAndClocks_6 (d : Die) (mv : Fin 1024) (c : HostCmd) (s : State) : Bool :=
  let p := s.pwrOf d
  let target := s.fld (R.PWR_VCORE d) 16 10
  let waits : Bool := decide (s.latest c ∧ c ∈ s.asyncCmds)
  decide (p.mv ≠ target) &&
  decide (waits) &&
  decide (p.margin = some c) &&
  decide (p.mv < 1024)

def hyp_PowerRegulatorAndClocks_7 (d : Die) (s : State) : Bool :=
  let b := s.bootOf d
  decide (b.ref = true) &&
  decide (1 < b.stage)

def hyp_PowerRegulatorAndClocks_8 (d : Die) (s : State) : Bool :=
  let b := s.bootOf d
  decide (b.ref = false)

def hyp_PowerRegulatorAndClocks_9 (d : Die) (s : State) : Bool :=
  let b := s.bootOf d
  decide (b.ref = false) &&
  decide (1 < b.stage)

def hyp_PowerRegulatorAndClocks_10 (d : Die) (s : State) : Bool :=
  let b := s.bootOf d
  decide (b.ref = true)

def hyp_PowerRegulatorAndClocks_11 (pll : Fin 10) : Bool :=
  decide (4 ≤ pll.val)

def hyp_PowerRegulatorAndClocks_12 (pll : Fin 10) : Bool :=
  decide (pll.val < 4)

theorem test_hyps_PowerRegulatorAndClocks : (
    hyp_PowerRegulatorAndClocks_0 (.d0) ((tw (tAsy tUp (tCmd 0x110 [1] 1)) [(R.PWR_STAT .d0, 0x180), (R.PWR_VCORE .d0, 750*65536)]).setPwr .d0 {cmds := [tCmd 0x110 [1] 1]}) &&
    hyp_PowerRegulatorAndClocks_1 (.d0) (tCmd 0x110 [1] 1) ((tw (tAsy tUp (tCmd 0x110 [1] 1)) [(R.PWR_STAT .d0, 0x180), (R.PWR_VCORE .d0, 750*65536)]).setPwr .d0 {cmds := [tCmd 0x110 [1] 1]}) &&
    hyp_PowerRegulatorAndClocks_2 (.d0) ((tw tUp [(R.CLK_STAT .d0, 0x103FF)]).setBoot .d0 {stage := 6}) &&
    hyp_PowerRegulatorAndClocks_3 (.d0) (900) ((tw tUp [(R.CLK_STAT .d0, 0x103FF)]).setBoot .d0 {stage := 6}) &&
    hyp_PowerRegulatorAndClocks_4 (.d0) (900) (tw tUp [(R.PWR_VCORE .d0, 753*65536)]) &&
    hyp_PowerRegulatorAndClocks_5 (.d0) (900) (tCmd 0x111 [755,0] 1) ((tw (tAsy tUp (tCmd 0x111 [755,0] 1)) [(R.PWR_VCORE .d0, 755*65536)]).setPwr .d0 {margin := some (tCmd 0x111 [755,0] 1)}) &&
    hyp_PowerRegulatorAndClocks_6 (.d0) (900) (tCmd 0x111 [755,0] 1) ((tw (tAsy tUp (tCmd 0x111 [755,0] 1)) [(R.PWR_VCORE .d0, 755*65536)]).setPwr .d0 {margin := some (tCmd 0x111 [755,0] 1)}) &&
    hyp_PowerRegulatorAndClocks_7 (.d0) ((tw tUp [(R.CLK_STAT .d0, 0x103FF)]).setBoot .d0 {stage := 6}) &&
    hyp_PowerRegulatorAndClocks_8 (.d0) ((tw tUp [(R.CLK_STAT .d0, 0x3F1)]).setBoot .d0 {stage := 6, ref := false}) &&
    hyp_PowerRegulatorAndClocks_9 (.d0) ((tw tUp [(R.CLK_STAT .d0, 0x3F1)]).setBoot .d0 {stage := 6, ref := false}) &&
    hyp_PowerRegulatorAndClocks_10 (.d0) ((tw tUp [(R.CLK_STAT .d0, 0x103FF)]).setBoot .d0 {stage := 6}) &&
    hyp_PowerRegulatorAndClocks_11 (5) &&
    hyp_PowerRegulatorAndClocks_12 (3)) = true := by decide +kernel

/-! ### MonitorsAndAgeing -/

def hyp_MonitorsAndAgeing_0 (d : Die) (s : State) : Bool :=
  let up : Bool := decide (3 ≤ (s.bootOf d).stage)
  decide (¬up)

def hyp_MonitorsAndAgeing_5 (d : Die) (s : State) : Bool :=
  let up : Bool := decide (3 ≤ (s.bootOf d).stage)
  decide (up)

def hyp_MonitorsAndAgeing_6 (d : Die) (lane : Fin 11) (height : Fin 1024) (width : Fin 64) (s : State) : Bool :=
  let first := s.firstEye d lane.val
  let low : Bool := decide (height.val * 100 < 60 * first ∨ width.val < 16)
  decide (first ≠ 0) &&
  decide (¬low)

def hyp_MonitorsAndAgeing_7 (d : Die) (lane : Fin 11) (width : Fin 64) (s : State) : Bool :=
  let first := s.firstEye d lane.val
  decide (first = 0) &&
  decide (16 ≤ width.val)

def hyp_MonitorsAndAgeing_8 (d : Die) (lane : Fin 11) (height : Fin 1024) (width : Fin 64) (s : State) : Bool :=
  let eye := R.HLT_EYE d lane.val
  let first := s.firstEye d lane.val
  let low : Bool := decide (height.val * 100 < 60 * first ∨ width.val < 16)
  decide (low) &&
  decide (s.flag eye 16 = false) &&
  decide (lane.val < 5 ∨ 7 ≤ lane.val)

theorem test_hyps_MonitorsAndAgeing : (
    hyp_MonitorsAndAgeing_0 (.d0) (tUp) &&
    hyp_MonitorsAndAgeing_5 (.d0) (tUp.setBoot .d0 {stage := 6}) &&
    hyp_MonitorsAndAgeing_6 (.d0) (10) (50) (63) ({tUp with eyes := [(10, 80)]}) &&
    hyp_MonitorsAndAgeing_7 (.d0) (10) (63) (tUp.setBoot .d0 {stage := 6}) &&
    hyp_MonitorsAndAgeing_8 (.d0) (10) (50) (15) (tUp)) = true := by decide +kernel

/-! ### TestsOfUnits -/

def hyp_TestsOfUnits_0 (d : Die) (cls : Fin 16) (idx : Fin 512) (c : HostCmd) (s : State) : Bool :=
  let k := cls.val
  let i := idx.val
  let a := R.HLT_TEST_STAT d
  let u := s.hunit d k i
  let clear : Bool := decide (u.st ≠ 0 ∨ s.bistReady d k i = true)
  let asked : Bool := decide (s.flag a 15 = false ∧ (s.waitingTests d).head? = some c ∧ c.cls = k ∧ c.unit = i ∧ u.tries ≤ 3)
  decide (asked) &&
  decide (clear)

def hyp_TestsOfUnits_1 (d : Die) (cls : Fin 16) (idx : Fin 512) (c : HostCmd) (s : State) : Bool :=
  let k := cls.val
  let i := idx.val
  let a := R.HLT_TEST_STAT d
  let u := s.hunit d k i
  let clear : Bool := decide (u.st ≠ 0 ∨ s.bistReady d k i = true)
  let asked : Bool := decide (s.flag a 15 = false ∧ (s.waitingTests d).head? = some c ∧ c.cls = k ∧ c.unit = i ∧ u.tries ≤ 3)
  decide (asked) &&
  decide (¬clear)

def hyp_TestsOfUnits_2 (d : Die) (cls : Fin 16) (idx : Fin 512) (s : State) : Bool :=
  let k := cls.val
  let i := idx.val
  let a := R.HLT_TEST_STAT d
  let u := s.hunit d k i
  let clear : Bool := decide (u.st ≠ 0 ∨ s.bistReady d k i = true)
  let turn : Bool := decide (s.flag a 15 = false ∧ s.flag (R.HLT_STAT d) 0 = true ∧ s.waitingTests d = [] ∧ i < unitCount d k ∧ (u.st = 0 ∨ u.st = 4) ∧
      (k = 3 → s.fld (R.SPR_STAT d i) 4 2 = 0))
  decide (turn) &&
  decide (clear)

def hyp_TestsOfUnits_3 (d : Die) (cls : Fin 16) (idx : Fin 512) (s : State) : Bool :=
  let k := cls.val
  let i := idx.val
  let a := R.HLT_TEST_STAT d
  let u := s.hunit d k i
  let clear : Bool := decide (u.st ≠ 0 ∨ s.bistReady d k i = true)
  let turn : Bool := decide (s.flag a 15 = false ∧ s.flag (R.HLT_STAT d) 0 = true ∧ s.waitingTests d = [] ∧ i < unitCount d k ∧ (u.st = 0 ∨ u.st = 4) ∧
      (k = 3 → s.fld (R.SPR_STAT d i) 4 2 = 0))
  decide (turn) &&
  decide (¬clear)

def hyp_TestsOfUnits_4 (d : Die) (cls : Fin 16) (idx : Fin 512) (s : State) : Bool :=
  let k := cls.val
  let i := idx.val
  decide (s.vacating d k i = true) &&
  decide (s.bistReady d k i = true)

def hyp_TestsOfUnits_5 (d : Die) (cls : Fin 16) (idx : Fin 512) (s : State) : Bool :=
  let k := cls.val
  let i := idx.val
  decide (s.vacating d k i = true) &&
  decide (s.bistReady d k i = false)

def hyp_TestsOfUnits_6 (d : Die) (cls : Fin 16) (idx : Fin 512) (detail : Word) (s : State) : Bool :=
  let k := cls.val
  let i := idx.val
  let a := R.HLT_TEST_STAT d
  let inTest : Bool := decide (s.flag a 15 = true ∧ s.fld a 12 3 = 2 ∧ s.fld a 0 4 = k ∧ s.fld a 16 16 = unitNum d k 0 + i ∧ i < unitCount d k)
  let noService : Bool := decide (∀ q ∈ s.asyncCmds, q.op = 0x0601 → ¬(q.tdie = d ∧ q.cls = k ∧ q.unit = i))
  let plain : Bool := decide (k ≠ 3 ∧ k ≠ 8 ∧ k ≠ 10)
  let good : Bool := decide (bits detail 0 8 = 0)
  decide (inTest) &&
  decide (noService) &&
  decide (plain) &&
  decide (good)

def hyp_TestsOfUnits_7 (d : Die) (cls : Fin 16) (idx : Fin 512) (detail : Word) (s : State) : Bool :=
  let k := cls.val
  let i := idx.val
  let a := R.HLT_TEST_STAT d
  let inTest : Bool := decide (s.flag a 15 = true ∧ s.fld a 12 3 = 2 ∧ s.fld a 0 4 = k ∧ s.fld a 16 16 = unitNum d k 0 + i ∧ i < unitCount d k)
  let noService : Bool := decide (∀ q ∈ s.asyncCmds, q.op = 0x0601 → ¬(q.tdie = d ∧ q.cls = k ∧ q.unit = i))
  let plain : Bool := decide (k ≠ 3 ∧ k ≠ 8 ∧ k ≠ 10)
  let good : Bool := decide (bits detail 0 8 = 0)
  decide (inTest) &&
  decide (noService) &&
  decide (plain) &&
  decide (¬good)

def hyp_TestsOfUnits_8 (d : Die) (cls : Fin 16) (idx : Fin 512) (c : HostCmd) (s : State) : Bool :=
  let k := cls.val
  let i := idx.val
  let a := R.HLT_TEST_STAT d
  let inTest : Bool := decide (s.flag a 15 = true ∧ s.fld a 12 3 = 2 ∧ s.fld a 0 4 = k ∧ s.fld a 16 16 = unitNum d k 0 + i ∧ i < unitCount d k)
  let noService : Bool := decide (∀ q ∈ s.asyncCmds, q.op = 0x0601 → ¬(q.tdie = d ∧ q.cls = k ∧ q.unit = i))
  let plain : Bool := decide (k ≠ 3 ∧ k ≠ 8 ∧ k ≠ 10)
  let request : Bool := decide (s.waitingTests d = [c] ∧ c.cls = k ∧ c.unit = i ∧ c.op = 0x0600 ∧ s.latest c)
  decide (inTest) &&
  decide (noService) &&
  decide (plain) &&
  decide (request)

def hyp_TestsOfUnits_9 (d : Die) (cls : Fin 16) (idx : Fin 512) (detail : Word) (margin : Fin 256) (s : State) : Bool :=
  let k := cls.val
  let i := idx.val
  let a := R.HLT_TEST_STAT d
  let inTest : Bool := decide (s.flag a 15 = true ∧ s.fld a 12 3 = 2 ∧ s.fld a 0 4 = k ∧ s.fld a 16 16 = unitNum d k 0 + i ∧ i < unitCount d k)
  let noService : Bool := decide (∀ q ∈ s.asyncCmds, q.op = 0x0601 → ¬(q.tdie = d ∧ q.cls = k ∧ q.unit = i))
  let good : Bool := decide (bits detail 0 8 = 0)
  decide (inTest) &&
  decide (noService) &&
  decide (k = 10) &&
  decide (good) &&
  decide (25 ≤ margin.val)

def hyp_TestsOfUnits_10 (d : Die) (cls : Fin 16) (idx : Fin 512) (s : State) : Bool :=
  let k := cls.val
  let i := idx.val
  let a := R.HLT_TEST_STAT d
  let inTest : Bool := decide (s.flag a 15 = true ∧ s.fld a 12 3 = 2 ∧ s.fld a 0 4 = k ∧ s.fld a 16 16 = unitNum d k 0 + i ∧ i < unitCount d k)
  let noService : Bool := decide (∀ q ∈ s.asyncCmds, q.op = 0x0601 → ¬(q.tdie = d ∧ q.cls = k ∧ q.unit = i))
  decide (inTest) &&
  decide (noService) &&
  decide (k = 8) &&
  (match s.fio.testRes with
  | some r =>
    true
  | _ => false)

def hyp_TestsOfUnits_11 (d : Die) (s : State) : Bool :=
  let a := R.HLT_TEST_STAT d
  decide (s.flag a 15 = false ∨ s.fld a 12 3 ≠ 2)

def hyp_TestsOfUnits_12 (d : Die) (cls : Fin 16) (idx : Fin 512) (s : State) : Bool :=
  let k := cls.val
  let i := idx.val
  let a := R.HLT_TEST_STAT d
  let u := s.hunit d k i
  let inTest : Bool := decide (s.flag a 15 = true ∧ s.fld a 12 3 = 2 ∧ s.fld a 0 4 = k ∧ s.fld a 16 16 = unitNum d k 0 + i ∧ i < unitCount d k)
  let noService : Bool := decide (∀ q ∈ s.asyncCmds, q.op = 0x0601 → ¬(q.tdie = d ∧ q.cls = k ∧ q.unit = i))
  let due : Bool := decide (u.hard = true ∨ 8 ≤ u.held ∨ (u.held ≠ 0 ∧ u.heldAt + s.fld (R.HLT_TEST_QMAX d) 0 14 * 1000 ≤ s.lin d))
  decide (inTest) &&
  decide (noService) &&
  decide (u.st = 1) &&
  decide (due)

def hyp_TestsOfUnits_13 (d : Die) (s : State) : Bool :=
  let a := R.HLT_TEST_STAT d
  decide (s.flag a 15 = false)

def hyp_TestsOfUnits_14 (d : Die) (bank : Fin 272) (s : State) : Bool :=
  let b := bank.val
  decide (s.bankOos d b = true)

def hyp_TestsOfUnits_15 (d : Die) (bank : Fin 272) (s : State) : Bool :=
  let b := bank.val
  decide (s.bankOos d b = false) &&
  decide (((s.contexts d).any fun x => (banksOf x.1 (x.2 / 64)).contains b) = false)

theorem test_hyps_TestsOfUnits : (
    hyp_TestsOfUnits_0 (.d0) (4) (0) (tCmd 0x600 [] 4) (tAsy tUp (tCmd 0x600 [] 4)) &&
    hyp_TestsOfUnits_1 (.d0) (10) (0) (tCmd 0x600 [] 10) (tAsy tUp (tCmd 0x600 [] 10)) &&
    hyp_TestsOfUnits_2 (.d0) (4) (0) (tw tUp [(R.HLT_STAT .d0, 1)]) &&
    hyp_TestsOfUnits_3 (.d0) (10) (0) (tw tUp [(R.HLT_STAT .d0, 1)]) &&
    hyp_TestsOfUnits_4 (.d0) (4) (0) (tw tUp [(R.HLT_TEST_STAT .d0, 0x9004)]) &&
    hyp_TestsOfUnits_5 (.d0) (10) (0) (tw tUp [(R.HLT_TEST_STAT .d0, 0x900A)]) &&
    hyp_TestsOfUnits_6 (.d0) (4) (0) (0) (tw (tUp.setUnit .d0 4 0 {st := 1, epoch := 9, held := 8}) [(R.HLT_TEST_STAT .d0, 0xA004)]) &&
    hyp_TestsOfUnits_7 (.d0) (4) (0) (0x203) (tw (tUp.setUnit .d0 4 0 {st := 1, epoch := 9, tests := 65535}) [(R.HLT_TEST_STAT .d0, 0xA004)]) &&
    hyp_TestsOfUnits_8 (.d0) (4) (0) (tCmd 0x600 [] 4) (tw ((tAsy tUp (tCmd 0x600 [] 4)).setUnit .d0 4 0 {st := 1, epoch := 9}) [(R.HLT_TEST_STAT .d0, 0xA004)]) &&
    hyp_TestsOfUnits_9 (.d0) (10) (1) (0) (25) ({tw (tUp.setUnit .d0 10 1 {st := 1, epoch := 9}) [(R.HLT_TEST_STAT .d0, 0x1A00A), (R.POOL_BANK_OOS .d0 0, 0xFFFFFFFF)] with retired := [(bankKey .d0 17, true)]}) &&
    hyp_TestsOfUnits_10 (.d0) (8) (0) (({tw tUp [(R.HLT_TEST_STAT .d0, 0xA008)] with fio := {testRes := some true}}).setUnit .d0 8 0 {st := 1}) &&
    hyp_TestsOfUnits_11 (.d0) (tAsy tUp (tCmd 0x600 [] 4)) &&
    hyp_TestsOfUnits_12 (.d0) (4) (0) (tw (tUp.setUnit .d0 4 0 {st := 1, epoch := 9, held := 8}) [(R.HLT_TEST_STAT .d0, 0xA004)]) &&
    hyp_TestsOfUnits_13 (.d0) (tAsy tUp (tCmd 0x600 [] 4)) &&
    hyp_TestsOfUnits_14 (.d0) (5) ({tw (tUp.setUnit .d0 10 1 {st := 1, epoch := 9}) [(R.HLT_TEST_STAT .d0, 0x1A00A), (R.POOL_BANK_OOS .d0 0, 0xFFFFFFFF)] with retired := [(bankKey .d0 17, true)]}) &&
    hyp_TestsOfUnits_15 (.d0) (5) (tAsy tUp (tCmd 0x600 [] 4))) = true := by decide +kernel

/-! ### LogAndUnitQuery -/

def hyp_LogAndUnitQuery_0 (d : Die) (s : State) : Bool :=
  let l := s.logOf d
  decide (l.primOk = true)

def hyp_LogAndUnitQuery_1 (d : Die) (s : State) : Bool :=
  let l := s.logOf d
  decide (l.primOk = false) &&
  decide (s.mirReach d = true)

def hyp_LogAndUnitQuery_2 (d : Die) (s : State) : Bool :=
  let l := s.logOf d
  let allow := ((s.logRefill d).logOf d).allow
  decide (l.supp ≠ 0) &&
  decide (allow ≠ 0) &&
  decide (l.primOk = true)

def hyp_LogAndUnitQuery_3 (d : Die) (s : State) : Bool :=
  let l := s.logOf d
  let allow := ((s.logRefill d).logOf d).allow
  decide (l.supp = 0 ∨ allow = 0)

def hyp_LogAndUnitQuery_4 (d : Die) (fails : Fin 3) (s : State) : Bool :=
  let l := s.logOf d
  let reach : Bool := decide (l.unstr ≠ [] ∧ (d = .d1 → s.linkUp = true))
  decide (reach) &&
  decide (fails = 2)

def hyp_LogAndUnitQuery_5 (d : Die) (fails : Fin 3) (s : State) : Bool :=
  let l := s.logOf d
  let reach : Bool := decide (l.unstr ≠ [] ∧ (d = .d1 → s.linkUp = true))
  decide (reach) &&
  decide (fails ≠ 2)

def hyp_LogAndUnitQuery_6 (d : Die) (s : State) : Bool :=
  let l := s.logOf d
  let reach : Bool := decide (l.unstr ≠ [] ∧ (d = .d1 → s.linkUp = true))
  decide (¬reach)

def hyp_LogAndUnitQuery_7 (who : Requester) (d : Die) (v : Word) (s : State) : Bool :=
  let lfr := R.LOG_LFR_CTRL d
  decide (s.accepts who lfr) &&
  decide (bit v 0 = true) &&
  decide (s.flag (R.LOG_LFR_STAT d) 3 = false)

def hyp_LogAndUnitQuery_8 (who : Requester) (d : Die) (v : Word) (s : State) : Bool :=
  let lfr := R.LOG_LFR_CTRL d
  decide (s.accepts who lfr) &&
  decide (bit v 0 = true) &&
  decide (s.flag (R.LOG_LFR_STAT d) 3 = true)

def hyp_LogAndUnitQuery_9 (who : Requester) (d : Die) (v : Word) (s : State) : Bool :=
  let lfr := R.LOG_LFR_CTRL d
  decide (s.accepts who lfr) &&
  decide (bit v 0 = false)

def hyp_LogAndUnitQuery_10 (who : Requester) (d : Die) (v : Word) (s : State) : Bool :=
  let sel := R.HLT_UNIT_SEL d
  let cls := bits v 0 4
  decide (s.accepts who sel) &&
  decide ((cls < 2 ∨ 12 < cls))

def hyp_LogAndUnitQuery_11 (who : Requester) (d : Die) (v : Word) (s : State) : Bool :=
  let sel := R.HLT_UNIT_SEL d
  let cls := bits v 0 4
  let no := bits v 16 16
  decide (s.accepts who sel) &&
  decide (2 ≤ cls) &&
  decide (cls ≤ 12) &&
  decide (unitHere d cls no = true)

def hyp_LogAndUnitQuery_12 (who : Requester) (d : Die) (v : Word) (s : State) : Bool :=
  let sel := R.HLT_UNIT_SEL d
  let cls := bits v 0 4
  let no := bits v 16 16
  decide (s.accepts who sel) &&
  decide (2 ≤ cls) &&
  decide (cls ≤ 12) &&
  decide (unitHere d cls no = false)

theorem test_hyps_LogAndUnitQuery : (
    hyp_LogAndUnitQuery_0 (.d0) (tUp) &&
    hyp_LogAndUnitQuery_1 (.d0) ((tw tUp [(R.LOG_MIRROR_BASE .d0, 0x80000000)]).setLog .d0 {primOk := false}) &&
    hyp_LogAndUnitQuery_2 (.d0) ((tw tUp [(R.LOG_HEAD .d0, 4100)]).setLog .d0 {supp := 7, suppCode := 0x602, allow := 3}) &&
    hyp_LogAndUnitQuery_3 (.d0) (tUp) &&
    hyp_LogAndUnitQuery_4 (.d0) (2) (tUp.setLog .d0 {unstr := (List.range 40).map fun i => (i, [])}) &&
    hyp_LogAndUnitQuery_5 (.d1) (0) (tUp.setLog .d1 {unstr := (List.range 4).map fun i => (i, [])}) &&
    hyp_LogAndUnitQuery_6 (.d0) (tUp) &&
    hyp_LogAndUnitQuery_7 (tSup) (.d0) (1) (tUp) &&
    hyp_LogAndUnitQuery_8 (tSup) (.d0) (1) (tw tUp [(R.LOG_LFR_STAT .d0, 8)]) &&
    hyp_LogAndUnitQuery_9 (tSup) (.d0) (0xFFFF0004) (tUp) &&
    hyp_LogAndUnitQuery_10 (tSup) (.d0) (1) (tUp) &&
    hyp_LogAndUnitQuery_11 (tSup) (.d0) (2) (tw tUp [(R.LOG_LFR_STAT .d0, 8)]) &&
    hyp_LogAndUnitQuery_12 (tSup) (.d0) (0xFFFF0004) (tUp)) = true := by decide +kernel

/-! ### AccessesByAddress -/

def hyp_AccessesByAddress_0 (who : Requester) (a : AccAddr) (d : Die) (b : Nat) (off : Nat) (s : State) : Bool :=
  let x := R.blk d b + off
  let at_ : Bool := decide (leadOf who a = .at_ x ∧ off < 0x1_0000)
  decide (at_) &&
  decide (s.accepts who x) &&
  decide (b ∈ [0, 2, 4, 8, 36]) &&
  (match blockRow b off with
  | some r =>
    true
  | _ => false)

def hyp_AccessesByAddress_1 (who : Requester) (a : AccAddr) (d : Die) (b : Nat) (off : Nat) (s : State) : Bool :=
  let x := R.blk d b + off
  let at_ : Bool := decide (leadOf who a = .at_ x ∧ off < 0x1_0000)
  decide (at_) &&
  decide (s.accepts who x) &&
  decide (b ∈ [0, 2, 4, 8, 36]) &&
  decide (blockRow b off = none)

def hyp_AccessesByAddress_2 (who : Requester) (a : AccAddr) (w : Width) (d : Die) (b : Nat) (off : Nat) (s : State) : Bool :=
  let x := R.blk d b + off
  let at_ : Bool := decide (leadOf who a = .at_ x ∧ off < 0x1_0000)
  decide (leadOf who a = .at_ x) &&
  (match targetOf (canonAddr x) with
  | .reg e b' o =>
    (match s.regCheck who x w true with
    | some c =>
      true
    | _ => false)
  | _ => false)

def hyp_AccessesByAddress_3 (who : Requester) (a : AccAddr) (d : Die) (b : Nat) (off : Nat) : Bool :=
  let x := R.blk d b + off
  let at_ : Bool := decide (leadOf who a = .at_ x ∧ off < 0x1_0000)
  (match leadOf who a with
  | .at_ y =>
    decide (targetOf (canonAddr y) = .nothing)
  | _ => false)

def hyp_AccessesByAddress_4 (who : Requester) (a : AccAddr) (d : Die) (b : Nat) (off : Nat) (k : Fin 24) (s : State) : Bool :=
  let x := R.blk d b + off
  let at_ : Bool := decide (leadOf who a = .at_ x ∧ off < 0x1_0000)
  let ce := ceMemAddr d k off
  decide (leadOf who a = .at_ ce) &&
  decide (off < 0x3_0000) &&
  decide (off % 4 = 0) &&
  decide (reqIsCe who = false) &&
  decide (s.domainOff who d 10 = false) &&
  decide (s.ceMemRefuses who d k off = false)

def hyp_AccessesByAddress_5 (who : Requester) (a : AccAddr) (d : Die) (b : Nat) (off : Nat) (s : State) : Bool :=
  let x := R.blk d b + off
  let at_ : Bool := decide (leadOf who a = .at_ x ∧ off < 0x1_0000)
  decide (at_) &&
  decide (s.acceptsRead who x) &&
  decide (b < 44) &&
  decide (b ∉ [5, 6, 7, 9, 35, 37, 38, 40, 41]) &&
  (match blockRow b off with
  | some r =>
    true
  | _ => false)

def hyp_AccessesByAddress_6 (who : Requester) (a : AccAddr) (w : Width) (d : Die) (b : Nat) (off : Nat) (s : State) : Bool :=
  let x := R.blk d b + off
  let at_ : Bool := decide (leadOf who a = .at_ x ∧ off < 0x1_0000)
  decide (leadOf who a = .at_ x) &&
  (match targetOf (canonAddr x) with
  | .reg e b' o =>
    (match s.regCheck who x w false with
    | some c =>
      true
    | _ => false)
  | _ => false)

def hyp_AccessesByAddress_7 (who : Requester) (a : AccAddr) (d : Die) (b : Nat) (off : Nat) (m : Nat) (s : State) : Bool :=
  let x := R.blk d b + off
  let at_ : Bool := decide (leadOf who a = .at_ x ∧ off < 0x1_0000)
  let lo := R.MAC_RX_OCTETS_LO d m
  decide (m < 14) &&
  decide (leadOf who a = .at_ lo) &&
  decide (s.acceptsRead who lo)

def hyp_AccessesByAddress_8 (who : Requester) (a : AccAddr) (d : Die) (b : Nat) (off : Nat) (s : State) : Bool :=
  let x := R.blk d b + off
  let at_ : Bool := decide (leadOf who a = .at_ x ∧ off < 0x1_0000)
  let now := R.blk d 37 + 8
  decide (leadOf who a = .at_ now) &&
  decide (s.acceptsRead who now)

def hyp_AccessesByAddress_9 (d : Die) (off : Nat) (s : State) : Bool :=
  let quiet : Bool := decide (s.running d = true ∧ s.ecc = [])
  (List.any ([[(5 : Byte)]]) fun wr =>
    decide (wr ≠ []) &&
    decide (quiet) &&
    decide (off % 64 + wr.length ≤ 64) &&
    decide (off < 0x400_0000) &&
    decide (s.bankRefusal d 14 off = none))

def hyp_AccessesByAddress_10 (d : Die) (off : Nat) (s : State) : Bool :=
  let quiet : Bool := decide (s.running d = true ∧ s.ecc = [])
  (List.any ([1, 64]) fun n =>
    decide (0 < n) &&
    decide (quiet) &&
    decide (off % 64 + n ≤ 64) &&
    decide (off < 0x400_0000) &&
    decide (s.bankRefusal d 14 off = none))

def hyp_AccessesByAddress_11 (d : Die) (off : Nat) (s : State) : Bool :=
  (List.any ([[(5 : Byte)]]) fun wr =>
    decide (wr ≠ []) &&
    decide (s.running d = true) &&
    decide (off < 0x400_0000) &&
    (match s.bankRefusal d 14 off with
    | some c =>
      decide (c < 16)
    | _ => false))

def hyp_AccessesByAddress_12 (off : Nat) : Bool :=
  decide (0x800_0000 ≤ off)

def hyp_AccessesByAddress_13 (off : Nat) (s : State) : Bool :=
  decide (s.linkUp = false) &&
  decide (0x400_0000 ≤ off) &&
  decide (off < 0x800_0000)

def hyp_AccessesByAddress_14 (s : State) : Bool :=
  (match s.busRead .h3 s.h3Addr .w32 with
  | (.ok (some [y]), u) =>
    true
  | _ => false)

def hyp_AccessesByAddress_15 (s : State) : Bool :=
  (match s.busRead .h3 s.h3Addr .w32 with
  | (.error c, u) =>
    true
  | _ => false)

def hyp_AccessesByAddress_16 (s : State) : Bool :=
  (List.any ([(5 : BitVec 16)]) fun y =>
    (match s.busWrite .h3 s.h3Addr .w32 (wd (s.h3.dataL + y.toNat * 2 ^ 16)) 0 with
    | (none, u) =>
      true
    | _ => false))

def hyp_AccessesByAddress_17 (s : State) : Bool :=
  (List.any ([(5 : BitVec 16)]) fun y =>
    (match s.busWrite .h3 s.h3Addr .w32 (wd (s.h3.dataL + y.toNat * 2 ^ 16)) 0 with
    | (some c, u) =>
      true
    | _ => false))

theorem test_hyps_AccessesByAddress : (
    hyp_AccessesByAddress_0 (tSup) (.int (R.blk .d0 0)) (.d0) (0) (0) (tUp) &&
    hyp_AccessesByAddress_1 (tSup) (.int (R.blk .d1 36 + 0xFFFC)) (.d1) (36) (0xFFFC) (tUp) &&
    hyp_AccessesByAddress_2 (tSup) (.int (R.blk .d0 43 + 0xFFFC)) (.odd) (.d0) (43) (0xFFFC) (tUp) &&
    hyp_AccessesByAddress_3 (tSup) (.int 0x07000000) (.d0) (0) (0) &&
    hyp_AccessesByAddress_4 (tSup) (.int (ceMemAddr .d0 5 0x10)) (.d0) (0) (0x10) (5) (tUp) &&
    hyp_AccessesByAddress_5 (tSup) (.int (R.blk .d0 0)) (.d0) (0) (0) (tUp) &&
    hyp_AccessesByAddress_6 (tSup) (.int (R.blk .d0 43 + 0xFFFC)) (.odd) (.d0) (43) (0xFFFC) (tUp) &&
    hyp_AccessesByAddress_7 (.h2) (.int (R.MAC_RX_OCTETS_LO .d0 0)) (.d0) (0) (0) (0) (tw tUp [(R.MAC_RX_OCTETS_LO .d0 0, 5), (R.MAC_RX_OCTETS_HI .d0 0, 9)]) &&
    hyp_AccessesByAddress_8 (tSup) (.int (R.TB_NOW_LO .d0)) (.d0) (0) (0) (tUp) &&
    hyp_AccessesByAddress_9 (.d0) (0) (tUp) &&
    hyp_AccessesByAddress_10 (.d0) (0) (tUp) &&
    hyp_AccessesByAddress_11 (.d0) (0x40004) (tw tUp [(R.POOL_RET_STAT .d0, 1)]) &&
    hyp_AccessesByAddress_12 (0x8000000) &&
    hyp_AccessesByAddress_13 (0x4000000) (tw tUp [(R.SYS_DLY_STAT .d0, 0x20)]) &&
    hyp_AccessesByAddress_14 (tUp) &&
    hyp_AccessesByAddress_15 ({tUp with h3 := {addr0 := 0xFFFC, addr1 := 0xFFFF, addr2 := 0x1FF, dataL := 7}}) &&
    hyp_AccessesByAddress_16 (tUp) &&
    hyp_AccessesByAddress_17 ({tUp with h3 := {addr0 := 0xFFFC, addr1 := 0xFFFF, addr2 := 0x1FF, dataL := 7}})) = true := by decide +kernel

/-! ### SerialFramesAreAnswered -/

def hyp_SerialFramesAreAnswered_0 (a : Nat) (ws : List Word) (op : Byte) (s : State) : Bool :=
  let writes : Bool := decide ((op = 0x02 ∨ op = 0x12) ∧ a < 2 ^ 40 ∧ ws.length < 256)
  let some_ (x : Nat) : Bool := decide (0 < x ∧ x ≤ 64)
  decide (writes) &&
  decide (some_ ws.length) &&
  (match s.h2WriteWords .h2 a ws with
  | (k, none, u) =>
    true
  | _ => false)

def hyp_SerialFramesAreAnswered_1 (a : Nat) (ws : List Word) (op : Byte) (s : State) : Bool :=
  let writes : Bool := decide ((op = 0x02 ∨ op = 0x12) ∧ a < 2 ^ 40 ∧ ws.length < 256)
  let some_ (x : Nat) : Bool := decide (0 < x ∧ x ≤ 64)
  decide (writes) &&
  decide (some_ ws.length) &&
  (match s.h2WriteWords .h2 a ws with
  | (k, some x, u) =>
    true
  | _ => false)

def hyp_SerialFramesAreAnswered_2 (a : Nat) (ws : List Word) (op : Byte) : Bool :=
  let writes : Bool := decide ((op = 0x02 ∨ op = 0x12) ∧ a < 2 ^ 40 ∧ ws.length < 256)
  let some_ (x : Nat) : Bool := decide (0 < x ∧ x ≤ 64)
  decide (writes) &&
  decide (¬some_ ws.length)

def hyp_SerialFramesAreAnswered_3 (a : Nat) (ws : List Word) (op : Byte) : Bool :=
  let writes : Bool := decide ((op = 0x02 ∨ op = 0x12) ∧ a < 2 ^ 40 ∧ ws.length < 256)
  decide (writes)

def hyp_SerialFramesAreAnswered_4 (a : Nat) (ws : List Word) (op : Byte) : Bool :=
  let frame (f : List Byte) : List Byte := f ++ frameCrc f
  let count (x : Nat) : Byte := BitVec.ofNat 8 x
  let wfr := frame ([op] ++ beBytes 5 a ++ [count ws.length] ++ wordBytes ws)
  let writes : Bool := decide ((op = 0x02 ∨ op = 0x12) ∧ a < 2 ^ 40 ∧ ws.length < 256)
  decide (writes) &&
  (List.any ((List.range (wfr.length)).reverse) fun j =>
    true)

def hyp_SerialFramesAreAnswered_5 (op : Byte) : Bool :=
  decide (isH2Write op.toNat = false) &&
  decide (h2Other op.toNat = false)

def hyp_SerialFramesAreAnswered_6 (a : Nat) (n : Nat) (op : Byte) (s : State) : Bool :=
  let reads : Bool := decide ((op = 0x0B ∨ op = 0x6C) ∧ a < 2 ^ 40 ∧ n < 256)
  let some_ (x : Nat) : Bool := decide (0 < x ∧ x ≤ 64)
  decide (reads) &&
  decide (some_ n) &&
  (match s.h2ReadWords .h2 a n with
  | (.ok xs, u) =>
    true
  | _ => false)

def hyp_SerialFramesAreAnswered_7 (a : Nat) (n : Nat) (op : Byte) (s : State) : Bool :=
  let reads : Bool := decide ((op = 0x0B ∨ op = 0x6C) ∧ a < 2 ^ 40 ∧ n < 256)
  let some_ (x : Nat) : Bool := decide (0 < x ∧ x ≤ 64)
  decide (reads) &&
  decide (some_ n) &&
  (match s.h2ReadWords .h2 a n with
  | (.error x, u) =>
    true
  | _ => false)

def hyp_SerialFramesAreAnswered_8 (a : Nat) (n : Nat) (op : Byte) : Bool :=
  let reads : Bool := decide ((op = 0x0B ∨ op = 0x6C) ∧ a < 2 ^ 40 ∧ n < 256)
  let some_ (x : Nat) : Bool := decide (0 < x ∧ x ≤ 64)
  decide (reads) &&
  decide (¬some_ n)

def hyp_SerialFramesAreAnswered_9 (a : Nat) (n : Nat) (ws : List Word) (op : Byte) (s : State) : Bool :=
  let writes : Bool := decide ((op = 0x02 ∨ op = 0x12) ∧ a < 2 ^ 40 ∧ ws.length < 256)
  let some_ (x : Nat) : Bool := decide (0 < x ∧ x ≤ 64)
  decide (writes) &&
  decide (some_ ws.length) &&
  decide (0 < n) &&
  (match s.h2WriteWords .h2 a (ws.take n) with
  | (k, x, u) =>
    true)

def hyp_SerialFramesAreAnswered_10 (nh : List Byte) (tag : List Byte) (c : List Byte) (ctr : Nat) (s : State) : Bool :=
  let sized : Bool := decide (nh.length = 16 ∧ tag.length = 16 ∧ c.length < 2 ^ 16 ∧ ctr < 2 ^ 64)
  decide (sized) &&
  decide (s.h2.key = [])

def hyp_SerialFramesAreAnswered_11 (nh : List Byte) (tag : List Byte) (c : List Byte) (ctr : Nat) (s : State) : Bool :=
  let sized : Bool := decide (nh.length = 16 ∧ tag.length = 16 ∧ c.length < 2 ^ 16 ∧ ctr < 2 ^ 64)
  decide (sized) &&
  decide (s.h2.key ≠ [])

def hyp_SerialFramesAreAnswered_14 (s : State) : Bool :=
  decide (s.h2.sess ≠ none)

def hyp_SerialFramesAreAnswered_16 (nh : List Byte) (nd : List Byte) (tag : List Byte) (c : List Byte) (ctr : Nat) (s : State) : Bool :=
  let ks := h2Keys s.h2.key nh nd
  let sized : Bool := decide (nh.length = 16 ∧ tag.length = 16 ∧ c.length < 2 ^ 16 ∧ ctr < 2 ^ 64)
  let good : Bool := decide (s.h2.sess = some (nh, nd) ∧ s.h2.hostCtr < ctr ∧ tag = Crypto.gcmTag (ks.take 32) (h2Iv ks ctr) [] c)
  decide (sized) &&
  decide (s.h2.sess = some (nh, nd)) &&
  decide (¬good)

def hyp_SerialFramesAreAnswered_17 (nh : List Byte) (tag : List Byte) (c : List Byte) (ctr : Nat) (s : State) : Bool :=
  let sized : Bool := decide (nh.length = 16 ∧ tag.length = 16 ∧ c.length < 2 ^ 16 ∧ ctr < 2 ^ 64)
  decide (sized) &&
  decide (s.h2.sess = none)

def hyp_SerialFramesAreAnswered_18 (s : State) : Bool :=
  decide (s.h2.sess = none)

theorem test_hyps_SerialFramesAreAnswered : (
    hyp_SerialFramesAreAnswered_0 (R.DBL_SET .d0 3) ([5]) (0x02) ({tUp with h2 := {key := tKey, pend := some (tNh, tNd), hostCtr := 9}}) &&
    hyp_SerialFramesAreAnswered_1 (0x7000000) ([5,6,7]) (0x02) (tUp) &&
    hyp_SerialFramesAreAnswered_2 (R.DBL_SET .d0 3) ([]) (0x02) &&
    hyp_SerialFramesAreAnswered_3 (R.DBL_SET .d0 3) ([5]) (0x02) &&
    hyp_SerialFramesAreAnswered_4 (R.DBL_SET .d0 3) ([5]) (0x02) &&
    hyp_SerialFramesAreAnswered_5 (0x77) &&
    hyp_SerialFramesAreAnswered_6 (R.DBL_STAT .d0 3) (2) (0x0B) (tw tUp [(R.DBL_STAT .d0 3, 0x99)]) &&
    hyp_SerialFramesAreAnswered_7 (0x7000000) (64) (0x6C) (tUp) &&
    hyp_SerialFramesAreAnswered_8 (R.DBL_SET .d0 3) (0) (0x6C) &&
    hyp_SerialFramesAreAnswered_9 (R.DBL_SET .d0 3) (1) ([5]) (0x02) ({tUp with h2 := {key := tKey, pend := some (tNh, tNd), hostCtr := 9}}) &&
    hyp_SerialFramesAreAnswered_10 (tNh) (tNh) ([]) (5) (tUp) &&
    hyp_SerialFramesAreAnswered_11 (tNh) (tNh) ([]) (5) (tSess) &&
    hyp_SerialFramesAreAnswered_14 ({tSess with h2 := {key := tKey, pend := some (tNh, tNd), sess := some (tNh,tNd), hostCtr := 9}}) &&
    hyp_SerialFramesAreAnswered_16 (tNh) (tNd) (tNh) ([]) (5) ({tSess with h2 := {key := tKey, pend := some (tNh, tNd), sess := some (tNh,tNd), hostCtr := 9}}) &&
    hyp_SerialFramesAreAnswered_17 (tNh) (tNh) ([]) (5) (tUp) &&
    hyp_SerialFramesAreAnswered_18 ({tUp with h2 := {key := tKey, pend := some (tNh, tNd), hostCtr := 9}})) = true := by decide +kernel

/-! ### PortsReceiveFrames -/

def hyp_PortsReceiveFrames_0 (d : Die) (p : Fin 14) (s : State) : Bool :=
  let m := p.val
  let live : Bool := decide (s.macLink d m = true ∧ s.portExists d m = true)
  decide (¬live)

def hyp_PortsReceiveFrames_1 (d : Die) (p : Fin 14) (bs : List Byte) (s : State) : Bool :=
  let m := p.val
  let len := bs.length
  let live : Bool := decide (s.macLink d m = true ∧ s.portExists d m = true)
  decide (live) &&
  decide (len < 64)

def hyp_PortsReceiveFrames_3 (d : Die) (p : Fin 14) (bs : List Byte) (pcs : Bool) (s : State) : Bool :=
  let m := p.val
  let len := bs.length
  let live : Bool := decide (s.macLink d m = true ∧ s.portExists d m = true)
  let whole : Bool := decide (64 ≤ len ∧ len < 9728)
  decide (live) &&
  decide (whole) &&
  decide (pcs = true)

def hyp_PortsReceiveFrames_4 (d : Die) (p : Fin 14) (bs : List Byte) (s : State) : Bool :=
  let m := p.val
  let len := bs.length
  let live : Bool := decide (s.macLink d m = true ∧ s.portExists d m = true)
  let whole : Bool := decide (64 ≤ len ∧ len < 9728)
  decide (live) &&
  decide (whole) &&
  decide (ofLe (bs.drop (len - 4)) ≠ fcs32 (bs.take (len - 4)))

def hyp_PortsReceiveFrames_5 (d : Die) (p : Fin 14) (bs : List Byte) (pcs : Bool) (s : State) : Bool :=
  let m := p.val
  let len := bs.length
  let live : Bool := decide (s.macLink d m = true ∧ s.portExists d m = true)
  let whole : Bool := decide (64 ≤ len ∧ len < 9728)
  let good : Bool := decide (pcs = false ∧ ofLe (bs.drop (len - 4)) = fcs32 (bs.take (len - 4)))
  decide (live) &&
  decide (whole) &&
  decide (good) &&
  decide (beAt bs 12 2 ≠ 0x8808) &&
  decide (s.daPass d m bs = false) &&
  decide ((s.portUp d m = false ∨ s.fld (R.SW_SMP d m) 0 16 < 2))

def hyp_PortsReceiveFrames_6 (d : Die) (p : Fin 14) (bs : List Byte) (pcs : Bool) (s : State) : Bool :=
  let m := p.val
  let len := bs.length
  let live : Bool := decide (s.macLink d m = true ∧ s.portExists d m = true)
  let whole : Bool := decide (64 ≤ len ∧ len < 9728)
  let good : Bool := decide (pcs = false ∧ ofLe (bs.drop (len - 4)) = fcs32 (bs.take (len - 4)))
  decide (live) &&
  decide (whole) &&
  decide (good) &&
  decide (beAt bs 12 2 ≠ 0x8808) &&
  decide (s.daPass d m bs = true)

def hyp_PortsReceiveFrames_7 (d : Die) (p : Fin 14) (bs : List Byte) (pcs : Bool) (s : State) : Bool :=
  let m := p.val
  let len := bs.length
  let live : Bool := decide (s.macLink d m = true ∧ s.portExists d m = true)
  let whole : Bool := decide (64 ≤ len ∧ len < 9728)
  let good : Bool := decide (pcs = false ∧ ofLe (bs.drop (len - 4)) = fcs32 (bs.take (len - 4)))
  decide (live) &&
  decide (whole) &&
  decide (good) &&
  decide (beAt bs 12 2 ≠ 0x8808) &&
  decide (s.daPass d m bs = true) &&
  decide (s.portUp d m = false)

def hyp_PortsReceiveFrames_8 (d : Die) (p : Fin 14) (bs : List Byte) (pcs : Bool) (age : Nat) (s : State) : Bool :=
  let m := p.val
  let len := bs.length
  let live : Bool := decide (s.macLink d m = true ∧ s.portExists d m = true)
  let whole : Bool := decide (64 ≤ len ∧ len < 9728)
  let good : Bool := decide (pcs = false ∧ ofLe (bs.drop (len - 4)) = fcs32 (bs.take (len - 4)))
  let ucast : Bool := decide (isGroup bs = false)
  let body := bs.take (len - 4)
  let cfg := R.SW_PORT_CFG d m
  let vid := s.fld cfg 16 12
  let k := s.pcpTc d m (s.fld cfg 13 3)
  let plain : Bool := decide (live ∧ whole ∧ good ∧ ucast ∧ beAt bs 12 2 ≠ 0x8808 ∧ beAt bs 12 2 ≠ 0x8100 ∧ s.portUp d m = true ∧ s.fld (R.SW_SMP d m) 0 16 < 2 ∧
      s.flag cfg 12 = false ∧ len ≤ s.fld (R.SW_PORT_MAXF d m) 0 14 ∧ s.mgmtDie body = none ∧ s.ptpFor d m body = none ∧ s.sidHits d vid body = [] ∧
      vid ≠ 4095 ∧ (s.flag cfg 10 = true → (s.vlanOf d vid).1.testBit m = true) ∧ k < 4)
  let f : Machine.Frm := { bytes := body, vid := vid, pcp := s.fld cfg 13 3, ingress := m, rate := s.portSpeed d m, stamp := s.rxStamp d m age, plink := (s.getReg (R.TB_PLINK d m)).toNat, ends := true, short := decide (len ≤ 64), rsq := s.flag cfg 11 }
  let u := (((s.rxOctets d m len).count (R.MAC_RX_UCAST d m)).count (R.SW_RX_FRAMES d m)).learn d m vid body
  decide (plain) &&
  (match u.lookup d m f with
  | (es, g, w) =>
    decide ((es = none ∨ es = some [])))

def hyp_PortsReceiveFrames_9 (d : Die) (p : Fin 14) (bs : List Byte) (pcs : Bool) (age : Nat) (s : State) : Bool :=
  let m := p.val
  let len := bs.length
  let live : Bool := decide (s.macLink d m = true ∧ s.portExists d m = true)
  let whole : Bool := decide (64 ≤ len ∧ len < 9728)
  let good : Bool := decide (pcs = false ∧ ofLe (bs.drop (len - 4)) = fcs32 (bs.take (len - 4)))
  let ucast : Bool := decide (isGroup bs = false)
  let body := bs.take (len - 4)
  let cfg := R.SW_PORT_CFG d m
  let vid := s.fld cfg 16 12
  let k := s.pcpTc d m (s.fld cfg 13 3)
  let plain : Bool := decide (live ∧ whole ∧ good ∧ ucast ∧ beAt bs 12 2 ≠ 0x8808 ∧ beAt bs 12 2 ≠ 0x8100 ∧ s.portUp d m = true ∧ s.fld (R.SW_SMP d m) 0 16 < 2 ∧
      s.flag cfg 12 = false ∧ len ≤ s.fld (R.SW_PORT_MAXF d m) 0 14 ∧ s.mgmtDie body = none ∧ s.ptpFor d m body = none ∧ s.sidHits d vid body = [] ∧
      vid ≠ 4095 ∧ (s.flag cfg 10 = true → (s.vlanOf d vid).1.testBit m = true) ∧ k < 4)
  let f : Machine.Frm := { bytes := body, vid := vid, pcp := s.fld cfg 13 3, ingress := m, rate := s.portSpeed d m, stamp := s.rxStamp d m age, plink := (s.getReg (R.TB_PLINK d m)).toNat, ends := true, short := decide (len ≤ 64), rsq := s.flag cfg 11 }
  let u := (((s.rxOctets d m len).count (R.MAC_RX_UCAST d m)).count (R.SW_RX_FRAMES d m)).learn d m vid body
  decide (plain) &&
  (match u.lookup d m f with
  | (some es, g, w) =>
    decide (es ≠ []) &&
    decide (g.handle = 0)
  | _ => false)

def hyp_PortsReceiveFrames_10 (d : Die) (p : Fin 14) (bs : List Byte) (pcs : Bool) (age : Nat) (s : State) : Bool :=
  let m := p.val
  let len := bs.length
  let live : Bool := decide (s.macLink d m = true ∧ s.portExists d m = true)
  let whole : Bool := decide (64 ≤ len ∧ len < 9728)
  let good : Bool := decide (pcs = false ∧ ofLe (bs.drop (len - 4)) = fcs32 (bs.take (len - 4)))
  let ucast : Bool := decide (isGroup bs = false)
  let body := bs.take (len - 4)
  let cfg := R.SW_PORT_CFG d m
  let vid := s.fld cfg 16 12
  let k := s.pcpTc d m (s.fld cfg 13 3)
  let plain : Bool := decide (live ∧ whole ∧ good ∧ ucast ∧ beAt bs 12 2 ≠ 0x8808 ∧ beAt bs 12 2 ≠ 0x8100 ∧ s.portUp d m = true ∧ s.fld (R.SW_SMP d m) 0 16 < 2 ∧
      s.flag cfg 12 = false ∧ len ≤ s.fld (R.SW_PORT_MAXF d m) 0 14 ∧ s.mgmtDie body = none ∧ s.ptpFor d m body = none ∧ s.sidHits d vid body = [] ∧
      vid ≠ 4095 ∧ (s.flag cfg 10 = true → (s.vlanOf d vid).1.testBit m = true) ∧ k < 4)
  let f : Machine.Frm := { bytes := body, vid := vid, pcp := s.fld cfg 13 3, ingress := m, rate := s.portSpeed d m, stamp := s.rxStamp d m age, plink := (s.getReg (R.TB_PLINK d m)).toNat, ends := true, short := decide (len ≤ 64), rsq := s.flag cfg 11 }
  let u := (((s.rxOctets d m len).count (R.MAC_RX_UCAST d m)).count (R.SW_RX_FRAMES d m)).learn d m vid body
  decide (plain) &&
  (match u.lookup d m f with
  | (some es, g, w) =>
    decide (es ≠ []) &&
    decide (g.handle ≠ 0)
  | _ => false)

def hyp_PortsReceiveFrames_11 (d : Die) (p : Fin 14) (bs : List Byte) (pcs : Bool) (age : Nat) (s : State) : Bool :=
  let m := p.val
  let len := bs.length
  let live : Bool := decide (s.macLink d m = true ∧ s.portExists d m = true)
  let whole : Bool := decide (64 ≤ len ∧ len < 9728)
  let good : Bool := decide (pcs = false ∧ ofLe (bs.drop (len - 4)) = fcs32 (bs.take (len - 4)))
  let ucast : Bool := decide (isGroup bs = false)
  let body := bs.take (len - 4)
  let cfg := R.SW_PORT_CFG d m
  let vid := s.fld cfg 16 12
  let k := s.pcpTc d m (s.fld cfg 13 3)
  let plain : Bool := decide (live ∧ whole ∧ good ∧ ucast ∧ beAt bs 12 2 ≠ 0x8808 ∧ beAt bs 12 2 ≠ 0x8100 ∧ s.portUp d m = true ∧ s.fld (R.SW_SMP d m) 0 16 < 2 ∧
      s.flag cfg 12 = false ∧ len ≤ s.fld (R.SW_PORT_MAXF d m) 0 14 ∧ s.mgmtDie body = none ∧ s.ptpFor d m body = none ∧ s.sidHits d vid body = [] ∧
      vid ≠ 4095 ∧ (s.flag cfg 10 = true → (s.vlanOf d vid).1.testBit m = true) ∧ k < 4)
  let f : Machine.Frm := { bytes := body, vid := vid, pcp := s.fld cfg 13 3, ingress := m, rate := s.portSpeed d m, stamp := s.rxStamp d m age, plink := (s.getReg (R.TB_PLINK d m)).toNat, ends := true, short := decide (len ≤ 64), rsq := s.flag cfg 11 }
  let u := (((s.rxOctets d m len).count (R.MAC_RX_UCAST d m)).count (R.SW_RX_FRAMES d m)).learn d m vid body
  decide (plain) &&
  (match u.lookup d m f with
  | (some [e], g, w) =>
    decide (g.handle = 0) &&
    decide (w.portUp d e = true) && (
      let h := { g with tc := k }
      decide (w.cutOk d e 1 h = true))
  | _ => false)

def hyp_PortsReceiveFrames_12 (d : Die) (p : Fin 14) (bs : List Byte) (pcs : Bool) (age : Nat) (s : State) : Bool :=
  let m := p.val
  let len := bs.length
  let live : Bool := decide (s.macLink d m = true ∧ s.portExists d m = true)
  let whole : Bool := decide (64 ≤ len ∧ len < 9728)
  let good : Bool := decide (pcs = false ∧ ofLe (bs.drop (len - 4)) = fcs32 (bs.take (len - 4)))
  let ucast : Bool := decide (isGroup bs = false)
  let body := bs.take (len - 4)
  let cfg := R.SW_PORT_CFG d m
  let vid := s.fld cfg 16 12
  let k := s.pcpTc d m (s.fld cfg 13 3)
  let plain : Bool := decide (live ∧ whole ∧ good ∧ ucast ∧ beAt bs 12 2 ≠ 0x8808 ∧ beAt bs 12 2 ≠ 0x8100 ∧ s.portUp d m = true ∧ s.fld (R.SW_SMP d m) 0 16 < 2 ∧
      s.flag cfg 12 = false ∧ len ≤ s.fld (R.SW_PORT_MAXF d m) 0 14 ∧ s.mgmtDie body = none ∧ s.ptpFor d m body = none ∧ s.sidHits d vid body = [] ∧
      vid ≠ 4095 ∧ (s.flag cfg 10 = true → (s.vlanOf d vid).1.testBit m = true) ∧ k < 4)
  let f : Machine.Frm := { bytes := body, vid := vid, pcp := s.fld cfg 13 3, ingress := m, rate := s.portSpeed d m, stamp := s.rxStamp d m age, plink := (s.getReg (R.TB_PLINK d m)).toNat, ends := true, short := decide (len ≤ 64), rsq := s.flag cfg 11 }
  let u := (((s.rxOctets d m len).count (R.MAC_RX_UCAST d m)).count (R.SW_RX_FRAMES d m)).learn d m vid body
  decide (plain) &&
  (match u.lookup d m f with
  | (some [e], g, w) =>
    decide (g.handle = 0) &&
    decide (w.portUp d e = true) && (
      let h := { g with tc := k }
      decide (w.cutOk d e 1 h = false) &&
      (match w.storeFrame d body 1 with
      | (some l, x) =>
        let dep := s.depth d e k
        let avg := ((s.avg d e k : Int) + ((dep * 256 : Nat) - (s.avg d e k : Int)) / (2 ^ s.fld (R.SW_RED_W d) 0 4 : Nat)).toNat
        decide (dep + linesOf body ≤ s.qlimit d k) &&
        decide (avg < s.fld (R.SW_RED_TH d (3 * k)) 0 16 * 256)
      | _ => false))
  | _ => false)

def hyp_PortsReceiveFrames_13 (d : Die) (p : Fin 14) (bs : List Byte) (pcs : Bool) (age : Nat) (s : State) : Bool :=
  let m := p.val
  let len := bs.length
  let live : Bool := decide (s.macLink d m = true ∧ s.portExists d m = true)
  let whole : Bool := decide (64 ≤ len ∧ len < 9728)
  let good : Bool := decide (pcs = false ∧ ofLe (bs.drop (len - 4)) = fcs32 (bs.take (len - 4)))
  let ucast : Bool := decide (isGroup bs = false)
  let body := bs.take (len - 4)
  let cfg := R.SW_PORT_CFG d m
  let vid := s.fld cfg 16 12
  let k := s.pcpTc d m (s.fld cfg 13 3)
  let plain : Bool := decide (live ∧ whole ∧ good ∧ ucast ∧ beAt bs 12 2 ≠ 0x8808 ∧ beAt bs 12 2 ≠ 0x8100 ∧ s.portUp d m = true ∧ s.fld (R.SW_SMP d m) 0 16 < 2 ∧
      s.flag cfg 12 = false ∧ len ≤ s.fld (R.SW_PORT_MAXF d m) 0 14 ∧ s.mgmtDie body = none ∧ s.ptpFor d m body = none ∧ s.sidHits d vid body = [] ∧
      vid ≠ 4095 ∧ (s.flag cfg 10 = true → (s.vlanOf d vid).1.testBit m = true) ∧ k < 4)
  let f : Machine.Frm := { bytes := body, vid := vid, pcp := s.fld cfg 13 3, ingress := m, rate := s.portSpeed d m, stamp := s.rxStamp d m age, plink := (s.getReg (R.TB_PLINK d m)).toNat, ends := true, short := decide (len ≤ 64), rsq := s.flag cfg 11 }
  let u := (((s.rxOctets d m len).count (R.MAC_RX_UCAST d m)).count (R.SW_RX_FRAMES d m)).learn d m vid body
  decide (plain) &&
  (match u.lookup d m f with
  | (some [e], g, w) =>
    decide (g.handle = 0) &&
    decide (w.portUp d e = true) && (
      let h := { g with tc := k }
      decide (w.cutOk d e 1 h = false) &&
      (match w.storeFrame d body 1 with
      | (some l, x) =>
        let dep := s.depth d e k
        decide (s.qlimit d k < dep + linesOf body)
      | _ => false))
  | _ => false)

theorem test_hyps_PortsReceiveFrames : (
    hyp_PortsReceiveFrames_0 (.d0) (2) (tUp) &&
    hyp_PortsReceiveFrames_1 (.d0) (2) ([1,2,3]) (tSw) &&
    hyp_PortsReceiveFrames_3 (.d0) (2) (tEth 0x020000000001 0x020000000002 0x0806) (true) (tSw) &&
    hyp_PortsReceiveFrames_4 (.d0) (2) (List.replicate 64 0) (tSw) &&
    hyp_PortsReceiveFrames_5 (.d0) (2) (tEth 0x010000000001 2 0x0806) (false) (tSw) &&
    hyp_PortsReceiveFrames_6 (.d0) (2) (tEth 0x020000000001 0x020000000002 0x0806) (false) (tOne) &&
    hyp_PortsReceiveFrames_7 (.d0) (2) (tEth 0x020000000001 0x020000000002 0x0806) (false) (tSw [(R.SW_PORT_CFG .d0 2, 0x40010000)]) &&
    hyp_PortsReceiveFrames_8 (.d0) (2) (tEth 0x020000000001 0x020000000002 0x0806) (false) (5) ({tSw with vlan := [(1, (4,4))]}) &&
    hyp_PortsReceiveFrames_9 (.d0) (2) (tEth 0x020000000001 0x020000000002 0x0806) (false) (5) (tOne) &&
    hyp_PortsReceiveFrames_10 (.d0) (2) (tEth 0x020000000001 0x020000000002 0x0806) (false) (5) ((fun s : State => {s with ft := s.ft.map fun e => (e.1, {e.2 with type := 2, handle := 9, tc := 2})}) tOne) &&
    hyp_PortsReceiveFrames_11 (.d0) (2) (tEth 0x020000000001 0x020000000002 0x0806 200) (false) (5) (tOne [(R.SW_MC_THRESH .d0, 4), (R.SW_PORT_MAXF .d0 5, 1522)]) &&
    hyp_PortsReceiveFrames_12 (.d0) (2) (tEth 0x020000000001 0x020000000002 0x0806) (false) (5) (tOne) &&
    hyp_PortsReceiveFrames_13 (.d0) (2) (tEth 0x020000000001 0x020000000002 0x0806) (false) (5) ((tOne [(R.SW_RED_TH .d0 0, 100), (R.SW_QLIMIT .d0 0, 1)]).setQueue .d0 5 0 [tFrm 60])) = true := by decide +kernel

/-! ### PausesLinksAndManagement -/

def hyp_PausesLinksAndManagement_0 (d : Die) (p : Fin 14) (quanta : Nat) (s : State) : Bool :=
  let m := p.val
  let live : Bool := decide (s.macLink d m = true ∧ s.portExists d m = true)
  let pc := R.MAC_PAUSE_CFG d m
  decide (live) &&
  decide (s.flag pc 0 = true) &&
  decide (s.flag pc 2 = false) &&
  decide (quanta % 65536 ≠ 0)

def hyp_PausesLinksAndManagement_1 (d : Die) (p : Fin 14) (quanta : Nat) (s : State) : Bool :=
  let m := p.val
  let live : Bool := decide (s.macLink d m = true ∧ s.portExists d m = true)
  decide (live) &&
  decide (quanta % 65536 = 0)

def hyp_PausesLinksAndManagement_2 (d : Die) (p : Fin 14) (quanta : Nat) (s : State) : Bool :=
  let m := p.val
  let live : Bool := decide (s.macLink d m = true ∧ s.portExists d m = true)
  let pc := R.MAC_PAUSE_CFG d m
  decide (live) &&
  decide ((s.flag pc 0 = false ∨ s.flag pc 2 = true)) &&
  decide (quanta % 65536 ≠ 0)

def hyp_PausesLinksAndManagement_3 (d : Die) (p : Fin 14) (s : State) : Bool :=
  let m := p.val
  let live : Bool := decide (s.macLink d m = true ∧ s.portExists d m = true)
  decide (¬live)

def hyp_PausesLinksAndManagement_4 (d : Die) (p : Fin 14) (s : State) : Bool :=
  let m := p.val
  let pc := R.MAC_PAUSE_CFG d m
  decide (s.flag pc 3 = true)

def hyp_PausesLinksAndManagement_5 (d : Die) (p : Fin 14) (s : State) : Bool :=
  let m := p.val
  let pc := R.MAC_PAUSE_CFG d m
  decide (s.flag pc 3 = false)

def hyp_PausesLinksAndManagement_6 (d : Die) (p : Fin 14) (s : State) : Bool :=
  let m := p.val
  let pc := R.MAC_PAUSE_CFG d m
  let pausing := Tab.get (fun _ => false) s.pausing d.idx
  decide (pausing = true) &&
  decide (s.freeLines d < s.fld (R.MAC_PAUSE_XON d) 0 18) &&
  decide (s.flag pc 1 = true) &&
  decide (s.portUp d m = true)

def hyp_PausesLinksAndManagement_7 (d : Die) (s : State) : Bool :=
  let pausing := Tab.get (fun _ => false) s.pausing d.idx
  decide (pausing = false) &&
  decide (s.fld (R.MAC_PAUSE_XOFF d) 0 18 ≤ s.freeLines d)

def hyp_PausesLinksAndManagement_8 (d : Die) (p : Fin 14) (speed : Fin 7) (half : Bool) (s : State) : Bool :=
  let m := p.val
  let md := R.MAC_PORT_MODE d m
  let free : Bool := decide (s.macLink d m = false ∧ s.portExists d m = true ∧ 5 ≤ (s.bootOf d).stage ∧ s.powerEff d < 3)
  decide (free) &&
  decide (m < 12) &&
  decide (half = false) &&
  decide (speed.val ≤ 2) &&
  decide ((s.fld md 0 3 = 0 ∨ s.fld md 0 3 = speed.val + 1))

def hyp_PausesLinksAndManagement_9 (d : Die) (p : Fin 14) (s : State) : Bool :=
  let m := p.val
  let md := R.MAC_PORT_MODE d m
  let free : Bool := decide (s.macLink d m = false ∧ s.portExists d m = true ∧ 5 ≤ (s.bootOf d).stage ∧ s.powerEff d < 3)
  decide (free) &&
  decide (12 ≤ m) &&
  decide (s.fld md 0 3 ≠ 3)

def hyp_PausesLinksAndManagement_10 (d : Die) (p : Fin 14) (speed : Fin 7) (half : Bool) (s : State) : Bool :=
  let m := p.val
  let md := R.MAC_PORT_MODE d m
  let free : Bool := decide (s.macLink d m = false ∧ s.portExists d m = true ∧ 5 ≤ (s.bootOf d).stage ∧ s.powerEff d < 3)
  decide (free) &&
  decide (12 ≤ m) &&
  decide (s.fld md 0 3 = 3) &&
  decide (half = false) &&
  decide (speed.val ≤ 5)

def hyp_PausesLinksAndManagement_11 (d : Die) (p : Fin 14) (half : Bool) (s : State) : Bool :=
  let m := p.val
  let md := R.MAC_PORT_MODE d m
  let free : Bool := decide (s.macLink d m = false ∧ s.portExists d m = true ∧ 5 ≤ (s.bootOf d).stage ∧ s.powerEff d < 3)
  decide (free) &&
  decide ((m < 12 ∨ s.fld md 0 3 = 3)) &&
  decide (half = true)

def hyp_PausesLinksAndManagement_12 (d : Die) (p : Fin 14) (s : State) : Bool :=
  let m := p.val
  let free : Bool := decide (s.macLink d m = false ∧ s.portExists d m = true ∧ 5 ≤ (s.bootOf d).stage ∧ s.powerEff d < 3)
  decide (¬free)

def hyp_PausesLinksAndManagement_13 (d : Die) (p : Fin 14) (s : State) : Bool :=
  let m := p.val
  decide (s.macLink d m = true)

def hyp_PausesLinksAndManagement_14 (d : Die) (p : Fin 14) (s : State) : Bool :=
  let m := p.val
  decide (s.macLink d m = false)

def hyp_PausesLinksAndManagement_15 (who : Requester) (d : Die) (s : State) : Bool :=
  let mdio := R.MAC_MDIO d
  decide (s.accepts who mdio) &&
  decide (s.flag mdio 31 = false)

def hyp_PausesLinksAndManagement_16 (who : Requester) (d : Die) (s : State) : Bool :=
  let mdio := R.MAC_MDIO d
  decide (s.accepts who mdio) &&
  decide (s.flag mdio 31 = true)

def hyp_PausesLinksAndManagement_17 (d : Die) (s : State) : Bool :=
  let mdio := R.MAC_MDIO d
  decide (s.flag mdio 31 = true)

def hyp_PausesLinksAndManagement_18 (d : Die) (s : State) : Bool :=
  let mdio := R.MAC_MDIO d
  decide (s.flag mdio 31 = false)

theorem test_hyps_PausesLinksAndManagement : (
    hyp_PausesLinksAndManagement_0 (.d0) (2) (100) (tSw [(R.MAC_PAUSE_CFG .d0 2, 1)]) &&
    hyp_PausesLinksAndManagement_1 (.d0) (2) (0) (tSw [(R.MAC_PAUSE_CFG .d0 2, 0xFF)]) &&
    hyp_PausesLinksAndManagement_2 (.d0) (2) (100) ({tSw [(R.SW_PORT_CFG .d0 2, 0xC0010000), (R.MAC_PAUSE_CFG .d0 2, 2), (R.MAC_PAUSE_XON .d0, 0x3FFFF), (R.MAC_ADDR_LO .d0 2, 0x44332211), (R.MAC_ADDR_HI .d0 2, 0x6655)] with pausing := [(0,true)]}) &&
    hyp_PausesLinksAndManagement_3 (.d0) (2) (tUp) &&
    hyp_PausesLinksAndManagement_4 (.d0) (2) (tSw [(R.MAC_PAUSE_CFG .d0 2, 0xFF)]) &&
    hyp_PausesLinksAndManagement_5 (.d0) (2) (tUp) &&
    hyp_PausesLinksAndManagement_6 (.d0) (2) ({tSw [(R.SW_PORT_CFG .d0 2, 0xC0010000), (R.MAC_PAUSE_CFG .d0 2, 2), (R.MAC_PAUSE_XON .d0, 0x3FFFF), (R.MAC_ADDR_LO .d0 2, 0x44332211), (R.MAC_ADDR_HI .d0 2, 0x6655)] with pausing := [(0,true)]}) &&
    hyp_PausesLinksAndManagement_7 (.d0) (tUp) &&
    hyp_PausesLinksAndManagement_8 (.d0) (2) (1) (false) (tUp.setBoot .d0 {stage := 6}) &&
    hyp_PausesLinksAndManagement_9 (.d0) (12) (tUp.setBoot .d0 {stage := 6}) &&
    hyp_PausesLinksAndManagement_10 (.d0) (12) (5) (false) (tw (tUp.setBoot .d0 {stage := 6}) [(R.MAC_PORT_MODE .d0 12, 3)]) &&
    hyp_PausesLinksAndManagement_11 (.d0) (2) (true) (tUp.setBoot .d0 {stage := 6}) &&
    hyp_PausesLinksAndManagement_12 (.d0) (2) (tUp) &&
    hyp_PausesLinksAndManagement_13 (.d0) (2) (tSw [(R.MAC_PAUSE_CFG .d0 2, 0xFF)]) &&
    hyp_PausesLinksAndManagement_14 (.d0) (2) (tUp) &&
    hyp_PausesLinksAndManagement_15 (tSup) (.d0) (tUp) &&
    hyp_PausesLinksAndManagement_16 (tSup) (.d0) (tw tUp [(R.MAC_MDIO .d0, 0x90001234)]) &&
    hyp_PausesLinksAndManagement_17 (.d0) (tw tUp [(R.MAC_MDIO .d0, 0x90001234)]) &&
    hyp_PausesLinksAndManagement_18 (.d0) (tUp)) = true := by decide +kernel

/-! ### SwitchSendsAndKeepsItsTables -/

def hyp_SwitchSendsAndKeepsItsTables_0 (d : Die) (e : Fin 17) (s : State) : Bool :=
  let o := e.val
  let go : Bool := decide (s.portUp d o = true ∧ s.portHeld d o = false)
  decide (go) &&
  decide (o < 14) &&
  (match s.pickClass d o with
  | some k =>
    (match s.queue d o k with
    | f :: rest =>
      decide (s.frmStale f = false) && (
        let s1 := ((s.setQueue d o k rest).descBad d f.line).2
        decide (((s.setQueue d o k rest).descBad d f.line).1 = false) &&
        decide ((s1.sendRead d f).1 = false))
    | _ => false)
  | _ => false)

def hyp_SwitchSendsAndKeepsItsTables_1 (d : Die) (e : Fin 17) (s : State) : Bool :=
  let o := e.val
  decide (s.pickClass d o = none)

def hyp_SwitchSendsAndKeepsItsTables_2 (d : Die) (e : Fin 17) (s : State) : Bool :=
  let o := e.val
  let go : Bool := decide (s.portUp d o = true ∧ s.portHeld d o = false)
  decide (¬go)

def hyp_SwitchSendsAndKeepsItsTables_3 (d : Die) (x : Fin 256) (s : State) : Bool :=
  (match (s.rsqOf d x.val).held with
  | [(k, y, f)] =>
    true
  | _ => false)

def hyp_SwitchSendsAndKeepsItsTables_4 (d : Die) (x : Fin 256) (s : State) : Bool :=
  decide ((s.rsqOf d x.val).held = [])

def hyp_SwitchSendsAndKeepsItsTables_5 (d : Die) (n : Fin 32768) (s : State) : Bool :=
  let ft := s.ftAt d n.val
  let age := s.fld (R.SW_AGE d) 0 16
  let old : Bool := decide (ft.type = 1 ∧ age ≠ 0 ∧ ft.seen + age < (s.now d).sec)
  decide (old)

def hyp_SwitchSendsAndKeepsItsTables_6 (d : Die) (n : Fin 32768) (s : State) : Bool :=
  let ft := s.ftAt d n.val
  let age := s.fld (R.SW_AGE d) 0 16
  let old : Bool := decide (ft.type = 1 ∧ age ≠ 0 ∧ ft.seen + age < (s.now d).sec)
  decide (¬old)

def hyp_SwitchSendsAndKeepsItsTables_7 (d : Die) (g : Fin 8) (b : Fin 64) (s : State) : Bool :=
  let home := if b.val % 2 = 0 then s.fld (R.SW_PG d g.val) 0 5 else s.fld (R.SW_PG d g.val) 16 5
  decide ((s.pgAwayOf d g.val).testBit b.val = true) &&
  decide (s.portUp d home = true)

def hyp_SwitchSendsAndKeepsItsTables_8 (d : Die) (g : Fin 8) (b : Fin 64) (s : State) : Bool :=
  let home := if b.val % 2 = 0 then s.fld (R.SW_PG d g.val) 0 5 else s.fld (R.SW_PG d g.val) 16 5
  decide ((s.pgAwayOf d g.val).testBit b.val = false ∨ s.portUp d home = false)

def hyp_SwitchSendsAndKeepsItsTables_9 (d : Die) (e : Fin 17) (q : Fin 7) (s : State) : Bool :=
  let o := e.val
  decide (s.queue d o q.val = [])

def hyp_SwitchSendsAndKeepsItsTables_10 (d : Die) (e : Fin 17) (q : Fin 7) (s : State) : Bool :=
  let o := e.val
  decide (s.queue d o q.val ≠ [])

def hyp_SwitchSendsAndKeepsItsTables_11 (d : Die) (i : Fin 4096) (s : State) : Bool :=
  decide (bit (s.sidWord d i.val 0) 8 = true)

def hyp_SwitchSendsAndKeepsItsTables_12 (d : Die) (i : Fin 4096) (s : State) : Bool :=
  decide (bit (s.sidWord d i.val 0) 8 = false)

def hyp_SwitchSendsAndKeepsItsTables_13 (d : Die) (p : Fin 14) (s : State) : Bool :=
  let j := p.val
  let gl := s.gclOf d j
  let next : Bool := decide (gl.cur + 1 < gl.len ∧ gl.endAt < gl.cycEnd)
  decide (gl.len ≠ 0) &&
  decide (next)

def hyp_SwitchSendsAndKeepsItsTables_14 (d : Die) (p : Fin 14) (s : State) : Bool :=
  let j := p.val
  let gl := s.gclOf d j
  let next : Bool := decide (gl.cur + 1 < gl.len ∧ gl.endAt < gl.cycEnd)
  decide (gl.len ≠ 0) &&
  decide (¬next)

def hyp_SwitchSendsAndKeepsItsTables_15 (d : Die) (p : Fin 14) (s : State) : Bool :=
  let j := p.val
  let gl := s.gclOf d j
  decide (gl.len = 0)

def hyp_SwitchSendsAndKeepsItsTables_16 (who : Requester) (d : Die) (p : Fin 14) (v : Word) (s : State) : Bool :=
  let j := p.val
  let gc := R.SW_GCL_CTRL d j
  decide (s.accepts who gc) &&
  decide (bits v 0 8 ≤ 128)

def hyp_SwitchSendsAndKeepsItsTables_17 (who : Requester) (d : Die) (p : Fin 14) (v : Word) (s : State) : Bool :=
  let j := p.val
  let gc := R.SW_GCL_CTRL d j
  decide (s.accepts who gc) &&
  decide (128 < bits v 0 8)

def hyp_SwitchSendsAndKeepsItsTables_18 (d : Die) (p : Fin 14) (s : State) : Bool :=
  let j := p.val
  let gl := s.gclOf d j
  (match gl.pendAt with
  | some z =>
    true
  | _ => false)

def hyp_SwitchSendsAndKeepsItsTables_19 (d : Die) (p : Fin 14) (s : State) : Bool :=
  let j := p.val
  let gl := s.gclOf d j
  decide (gl.pendAt = none)

def hyp_SwitchSendsAndKeepsItsTables_20 (who : Requester) (d : Die) (s : State) : Bool :=
  let sidC := R.SW_SID_CMD d
  decide (s.accepts who sidC)

def hyp_SwitchSendsAndKeepsItsTables_21 (who : Requester) (d : Die) (s : State) : Bool :=
  let sid := s.fld (R.SW_SID_IDX d) 0 12
  let sidC := R.SW_SID_CMD d
  decide (s.accepts who sidC) &&
  decide (s.sidWindowOk d sid = true)

def hyp_SwitchSendsAndKeepsItsTables_22 (who : Requester) (d : Die) (s : State) : Bool :=
  let sid := s.fld (R.SW_SID_IDX d) 0 12
  let sidC := R.SW_SID_CMD d
  decide (s.accepts who sidC) &&
  decide (s.sidWindowOk d sid = false)

def hyp_SwitchSendsAndKeepsItsTables_23 (who : Requester) (d : Die) (s : State) : Bool :=
  let vlC := R.SW_VLAN_CMD d
  decide (s.accepts who vlC)

def hyp_SwitchSendsAndKeepsItsTables_24 (who : Requester) (d : Die) (s : State) : Bool :=
  decide (s.accepts who (R.SW_FT_IDX d))

theorem test_hyps_SwitchSendsAndKeepsItsTables : (
    hyp_SwitchSendsAndKeepsItsTables_0 (.d0) (5) (({tSw [(R.SW_RED_W .d0, 3)] with swAvg := [(queueKey .d0 5 6, 1000)]}).setQueue .d0 5 6 [tFrm 9]) &&
    hyp_SwitchSendsAndKeepsItsTables_1 (.d0) (7) (tUp) &&
    hyp_SwitchSendsAndKeepsItsTables_2 (.d0) (7) (tUp) &&
    hyp_SwitchSendsAndKeepsItsTables_3 (.d0) (7) ((tSw).setRsq .d0 7 {e := none, held := [(0, [5], {tFrm 60 with line := some 3})]}) &&
    hyp_SwitchSendsAndKeepsItsTables_4 (.d0) (7) (tUp) &&
    hyp_SwitchSendsAndKeepsItsTables_5 (.d0) (32767) (({tSw [(R.SW_AGE .d0, 300)] with ft := [(32767, {type := 1, mac := 5, seen := 0})]}).setNow .d0 {sec := 301}) &&
    hyp_SwitchSendsAndKeepsItsTables_6 (.d0) (32767) (tUp) &&
    hyp_SwitchSendsAndKeepsItsTables_7 (.d0) (7) (63) ({tSw [(R.SW_PG .d0 7, 0x5_0006)] with pgAway := [(7, 2^63 + 3)]}) &&
    hyp_SwitchSendsAndKeepsItsTables_8 (.d0) (7) (63) (tUp) &&
    hyp_SwitchSendsAndKeepsItsTables_9 (.d0) (7) (6) (tUp) &&
    hyp_SwitchSendsAndKeepsItsTables_10 (.d0) (5) (6) (({tSw [(R.SW_RED_W .d0, 3)] with swAvg := [(queueKey .d0 5 6, 1000)]}).setQueue .d0 5 6 [tFrm 9]) &&
    hyp_SwitchSendsAndKeepsItsTables_11 (.d0) (4095) ({tSw with sid := [(4095, [0x100])]}) &&
    hyp_SwitchSendsAndKeepsItsTables_12 (.d0) (4095) (tUp) &&
    hyp_SwitchSendsAndKeepsItsTables_13 (.d0) (13) ((tSw [(R.SW_GCL_W1 .d0 13 0 1, 777)]).setGcl .d0 13 {len := 3, cur := 0, endAt := 100, cycEnd := 1000}) &&
    hyp_SwitchSendsAndKeepsItsTables_14 (.d0) (13) ((tSw []).setGcl .d0 13 {len := 1, cur := 0, endAt := 1000, cycEnd := 1000}) &&
    hyp_SwitchSendsAndKeepsItsTables_15 (.d0) (13) (tUp) &&
    hyp_SwitchSendsAndKeepsItsTables_16 (tSup) (.d0) (13) (0x40000080) (tUp) &&
    hyp_SwitchSendsAndKeepsItsTables_17 (tSup) (.d0) (13) (0x81) (tSw) &&
    hyp_SwitchSendsAndKeepsItsTables_18 (.d0) (13) ((tSw [(R.SW_GCL_CTRL .d0 13, 0x80000105), (R.SW_GCL_CYCLE_NS .d0 13, 500000)]).setGcl .d0 13 {pendAt := some 77}) &&
    hyp_SwitchSendsAndKeepsItsTables_19 (.d0) (13) (tUp) &&
    hyp_SwitchSendsAndKeepsItsTables_20 (tSup) (.d0) (tUp) &&
    hyp_SwitchSendsAndKeepsItsTables_21 (tSup) (.d0) (tUp) &&
    hyp_SwitchSendsAndKeepsItsTables_22 (tSup) (.d0) ({tSw ([(R.SW_SID_IDX .d0, 9)] ++ (List.range 8).map fun z => (R.SW_SID_W .d0 z, 0x43 + z)) with sid := [(9, [1,2,3,4,5,6,7,8])]}) &&
    hyp_SwitchSendsAndKeepsItsTables_23 (tSup) (.d0) (tUp) &&
    hyp_SwitchSendsAndKeepsItsTables_24 (tSup) (.d0) (tUp)) = true := by decide +kernel

/-! ### RingPassesCycleFrames -/

def hyp_RingPassesCycleFrames_0 (d : Die) (p : Fin 14) (up : Bool) (bs : List Byte) (s : State) : Bool :=
  let x := s.ringOf d
  let r := x.cur
  let m := x.mac up
  decide (r ≠ []) &&
  decide (((isCycle r bs = false ∧ isCycle x.pend bs = false) ∨ s.pairMode d = none)) &&
  decide (p.val = m)

def hyp_RingPassesCycleFrames_1 (d : Die) (up : Bool) (bs : List Byte) (s : State) : Bool :=
  let x := s.ringOf d
  let r := x.cur
  let m := x.mac up
  let mine : Bool := decide (x.dn < 2 ∧ r ≠ [] ∧ isCycle r bs = true ∧ s.pairMode d ≠ none)
  let live : Bool := decide (s.macLink d m = true ∧ s.running d = true ∧ s.powerEff d < 3)
  decide (mine) &&
  decide (¬live)

def hyp_RingPassesCycleFrames_2 (d : Die) (up : Bool) (bs : List Byte) (s : State) : Bool :=
  let x := s.ringOf d
  let r := x.cur
  let m := x.mac up
  let len := bs.length
  let mine : Bool := decide (x.dn < 2 ∧ r ≠ [] ∧ isCycle r bs = true ∧ s.pairMode d ≠ none)
  let live : Bool := decide (s.macLink d m = true ∧ s.running d = true ∧ s.powerEff d < 3)
  let good : Bool := decide (len < 9728 ∧ ofLe (bs.drop (len - 4)) = fcs32 (bs.take (len - 4)))
  decide (mine) &&
  decide (live) &&
  decide (good)

def hyp_RingPassesCycleFrames_3 (d : Die) (up : Bool) (bs : List Byte) (s : State) : Bool :=
  let x := s.ringOf d
  let r := x.cur
  let m := x.mac up
  let len := bs.length
  let mine : Bool := decide (x.dn < 2 ∧ r ≠ [] ∧ isCycle r bs = true ∧ s.pairMode d ≠ none)
  let live : Bool := decide (s.macLink d m = true ∧ s.running d = true ∧ s.powerEff d < 3)
  let good : Bool := decide (len < 9728 ∧ ofLe (bs.drop (len - 4)) = fcs32 (bs.take (len - 4)))
  decide (mine) &&
  decide (live) &&
  decide (¬good)

def hyp_RingPassesCycleFrames_4 (d : Die) (up : Bool) (bs : List Byte) (s : State) : Bool :=
  let x := s.ringOf d
  let r := x.cur
  let m := x.mac up
  let mine : Bool := decide (x.dn < 2 ∧ r ≠ [] ∧ isCycle r bs = true ∧ s.pairMode d ≠ none)
  let live : Bool := decide (s.macLink d m = true ∧ s.running d = true ∧ s.powerEff d < 3)
  let hi := s.fld (R.TFR_EPOCH d) 16 16
  let me := tfp bs 12 2
  decide (mine) &&
  decide (live) &&
  decide (hi ≠ 0) &&
  decide (me ≠ hi) &&
  decide (32768 ≤ (me + 65536 - hi) % 65536)

def hyp_RingPassesCycleFrames_5 (d : Die) (up : Bool) (bs : List Byte) (s : State) : Bool :=
  let x := s.ringOf d
  let r := x.cur
  let m := x.mac up
  let len := bs.length
  let mine : Bool := decide (x.dn < 2 ∧ r ≠ [] ∧ isCycle r bs = true ∧ s.pairMode d ≠ none)
  let live : Bool := decide (s.macLink d m = true ∧ s.running d = true ∧ s.powerEff d < 3)
  let good : Bool := decide (len < 9728 ∧ ofLe (bs.drop (len - 4)) = fcs32 (bs.take (len - 4)))
  let hi := s.fld (R.TFR_EPOCH d) 16 16
  let me := tfp bs 12 2
  let known : Bool := decide (hi = 0 ∨ me = hi)
  let through : Bool := decide (rcRole r ≠ 3 ∧ s.turnsBack d r (!up) = false)
  decide (mine) &&
  decide (live) &&
  decide (good) &&
  decide (known) &&
  decide (s.acting d = false) &&
  decide (rcVer r ≠ tfp bs 8 2) &&
  decide ((x.pend = [] ∨ rcVer x.pend ≠ tfp bs 8 2)) &&
  decide (through) &&
  decide (s.macLink d (x.mac (!up)) = true)

def hyp_RingPassesCycleFrames_6 (d : Die) (up : Bool) (bs : List Byte) (s : State) : Bool :=
  let x := s.ringOf d
  let r := x.cur
  let m := x.mac up
  let len := bs.length
  let mine : Bool := decide (x.dn < 2 ∧ r ≠ [] ∧ isCycle r bs = true ∧ s.pairMode d ≠ none)
  let live : Bool := decide (s.macLink d m = true ∧ s.running d = true ∧ s.powerEff d < 3)
  let good : Bool := decide (len < 9728 ∧ ofLe (bs.drop (len - 4)) = fcs32 (bs.take (len - 4)))
  let hi := s.fld (R.TFR_EPOCH d) 16 16
  let me := tfp bs 12 2
  let known : Bool := decide (hi = 0 ∨ me = hi)
  let member : Bool := decide (mine ∧ live ∧ good ∧ known ∧ s.acting d = false ∧ rcVer r = tfp bs 8 2)
  decide (member)

def hyp_RingPassesCycleFrames_7 (d : Die) (up : Bool) (bs : List Byte) (s : State) : Bool :=
  let x := s.ringOf d
  let r := x.cur
  let m := x.mac up
  let len := bs.length
  let mine : Bool := decide (x.dn < 2 ∧ r ≠ [] ∧ isCycle r bs = true ∧ s.pairMode d ≠ none)
  let live : Bool := decide (s.macLink d m = true ∧ s.running d = true ∧ s.powerEff d < 3)
  let good : Bool := decide (len < 9728 ∧ ofLe (bs.drop (len - 4)) = fcs32 (bs.take (len - 4)))
  let hi := s.fld (R.TFR_EPOCH d) 16 16
  let me := tfp bs 12 2
  let seg := tfpSeg bs
  let known : Bool := decide (hi = 0 ∨ me = hi)
  let through : Bool := decide (rcRole r ≠ 3 ∧ s.turnsBack d r (!up) = false)
  let member : Bool := decide (mine ∧ live ∧ good ∧ known ∧ s.acting d = false ∧ rcVer r = tfp bs 8 2)
  let one : Bool := decide (member ∧ through ∧ rcWins r = 1 ∧ winSeg r 0 = seg ∧ seg ≠ 0 ∧ procPass r bs up = true ∧ (x.cyc ≠ tfp bs 4 4 ∨ x.segs.testBit seg = false) ∧
      s.powerEff d ≤ 1 ∧ s.fenced d = false ∧ x.unfence = none ∧ winTag r 0 = false)
  let o := tfpData bs + winOff r 0
  let wlen := ringWinLen r 0
  decide (one) &&
  decide (winOut r 0 = true) &&
  (match x.pre with
  | [(0, data)] =>
    decide (wlen ≤ data.length) &&
    decide (o + wlen + 4 ≤ len)
  | _ => false)

def hyp_RingPassesCycleFrames_8 (d : Die) (up : Bool) (bs : List Byte) (s : State) : Bool :=
  let x := s.ringOf d
  let r := x.cur
  let m := x.mac up
  let len := bs.length
  let mine : Bool := decide (x.dn < 2 ∧ r ≠ [] ∧ isCycle r bs = true ∧ s.pairMode d ≠ none)
  let live : Bool := decide (s.macLink d m = true ∧ s.running d = true ∧ s.powerEff d < 3)
  let good : Bool := decide (len < 9728 ∧ ofLe (bs.drop (len - 4)) = fcs32 (bs.take (len - 4)))
  let hi := s.fld (R.TFR_EPOCH d) 16 16
  let me := tfp bs 12 2
  let seg := tfpSeg bs
  let known : Bool := decide (hi = 0 ∨ me = hi)
  let through : Bool := decide (rcRole r ≠ 3 ∧ s.turnsBack d r (!up) = false)
  let member : Bool := decide (mine ∧ live ∧ good ∧ known ∧ s.acting d = false ∧ rcVer r = tfp bs 8 2)
  let one : Bool := decide (member ∧ through ∧ rcWins r = 1 ∧ winSeg r 0 = seg ∧ seg ≠ 0 ∧ procPass r bs up = true ∧ (x.cyc ≠ tfp bs 4 4 ∨ x.segs.testBit seg = false) ∧
      s.powerEff d ≤ 1 ∧ s.fenced d = false ∧ x.unfence = none ∧ winTag r 0 = false)
  decide (one) &&
  decide (winOut r 0 = true) &&
  decide (x.pre = [])

def hyp_RingPassesCycleFrames_9 (d : Die) (up : Bool) (bs : List Byte) (s : State) : Bool :=
  let x := s.ringOf d
  let r := x.cur
  let m := x.mac up
  let len := bs.length
  let mine : Bool := decide (x.dn < 2 ∧ r ≠ [] ∧ isCycle r bs = true ∧ s.pairMode d ≠ none)
  let live : Bool := decide (s.macLink d m = true ∧ s.running d = true ∧ s.powerEff d < 3)
  let good : Bool := decide (len < 9728 ∧ ofLe (bs.drop (len - 4)) = fcs32 (bs.take (len - 4)))
  let hi := s.fld (R.TFR_EPOCH d) 16 16
  let me := tfp bs 12 2
  let seg := tfpSeg bs
  let known : Bool := decide (hi = 0 ∨ me = hi)
  let through : Bool := decide (rcRole r ≠ 3 ∧ s.turnsBack d r (!up) = false)
  let member : Bool := decide (mine ∧ live ∧ good ∧ known ∧ s.acting d = false ∧ rcVer r = tfp bs 8 2)
  let one : Bool := decide (member ∧ through ∧ rcWins r = 1 ∧ winSeg r 0 = seg ∧ seg ≠ 0 ∧ procPass r bs up = true ∧ (x.cyc ≠ tfp bs 4 4 ∨ x.segs.testBit seg = false) ∧
      s.powerEff d ≤ 1 ∧ s.fenced d = false ∧ x.unfence = none ∧ winTag r 0 = false)
  let o := tfpData bs + winOff r 0
  let wlen := ringWinLen r 0
  let buf := winBuf r 0
  let span := (16 + wlen + 63) / 64 * 64
  decide (one) &&
  decide (winOut r 0 = false) &&
  decide (o + wlen + 4 ≤ len) &&
  decide (buf / 0x80_0000_0000 = d.idx) &&
  decide (buf % 0x80_0000_0000 + 2 * span ≤ 0x400_0000) &&
  decide (buf % 64 = 0) &&
  decide (s.ecc = [])

def hyp_RingPassesCycleFrames_10 (d : Die) (up : Bool) (s : State) : Bool :=
  let x := s.ringOf d
  let r := x.cur
  let wlen := ringWinLen r 0
  let port := x.port up
  let buf := winBuf r 0
  let span := (16 + wlen + 63) / 64 * 64
  decide (r ≠ []) &&
  decide (s.powerEff d ≤ 1) &&
  decide (rcWins r = 1) &&
  decide (winOut r 0 = true) &&
  (match s.poolReadSpan d (x.port true) (buf % 0x80_0000_0000) span (lineCount (buf % 0x80_0000_0000) span) with
  | (.ok data, w) =>
    true
  | _ => false)

def hyp_RingPassesCycleFrames_11 (d : Die) (s : State) : Bool :=
  let x := s.ringOf d
  let r := x.cur
  decide ((r = [] ∨ 1 < s.powerEff d))

def hyp_RingPassesCycleFrames_12 (d : Die) (s : State) : Bool :=
  let x := s.ringOf d
  let r := x.cur
  let starts : Bool := decide (x.dn < 2 ∧ s.running d = true ∧ s.powerEff d ≤ 1 ∧ s.acting d = true ∧ r ≠ [] ∧ x.pend = [] ∧ s.pairMode d ≠ none)
  decide (starts) &&
  decide (x.sentAt = 0) &&
  decide (rcWins r = 0) &&
  decide (s.flag (R.TFR_STAT d) 10 = false) &&
  decide (s.macLink d (x.mac false) = true)

def hyp_RingPassesCycleFrames_13 (d : Die) (s : State) : Bool :=
  let x := s.ringOf d
  let r := x.cur
  let starts : Bool := decide (x.dn < 2 ∧ s.running d = true ∧ s.powerEff d ≤ 1 ∧ s.acting d = true ∧ r ≠ [] ∧ x.pend = [] ∧ s.pairMode d ≠ none)
  decide (starts) &&
  decide (x.sentAt ≠ 0) &&
  decide (x.wait = [])

def hyp_RingPassesCycleFrames_14 (d : Die) (up : Bool) (bs : List Byte) (s : State) : Bool :=
  let x := s.ringOf d
  let r := x.cur
  let m := x.mac up
  let len := bs.length
  let mine : Bool := decide (x.dn < 2 ∧ r ≠ [] ∧ isCycle r bs = true ∧ s.pairMode d ≠ none)
  let live : Bool := decide (s.macLink d m = true ∧ s.running d = true ∧ s.powerEff d < 3)
  let good : Bool := decide (len < 9728 ∧ ofLe (bs.drop (len - 4)) = fcs32 (bs.take (len - 4)))
  let hi := s.fld (R.TFR_EPOCH d) 16 16
  let me := tfp bs 12 2
  let known : Bool := decide (hi = 0 ∨ me = hi)
  decide (mine) &&
  decide (live) &&
  decide (good) &&
  decide (known) &&
  decide (s.acting d = true) &&
  decide (tfp bs 4 4 ≠ x.cycle)

def hyp_RingPassesCycleFrames_15 (d : Die) (s : State) : Bool :=
  let x := s.ringOf d
  decide (s.acting d = false) &&
  decide (x.pend = [])

def hyp_RingPassesCycleFrames_16 (d : Die) (s : State) : Bool :=
  let x := s.ringOf d
  let r := x.cur
  let other := rcW r 1
  decide (r ≠ []) &&
  decide (bit other 9 = true)

def hyp_RingPassesCycleFrames_17 (d : Die) (s : State) : Bool :=
  let x := s.ringOf d
  let r := x.cur
  let other := rcW r 1
  decide ((r = [] ∨ bit other 9 = false))

def hyp_RingPassesCycleFrames_18 (d : Die) (up : Bool) (s : State) : Bool :=
  let x := s.ringOf d
  let r := x.cur
  let m := x.mac up
  let tell : Bool := decide (r ≠ [] ∧ s.macLink d m = true)
  decide (tell)

def hyp_RingPassesCycleFrames_19 (d : Die) (up : Bool) (s : State) : Bool :=
  let x := s.ringOf d
  let r := x.cur
  let m := x.mac up
  let tell : Bool := decide (r ≠ [] ∧ s.macLink d m = true)
  decide (¬tell)

theorem test_hyps_RingPassesCycleFrames : (
    hyp_RingPassesCycleFrames_0 (.d0) (13) (true) (tEth 0x020000000001 2 0x0806) (tRing (tRec2 0x77 1)) &&
    hyp_RingPassesCycleFrames_1 (.d0) (false) (tCyc 1 0x40 7 1 0) (tRing (tRec2 0x77 1) id [(R.MAC_PORT_MODE .d0 12, 1)]) &&
    hyp_RingPassesCycleFrames_2 (.d0) (true) (tCyc 1 0 7 1 5) (tRing (tRec2 0x77 0x11)) &&
    hyp_RingPassesCycleFrames_3 (.d0) (false) (tCyc 1 0x40 7 1 0 ++ [0]) (tRing (tRec2 0x77 1)) &&
    hyp_RingPassesCycleFrames_4 (.d0) (false) (tCyc 1 0x40 7 1 4) (tRing (tRec2 0x77 1) id [(R.TFR_EPOCH .d0, 0x50001)]) &&
    hyp_RingPassesCycleFrames_5 (.d0) (true) (tCyc 1 0 7 2 5) (tRing (tRec2 0x77 1)) &&
    hyp_RingPassesCycleFrames_6 (.d0) (true) (tCyc 1 0 7 1 5) (tRing (tRec2 0x77 0x11)) &&
    hyp_RingPassesCycleFrames_7 (.d0) (true) (tCyc 1 0 7 1 5) (tRing (tRec2 0x77 0x11) (fun x => {x with pre := [(0, List.replicate 16 0xEE)]})) &&
    hyp_RingPassesCycleFrames_8 (.d0) (true) (tCyc 1 0 7 1 5) (tRing (tRec2 0x77 0x11)) &&
    hyp_RingPassesCycleFrames_9 (.d0) (false) (tCyc 1 0x40 7 1 0) (tRing ((tRec2 0x77 1 0x10210))) &&
    hyp_RingPassesCycleFrames_10 (.d0) (true) (tRing (tRec2 0x77 0x11)) &&
    hyp_RingPassesCycleFrames_11 (.d0) (tUp) &&
    hyp_RingPassesCycleFrames_12 (.d0) (tRing ((tRec2 0x10000077 1).set 12 0) id [(R.TFR_STAT .d0, 0x10080)]) &&
    hyp_RingPassesCycleFrames_13 (.d0) (tRing ((tRec2 0x10000077 1)) (fun x => {x with cycle := 6, sentAt := 5, ret := 0}) [(R.TFR_STAT .d0, 0x10080)]) &&
    hyp_RingPassesCycleFrames_14 (.d0) (false) (tCyc 1 0x40 7 1 0) (tRing ((tRec2 0x10000077 1).set 12 0) id [(R.TFR_STAT .d0, 0x10080)]) &&
    hyp_RingPassesCycleFrames_15 (.d0) (tRing (tRec2 0x77 0x11)) &&
    hyp_RingPassesCycleFrames_16 (.d0) (tRing ((tRec2 0x77 1 0x10210))) &&
    hyp_RingPassesCycleFrames_17 (.d0) (tRing (tRec2 0x77 0x11)) &&
    hyp_RingPassesCycleFrames_18 (.d0) (true) (tRing (tRec2 0x77 0x11)) &&
    hyp_RingPassesCycleFrames_19 (.d0) (false) (tUp)) = true := by decide +kernel

/-! ### RingTimeAndMembership -/

def hyp_RingTimeAndMembership_0 (d : Die) (s : State) : Bool :=
  let x := s.ringOf d
  let r := x.cur
  let full : Bool := decide ((bits (rcW r 9) 16 16 : Int) * 1_000_000 * x.winNs.den ≤ x.winNs.num ∧ 0 < x.winNs.num)
  decide (r ≠ []) &&
  decide (full)

def hyp_RingTimeAndMembership_1 (d : Die) (s : State) : Bool :=
  let x := s.ringOf d
  let r := x.cur
  let full : Bool := decide ((bits (rcW r 9) 16 16 : Int) * 1_000_000 * x.winNs.den ≤ x.winNs.num ∧ 0 < x.winNs.num)
  decide ((r = [] ∨ ¬full))

def hyp_RingTimeAndMembership_2 (d : Die) (e : Fin 16) (s : State) : Bool :=
  let ref := R.TFR_REF_OUT d e.val
  decide (64 ≤ s.fld ref 0 16)

def hyp_RingTimeAndMembership_3 (d : Die) (e : Fin 16) (s : State) : Bool :=
  let ref := R.TFR_REF_OUT d e.val
  decide (s.fld ref 0 16 < 64)

def hyp_RingTimeAndMembership_4 (d : Die) (s : State) : Bool :=
  let x := s.ringOf d
  let r := x.cur
  decide (r ≠ []) &&
  decide (s.acting d = false)

def hyp_RingTimeAndMembership_5 (d : Die) (s : State) : Bool :=
  let x := s.ringOf d
  let r := x.cur
  decide ((r = [] ∨ s.acting d = true))

def hyp_RingTimeAndMembership_6 (d : Die) (i : Fin 4096) (s : State) : Bool :=
  let x := s.ringOf d
  let r := x.cur
  let a := i.val
  let gone : Bool := decide (s.acting d = true ∧ r ≠ [] ∧ (x.member a).1 = 1 ∧ bits (rcW r 8) 0 8 ≤ Tab.get (fun _ => 0) x.miss a)
  decide (gone)

def hyp_RingTimeAndMembership_7 (d : Die) (i : Fin 4096) (s : State) : Bool :=
  let x := s.ringOf d
  let r := x.cur
  let a := i.val
  let gone : Bool := decide (s.acting d = true ∧ r ≠ [] ∧ (x.member a).1 = 1 ∧ bits (rcW r 8) 0 8 ≤ Tab.get (fun _ => 0) x.miss a)
  decide (¬gone)

def hyp_RingTimeAndMembership_8 (d : Die) (s : State) : Bool :=
  let x := s.ringOf d
  let r := x.cur
  let st := R.TFR_STAT d
  let full : Bool := decide ((bits (rcW r 9) 16 16 : Int) * 1_000_000 * x.winNs.den ≤ x.winNs.num ∧ 0 < x.winNs.num)
  let leaves : Bool := decide (16 ≤ x.full ∧ s.flag st 10 = true)
  decide (leaves)

def hyp_RingTimeAndMembership_9 (d : Die) (s : State) : Bool :=
  let x := s.ringOf d
  let r := x.cur
  let st := R.TFR_STAT d
  let full : Bool := decide ((bits (rcW r 9) 16 16 : Int) * 1_000_000 * x.winNs.den ≤ x.winNs.num ∧ 0 < x.winNs.num)
  let leaves : Bool := decide (16 ≤ x.full ∧ s.flag st 10 = true)
  decide (¬leaves)

def hyp_RingTimeAndMembership_10 (d : Die) (s : State) : Bool :=
  let x := s.ringOf d
  let r := x.cur
  let takes : Bool := decide (r ≠ [] ∧ rcRole r = 2 ∧ s.acting d = false)
  decide (takes)

def hyp_RingTimeAndMembership_11 (d : Die) (s : State) : Bool :=
  let x := s.ringOf d
  let r := x.cur
  let takes : Bool := decide (r ≠ [] ∧ rcRole r = 2 ∧ s.acting d = false)
  decide (¬takes)

theorem test_hyps_RingTimeAndMembership : (
    hyp_RingTimeAndMembership_0 (.d0) (tRing (tRec2 0x77 1) (fun x => {x with winNs := {num := 100000000}, off := {num := -70000000}})) &&
    hyp_RingTimeAndMembership_1 (.d0) (tUp) &&
    hyp_RingTimeAndMembership_2 (.d0) ((3:Fin 16)) (tw tUp [(R.TFR_REF_OUT .d0 3, 64)]) &&
    hyp_RingTimeAndMembership_3 (.d0) ((3:Fin 16)) (tUp) &&
    hyp_RingTimeAndMembership_4 (.d0) (tRing (tRec2 0x77 1) (fun x => {x with winNs := {num := 100000000}, off := {num := -70000000}})) &&
    hyp_RingTimeAndMembership_5 (.d0) (tUp) &&
    hyp_RingTimeAndMembership_6 (.d0) ((0x55:Fin 4096)) (tRing (tRec2 0x77 1) (fun x => {x with miss := [(0x55, 30)]}) [(R.TFR_STAT .d0, 0x80)]) &&
    hyp_RingTimeAndMembership_7 (.d0) ((0x55:Fin 4096)) (tUp) &&
    hyp_RingTimeAndMembership_8 (.d0) (tRing (tRec2 0x77 1) (fun x => {x with full := 16}) [(R.TFR_STAT .d0, 0x480)]) &&
    hyp_RingTimeAndMembership_9 (.d0) (tUp) &&
    hyp_RingTimeAndMembership_10 (.d0) (tRing (tRec2 0x20000077 1) (fun x => {x with claim := some (1,2,3,4), sentAt := 8}) [(R.TFR_CYCLE .d0, 0x1234), (R.TFR_EPOCH .d0, 0xFFFF0001)]) &&
    hyp_RingTimeAndMembership_11 (.d0) (tUp)) = true := by decide +kernel

/-! ### CanModesAndErrors -/

def hyp_CanModesAndErrors_0 (who : Requester) (d : Die) (c : Fin 4) (s : State) : Bool :=
  let i := c.val
  let ctl := R.CAN_CTRL d i
  let was := s.fld ctl 0 3
  let mine : Bool := decide (s.writes who ctl ∧ s.fld (R.CAN_OWNER d i) 0 8 = who.unitOwner d)
  decide (mine) &&
  decide (was ≠ 0) &&
  decide (was ≤ 4)

def hyp_CanModesAndErrors_1 (who : Requester) (d : Die) (c : Fin 4) (s : State) : Bool :=
  let i := c.val
  let ctl := R.CAN_CTRL d i
  let was := s.fld ctl 0 3
  let mine : Bool := decide (s.writes who ctl ∧ s.fld (R.CAN_OWNER d i) 0 8 = who.unitOwner d)
  decide (mine) &&
  decide (was ≠ 1) &&
  decide (was ≠ 4)

def hyp_CanModesAndErrors_2 (who : Requester) (d : Die) (c : Fin 4) (s : State) : Bool :=
  let i := c.val
  let ctl := R.CAN_CTRL d i
  let was := s.fld ctl 0 3
  let mine : Bool := decide (s.writes who ctl ∧ s.fld (R.CAN_OWNER d i) 0 8 = who.unitOwner d)
  decide (mine) &&
  decide (was = 4)

def hyp_CanModesAndErrors_3 (who : Requester) (d : Die) (c : Fin 4) (s : State) : Bool :=
  let i := c.val
  let ctl := R.CAN_CTRL d i
  let was := s.fld ctl 0 3
  let mine : Bool := decide (s.writes who ctl ∧ s.fld (R.CAN_OWNER d i) 0 8 = who.unitOwner d)
  decide (mine) &&
  decide (was ≠ 2)

def hyp_CanModesAndErrors_4 (who : Requester) (d : Die) (c : Fin 4) (s : State) : Bool :=
  let i := c.val
  let ctl := R.CAN_CTRL d i
  let was := s.fld ctl 0 3
  let mine : Bool := decide (s.writes who ctl ∧ s.fld (R.CAN_OWNER d i) 0 8 = who.unitOwner d)
  decide (mine) &&
  decide (was ≠ 3)

def hyp_CanModesAndErrors_5 (who : Requester) (d : Die) (c : Fin 4) (s : State) : Bool :=
  let i := c.val
  let ctl := R.CAN_CTRL d i
  let was := s.fld ctl 0 3
  let mine : Bool := decide (s.writes who ctl ∧ s.fld (R.CAN_OWNER d i) 0 8 = who.unitOwner d)
  let idle (t : State) : Bool := decide (∀ n ∈ List.range 3, t.canPend d i n = false)
  decide (mine) &&
  decide (was ≠ 4) &&
  decide (idle s)

def hyp_CanModesAndErrors_6 (who : Requester) (d : Die) (c : Fin 4) (s : State) : Bool :=
  let i := c.val
  let ctl := R.CAN_CTRL d i
  let was := s.fld ctl 0 3
  let mine : Bool := decide (s.writes who ctl ∧ s.fld (R.CAN_OWNER d i) 0 8 = who.unitOwner d)
  let idle (t : State) : Bool := decide (∀ n ∈ List.range 3, t.canPend d i n = false)
  decide (mine) &&
  decide (was ≠ 4) &&
  decide (¬idle s)

def hyp_CanModesAndErrors_7 (who : Requester) (d : Die) (c : Fin 4) (s : State) : Bool :=
  let i := c.val
  let ctl := R.CAN_CTRL d i
  decide (s.writes who ctl) &&
  decide (s.fld (R.CAN_OWNER d i) 0 8 ≠ who.unitOwner d)

def hyp_CanModesAndErrors_8 (who : Requester) (d : Die) (c : Fin 4) (s : State) : Bool :=
  let i := c.val
  let ctl := R.CAN_CTRL d i
  let was := s.fld ctl 0 3
  let mine : Bool := decide (s.writes who ctl ∧ s.fld (R.CAN_OWNER d i) 0 8 = who.unitOwner d)
  decide (mine) &&
  decide (was ≤ 4)

def hyp_CanModesAndErrors_9 (who : Requester) (d : Die) (c : Fin 4) (s : State) : Bool :=
  let i := c.val
  let ctl := R.CAN_CTRL d i
  let was := s.fld ctl 0 3
  let mine : Bool := decide (s.writes who ctl ∧ s.fld (R.CAN_OWNER d i) 0 8 = who.unitOwner d)
  decide (mine) &&
  decide (was ≤ 4) &&
  decide (s.canBusOff d i = true)

def hyp_CanModesAndErrors_10 (who : Requester) (d : Die) (c : Fin 4) (s : State) : Bool :=
  let i := c.val
  let ctl := R.CAN_CTRL d i
  let was := s.fld ctl 0 3
  let mine : Bool := decide (s.writes who ctl ∧ s.fld (R.CAN_OWNER d i) 0 8 = who.unitOwner d)
  decide (mine) &&
  decide (was ≤ 4) &&
  decide (s.canBusOff d i = false)

def hyp_CanModesAndErrors_11 (d : Die) (c : Fin 4) (s : State) : Bool :=
  let i := c.val
  let ctl := R.CAN_CTRL d i
  let was := s.fld ctl 0 3
  let now := s.canMode d i
  let runs : Bool := decide (s.unitsRun d = true)
  decide (runs) &&
  decide (was = 4) &&
  decide (now ≠ 4)

def hyp_CanModesAndErrors_12 (d : Die) (c : Fin 4) (s : State) : Bool :=
  let i := c.val
  let ctl := R.CAN_CTRL d i
  let was := s.fld ctl 0 3
  let now := s.canMode d i
  let runs : Bool := decide (s.unitsRun d = true)
  decide (¬(runs ∧ was = 4 ∧ now ≠ 4))

def hyp_CanModesAndErrors_13 (d : Die) (c : Fin 4) (s : State) : Bool :=
  let i := c.val
  let now := s.canMode d i
  let runs : Bool := decide (s.unitsRun d = true)
  decide (runs) &&
  decide ((now = 1 ∨ now = 2)) &&
  decide (s.canBusOff d i = false)

def hyp_CanModesAndErrors_14 (d : Die) (c : Fin 4) (s : State) : Bool :=
  let i := c.val
  let now := s.canMode d i
  let runs : Bool := decide (s.unitsRun d = true)
  decide (¬runs ∨ (now ≠ 1 ∧ now ≠ 2) ∨ s.canBusOff d i = true)

def hyp_CanModesAndErrors_15 (d : Die) (c : Fin 4) (s : State) : Bool :=
  let i := c.val
  let runs : Bool := decide (s.unitsRun d = true)
  decide (runs) &&
  decide (s.flag (R.CAN_CFG d i) 1 = true) &&
  decide (s.canBusOff d i = true)

def hyp_CanModesAndErrors_16 (d : Die) (c : Fin 4) (s : State) : Bool :=
  let i := c.val
  let runs : Bool := decide (s.unitsRun d = true)
  decide (¬runs ∨ s.flag (R.CAN_CFG d i) 1 = false ∨ s.canBusOff d i = false)

def hyp_CanModesAndErrors_17 (d : Die) (c : Fin 4) (s : State) : Bool :=
  let i := c.val
  let st := R.CAN_STAT d i
  let now := s.canMode d i
  let runs : Bool := decide (s.unitsRun d = true)
  decide (runs) &&
  decide ((now = 1 ∨ now = 2)) &&
  decide (s.canBusOff d i = true) &&
  decide (s.flag st 9 = true)

def hyp_CanModesAndErrors_18 (d : Die) (c : Fin 4) (s : State) : Bool :=
  let i := c.val
  let st := R.CAN_STAT d i
  let now := s.canMode d i
  let runs : Bool := decide (s.unitsRun d = true)
  decide (¬runs ∨ (now ≠ 1 ∧ now ≠ 2) ∨ s.canBusOff d i = false ∨ s.flag st 9 = false)

def hyp_CanModesAndErrors_19 (d : Die) (c : Fin 4) (code : Fin 7) (s : State) : Bool :=
  let i := c.val
  let x := s.canOf d i
  let abr := R.CAN_ABR d i
  let now := s.canMode d i
  let runs : Bool := decide (s.unitsRun d = true)
  let takesPart : Bool := decide (runs ∧ (now = 1 ∨ now = 2) ∧ x.integ = true ∧ s.canBusOff d i = false)
  let quiet : Bool := decide (s.flag abr 30 = false)
  decide (takesPart) &&
  decide (now = 1) &&
  decide (quiet) &&
  decide (x.onBus.isSome = true) &&
  decide (code.val ≠ 3) &&
  decide (s.canTec d i + 8 ≤ 255)

def hyp_CanModesAndErrors_20 (d : Die) (c : Fin 4) (code : Fin 7) (s : State) : Bool :=
  let i := c.val
  let x := s.canOf d i
  let abr := R.CAN_ABR d i
  let now := s.canMode d i
  let runs : Bool := decide (s.unitsRun d = true)
  let takesPart : Bool := decide (runs ∧ (now = 1 ∨ now = 2) ∧ x.integ = true ∧ s.canBusOff d i = false)
  let quiet : Bool := decide (s.flag abr 30 = false)
  decide (takesPart) &&
  decide (now = 1) &&
  decide (quiet) &&
  decide (x.onBus.isSome = true) &&
  decide (code.val ≠ 3) &&
  decide (255 < s.canTec d i + 8)

def hyp_CanModesAndErrors_21 (d : Die) (c : Fin 4) (s : State) : Bool :=
  let i := c.val
  let x := s.canOf d i
  let abr := R.CAN_ABR d i
  let now := s.canMode d i
  let runs : Bool := decide (s.unitsRun d = true)
  let takesPart : Bool := decide (runs ∧ (now = 1 ∨ now = 2) ∧ x.integ = true ∧ s.canBusOff d i = false)
  let quiet : Bool := decide (s.flag abr 30 = false)
  decide (takesPart) &&
  decide (now = 1) &&
  decide (quiet) &&
  decide (x.onBus = none)

def hyp_CanModesAndErrors_22 (d : Die) (c : Fin 4) (s : State) : Bool :=
  let i := c.val
  let x := s.canOf d i
  let abr := R.CAN_ABR d i
  let now := s.canMode d i
  let runs : Bool := decide (s.unitsRun d = true)
  let takesPart : Bool := decide (runs ∧ (now = 1 ∨ now = 2) ∧ x.integ = true ∧ s.canBusOff d i = false)
  let quiet : Bool := decide (s.flag abr 30 = false)
  decide (takesPart) &&
  decide (now = 2) &&
  decide (quiet)

def hyp_CanModesAndErrors_23 (d : Die) (c : Fin 4) (s : State) : Bool :=
  let i := c.val
  let x := s.canOf d i
  let now := s.canMode d i
  let runs : Bool := decide (s.unitsRun d = true)
  let takesPart : Bool := decide (runs ∧ (now = 1 ∨ now = 2) ∧ x.integ = true ∧ s.canBusOff d i = false)
  decide (¬takesPart)

def hyp_CanModesAndErrors_24 (who : Requester) (d : Die) (c : Fin 4) (v : Word) (s : State) : Bool :=
  let i := c.val
  let abr := R.CAN_ABR d i
  let now := s.canMode d i
  decide (s.writes who abr) &&
  decide (s.fld (R.CAN_OWNER d i) 0 8 = who.unitOwner d) &&
  decide (bits v 20 8 ≠ 0) &&
  decide (now = 2)

def hyp_CanModesAndErrors_25 (who : Requester) (d : Die) (c : Fin 4) (v : Word) (s : State) : Bool :=
  let i := c.val
  let abr := R.CAN_ABR d i
  let now := s.canMode d i
  decide (s.writes who abr) &&
  decide (s.fld (R.CAN_OWNER d i) 0 8 = who.unitOwner d) &&
  decide ((bits v 20 8 = 0 ∨ now ≠ 2))

def hyp_CanModesAndErrors_26 (d : Die) (c : Fin 4) (s : State) : Bool :=
  let i := c.val
  let abr := R.CAN_ABR d i
  let runs : Bool := decide (s.unitsRun d = true)
  decide (runs) &&
  decide (s.flag abr 30 = true)

def hyp_CanModesAndErrors_27 (d : Die) (c : Fin 4) (s : State) : Bool :=
  let i := c.val
  let abr := R.CAN_ABR d i
  let runs : Bool := decide (s.unitsRun d = true)
  let quiet : Bool := decide (s.flag abr 30 = false)
  decide (¬runs ∨ quiet)

def hyp_CanModesAndErrors_28 (d : Die) (c : Fin 4) (s : State) : Bool :=
  let i := c.val
  let st := R.CAN_STAT d i
  let runs : Bool := decide (s.unitsRun d = true)
  let sleeps : Bool := decide (runs ∧ s.flag st 10 = true)
  decide (sleeps) &&
  decide (s.flag (R.CAN_CFG d i) 10 = false)

def hyp_CanModesAndErrors_29 (d : Die) (c : Fin 4) (frame : List Word) (s : State) : Bool :=
  let i := c.val
  let st := R.CAN_STAT d i
  let runs : Bool := decide (s.unitsRun d = true)
  let sleeps : Bool := decide (runs ∧ s.flag st 10 = true)
  decide (sleeps) &&
  decide (s.flag (R.CAN_CFG d i) 10 = true) &&
  decide (s.canWakeFrame d i frame = true)

def hyp_CanModesAndErrors_30 (d : Die) (c : Fin 4) (frame : List Word) (s : State) : Bool :=
  let i := c.val
  let st := R.CAN_STAT d i
  let runs : Bool := decide (s.unitsRun d = true)
  let sleeps : Bool := decide (runs ∧ s.flag st 10 = true)
  decide (¬sleeps ∨ (s.flag (R.CAN_CFG d i) 10 = true ∧ s.canWakeFrame d i frame = false))

def hyp_CanModesAndErrors_31 (d : Die) (c : Fin 4) (s : State) : Bool :=
  let i := c.val
  let st := R.CAN_STAT d i
  let unit := s.hunit d 6 i
  decide (unit.st = 0) &&
  decide (s.flag (R.HLT_TEST_STAT d) 15 = false)

def hyp_CanModesAndErrors_32 (d : Die) (c : Fin 4) (s : State) : Bool :=
  let i := c.val
  let st := R.CAN_STAT d i
  let unit := s.hunit d 6 i
  decide (unit.st = 4)

theorem test_hyps_CanModesAndErrors : (
    hyp_CanModesAndErrors_0 (tSup) (.d0) (1) (tCan 1 1) &&
    hyp_CanModesAndErrors_1 (tSup) (.d0) (1) (tCan 2 2 {integ := true}) &&
    hyp_CanModesAndErrors_2 (tSup) (.d0) (1) (tCan 4 0x404) &&
    hyp_CanModesAndErrors_3 (tSup) (.d0) (1) (tCan 1 1) &&
    hyp_CanModesAndErrors_4 (tSup) (.d0) (1) (tCan 1 1) &&
    hyp_CanModesAndErrors_5 (tSup) (.d0) (1) (tCan 1 1) &&
    hyp_CanModesAndErrors_6 (tSup) (.d0) (1) (tCan 1 0x41 {integ := true, onBus := some 0} [(R.CAN_ERR .d0 1, 0x00FF),(R.CAN_TX_CTRL .d0 1 0, 0x100)]) &&
    hyp_CanModesAndErrors_7 (tSup) (.d0) (1) (tw (tCan 1 1) [(R.CAN_OWNER .d0 1, 5)]) &&
    hyp_CanModesAndErrors_8 (tSup) (.d0) (1) (tCan 1 1) &&
    hyp_CanModesAndErrors_9 (tSup) (.d0) (1) (tCan 1 (1+2*8+512)) &&
    hyp_CanModesAndErrors_10 (tSup) (.d0) (1) (tCan 1 1) &&
    hyp_CanModesAndErrors_11 (.d0) (1) (tCan 4 1) &&
    hyp_CanModesAndErrors_12 (.d0) (1) (tCan 1 1) &&
    hyp_CanModesAndErrors_13 (.d0) (1) (tCan 1 1) &&
    hyp_CanModesAndErrors_14 (.d0) (1) (tCan 4 0x404) &&
    hyp_CanModesAndErrors_15 (.d0) (1) (tCan 1 (1+2*8) {} [(R.CAN_CFG .d0 1, 2)]) &&
    hyp_CanModesAndErrors_16 (.d0) (1) (tCan 1 1) &&
    hyp_CanModesAndErrors_17 (.d0) (1) (tCan 1 (1+2*8+512)) &&
    hyp_CanModesAndErrors_18 (.d0) (1) (tCan 1 1) &&
    hyp_CanModesAndErrors_19 (.d0) (1) (2) (tCan 1 0x41 {integ := true, onBus := some 0} [(R.CAN_ERR .d0 1, 0x00F7)]) &&
    hyp_CanModesAndErrors_20 (.d0) (1) (2) (tCan 1 0x41 {integ := true, onBus := some 0} [(R.CAN_ERR .d0 1, 0x00FF),(R.CAN_TX_CTRL .d0 1 0, 0x100)]) &&
    hyp_CanModesAndErrors_21 (.d0) (1) (tCan 1 0x41 {integ := true} [(R.CAN_ERR .d0 1, 0x7880)]) &&
    hyp_CanModesAndErrors_22 (.d0) (1) (tCan 2 2 {integ := true}) &&
    hyp_CanModesAndErrors_23 (.d0) (1) (tCan 1 1) &&
    hyp_CanModesAndErrors_24 (tSup) (.d0) (1) (0x01000000) (tCan 2 2 {integ := true}) &&
    hyp_CanModesAndErrors_25 (tSup) (.d0) (1) (0) (tCan 1 1) &&
    hyp_CanModesAndErrors_26 (.d0) (1) (tCan 2 2 {integ := true} [(R.CAN_ABR .d0 1, 0x40000000)]) &&
    hyp_CanModesAndErrors_27 (.d0) (1) (tCan 1 1) &&
    hyp_CanModesAndErrors_28 (.d0) (1) (tCan 4 0x404) &&
    hyp_CanModesAndErrors_29 (.d0) (1) ([]) (tCan 4 0x404 {} [(R.CAN_CFG .d0 1, 0x400)]) &&
    hyp_CanModesAndErrors_30 (.d0) (1) ([]) (tCan 1 1) &&
    hyp_CanModesAndErrors_31 (.d0) (1) (tCan 1 1) &&
    hyp_CanModesAndErrors_32 (.d0) (1) ((tCan 1 1).setUnit .d0 6 1 {st := 4})) = true := by decide +kernel

/-! ### CanFramesAndQueues -/

def hyp_CanFramesAndQueues_0 (who : Requester) (d : Die) (c : Fin 4) (n : Fin 3) (s : State) : Bool :=
  let i := c.val
  let b := n.val
  let tx := R.CAN_TX_CTRL d i b
  let own : Bool := decide (s.fld (R.CAN_OWNER d i) 0 8 = who.unitOwner d)
  decide (s.writes who tx) &&
  decide (own) &&
  decide (s.canTxOk d i b = true) &&
  decide (s.fld (R.CAN_CTRL d i) 0 3 ≠ 4)

def hyp_CanFramesAndQueues_1 (who : Requester) (d : Die) (c : Fin 4) (n : Fin 3) (s : State) : Bool :=
  let i := c.val
  let b := n.val
  let tx := R.CAN_TX_CTRL d i b
  let own : Bool := decide (s.fld (R.CAN_OWNER d i) 0 8 = who.unitOwner d)
  decide (s.writes who tx) &&
  decide (own) &&
  decide (s.canTxOk d i b = false)

def hyp_CanFramesAndQueues_2 (who : Requester) (d : Die) (c : Fin 4) (n : Fin 3) (s : State) : Bool :=
  let i := c.val
  let b := n.val
  let tx := R.CAN_TX_CTRL d i b
  let own : Bool := decide (s.fld (R.CAN_OWNER d i) 0 8 = who.unitOwner d)
  decide (s.writes who tx) &&
  decide (¬own)

def hyp_CanFramesAndQueues_3 (who : Requester) (d : Die) (c : Fin 4) (n : Fin 3) (s : State) : Bool :=
  let i := c.val
  let b := n.val
  let x := s.canOf d i
  let tx := R.CAN_TX_CTRL d i b
  let own : Bool := decide (s.fld (R.CAN_OWNER d i) 0 8 = who.unitOwner d)
  decide (s.writes who tx) &&
  decide (own) &&
  decide (s.canPend d i b = true) &&
  decide (x.onBus ≠ some b)

def hyp_CanFramesAndQueues_4 (who : Requester) (d : Die) (c : Fin 4) (n : Fin 3) (s : State) : Bool :=
  let i := c.val
  let b := n.val
  let x := s.canOf d i
  let tx := R.CAN_TX_CTRL d i b
  let own : Bool := decide (s.fld (R.CAN_OWNER d i) 0 8 = who.unitOwner d)
  decide (s.writes who tx) &&
  decide (own) &&
  decide (s.canPend d i b = true) &&
  decide (x.onBus = some b)

def hyp_CanFramesAndQueues_5 (who : Requester) (d : Die) (c : Fin 4) (n : Fin 3) (s : State) : Bool :=
  let i := c.val
  let b := n.val
  let tx := R.CAN_TX_CTRL d i b
  let own : Bool := decide (s.fld (R.CAN_OWNER d i) 0 8 = who.unitOwner d)
  decide (s.writes who tx) &&
  decide (own) &&
  decide (s.canPend d i b = false)

def hyp_CanFramesAndQueues_6 (d : Die) (c : Fin 4) (s : State) : Bool :=
  let i := c.val
  let x := s.canOf d i
  let now := s.canMode d i
  let runs : Bool := decide (s.unitsRun d = true)
  let ready : Bool := decide (runs ∧ ((now = 1 ∧ x.integ = true) ∨ now = 3) ∧ s.canBusOff d i = false ∧ x.onBus = none)
  decide (ready) &&
  (match s.canChoose d i with
  | some k =>
    true
  | _ => false)

def hyp_CanFramesAndQueues_7 (d : Die) (c : Fin 4) (s : State) : Bool :=
  let i := c.val
  let x := s.canOf d i
  let now := s.canMode d i
  let runs : Bool := decide (s.unitsRun d = true)
  let ready : Bool := decide (runs ∧ ((now = 1 ∧ x.integ = true) ∨ now = 3) ∧ s.canBusOff d i = false ∧ x.onBus = none)
  decide (¬ready ∨ s.canChoose d i = none)

def hyp_CanFramesAndQueues_8 (d : Die) (c : Fin 4) (s : State) : Bool :=
  let i := c.val
  (match s.canChoose d i with
  | some k =>
    true
  | _ => false)

def hyp_CanFramesAndQueues_9 (d : Die) (c : Fin 4) (s : State) : Bool :=
  let i := c.val
  (match s.canChoose d i with
  | some k =>
    (List.any ((List.range (3)).reverse) fun j =>
      decide (s.canPend d i j = true))
  | _ => false)

def hyp_CanFramesAndQueues_10 (d : Die) (c : Fin 4) (n : Fin 3) (e : CanEnd) (loop : Option Nat) (s : State) : Bool :=
  let i := c.val
  let b := n.val
  let x := s.canOf d i
  let sized : Bool := decide (x.qs.length = 2 ∧ x.retries.length = 3)
  let now := s.canMode d i
  let runs : Bool := decide (s.unitsRun d = true)
  let sending : Bool := decide (runs ∧ x.onBus = some b ∧ b < 3)
  let tdc := R.CAN_TDC d i
  let measures : Bool := decide (s.flag tdc 0 = true ∧ canDataPhase (s.canTxFrame d i b) = true ∧ now = 1)
  let plain : Bool := decide (loop = none ∨ ¬measures)
  decide (sending) &&
  decide (plain) &&
  decide (sized) &&
  decide (e = .sent) &&
  decide (s.flag (R.CAN_CFG d i) 2 = false) &&
  decide (now ≠ 3)

def hyp_CanFramesAndQueues_11 (d : Die) (c : Fin 4) (n : Fin 3) (e : CanEnd) (loop : Option Nat) (s : State) : Bool :=
  let i := c.val
  let b := n.val
  let x := s.canOf d i
  let sized : Bool := decide (x.qs.length = 2 ∧ x.retries.length = 3)
  let tx := R.CAN_TX_CTRL d i b
  let now := s.canMode d i
  let runs : Bool := decide (s.unitsRun d = true)
  let sending : Bool := decide (runs ∧ x.onBus = some b ∧ b < 3)
  let tdc := R.CAN_TDC d i
  let measures : Bool := decide (s.flag tdc 0 = true ∧ canDataPhase (s.canTxFrame d i b) = true ∧ now = 1)
  let plain : Bool := decide (loop = none ∨ ¬measures)
  let lost : Bool := decide (e ≠ .sent ∧ x.abort.testBit b = false)
  decide (sending) &&
  decide (plain) &&
  decide (sized) &&
  decide (lost) &&
  decide (s.flag tx 2 = false)

def hyp_CanFramesAndQueues_12 (d : Die) (c : Fin 4) (n : Fin 3) (e : CanEnd) (loop : Option Nat) (s : State) : Bool :=
  let i := c.val
  let b := n.val
  let x := s.canOf d i
  let tx := R.CAN_TX_CTRL d i b
  let now := s.canMode d i
  let runs : Bool := decide (s.unitsRun d = true)
  let sending : Bool := decide (runs ∧ x.onBus = some b ∧ b < 3)
  let tdc := R.CAN_TDC d i
  let measures : Bool := decide (s.flag tdc 0 = true ∧ canDataPhase (s.canTxFrame d i b) = true ∧ now = 1)
  let plain : Bool := decide (loop = none ∨ ¬measures)
  let lost : Bool := decide (e ≠ .sent ∧ x.abort.testBit b = false)
  decide (sending) &&
  decide (plain) &&
  decide (lost) &&
  decide (s.flag tx 2 = true)

def hyp_CanFramesAndQueues_13 (d : Die) (c : Fin 4) (n : Fin 3) (e : CanEnd) (loop : Option Nat) (s : State) : Bool :=
  let i := c.val
  let b := n.val
  let x := s.canOf d i
  let now := s.canMode d i
  let runs : Bool := decide (s.unitsRun d = true)
  let sending : Bool := decide (runs ∧ x.onBus = some b ∧ b < 3)
  let tdc := R.CAN_TDC d i
  let measures : Bool := decide (s.flag tdc 0 = true ∧ canDataPhase (s.canTxFrame d i b) = true ∧ now = 1)
  let plain : Bool := decide (loop = none ∨ ¬measures)
  decide (sending) &&
  decide (plain) &&
  decide (e ≠ .sent) &&
  decide (x.abort.testBit b = true)

def hyp_CanFramesAndQueues_14 (d : Die) (c : Fin 4) (n : Fin 3) (loop : Option Nat) (s : State) : Bool :=
  let i := c.val
  let b := n.val
  let x := s.canOf d i
  let now := s.canMode d i
  let runs : Bool := decide (s.unitsRun d = true)
  let sending : Bool := decide (runs ∧ x.onBus = some b ∧ b < 3)
  let tdc := R.CAN_TDC d i
  let measures : Bool := decide (s.flag tdc 0 = true ∧ canDataPhase (s.canTxFrame d i b) = true ∧ now = 1)
  decide (sending) &&
  (match loop with
  | some v =>
    decide (measures) &&
    decide (v ≤ 127)
  | _ => false)

def hyp_CanFramesAndQueues_15 (d : Die) (c : Fin 4) (n : Fin 3) (loop : Option Nat) (s : State) : Bool :=
  let i := c.val
  let b := n.val
  let x := s.canOf d i
  let now := s.canMode d i
  let runs : Bool := decide (s.unitsRun d = true)
  let sending : Bool := decide (runs ∧ x.onBus = some b ∧ b < 3)
  let tdc := R.CAN_TDC d i
  let measures : Bool := decide (s.flag tdc 0 = true ∧ canDataPhase (s.canTxFrame d i b) = true ∧ now = 1)
  decide (sending) &&
  (match loop with
  | some v =>
    decide (measures) &&
    decide (127 < v) &&
    decide (x.integ = true) &&
    decide (s.canBusOff d i = false)
  | _ => false)

def hyp_CanFramesAndQueues_16 (d : Die) (c : Fin 4) (s : State) : Bool :=
  let i := c.val
  let x := s.canOf d i
  let runs : Bool := decide (s.unitsRun d = true)
  decide (¬runs ∨ x.onBus = none)

def hyp_CanFramesAndQueues_17 (d : Die) (c : Fin 4) (q : Fin 2) (frame : List Word) (age : Nat) (s : State) : Bool :=
  let i := c.val
  let x := s.canOf d i
  let y := x.q q.val
  let sized : Bool := decide (x.qs.length = 2 ∧ x.retries.length = 3)
  let now := s.canMode d i
  let runs : Bool := decide (s.unitsRun d = true)
  let part : Bool := decide (runs ∧ (now = 1 ∨ now = 2) ∧ x.integ = true ∧ s.canBusOff d i = false ∧ s.canFmtOn d i (bits (frame.getD 1 0) 0 2) = true)
  let takes : Bool := decide (part ∧ s.flag (R.CAN_ABR d i) 30 = false ∧ s.canRec d i ≤ 127)
  let w0 := frame.getD 0 0
  let w1 := frame.getD 1 0
  let w2 := frame.getD 2 0
  let len := bits w2 0 12
  let words := canDataWords len
  let hit := firstIdx 64 fun f => s.canMatches d i f w0 w1
  let dest := match hit with | some f => s.fld (R.CAN_FLT_CTRL d i f) 1 2 | none => s.fld (R.CAN_CFG d i) 8 2
  let ep := s.fld (R.CAN_OWNER d i) 16 16
  let record := [w0 ||| 0x80000000, w1, setBits (w2 &&& 0xFFFF) 16 10 (7 + words), frame.getD 3 0] ++ ((s.now d).ago age).triple ++
      [wd (ep + hit.getD 0 * 2 ^ 16 + (if hit = none then 2 ^ 22 else 0))] ++ (frame.drop 4).take words
  let small : Bool := decide (bits w1 0 2 = 2 ∧ 64 < len → s.flag (R.CAN_Q_CFG d i q.val) 0 = true)
  let tail := s.canSlot d i q.val (y.head + y.held)
  let room : Bool := decide (((List.range 272).all (fun z => s.bankRefusal d 12 (bankBase z) == none) = true) ∧ tail - d.org + 4 * record.length + 4 ≤ 0x400_0000)
  decide (takes) &&
  decide (sized) &&
  decide (dest = q.val) &&
  decide (s.fld (R.CAN_OWNER d i) 0 8 ≠ 0x20) &&
  decide (small) &&
  decide (y.held < 32) &&
  decide (room)

def hyp_CanFramesAndQueues_18 (d : Die) (c : Fin 4) (q : Fin 2) (frame : List Word) (s : State) : Bool :=
  let i := c.val
  let x := s.canOf d i
  let y := x.q q.val
  let now := s.canMode d i
  let runs : Bool := decide (s.unitsRun d = true)
  let part : Bool := decide (runs ∧ (now = 1 ∨ now = 2) ∧ x.integ = true ∧ s.canBusOff d i = false ∧ s.canFmtOn d i (bits (frame.getD 1 0) 0 2) = true)
  let takes : Bool := decide (part ∧ s.flag (R.CAN_ABR d i) 30 = false ∧ s.canRec d i ≤ 127)
  let w0 := frame.getD 0 0
  let w1 := frame.getD 1 0
  let w2 := frame.getD 2 0
  let len := bits w2 0 12
  let hit := firstIdx 64 fun f => s.canMatches d i f w0 w1
  let dest := match hit with | some f => s.fld (R.CAN_FLT_CTRL d i f) 1 2 | none => s.fld (R.CAN_CFG d i) 8 2
  let small : Bool := decide (bits w1 0 2 = 2 ∧ 64 < len → s.flag (R.CAN_Q_CFG d i q.val) 0 = true)
  decide (takes) &&
  decide (dest = q.val) &&
  decide (s.fld (R.CAN_OWNER d i) 0 8 ≠ 0x20) &&
  decide (small) &&
  decide (32 ≤ y.held)

def hyp_CanFramesAndQueues_19 (d : Die) (c : Fin 4) (frame : List Word) (s : State) : Bool :=
  let i := c.val
  let x := s.canOf d i
  let now := s.canMode d i
  let runs : Bool := decide (s.unitsRun d = true)
  let part : Bool := decide (runs ∧ (now = 1 ∨ now = 2) ∧ x.integ = true ∧ s.canBusOff d i = false ∧ s.canFmtOn d i (bits (frame.getD 1 0) 0 2) = true)
  let takes : Bool := decide (part ∧ s.flag (R.CAN_ABR d i) 30 = false ∧ s.canRec d i ≤ 127)
  let w0 := frame.getD 0 0
  let w1 := frame.getD 1 0
  let hit := firstIdx 64 fun f => s.canMatches d i f w0 w1
  let dest := match hit with | some f => s.fld (R.CAN_FLT_CTRL d i f) 1 2 | none => s.fld (R.CAN_CFG d i) 8 2
  decide (takes) &&
  decide (dest = 3)

def hyp_CanFramesAndQueues_20 (d : Die) (c : Fin 4) (frame : List Word) (s : State) : Bool :=
  let i := c.val
  let x := s.canOf d i
  let now := s.canMode d i
  let runs : Bool := decide (s.unitsRun d = true)
  let part : Bool := decide (runs ∧ (now = 1 ∨ now = 2) ∧ x.integ = true ∧ s.canBusOff d i = false ∧ s.canFmtOn d i (bits (frame.getD 1 0) 0 2) = true)
  decide (¬part)

def hyp_CanFramesAndQueues_21 (who : Requester) (d : Die) (c : Fin 4) (q : Fin 2) (w : Fin 520) (s : State) : Bool :=
  let i := c.val
  let x := s.canOf d i
  let y := x.q q.val
  let own : Bool := decide (s.fld (R.CAN_OWNER d i) 0 8 = who.unitOwner d)
  let win := R.CAN_RX d i q.val w.val
  let slot := s.canSlot d i q.val (y.head + y.posL)
  let last := bits (s.word (slot + 8)) 16 10
  let at_ := slot - d.org + 4 * w.val
  let loads : Bool := decide (s.bankRefusal d 12 at_ = none ∧ s.eccAt (wordNo d (at_ / 8 * 8)) = 0)
  let reads : Bool := decide (s.acceptsRead who win ∧ own ∧ s.inShadow who = false)
  decide (reads) &&
  decide (loads) &&
  decide (y.posL < y.held) &&
  decide (w.val < last)

def hyp_CanFramesAndQueues_22 (who : Requester) (d : Die) (c : Fin 4) (q : Fin 2) (w : Fin 520) (s : State) : Bool :=
  let i := c.val
  let x := s.canOf d i
  let y := x.q q.val
  let sized : Bool := decide (x.qs.length = 2 ∧ x.retries.length = 3)
  let own : Bool := decide (s.fld (R.CAN_OWNER d i) 0 8 = who.unitOwner d)
  let win := R.CAN_RX d i q.val w.val
  let slot := s.canSlot d i q.val (y.head + y.posL)
  let last := bits (s.word (slot + 8)) 16 10
  let at_ := slot - d.org + 4 * w.val
  let loads : Bool := decide (s.bankRefusal d 12 at_ = none ∧ s.eccAt (wordNo d (at_ / 8 * 8)) = 0)
  let reads : Bool := decide (s.acceptsRead who win ∧ own ∧ s.inShadow who = false)
  decide (reads) &&
  decide (loads) &&
  decide (sized) &&
  decide (y.posL < y.held) &&
  decide (w.val = last)

def hyp_CanFramesAndQueues_23 (who : Requester) (d : Die) (c : Fin 4) (q : Fin 2) (w : Fin 520) (s : State) : Bool :=
  let i := c.val
  let x := s.canOf d i
  let y := x.q q.val
  let own : Bool := decide (s.fld (R.CAN_OWNER d i) 0 8 = who.unitOwner d)
  let win := R.CAN_RX d i q.val w.val
  let slot := s.canSlot d i q.val (y.head + y.posL)
  let last := bits (s.word (slot + 8)) 16 10
  let reads : Bool := decide (s.acceptsRead who win ∧ own ∧ s.inShadow who = false)
  decide (reads) &&
  decide ((y.held ≤ y.posL ∨ last < w.val))

def hyp_CanFramesAndQueues_24 (who : Requester) (d : Die) (c : Fin 4) (q : Fin 2) (w : Fin 520) (s : State) : Bool :=
  let i := c.val
  let own : Bool := decide (s.fld (R.CAN_OWNER d i) 0 8 = who.unitOwner d)
  let win := R.CAN_RX d i q.val w.val
  decide (s.acceptsRead who win) &&
  decide (¬own) &&
  decide (s.inShadow who = false)

def hyp_CanFramesAndQueues_25 (who : Requester) (d : Die) (c : Fin 4) (q : Fin 2) (s : State) : Bool :=
  let i := c.val
  let x := s.canOf d i
  let sized : Bool := decide (x.qs.length = 2 ∧ x.retries.length = 3)
  let own : Bool := decide (s.fld (R.CAN_OWNER d i) 0 8 = who.unitOwner d)
  let qc := R.CAN_Q_CTRL d i q.val
  decide (s.writes who qc) &&
  decide (own) &&
  decide (sized)

def hyp_CanFramesAndQueues_26 (who : Requester) (d : Die) (c : Fin 4) (q : Fin 2) (s : State) : Bool :=
  let i := c.val
  let own : Bool := decide (s.fld (R.CAN_OWNER d i) 0 8 = who.unitOwner d)
  let qc := R.CAN_Q_CTRL d i q.val
  decide (s.writes who qc) &&
  decide (¬own)

theorem test_hyps_CanFramesAndQueues : (
    hyp_CanFramesAndQueues_0 (tSup) (.d0) (1) (0) (tm (tCan 1 0x41 {integ := true, qs := [{held := 2}, {}]}) [(8, 0x70000), (0, 0x55)]) &&
    hyp_CanFramesAndQueues_1 (tSup) (.d0) (1) (0) (tCan 1 0x41 {integ := true} [(R.CAN_TX_CTRL .d0 1 0, 0x100)]) &&
    hyp_CanFramesAndQueues_2 (tSup) (.d0) (1) (0) (tw (tCan 1 0x41) [(R.CAN_OWNER .d0 1, 5)]) &&
    hyp_CanFramesAndQueues_3 (tSup) (.d0) (1) (0) (tCan 1 0x41 {integ := true} [(R.CAN_TX_CTRL .d0 1 0, 0x100)]) &&
    hyp_CanFramesAndQueues_4 (tSup) (.d0) (1) (0) (tCan 1 0xC1 {integ := true, onBus := some 0} [(R.CAN_TX_CTRL .d0 1 0, 0x100)]) &&
    hyp_CanFramesAndQueues_5 (tSup) (.d0) (1) (0) (tm (tCan 1 0x41 {integ := true, qs := [{held := 2}, {}]}) [(8, 0x70000), (0, 0x55)]) &&
    hyp_CanFramesAndQueues_6 (.d0) (1) (tCan 1 0x41 {integ := true} [(R.CAN_TX_CTRL .d0 1 0, 0x100)]) &&
    hyp_CanFramesAndQueues_7 (.d0) (1) (tw (tCan 1 0x41) [(R.CAN_OWNER .d0 1, 5)]) &&
    hyp_CanFramesAndQueues_8 (.d0) (1) (tCan 1 0x41 {integ := true} [(R.CAN_TX_CTRL .d0 1 0, 0x100)]) &&
    hyp_CanFramesAndQueues_9 (.d0) (1) (tCan 1 0x41 {integ := true} [(R.CAN_TX_CTRL .d0 1 0, 0x100)]) &&
    hyp_CanFramesAndQueues_10 (.d0) (1) (0) (.sent) (none) (tCan 1 0xC1 {integ := true, onBus := some 0, sof := {sec := 7, ns := 9}} [(R.CAN_TX_CTRL .d0 1 0, 0x100), (R.CAN_ERR .d0 1, 0x0202)]) &&
    hyp_CanFramesAndQueues_11 (.d0) (1) (0) (.lost) (none) (tCan 1 0xC1 {integ := true, onBus := some 0} [(R.CAN_TX_CTRL .d0 1 0, 0x100)]) &&
    hyp_CanFramesAndQueues_12 (.d0) (1) (0) (.lost) (none) (tCan 1 0xC1 {integ := true, onBus := some 0, retries := [4,0,0]} [(R.CAN_TX_CTRL .d0 1 0, 0x104)]) &&
    hyp_CanFramesAndQueues_13 (.d0) (1) (0) (.failed) (none) (tCan 1 0xC1 {integ := true, onBus := some 0, abort := 1} [(R.CAN_TX_CTRL .d0 1 0, 0x100)]) &&
    hyp_CanFramesAndQueues_14 (.d0) (1) (0) (some 50) (tCan 1 0xC1 {integ := true, onBus := some 0, sof := {sec := 7, ns := 9}} [(R.CAN_TX_CTRL .d0 1 0, 0x100), (R.CAN_ERR .d0 1, 0x0202), (R.CAN_TDC .d0 1, 1), (R.CAN_TXB .d0 1 0 1, 5)]) &&
    hyp_CanFramesAndQueues_15 (.d0) (1) (0) (some 300) (tCan 1 0xC1 {integ := true, onBus := some 0, sof := {sec := 7, ns := 9}} [(R.CAN_TX_CTRL .d0 1 0, 0x100), (R.CAN_ERR .d0 1, 0x0202), (R.CAN_TDC .d0 1, 1), (R.CAN_TXB .d0 1 0 1, 5)]) &&
    hyp_CanFramesAndQueues_16 (.d0) (1) (tCan 1 0x41 {integ := true} [(R.CAN_TX_CTRL .d0 1 0, 0x100)]) &&
    hyp_CanFramesAndQueues_17 (.d0) (1) (0) ([0x123, 0, 0x8, 0, 5, 6]) (0) (tCan 1 0x41 {integ := true} [(R.CAN_CFG .d0 1, 0), (R.CAN_OWNER .d0 1, 5)]) &&
    hyp_CanFramesAndQueues_18 (.d0) (1) (0) ([0x123, 0, 0x8, 0, 5, 6]) (tCan 1 0x41 {integ := true, qs := [{held := 32}, {}]} [(R.CAN_CFG .d0 1, 0), (R.CAN_OWNER .d0 1, 0x70005)]) &&
    hyp_CanFramesAndQueues_19 (.d0) (1) ([]) (tCan 1 0x41 {integ := true} [(R.CAN_TX_CTRL .d0 1 0, 0x100)]) &&
    hyp_CanFramesAndQueues_20 (.d0) (1) ([]) (tw (tCan 1 0x41) [(R.CAN_OWNER .d0 1, 5)]) &&
    hyp_CanFramesAndQueues_21 (tSup) (.d0) (1) (0) (0) (tm (tCan 1 0x41 {integ := true, qs := [{held := 2}, {}]}) [(8, 0x70000), (0, 0x55)]) &&
    hyp_CanFramesAndQueues_22 (tSup) (.d0) (1) (0) (7) (tm (tCan 1 0x41 {integ := true, qs := [{held := 2, posL := 1}, {}]}) [(0x80+8, 0x70000), (0x80+28, 0x55)]) &&
    hyp_CanFramesAndQueues_23 (tSup) (.d0) (1) (0) (0) (tCan 1 0x41 {integ := true} [(R.CAN_TX_CTRL .d0 1 0, 0x100)]) &&
    hyp_CanFramesAndQueues_24 (tSup) (.d0) (1) (0) (0) (tw (tCan 1 0x41) [(R.CAN_OWNER .d0 1, 5)]) &&
    hyp_CanFramesAndQueues_25 (tSup) (.d0) (1) (0) (tCan 1 0x41 {integ := true} [(R.CAN_TX_CTRL .d0 1 0, 0x100)]) &&
    hyp_CanFramesAndQueues_26 (tSup) (.d0) (1) (0) (tw (tCan 1 0x41) [(R.CAN_OWNER .d0 1, 5)])) = true := by decide +kernel

/-! ### LinearCountAndItsDifferences -/

def hyp_LinearCountAndItsDifferences_0  : Bool :=
  (List.any ([({} : DevTime)]) fun x =>
    (List.any ([({ sec := 18446744073, ns := 709551616 } : DevTime)]) fun y =>
      decide (y.sec * 1_000_000_000 + y.ns = x.sec * 1_000_000_000 + x.ns + 2 ^ 64)))

def hyp_LinearCountAndItsDifferences_1 (who : Requester) (d : Die) (a : AccAddr) (s : State) : Bool :=
  let now := R.TB_NOW_LO d
  decide (leadOf who a = .at_ now) &&
  decide (s.regCheck who now .w64 false = none)

def hyp_LinearCountAndItsDifferences_2 (d : Die) (c : Fin 32) (rise : Bool) (s : State) : Bool :=
  let cfg := s.getReg (R.TB_CAP_CFG d c.val)
  decide (Tab.get (fun _ => false) s.capLvl (d.idx * 32 + c.val) ≠ rise) &&
  decide ((if rise then bit cfg 8 else bit cfg 9) = true) &&
  decide (s.flag (R.TB_CAP_STAT d c.val) 0 = false)

def hyp_LinearCountAndItsDifferences_3 (d : Die) (u : Fin 64) (s : State) : Bool :=
  decide (s.cmpArmed d u.val = true) &&
  decide (0 < sdiff (s.cmpTgt d u.val) (s.lin d))

def hyp_LinearCountAndItsDifferences_4 (d : Die) (u : Fin 64) (s : State) : Bool :=
  decide (s.cmpArmed d u.val = true) &&
  decide (s.cmpTgt d u.val = s.lin d)

theorem test_hyps_LinearCountAndItsDifferences : (
    hyp_LinearCountAndItsDifferences_0 &&
    hyp_LinearCountAndItsDifferences_1 (tSup) (.d0) (.int (R.TB_NOW_LO .d0)) (tw (tUp.setNow .d0 {sec := 0, ns := 100}) [(R.TB_CMP_STAT .d0 3, 1), (R.TB_CMP_TGT_LO .d0 3, 100), (R.TB_CAP_CFG .d0 5, 0x100)]) &&
    hyp_LinearCountAndItsDifferences_2 (.d0) (5) (true) (tw (tUp.setNow .d0 {sec := 0, ns := 100}) [(R.TB_CMP_STAT .d0 3, 1), (R.TB_CMP_TGT_LO .d0 3, 100), (R.TB_CAP_CFG .d0 5, 0x100)]) &&
    hyp_LinearCountAndItsDifferences_3 (.d0) (3) (tw (tUp.setNow .d0 {sec := 0, ns := 100}) [(R.TB_CMP_STAT .d0 3, 1), (R.TB_CMP_TGT_LO .d0 3, 101), (R.TB_CAP_CFG .d0 5, 0x100)]) &&
    hyp_LinearCountAndItsDifferences_4 (.d0) (3) (tw (tUp.setNow .d0 {sec := 0, ns := 100}) [(R.TB_CMP_STAT .d0 3, 1), (R.TB_CMP_TGT_LO .d0 3, 100), (R.TB_CAP_CFG .d0 5, 0x100)])) = true := by decide +kernel

/-! ## Hypotheses beyond those -/

/-- PortsReceiveFrames: the longest frame. -/
theorem test_hyps_PortsReceiveFrames_long : tSw.macLink .d0 2 = true ∧ tSw.portExists .d0 2 = true ∧ 9728 ≤ (List.replicate 9728 (0 : Byte)).length :=
  ⟨by decide +kernel, by decide +kernel, by rw [List.length_replicate]⟩

/-- EngineArithmeticIsThatOfWords, at the greatest count and the least divisor. -/
theorem test_hyps_EngineArithmeticIsThatOfWords : 8 ∈ [8, 16, 32] ∧ 32 ∈ [8, 16, 32] ∧ 31 < 32 ∧ (0x80 : BitVec 8) ≠ 0 := by decide

/-- No pool word of a state without error marks has one. -/
theorem test_eccAt (s : State) (h : s.ecc = []) (j : Nat) : s.eccAt j = 0 := by simp [State.eccAt, h]

/-- A state no bank group of which is off and no bank of which is out of service refuses no access of a bank. -/
theorem test_banks_answer (s : State) (d : Die) (h : ∀ b ∈ List.range 272, s.groupOff d (b / 16) = false ∧ s.bankOos d b = false) (hp : s.powerEff d = 0)
    (port a : Nat) (ha : a < 0x400_0000) : s.bankRefusal d port a = none := by
  obtain ⟨h1, h2⟩ := h (bankOf a) (List.mem_range.2 (by unfold bankOf; split <;> omega))
  simp [State.bankRefusal, h1, h2, hp]

/-- What RingPassesCycleFrames asks of the banks for the window's store. -/
theorem test_hyps_RingPassesCycleFrames_banks (port a : Nat) (ha : a < 0x400_0000) : (tRing (tRec2 0x77 1 0x10210)).bankRefusal .d0 port a = none :=
  test_banks_answer _ _ (by decide +kernel) (by decide +kernel) port a ha

/-- The tag of SerialFramesAreAnswered for a CONFIRM and for a SECURE frame: the one the statement names. -/
theorem test_hyps_SerialFramesAreAnswered_tags :
    (h2Proof (h2Keys tKey tNh tNd) tNh tNd 0).length = 16 ∧ (Crypto.gcmTag (tKs.take 32) (h2Iv tKs 5) [] []).length = 16 ∧ tNh.length = 16 ∧
    ({ tSess with h2 := { key := tKey, pend := some (tNh, tNd) } } : State).h2.pend = some (tNh, tNd) ∧ tSess.h2.key = tKey ∧ tSess.h2.sess = some (tNh, tNd) ∧ tSess.h2.hostCtr < 5 := by decide +kernel

/-- A tag that is not the proof. -/
theorem test_hyps_SerialFramesAreAnswered_denied : ∃ tag : List Byte, tag.length = 16 ∧ tag ≠ h2Proof (h2Keys tKey tNh tNd) tNh tNd 0 := by
  by_cases h : List.replicate 16 0 = h2Proof (h2Keys tKey tNh tNd) tNh tNd 0
  · exact ⟨List.replicate 16 1, by decide, by rw [← h]; decide⟩
  · exact ⟨List.replicate 16 0, by decide, h⟩

/-- IMG_INSTALL of a new image, and of image 3 with a full store; IMG_UNDERCOAT. -/
def tInst : HostCmd := tCmd 0x300 ([0, 340] ++ tImgWords)
def tInst3 : HostCmd := tCmd 0x300 ([3, 340] ++ tImgWords)
def tUc : HostCmd := tCmd 0x303 ([340] ++ tUcWords)
/-- The bytes of a command's image. -/
def tBytes (c : HostCmd) (n : Nat) : List Byte := (wordBytes (c.params.drop n)).take 340

/-- AcceptedCommandsComplete, where the part's ROM verifies the image's signature block (a constant of Config). -/
theorem test_hyps_AcceptedCommandsComplete_install (h : Config.imageSigned (tBytes tInst 2) = true) :
    (tAsy tUp tInst).asyncOf .d0 0 5 = some tInst ∧ (tAsy tUp tInst).latest tInst ∧ tInst.op = 0x300 ∧ (tAsy tUp tInst).installBad tInst = none ∧
    (tInst.par 1).toNat = 340 ∧ imageOk (tBytes tInst 2) 340 = true ∧ (tInst.par 0 = 0 ∧ (tAsy tUp tInst).freeImage.getD 0 ≠ 0) ∧
    (tAsy tUp tInst).storeUsed + (tBytes tInst 2).length ≤ 16_777_216 := by
  refine ⟨by decide +kernel, by decide +kernel, by decide +kernel, by decide +kernel, by decide +kernel, ?_, by decide +kernel, by decide +kernel⟩
  simp only [imageOk, Bool.and_eq_true]
  exact ⟨by decide +kernel, h⟩

/-- A store with one byte too few left. -/
def tFull : State := { tUp with images := [(20, List.replicate 16_776_877 0)] }

theorem test_hyps_AcceptedCommandsComplete_full (h : Config.imageSigned (tBytes tInst3 2) = true) :
    (tAsy tFull tInst3).asyncOf .d0 0 5 = some tInst3 ∧ (tAsy tFull tInst3).latest tInst3 ∧ tInst3.op = 0x300 ∧ (tAsy tFull tInst3).installBad tInst3 = none ∧
    (tInst3.par 1).toNat = 340 ∧ imageOk (tBytes tInst3 2) 340 = true ∧ (tInst3.par 0).toNat = 3 ∧
    16_777_216 < (tAsy tFull tInst3).storeUsed + (tBytes tInst3 2).length := by
  refine ⟨by decide +kernel, by decide +kernel, by decide +kernel, by decide +kernel, by decide +kernel, ?_, by decide +kernel, ?_⟩
  · simp only [imageOk, Bool.and_eq_true]
    exact ⟨by decide +kernel, h⟩
  · have h1 : (tBytes tInst3 2).length = 340 := by decide +kernel
    have h2 : (tAsy tFull tInst3).images = [(20, List.replicate 16_776_877 0)] := rfl
    simp only [State.storeUsed, h1, h2, List.map_cons, List.map_nil, List.length_replicate, List.sum_cons, List.sum_nil]
    decide

theorem test_hyps_AcceptedCommandsComplete_undercoat (h : Config.undercoatSigned (tBytes tUc 1) = true) :
    (tAsy tUp tUc).asyncOf .d0 0 5 = some tUc ∧ (tAsy tUp tUc).latest tUc ∧ tUc.op = 0x303 ∧ (tAsy tUp tUc).flashOff tUc = false ∧
    (tUc.par 0).toNat = 340 ∧ undercoatOk (tBytes tUc 1) 340 = true := by
  refine ⟨by decide +kernel, by decide +kernel, by decide +kernel, by decide +kernel, by decide +kernel, ?_⟩
  simp only [undercoatOk, Bool.and_eq_true]
  exact ⟨by decide +kernel, h⟩

/-- MonitorsAndAgeing: Die 0 started. -/
def tStarted : State := tUp.setBoot .d0 { stage := 6 }

/-- A reading of nothing is not slow. -/
theorem test_hyps_MonitorsAndAgeing_fast : 3 ≤ (tStarted.bootOf .d0).stage ∧ ¬ (tStarted.tooSlow .d0 3 0 = true ∧ tStarted.tooSlow .d0 3 0 = true) := by
  exact ⟨by decide +kernel, by simp [State.tooSlow]⟩

/-- A long delay is slow in a domain whose period factor, a constant of Config, is not 0; for domains 0, 3 (the end of the engines' range), 4, 5, 6, 7. -/
theorem test_hyps_MonitorsAndAgeing_slow (n : Nat) (hn : n ∈ [0, 3, 4, 5, 6, 7]) (h : Config.domK n ≠ 0) :
    tStarted.tooSlow .d0 n (10 ^ 18) = true := by
  have hf : ∀ n ∈ [0, 3, 4, 5, 6, 7], 1 ≤ tStarted.fld (R.CLK_DOM .d0 n) 16 10 := by decide +kernel
  have h1 := hf n hn
  have h0 : (Die.d0.idx * 8 + n) = n := by simp [Die.idx]
  simp only [State.tooSlow, h0, decide_eq_true_eq]
  have h2 : 1 * 10 ^ 18 * 1 ≤ Config.domK n * 10 ^ 18 * tStarted.fld (R.CLK_DOM .d0 n) 16 10 :=
    Nat.mul_le_mul (Nat.mul_le_mul (Nat.pos_of_ne_zero h) (Nat.le_refl _)) h1
  omega

theorem test_hyps_MonitorsAndAgeing_rest : variableDom 5 = false ∧ tStarted.rst.kind = 0 ∧ tStarted.rst.snap = none := by decide +kernel

/-- StepRunsTheFrontCommand. -/
theorem test_hyps_StepRunsTheFrontCommand : ({ State.reset with pending := [Instr.fioRefresh] } : State).pending = Instr.fioRefresh :: [] := rfl

/-- IdleStepTicksTheTimeBases, with its last clause, one step short of a second and of the range. -/
theorem test_hyps_IdleStepTicksTheTimeBases :
    let s := State.reset.setNow .d1 { sec := 2 ^ 48 - 1, ns := 999_999_997, frac := 2 ^ 32 - 1, slew := 0 }
    s.pending = [] ∧ s.rate .d1 = 0 ∧ (s.now .d1).slew = 0 ∧ (s.now .d1).ns + 2 < 10 ^ 9 ∧ (s.now .d1).frac < 2 ^ 32 ∧ (s.now .d1).sec < 2 ^ 48 := by
  decide +kernel

/-- A command waits in a state with both dies ready. -/
def tWaits : State := { tUp with pending := [Instr.fioRefresh] }

/-- StepKeepsTheInvariant: the state meets the invariant, and its step goes on. -/
theorem test_hyps_StepKeepsTheInvariant : tWaits.inv ∧ (match step tWaits with | .next _ => true | _ => false) = true := by
  refine ⟨⟨by unfold State.canonical; decide +kernel, ?_, ?_⟩, by decide +kernel⟩
  · intro d; cases d <;> decide +kernel
  · intro d c
    have h : tWaits.can = [] := by decide +kernel
    simp [State.canOf, h]

/-- PoolMapAndPacketModeRefused, at the ends of its ranges. -/
theorem test_hyps_PoolMapAndPacketModeRefused : 239 < 240 ∧ 0x3_FFFF < 0x4_0000 ∧ 31 < 32 ∧ 0x1_FFFF < 0x2_0000 ∧
    bit (4 : Word) 2 = true ∧ bit (4 : Word) 1 = false := by decide

end Sys2Proof.Tests
end

section
/-! The linear pool map (R24), and the writes of SFQ_CTRL that ask for packet mode in register mode (R78). -/

namespace Sys2Proof.Machine

/-! ## The banks of the pool (R24, R49) -/

/-- Single-port bank `n` holds the 256 KiB from `n * 0x4_0000`. -/
theorem bankOf_singlePort {n off : Nat} (hn : n < 240) (ho : off < 0x4_0000) : bankOf (n * 0x4_0000 + off) = n := by
  rw [bankOf, if_pos (by omega)]
  omega

/-- Dual-port bank `240 + m` holds the 128 KiB from `0x03C0_0000 + m * 0x2_0000`. -/
theorem bankOf_dualPort {m off : Nat} (ho : off < 0x2_0000) : bankOf (0x03C0_0000 + m * 0x2_0000 + off) = 240 + m := by
  rw [bankOf, if_neg (by omega)]
  omega

theorem bankBase_singlePort {n : Nat} (hn : n < 240) : bankBase n = n * 0x4_0000 := if_pos hn

theorem bankBase_dualPort (m : Nat) : bankBase (240 + m) = 0x03C0_0000 + m * 0x2_0000 := by
  rw [bankBase, if_neg (by omega), Nat.add_sub_cancel_left]

theorem bankLines_singlePort {n : Nat} (hn : n < 240) : bankLines n = 4096 := if_pos hn

theorem bankLines_dualPort (m : Nat) : bankLines (240 + m) = 2048 := if_neg (by omega)

/-! ## A refused write (R170, R546) -/

/-- A refusal is the newest answer, behind whatever its record signals. -/
@[simp] theorem State.head?_out_refuse (s : State) (who : Requester) (a : Nat) (wr : Bool) (c : Nat) :
    (s.refuse who a wr c).out.head? = some (.answer who a (.refused c (cplOf who wr c))) := rfl

theorem State.keepsMem_refuse (s : State) (who : Requester) (a : Nat) (wr : Bool) (c : Nat) : s.keepsMem (s.refuse who a wr c) := fun _ => by
  rw [State.byte, State.refuse_mem, State.byte]

/-- A write whose own rule refuses it is refused, with the cause of the first check that fails. -/
theorem State.guardWrite_refuses_of_error (s : State) (who : Requester) (a : Nat) (w : Width) (eff : State → Eff) {c : Nat}
    (h : eff s = .error c) : ∃ cause, s.guardWrite who a w eff = s.refuse who a true cause := by
  cases hc : s.regCheck who a w true with
  | some cause => exact ⟨cause, s.guardWrite_checked who a w eff cause hc⟩
  | none =>
    cases he : s.engineRefuses who a with
    | true => exact ⟨causeRULE, by simp [State.guardWrite, hc, he]⟩
    | false => exact ⟨c, s.guardWrite_error who a w eff c hc he h⟩

/-! ## SFQ_CTRL (R78, R85) -/

theorem blkOf_SFQ_CTRL (d : Die) (n : Fin 32) : blkOf (R.SFQ_CTRL d n.val) = 9 := by
  rw [R.SFQ_CTRL, Nat.add_assoc, blkOf_blk _ _ _ (by decide) (by omega)]

/-- R78: register mode has no packet mode, whatever else the write asks for and whoever owns the FIFO. -/
theorem effSfqCtrl_packet_without_drain (who : Requester) (d : Die) (n : Nat) (v : Word) (s : State) (hpkt : bit v 2 = true)
    (hmode : bit v 1 = false) : effSfqCtrl who d n v s = .error causeRULE := by
  simp [effSfqCtrl, hpkt, hmode]

/-- The four commands that write SFQ_CTRL, told apart by the action bit (FLUSH, CLOSE, RESET or none) that each adds to its value. -/
theorem exec_sfqCtrlWrite {who : Requester} {d : Die} {n : Fin 32} {v : Word} {c : Instr} (s : State)
    (hc : c ∈ [Instr.sfqConfigWrite who d n v, .sfqFlush who d n v, .sfqClose who d n v, .sfqReset who d n v]) :
    ∃ m ∈ [(0 : Word), 0x1_0000, 0x2_0000, 0x4_0000],
      exec c s = .next (s.guardWrite who (R.SFQ_CTRL d n) .w32 (effSfqCtrl who d n (v ||| m))) := by
  simp only [List.mem_cons, List.not_mem_nil, or_false] at hc
  obtain rfl | rfl | rfl | rfl := hc
  · exact ⟨0, by decide, by rw [show v ||| 0 = v from BitVec.or_zero]; rfl⟩
  · exact ⟨0x1_0000, by decide, rfl⟩
  · exact ⟨0x2_0000, by decide, rfl⟩
  · exact ⟨0x4_0000, by decide, rfl⟩

/-- An action bit leaves the PKT and MODE that a write asks for. -/
theorem bit_or_sfqAction {m : Word} (hm : m ∈ [(0 : Word), 0x1_0000, 0x2_0000, 0x4_0000]) (v : Word) :
    bit (v ||| m) 2 = bit v 2 ∧ bit (v ||| m) 1 = bit v 1 := by
  have hclear : ∀ m ∈ [(0 : Word), 0x1_0000, 0x2_0000, 0x4_0000], bit m 2 = false ∧ bit m 1 = false := by simp [bit, Nat.testBit]
  obtain ⟨h2, h1⟩ := hclear m hm
  simp [h2, h1]

/-- Every command that writes SFQ_CTRL and asks for packet mode in register mode is refused, which is all it does. -/
theorem exec_sfqCtrlWrite_refused {who : Requester} {d : Die} {n : Fin 32} {v : Word} {c : Instr} (s : State) (hpkt : bit v 2 = true)
    (hmode : bit v 1 = false)
    (hc : c ∈ [Instr.sfqConfigWrite who d n v, .sfqFlush who d n v, .sfqClose who d n v, .sfqReset who d n v]) :
    ∃ cause, exec c s = .next (s.refuse who (R.SFQ_CTRL d n) true cause) := by
  obtain ⟨m, hm, hexec⟩ := exec_sfqCtrlWrite s hc
  obtain ⟨h2, h1⟩ := bit_or_sfqAction hm v
  have heff := effSfqCtrl_packet_without_drain who d n (v ||| m) s (h2.trans hpkt) (h1.trans hmode)
  obtain ⟨cause, hrefuse⟩ := s.guardWrite_refuses_of_error who (R.SFQ_CTRL d n) .w32 _ heff
  exact ⟨cause, hexec.trans (congrArg _ hrefuse)⟩

/-- Settles O60: R24 from the map's two ranges, R78 from the refusal that each of the four writes of SFQ_CTRL comes to. -/
theorem poolMapAndPacketModeRefused : Obligations.PoolMapAndPacketModeRefused := by
  refine ⟨fun n off hn ho => ⟨bankOf_singlePort hn ho, bankBase_singlePort hn, by rw [bankLines_singlePort hn]⟩,
    fun m off _ ho => ⟨bankOf_dualPort ho, bankBase_dualPort m, by rw [bankLines_dualPort]⟩, ?_⟩
  intro who d n v s hpkt hmode c hc
  obtain ⟨cause, hexec⟩ := exec_sfqCtrlWrite_refused s hpkt hmode hc
  have hblk : blkOf (R.SFQ_CTRL d n) ≠ 5 ∧ blkOf (R.SFQ_CTRL d n) ≠ 6 := by simp [blkOf_SFQ_CTRL]
  exact ⟨_, hexec, ⟨cause, s.head?_out_refuse who _ true cause⟩, s.getReg_refuse who _ true cause _ hblk, s.refuse_sfq who _ true cause,
    s.keepsMem_refuse who _ true cause⟩

end Sys2Proof.Machine
end

section
/-! The linear count of a die (R290), its readers (TB_NOW, captures, compare units) and the signed distance of two counts. -/

namespace Sys2Proof.Machine

/-! ## The count and its differences (R290) -/

theorem State.lin_eq (s : State) (d : Die) : s.lin d = ((s.now d).sec * 1_000_000_000 + (s.now d).ns) % 2 ^ 64 := rfl

theorem State.lin_lt (s : State) (d : Die) : s.lin d < 2 ^ 64 := Nat.mod_lt _ (by decide)

/-- The linear count wraps after 2^64 ns. -/
theorem DevTime.lin_of_wrap {x y : DevTime} (h : y.sec * 1_000_000_000 + y.ns = x.sec * 1_000_000_000 + x.ns + 2 ^ 64) : y.lin = x.lin := by
  simp only [DevTime.lin]
  omega

/-- The signed distance differs from the plain difference by whole turns of 2^64. -/
theorem sdiff_emod (m n : Nat) : (sdiff m n - ((m : Int) - n)) % (2 ^ 64 : Nat) = 0 := by
  rw [sdiff, signed]
  split <;> omega

/-- The signed distance is a signed number of 64 bits. -/
theorem sdiff_range (m n : Nat) : -2 ^ 63 ≤ sdiff m n ∧ sdiff m n < 2 ^ 63 := by
  rw [sdiff, signed]
  split <;> omega

theorem sdiff_self (n : Nat) : sdiff n n = 0 := by
  rw [sdiff, signed]
  split <;> omega

/-! ## The read of TB_NOW (R290, R320) -/

theorem targetOf_canonAddr_TB_NOW_LO (d : Die) : targetOf (canonAddr (R.TB_NOW_LO d)) = .reg d 37 8 := by
  cases d <;> decide

/-- What a requester latches in a block is its shadow there. -/
@[simp] theorem State.shadowOf_latch (s : State) (who : Requester) (d : Die) (b : Nat) (hi : Word) : (s.latch who d b hi).shadowOf who d b = hi :=
  Tab.get_put_self _ _ _

@[simp] theorem State.out_latch (s : State) (who : Requester) (d : Die) (b : Nat) (hi : Word) : (s.latch who d b hi).out = s.out := (rfl)

/-- One tick's linear count, the high half latched for the requester. -/
theorem readTbPair_TB_NOW (who : Requester) (d : Die) (s : State) :
    readTbPair who d 8 s = (s.lin d, s.latch who d 37 (wd (s.lin d / 2 ^ 32))) := by
  simp [readTbPair]

/-- A 64-bit read of TB_NOW gives both halves of one count. -/
theorem State.regRead_TB_NOW (s : State) (who : Requester) (d : Die) :
    s.regRead who d 37 8 .w64 = (.ok (some [wd (s.lin d), wd (s.lin d / 2 ^ 32)]), s.latch who d 37 (wd (s.lin d / 2 ^ 32))) := by
  have hread : readReg who d 37 8 s = .ok (wd (s.lin d), s.latch who d 37 (wd (s.lin d / 2 ^ 32))) := by
    rw [readReg, if_pos (by decide), readTbPair_TB_NOW]
  simp [State.regRead, isSfqData, hread, readHigh]

/-- A read that checks 1 to 6 let through is the read of the register its address names (R546). -/
theorem State.busRead_reg (s : State) (who : Requester) {x : Nat} {w : Width} {d : Die} {b off : Nat}
    (htarget : targetOf (canonAddr x) = .reg d b off) (hcheck : s.regCheck who x w false = none) :
    s.busRead who x w = s.regRead who d b off w := by
  simp only [State.busRead, htarget, hcheck]

/-- A read of a pair that gives words is answered with them. -/
theorem pairLoRead_data {who : Requester} {a : AccAddr} {x : Nat} {w : Width} {ws : List Word} {s t : State} (hlead : leadOf who a = .at_ x)
    (hread : s.busRead who x w = (.ok (some ws), t)) (hout : t.out = s.out) :
    Does (.pairLoRead who a w) s fun t' => t'.out = .answer who x (.data ws) :: s.out :=
  ⟨s.accRead who a w, rfl, by simp only [State.accRead, hlead, hread, State.emit, hout]⟩

/-- TB_NOW reads the linear count. -/
theorem pairLoRead_TB_NOW {who : Requester} {a : AccAddr} {d : Die} {s : State} (hlead : leadOf who a = .at_ (R.TB_NOW_LO d))
    (hcheck : s.regCheck who (R.TB_NOW_LO d) .w64 false = none) : Does (.pairLoRead who a .w64) s fun t =>
      t.out = .answer who (R.TB_NOW_LO d) (.data [wd (s.lin d), wd (s.lin d / 2 ^ 32)]) :: s.out :=
  pairLoRead_data hlead ((s.busRead_reg who (targetOf_canonAddr_TB_NOW_LO d) hcheck).trans (s.regRead_TB_NOW who d)) (s.out_latch who d 37 _)

/-! ## Events and triggers leave the time base's own registers alone (R312, R362) -/

theorem blkOf_CE_EVT {d : Die} {k : Nat} (hk : k < 24) : blkOf (R.CE_EVT d k) = 10 + k := blkOf_blk _ _ _ (by omega) (by decide)

theorem blkOf_pendReg {d : Die} {k : Nat} (hk : k < 24) (n : Nat) : blkOf (pendReg d k n) = 10 + k := by
  rw [pendReg]
  split <;> exact blkOf_blk _ _ _ (by omega) (by decide)

theorem blkOf_CE_CNT_OVERRUN {d : Die} {k : Nat} (hk : k < 24) : blkOf (R.CE_CNT_OVERRUN d k) = 10 + k :=
  blkOf_blk _ _ _ (by omega) (by decide)

theorem blkOf_CE_CNT_NOSLOT {d : Die} {k : Nat} (hk : k < 24) : blkOf (R.CE_CNT_NOSLOT d k) = 10 + k :=
  blkOf_blk _ _ _ (by omega) (by decide)

/-- A register beyond the engines' blocks is none of an engine's. -/
theorem ne_of_engine_blk {a b k : Nat} (hk : k < 24) (ha : blkOf a = 10 + k) (hb : 34 ≤ blkOf b) : b ≠ a := ne_of_blk (by omega)

@[simp] theorem State.getReg_withCeDeadline (s : State) (x : Tab Nat) (b : Nat) : { s with ceDeadline := x }.getReg b = s.getReg b := (rfl)

@[simp] theorem State.getReg_withTrigRun (s : State) (x : Tab Bool) (b : Nat) : { s with trigRun := x }.getReg b = s.getReg b := (rfl)

/-- An event to an owner changes CE_EVT of an engine, or nothing. -/
theorem State.getReg_ownerEvent (s : State) (d : Die) (o e : Nat) {b : Nat} (hb : 34 ≤ blkOf b) : (s.ownerEvent d o e).getReg b = s.getReg b := by
  rw [State.ownerEvent]
  split
  next ho => rw [State.getReg_setFlag, if_neg (ne_of_engine_blk ho (blkOf_CE_EVT ho) hb)]
  next => rfl

/-- A cycle trigger changes registers of the engine it starts: a pending bit, or a count. -/
theorem State.getReg_cycleTrigger (s : State) (d : Die) (u : Nat) {k b : Nat} (hk : k < 24) (hb : 34 ≤ blkOf b) :
    (s.cycleTrigger d u k).getReg b = s.getReg b := by
  rw [State.cycleTrigger]
  split
  next => rw [State.getReg_count, if_neg (ne_of_engine_blk hk (blkOf_CE_CNT_NOSLOT hk) hb)]
  next n _ =>
    split
    · rw [State.getReg_count, if_neg (ne_of_engine_blk hk (blkOf_CE_CNT_OVERRUN hk) hb)]
    · rw [State.getReg_withCeDeadline, State.getReg_setFlag, if_neg (ne_of_engine_blk hk (blkOf_pendReg hk n) hb)]

/-- A fire on a trigger output changes its TB_TRIG_CFG only. -/
theorem State.getReg_trigFire (s : State) (d : Die) (n : Nat) {b : Nat} (hb : b ≠ R.TB_TRIG_CFG d n) : (s.trigFire d n).getReg b = s.getReg b := by
  rw [State.trigFire]
  split
  · rw [State.getReg_setFlag, if_neg hb]
  · rw [State.getReg_withTrigRun, State.getReg_setFlag, if_neg hb, State.getReg_ite, State.getReg_setFlag, if_neg hb, ite_self]

theorem State.getReg_trigFireAll (d : Die) (u : Nat) {b : Nat} (n : Nat) (hb : ∀ i < n, b ≠ R.TB_TRIG_CFG d i) (s : State) :
    (s.trigFireAll d u n).getReg b = s.getReg b := by
  induction n generalizing s with
  | zero => rfl
  | succ n ih =>
    rw [State.trigFireAll, ih fun i hi => hb i (by omega)]
    split
    · exact s.getReg_trigFire d n (hb n (by omega))
    · rfl

/-! ## A compare unit at its target (R310) -/

theorem blkOf_TB_CMP_STAT (d : Die) (u : Fin 64) : blkOf (R.TB_CMP_STAT d u.val) = 37 := by
  rw [R.TB_CMP_STAT, Nat.add_assoc, blkOf_blk _ _ _ (by decide) (by omega)]

theorem TB_CMP_STAT_ne_TB_TRIG_CFG (d : Die) (u : Fin 64) (n : Nat) : R.TB_CMP_STAT d u.val ≠ R.TB_TRIG_CFG d n := by
  simp only [R.TB_CMP_STAT, R.TB_TRIG_CFG]
  omega

/-- Of the registers beyond the engines' blocks a fire changes TB_CMP_STAT, whose SEQ it advances, and those of trigger outputs. -/
theorem State.getReg_cmpDrive (s : State) (d : Die) (u : Nat) {b : Nat} (hblk : 34 ≤ blkOf b) (htrig : ∀ n < 16, b ≠ R.TB_TRIG_CFG d n) :
    (s.cmpDrive d u).getReg b = (s.wrapFld (R.TB_CMP_STAT d u) 16 16).getReg b := by
  have hcycle (p : Prop) [Decidable p] (t : State) (hp : p → s.cmpOwner d u < 24) :
      (if p then t.cycleTrigger d u (s.cmpOwner d u) else t).getReg b = t.getReg b := by
    split
    next h => exact t.getReg_cycleTrigger d u (hp h) hblk
    next => rfl
  rw [State.cmpDrive, State.getReg_ite, State.getReg_trigFireAll d u 16 htrig, ite_self, State.getReg_ite,
    State.getReg_ownerEvent _ _ _ _ hblk, ite_self, hcycle _ _ And.right]

theorem State.fld_cmpDrive_SEQ (s : State) (d : Die) (u : Fin 64) :
    (s.cmpDrive d u).fld (R.TB_CMP_STAT d u.val) 16 16 = (s.fld (R.TB_CMP_STAT d u.val) 16 16 + 1) % 65536 := by
  have hblk : 34 ≤ blkOf (R.TB_CMP_STAT d u.val) := by simp [blkOf_TB_CMP_STAT]
  rw [State.fld_def, s.getReg_cmpDrive d u hblk fun n _ => TB_CMP_STAT_ne_TB_TRIG_CFG d u n, State.getReg_wrapFld, if_pos rfl]
  exact bits_setBits_self _ 16 16 _ (by decide)

/-- Bits 0 to 15 of TB_CMP_STAT are beside SEQ. -/
theorem State.fld_SEQ_setFld (s : State) {st a lo n : Nat} (v : Nat) (h : lo + n ≤ 16) : (s.setFld a lo n v).fld st 16 16 = s.fld st 16 16 := by
  rw [State.fld_def, State.fld_def, State.getReg_setFld]
  split
  next hst => rw [hst, bits_setBits_ne _ _ _ _ _ _ (by decide) (by omega)]
  next => rfl

theorem State.fld_setArmed_SEQ (s : State) (d : Die) (u : Nat) (b : Bool) (a : Nat) : (s.setArmed d u b).fld a 16 16 = s.fld a 16 16 :=
  (State.fld_SEQ_setFld _ _ (by decide)).trans (s.fld_SEQ_setFld _ (by decide))

theorem State.fld_cmpAdvance_SEQ (s : State) (d : Die) (u spared : Nat) :
    (s.cmpAdvance d u spared).fld (R.TB_CMP_STAT d u) 16 16 = s.fld (R.TB_CMP_STAT d u) 16 16 := by
  have hlo : R.TB_CMP_STAT d u ≠ R.TB_CMP_TGT_LO d u := by simp only [R.TB_CMP_STAT, R.TB_CMP_TGT_LO]; omega
  have hhi : R.TB_CMP_STAT d u ≠ R.TB_CMP_TGT_HI d u := by simp only [R.TB_CMP_STAT, R.TB_CMP_TGT_HI]; omega
  rw [State.cmpAdvance, State.fld_def, State.setPair, State.getReg_setReg_ne _ _ hhi, State.getReg_setReg_ne _ _ hlo, ← State.fld_def,
    State.countFld, State.fld_SEQ_setFld _ _ (by decide)]

/-- A unit whose target is ahead by the signed distance does nothing. -/
theorem State.cmpEval_ahead (s : State) (d : Die) (u : Nat) (h : 0 < sdiff (s.cmpTgt d u) (s.lin d)) : s.cmpEval d u = s := by
  rw [State.cmpEval, if_neg (by omega)]

/-- A unit whose target is the linear count fires. -/
theorem State.fld_cmpEval_SEQ_of_due (s : State) (d : Die) (u : Fin 64) (harm : s.cmpArmed d u.val = true) (htgt : s.cmpTgt d u.val = s.lin d) :
    (s.cmpEval d u).fld (R.TB_CMP_STAT d u.val) 16 16 = (s.fld (R.TB_CMP_STAT d u.val) 16 16 + 1) % 65536 := by
  have hdue : s.cmpArmed d u.val = true ∧ sdiff (s.cmpTgt d u.val) (s.lin d) ≤ 0 ∧ sdiff (s.cmpTgt d u.val) (s.lin d) > -0x4000_0000_0000_0000 := by
    rw [htgt, sdiff_self]
    exact ⟨harm, by decide, by decide⟩
  rw [State.cmpEval, if_pos hdue]
  dsimp only
  split
  · rw [State.fld_setArmed_SEQ, s.fld_cmpDrive_SEQ]
  · rw [State.fld_cmpAdvance_SEQ, s.fld_cmpDrive_SEQ]

/-! ## A capture (R319) -/

/-- The two words of a pair hold its 64-bit value. -/
theorem State.getPair_setPair (s : State) {lo hi : Nat} (hne : lo ≠ hi) {v : Nat} (hv : v < 2 ^ 64) : (s.setPair lo hi v).getPair lo hi = v := by
  rw [State.getPair, State.setPair, State.getReg_setReg_ne _ _ hne, State.getReg_setReg, State.getReg_setReg, if_pos rfl, if_pos rfl, wd_toNat, wd_toNat]
  omega

theorem State.getPair_congr {s t : State} {lo hi : Nat} (hlo : t.getReg lo = s.getReg lo) (hhi : t.getReg hi = s.getReg hi) :
    t.getPair lo hi = s.getPair lo hi := by
  rw [State.getPair, State.getPair, hlo, hhi]

theorem State.getReg_withCapLvl (s : State) (x : Tab Bool) (b : Nat) : { s with capLvl := x }.getReg b = s.getReg b := (rfl)

theorem State.flag_withCapLvl (s : State) (x : Tab Bool) (b i : Nat) : { s with capLvl := x }.flag b i = s.flag b i := (rfl)

theorem State.lin_withCapLvl (s : State) (x : Tab Bool) (d : Die) : { s with capLvl := x }.lin d = s.lin d := (rfl)

/-- With FULL = 0 a capture writes, beside the pair, TB_CAP_STAT and perhaps an engine's CE_EVT. -/
theorem State.getReg_capture {s : State} {d : Die} {c : Fin 32} {rise : Bool} {b : Nat} (hblk : 34 ≤ blkOf b) (hstat : b ≠ R.TB_CAP_STAT d c.val)
    (hedge : (if rise then bit (s.getReg (R.TB_CAP_CFG d c.val)) 8 else bit (s.getReg (R.TB_CAP_CFG d c.val)) 9) = true)
    (hfull : s.flag (R.TB_CAP_STAT d c.val) 0 = false) :
    (s.capture d c rise).getReg b = (s.setPair (R.TB_CAP_LO d c.val) (R.TB_CAP_HI d c.val) (s.lin d)).getReg b := by
  simp only [State.capture, State.getReg_withCapLvl, State.flag_withCapLvl, State.lin_withCapLvl, hedge, hfull, Bool.not_true, Bool.false_eq_true, if_false,
    false_and, State.getReg_ite, State.getReg_ownerEvent _ _ _ _ hblk, ite_self, State.getReg_setFlag, State.getReg_wrapFld, if_neg hstat, State.setPair,
    State.getReg_setReg]

/-- A capture takes the linear count. -/
theorem State.getPair_capture {s : State} {d : Die} {c : Fin 32} {rise : Bool}
    (hedge : (if rise then bit (s.getReg (R.TB_CAP_CFG d c.val)) 8 else bit (s.getReg (R.TB_CAP_CFG d c.val)) 9) = true)
    (hfull : s.flag (R.TB_CAP_STAT d c.val) 0 = false) :
    (s.capture d c rise).getPair (R.TB_CAP_LO d c.val) (R.TB_CAP_HI d c.val) = s.lin d := by
  have hlo : blkOf (R.TB_CAP_LO d c.val) = 37 := by rw [R.TB_CAP_LO, Nat.add_assoc, blkOf_blk _ _ _ (by decide) (by omega)]
  have hhi : blkOf (R.TB_CAP_HI d c.val) = 37 := by rw [R.TB_CAP_HI, Nat.add_assoc, blkOf_blk _ _ _ (by decide) (by omega)]
  have hloStat : R.TB_CAP_LO d c.val ≠ R.TB_CAP_STAT d c.val := by simp only [R.TB_CAP_LO, R.TB_CAP_STAT]; omega
  have hhiStat : R.TB_CAP_HI d c.val ≠ R.TB_CAP_STAT d c.val := by simp only [R.TB_CAP_HI, R.TB_CAP_STAT]; omega
  have hloHi : R.TB_CAP_LO d c.val ≠ R.TB_CAP_HI d c.val := by simp only [R.TB_CAP_LO, R.TB_CAP_HI]; omega
  rw [State.getPair_congr (State.getReg_capture (by omega) hloStat hedge hfull) (State.getReg_capture (by omega) hhiStat hedge hfull),
    State.getPair_setPair _ hloHi (s.lin_lt d)]

/-- Settles O59: the count by its definition, its readers TB_NOW, capture and compare unit by what each takes, the distance by arithmetic modulo 2^64. -/
theorem linearCountAndItsDifferences : Obligations.LinearCountAndItsDifferences := by
  intro who d u c rise a s
  exact ⟨s.lin_eq d, fun x y => DevTime.lin_of_wrap, by decide, pairLoRead_TB_NOW,
    fun hchange hedge hfull => ⟨s.capture d c rise, congrArg _ (if_neg hchange), State.getPair_capture hedge hfull⟩,
    fun _ hahead => ⟨s.cmpEval d u, rfl, s.cmpEval_ahead d u hahead⟩,
    fun harm htgt => ⟨s.cmpEval d u, rfl, s.fld_cmpEval_SEQ_of_due d u harm htgt⟩,
    fun m n => ⟨sdiff_emod m n, sdiff_range m n⟩⟩

end Sys2Proof.Machine
end
